-- ==== Sys2Proof/Word.lean ====
section
/-! DEFINITION. The word types of the block and the small closed name sets that commands carry:
halves, access paths, roles (00_scope.md R7, R10; 16_management_configuration.md R455). -/
namespace Sys2Proof

/-- A register word (R10). -/
abbrev Word := BitVec 32

/-- One byte. -/
abbrev Byte := BitVec 8

/-- The 64 data bytes of a line; byte b is bits 8b+7 to 8b (Table SC-4, Line). -/
abbrev LineData := BitVec 512

/-- The two dies (Table SC-4). -/
inductive Half where
  | a
  | b
  deriving DecidableEq, Repr

/-- The far half. -/
def Half.other : Half → Half
  | .a => .b
  | .b => .a

/-- 0 for half A, 1 for half B, as every register and message numbers them. -/
def Half.idx : Half → Nat
  | .a => 0
  | .b => 1

/-- The five access paths (R455): the SPI management port and the management window of each head. -/
inductive Path where
  | spi
  | head (h : Fin 4)
  deriving DecidableEq, Repr

/-- The path numbers of R485: 0 SPI, 1 to 4 HEAD_0 to HEAD_3. -/
def Path.idx : Path → Nat
  | .spi => 0
  | .head h => h.val + 1

end Sys2Proof
end

