-- ==== Sys2Proof/Config.lean ====
section
/-! DEFINITION. What the spec leaves open and the model leaves FREE: every constant here is opaque (no body), so no proof
can see a value of it and a statement that mentions it holds for every value. Fixed figures of the spec stand beside
their uses; here stand only free values. -/
namespace Sys2Proof.Config

/-- A draw of the on-die random source (R235, R288, R456), one per value of the state's draw counter. FREE VALUE. -/
opaque randomDraw : Nat → BitVec 256

/-- What a DRAM symbol that nothing has written or filled in this run holds (R296). FREE VALUE. -/
opaque dramPowerUp : Nat → BitVec 8

/-- The DIE_REV field of MG_ID (`die` in the register table). FREE VALUE. -/
opaque dieRev : BitVec 4

/-- The layout of the timing table (Table MG-4 gives its place, not its bytes): the 15 parameters of Table DC-3 in the
order of that table, for a rate code and a density code. FREE VALUE. -/
opaque timingTable : (area : List (BitVec 8)) → (rate density : Nat) → List Nat

/-- The layout of the ramp profile (Table MG-4 gives its place, not its bytes): segments (P, S) and SLEW_MAX. FREE VALUE. -/
opaque rampProfile : (area : List (BitVec 8)) → List (Nat × Nat) × Nat

/-- The layout of the thermal table (Table MG-4 gives its place, not its bytes): the six (capacity, conductance) pairs of
Table TH-1, or none when the maker put no table there. FREE VALUE. -/
opaque thermalTable : (area : List (BitVec 8)) → Option (List (Nat × Nat))

/-- Which OTP field and which 32-bit word of it an OTP byte address names (Table MG-6 gives no addresses). FREE VALUE. -/
opaque otpWordOf : (addr : Nat) → Nat × Nat

/-- The byte a run of decoding leaves in a 64-byte line that is returned poisoned or not returned at all: the spec states
no data for a poisoned response (R177). FREE VALUE. -/
opaque poisonData : Nat → BitVec 512

/-- The expected time X of an accepted PPS edge that no sentence and no earlier X precede (R364 states none). FREE VALUE. -/
opaque openX : Nat → BitVec 64

/-- The rail current, 10 mA units, that an IMON reading in mV and the passport's IMON scale of the rail give (Table PS-7
states no formula for the scale). FREE VALUE. -/
opaque imonCurrent : (mv scale : Nat) → BitVec 16

/-- The fields of the identity zone behind the serial number that the device uses (Table MG-7): PCI subsystem vendor and subsystem ID, C_HOLD in µF,
and the 12 IMON scales. -/
structure Identity where
  vendor : BitVec 16
  subsystem : BitVec 16
  cHold : BitVec 16
  imon : List Nat
  deriving DecidableEq, Repr, Inhabited

/-- The fields of an identity zone of 448 bytes (Table MG-7 lists them without offsets after the serial number). FREE VALUE. -/
opaque identityZone : (zone : List (BitVec 8)) → Identity

/-- The mean of the valid sensors of a half that has none (R402, R404 state no value). FREE VALUE. -/
opaque noSensorMean : Nat → BitVec 16

/-- What a flash byte holds after a program or erase that failed or was cut off (R442, R461: the area then fails its check).
FREE VALUE. -/
opaque cutFlashByte : (draw addr : Nat) → BitVec 8

/-- v_min of R396 in mV for C_HOLD 0, which divides by zero. FREE VALUE. -/
opaque vMinWithoutHold : Nat → BitVec 16

/-- V_est of R392 in mV for C_HOLD 0, which divides by zero. FREE VALUE. -/
opaque vEstWithoutHold : Nat → BitVec 16

/-- The hottest sensor of a half that has no valid one, in a record (R393 states none). FREE VALUE. -/
opaque noSensorHottest : (half draw : Nat) → BitVec 16

/-- What the devices of a rank report and DDR5 defines of refresh management (R236): whether they ask for it, the initial and the maximum
threshold, and what a refresh and an RFM command take off a count. -/
structure RefreshMgmt where
  asks : Bool
  initial : Nat
  max : Nat
  byRef : Nat
  byRfm : Nat
  deriving DecidableEq, Repr, Inhabited

/-- Refresh management of a rank of a subchannel (R236 leaves it to mode register 58 and DDR5). FREE VALUE. -/
opaque refreshManagement : (sub rank : Nat) → RefreshMgmt

/-- A copy of the boot record with its sequence number and CRC-32: R441 gives what it holds, not its layout. FREE VALUE. -/
opaque bootCopy : (seq : Nat) → (nextBank : Bool) → List (BitVec 8)

/-- A copy of the device-health record, likewise; it holds per subchannel the marked devices, retirement and the hard repairs. FREE VALUE. -/
opaque healthCopy : (seq : Nat) → (subs : List (List Nat × Bool × List Nat)) → List (BitVec 8)

/-- Core cycles that the write of a copy of the boot or device-health record takes (R441 states none). FREE VALUE. -/
opaque recordCycles : Nat → Nat

/-- Core cycles until the firmware of a restart runs again (R437 and R438 give about 40 ms). FREE VALUE. -/
opaque firmwareCycles : Nat → Nat

/-- The install zone that an RF reader wrote while FIELD_N was asserted, when it wrote one (R444, R461). FREE VALUE. -/
opaque rfZone : Nat → Option (List (BitVec 8))

/-- A write of the device-health record in the image flash fails (R278). FREE VALUE. -/
opaque healthWriteFails : Nat → Bool

/-- The drift that an oscillator count of 0 gives: R268 divides by the count. FREE VALUE. -/
opaque openDrift : (base : Nat) → Int

/-- WR_DLY after a drift that takes it outside 0 to 2,047 (R261, R268 state no result). FREE VALUE. -/
opaque openDelay : Int → BitVec 11

/-- The burst of the DDR5 read training pattern that lane m returns as number i of a test (R264): a free value (log 222). -/
opaque readPattern (m i : Nat) : BitVec 64

end Sys2Proof.Config
end

