-- ==== Sys2Proof/Machine/Bits.lean ====
section
/-! DEFINITION. Bit fields, byte order, rounding and the two check codes of the spec (00_scope.md R7, R9; 02 R77; 12 R358). -/
namespace Sys2Proof.Machine

/-- Bits hi to lo of a number (R7). -/
def bits (v hi lo : Nat) : Nat := v / 2 ^ lo % 2 ^ (hi + 1 - lo)

/-- A register word with bits hi to lo replaced by v (taken modulo the field's size). -/
def setBits (w : Word) (hi lo v : Nat) : Word :=
  let n := 2 ^ (hi + 1 - lo)
  BitVec.ofNat 32 (w.toNat - bits w.toNat hi lo * 2 ^ lo + v % n * 2 ^ lo)

/-- `rnd(x, n)` of R9. -/
def rnd (x : Int) (n : Nat) : Int := if n = 0 then x else (x + 2 ^ (n - 1)) / 2 ^ n

/-- `sat(x, lo, hi)` of R9. -/
def sat (x lo hi : Int) : Int := if x < lo then lo else if hi < x then hi else x

/-- A saturating counter of w bits. -/
def satAdd (w a b : Nat) : Nat := min (a + b) (2 ^ w - 1)

/-- The two's complement reading of a w-bit number. -/
def toSigned (w v : Nat) : Int := if v % 2 ^ w < 2 ^ (w - 1) then (v % 2 ^ w : Nat) else (v % 2 ^ w : Nat) - (2 ^ w : Nat)

/-- The w-bit two's complement coding of an integer. -/
def ofSigned (w : Nat) (i : Int) : Nat := (i % (2 ^ w : Nat)).toNat

/-- Little-endian number of a byte list. -/
def leNat : List Byte → Nat
  | [] => 0
  | b :: bs => b.toNat + 256 * leNat bs

/-- The n little-endian bytes of a number. -/
def leBytes : Nat → Nat → List Byte
  | 0, _ => []
  | n + 1, v => BitVec.ofNat 8 v :: leBytes n (v / 256)

/-- Bytes off to off + n - 1 of a list (absent bytes are left out). -/
def slice (l : List α) (off n : Nat) : List α := (l.drop off).take n

/-- The little-endian field of n bytes at offset off. -/
def field (l : List Byte) (off n : Nat) : Nat := leNat (slice l off n)

/-- One bit of a CRC-32 (IEEE 802.3, reflected). -/
def crc32Bit (c : Nat) : Nat := if c % 2 = 1 then (c / 2) ^^^ 0xEDB88320 else c / 2

/-- One byte of a CRC-32. -/
def crc32Byte (c : Nat) (b : Byte) : Nat :=
  crc32Bit (crc32Bit (crc32Bit (crc32Bit (crc32Bit (crc32Bit (crc32Bit (crc32Bit (c ^^^ b.toNat))))))))

/-- CRC-32 with the IEEE 802.3 polynomial (R77, R97, R393, R441). -/
def crc32 (bs : List Byte) : Nat := bs.foldl crc32Byte 0xFFFFFFFF ^^^ 0xFFFFFFFF

/-- One bit of the CRC-8 of R358, most significant bit first. -/
def crc8Bit (c : Nat) : Nat := if 128 ≤ c then (c * 2 % 256) ^^^ 7 else c * 2

/-- One byte of the CRC-8. -/
def crc8Byte (c : Nat) (b : Byte) : Nat :=
  crc8Bit (crc8Bit (crc8Bit (crc8Bit (crc8Bit (crc8Bit (crc8Bit (crc8Bit (c ^^^ b.toNat))))))))

/-- CRC-8 with polynomial x^8 + x^2 + x + 1, initial value 0, not reflected (R358). -/
def crc8 (bs : List Byte) : Nat := bs.foldl crc8Byte 0

/-- Integer square root (R396), by bits from the top. -/
def isqrtFrom : Nat → Nat → Nat → Nat
  | 0, _, r => r
  | k + 1, v, r => isqrtFrom k v (if (r + 2 ^ k) * (r + 2 ^ k) ≤ v then r + 2 ^ k else r)

/-- Integer square root of numbers below 2^64. -/
def isqrt (v : Nat) : Nat := isqrtFrom 32 v 0

/-- Exclusive-or of the bits of a number below 2^64 (hash masks, R197). -/
def parity (v : Nat) : Bool := (List.range 64).foldl (fun p i => p != v.testBit i) false

/-- One number in a list of Bools as 1 or 0. -/
def b2n (b : Bool) : Nat := if b then 1 else 0

/-- Byte b of a line (R7, Table SC-4). -/
def lineByte (d : LineData) (b : Nat) : Byte := d.extractLsb' (8 * b) 8

/-- A line from its bytes, byte 0 first. -/
def lineOfBytes (bs : List Byte) : LineData := BitVec.ofNat 512 (leNat (bs.take 64))

/-- The 64 bytes of a line. -/
def bytesOfLine (d : LineData) : List Byte := leBytes 64 d.toNat

/-- One Galois step of the dither LFSR. -/
def lfsrStep (k : Nat) : Nat := if k % 2 = 1 then (k / 2) ^^^ 0x80200003 else k / 2

end Sys2Proof.Machine
end

