-- ==== Sys2Proof/Machine/Crypto.lean ====
section
/-! DEFINITION. The cryptographic functions that 16_management_configuration.md names: SHA-256 and HMAC-SHA-256 (R444, R456),
SHA-384 and ECDSA P-384 (R436), and the AES-256 key wrap of RFC 3394 (R443, R457), from their public standards. -/
namespace Sys2Proof.Machine

/-- Round constants of SHA-256. -/
def k256 : List (BitVec 32) :=
  [0x428A2F98, 0x71374491, 0xB5C0FBCF, 0xE9B5DBA5, 0x3956C25B, 0x59F111F1, 0x923F82A4, 0xAB1C5ED5, 0xD807AA98,
  0x12835B01, 0x243185BE, 0x550C7DC3, 0x72BE5D74, 0x80DEB1FE, 0x9BDC06A7, 0xC19BF174, 0xE49B69C1, 0xEFBE4786, 0xFC19DC6,
  0x240CA1CC, 0x2DE92C6F, 0x4A7484AA, 0x5CB0A9DC, 0x76F988DA, 0x983E5152, 0xA831C66D, 0xB00327C8, 0xBF597FC7,
  0xC6E00BF3, 0xD5A79147, 0x6CA6351, 0x14292967, 0x27B70A85, 0x2E1B2138, 0x4D2C6DFC, 0x53380D13, 0x650A7354, 0x766A0ABB,
  0x81C2C92E, 0x92722C85, 0xA2BFE8A1, 0xA81A664B, 0xC24B8B70, 0xC76C51A3, 0xD192E819, 0xD6990624, 0xF40E3585,
  0x106AA070, 0x19A4C116, 0x1E376C08] ++   [0x2748774C, 0x34B0BCB5, 0x391C0CB3, 0x4ED8AA4A, 0x5B9CCA4F, 0x682E6FF3,
  0x748F82EE, 0x78A5636F, 0x84C87814, 0x8CC70208, 0x90BEFFFA, 0xA4506CEB, 0xBEF9A3F7, 0xC67178F2]

/-- Initial values of SHA-256. -/
def h256 : List (BitVec 32) :=
  [0x6A09E667, 0xBB67AE85, 0x3C6EF372, 0xA54FF53A, 0x510E527F, 0x9B05688C, 0x1F83D9AB, 0x5BE0CD19]

/-- Round constants of SHA-384. -/
def k512 : List (BitVec 64) :=
  [0x428A2F98D728AE22, 0x7137449123EF65CD, 0xB5C0FBCFEC4D3B2F, 0xE9B5DBA58189DBBC, 0x3956C25BF348B538,
  0x59F111F1B605D019, 0x923F82A4AF194F9B, 0xAB1C5ED5DA6D8118, 0xD807AA98A3030242, 0x12835B0145706FBE,
  0x243185BE4EE4B28C, 0x550C7DC3D5FFB4E2, 0x72BE5D74F27B896F, 0x80DEB1FE3B1696B1, 0x9BDC06A725C71235,
  0xC19BF174CF692694, 0xE49B69C19EF14AD2, 0xEFBE4786384F25E3, 0xFC19DC68B8CD5B5, 0x240CA1CC77AC9C65, 0x2DE92C6F592B0275,
  0x4A7484AA6EA6E483, 0x5CB0A9DCBD41FBD4, 0x76F988DA831153B5, 0x983E5152EE66DFAB, 0xA831C66D2DB43210,
  0xB00327C898FB213F, 0xBF597FC7BEEF0EE4, 0xC6E00BF33DA88FC2, 0xD5A79147930AA725, 0x6CA6351E003826F, 0x142929670A0E6E70,
  0x27B70A8546D22FFC, 0x2E1B21385C26C926, 0x4D2C6DFC5AC42AED, 0x53380D139D95B3DF, 0x650A73548BAF63DE,
  0x766A0ABB3C77B2A8, 0x81C2C92E47EDAEE6, 0x92722C851482353B] ++   [0xA2BFE8A14CF10364, 0xA81A664BBC423001,
  0xC24B8B70D0F89791, 0xC76C51A30654BE30, 0xD192E819D6EF5218, 0xD69906245565A910, 0xF40E35855771202A,
  0x106AA07032BBD1B8, 0x19A4C116B8D2D0C8, 0x1E376C085141AB53, 0x2748774CDF8EEB99, 0x34B0BCB5E19B48A8,
  0x391C0CB3C5C95A63, 0x4ED8AA4AE3418ACB, 0x5B9CCA4F7763E373, 0x682E6FF3D6B2B8A3, 0x748F82EE5DEFB2FC,
  0x78A5636F43172F60, 0x84C87814A1F0AB72, 0x8CC702081A6439EC, 0x90BEFFFA23631E28, 0xA4506CEBDE82BDE9,
  0xBEF9A3F7B2C67915, 0xC67178F2E372532B, 0xCA273ECEEA26619C, 0xD186B8C721C0C207, 0xEADA7DD6CDE0EB1E,
  0xF57D4F7FEE6ED178, 0x6F067AA72176FBA, 0xA637DC5A2C898A6, 0x113F9804BEF90DAE, 0x1B710B35131C471B, 0x28DB77F523047D84,
  0x32CAAB7B40C72493, 0x3C9EBE0A15C9BEBC, 0x431D67C49C100D4C, 0x4CC5D4BECB3E42B6, 0x597F299CFC657E2A,
  0x5FCB6FAB3AD6FAEC, 0x6C44198C4A475817]

/-- Initial values of SHA-384. -/
def h384 : List (BitVec 64) :=
  [0xCBBB9D5DC1059ED8, 0x629A292A367CD507, 0x9159015A3070DD17, 0x152FECD8F70E5939, 0x67332667FFC00B31,
  0x8EB44A8768581511, 0xDB0C2E0D64F98FA7, 0x47B5481DBEFA4FA4]

/-- The AES substitution table. -/
def aesSbox : List Nat :=
  [0x63, 0x7C, 0x77, 0x7B, 0xF2, 0x6B, 0x6F, 0xC5, 0x30, 0x1, 0x67, 0x2B, 0xFE, 0xD7, 0xAB, 0x76, 0xCA, 0x82, 0xC9,
  0x7D, 0xFA, 0x59, 0x47, 0xF0, 0xAD, 0xD4, 0xA2, 0xAF, 0x9C, 0xA4, 0x72, 0xC0, 0xB7, 0xFD, 0x93, 0x26, 0x36, 0x3F,
  0xF7, 0xCC, 0x34, 0xA5, 0xE5, 0xF1, 0x71, 0xD8, 0x31, 0x15, 0x4, 0xC7, 0x23, 0xC3, 0x18, 0x96, 0x5, 0x9A, 0x7, 0x12,
  0x80, 0xE2, 0xEB, 0x27, 0xB2, 0x75] ++   [0x9, 0x83, 0x2C, 0x1A, 0x1B, 0x6E, 0x5A, 0xA0, 0x52, 0x3B, 0xD6, 0xB3, 0x29,
  0xE3, 0x2F, 0x84, 0x53, 0xD1, 0x0, 0xED, 0x20, 0xFC, 0xB1, 0x5B, 0x6A, 0xCB, 0xBE, 0x39, 0x4A, 0x4C, 0x58, 0xCF, 0xD0,
  0xEF, 0xAA, 0xFB, 0x43, 0x4D, 0x33, 0x85, 0x45, 0xF9, 0x2, 0x7F, 0x50, 0x3C, 0x9F, 0xA8, 0x51, 0xA3, 0x40, 0x8F, 0x92,
  0x9D, 0x38, 0xF5, 0xBC, 0xB6, 0xDA, 0x21, 0x10, 0xFF, 0xF3, 0xD2] ++   [0xCD, 0xC, 0x13, 0xEC, 0x5F, 0x97, 0x44, 0x17,
  0xC4, 0xA7, 0x7E, 0x3D, 0x64, 0x5D, 0x19, 0x73, 0x60, 0x81, 0x4F, 0xDC, 0x22, 0x2A, 0x90, 0x88, 0x46, 0xEE, 0xB8,
  0x14, 0xDE, 0x5E, 0xB, 0xDB, 0xE0, 0x32, 0x3A, 0xA, 0x49, 0x6, 0x24, 0x5C, 0xC2, 0xD3, 0xAC, 0x62, 0x91, 0x95, 0xE4,
  0x79, 0xE7, 0xC8, 0x37, 0x6D, 0x8D, 0xD5, 0x4E, 0xA9, 0x6C, 0x56, 0xF4, 0xEA, 0x65, 0x7A, 0xAE, 0x8] ++   [0xBA, 0x78,
  0x25, 0x2E, 0x1C, 0xA6, 0xB4, 0xC6, 0xE8, 0xDD, 0x74, 0x1F, 0x4B, 0xBD, 0x8B, 0x8A, 0x70, 0x3E, 0xB5, 0x66, 0x48, 0x3,
  0xF6, 0xE, 0x61, 0x35, 0x57, 0xB9, 0x86, 0xC1, 0x1D, 0x9E, 0xE1, 0xF8, 0x98, 0x11, 0x69, 0xD9, 0x8E, 0x94, 0x9B, 0x1E,
  0x87, 0xE9, 0xCE, 0x55, 0x28, 0xDF, 0x8C, 0xA1, 0x89, 0xD, 0xBF, 0xE6, 0x42, 0x68, 0x41, 0x99, 0x2D, 0xF, 0xB0, 0x54,
  0xBB, 0x16]

/-- The eight working words of a SHA-2 compression. -/
structure Sha (w : Nat) where
  a : BitVec w
  b : BitVec w
  c : BitVec w
  d : BitVec w
  e : BitVec w
  f : BitVec w
  g : BitVec w
  h : BitVec w
  deriving DecidableEq, Repr

/-- Word-wise sum. -/
def Sha.add (x y : Sha w) : Sha w := ⟨x.a + y.a, x.b + y.b, x.c + y.c, x.d + y.d, x.e + y.e, x.f + y.f, x.g + y.g, x.h + y.h⟩

/-- Working words from a list of eight. -/
def Sha.ofList (l : List (BitVec w)) : Sha w :=
  ⟨l.getD 0 0, l.getD 1 0, l.getD 2 0, l.getD 3 0, l.getD 4 0, l.getD 5 0, l.getD 6 0, l.getD 7 0⟩

/-- The words as a list. -/
def Sha.toList (x : Sha w) : List (BitVec w) := [x.a, x.b, x.c, x.d, x.e, x.f, x.g, x.h]

/-- Three rotations combined, the third a shift when `sh`. -/
def rot3 (x : BitVec w) (i j k : Nat) (sh : Bool) : BitVec w :=
  x.rotateRight i ^^^ x.rotateRight j ^^^ (if sh then x >>> k else x.rotateRight k)

/-- Rotation amounts of SHA-256 (w = 32) and SHA-384 (w = 64): Σ0, Σ1, σ0, σ1. -/
def shaRot (w : Nat) : (Nat × Nat × Nat) × (Nat × Nat × Nat) × (Nat × Nat × Nat) × (Nat × Nat × Nat) :=
  if w = 32 then ((2, 13, 22), (6, 11, 25), (7, 18, 3), (17, 19, 10))
  else ((28, 34, 39), (14, 18, 41), (1, 8, 7), (19, 61, 6))

/-- One round with message word m and constant k. -/
def Sha.round (x : Sha w) (m k : BitVec w) : Sha w :=
  let r := shaRot w
  let t1 := x.h + rot3 x.e r.2.1.1 r.2.1.2.1 r.2.1.2.2 false + ((x.e &&& x.f) ^^^ (~~~x.e &&& x.g)) + k + m
  let t2 := rot3 x.a r.1.1 r.1.2.1 r.1.2.2 false + ((x.a &&& x.b) ^^^ (x.a &&& x.c) ^^^ (x.b &&& x.c))
  ⟨t1 + t2, x.a, x.b, x.c, x.d + t1, x.e, x.f, x.g⟩

/-- The next message word from the last 16, newest last. -/
def shaNext (l : List (BitVec w)) : BitVec w :=
  let r := (shaRot w).2.2
  rot3 (l.getD 14 0) r.2.1 r.2.2.1 r.2.2.2 true + l.getD 9 0 + rot3 (l.getD 1 0) r.1.1 r.1.2.1 r.1.2.2 true + l.getD 0 0

/-- The rounds over the constants; `win` holds the present 16 message words. -/
def shaRounds : List (BitVec w) → List (BitVec w) → Sha w → Sha w
  | [], _, x => x
  | k :: ks, win, x => shaRounds ks (win.drop 1 ++ [shaNext win]) (x.round (win.getD 0 0) k)

/-- Big-endian number of a byte list. -/
def beNat (l : List Byte) : Nat := l.foldl (fun n b => n * 256 + b.toNat) 0

/-- n big-endian bytes of a number. -/
def beBytes (n v : Nat) : List Byte := (leBytes n v).reverse

/-- A list cut into pieces of n (fuel counts pieces). -/
def chunksOf (n : Nat) : Nat → List α → List (List α)
  | 0, _ => []
  | f + 1, l => if l.isEmpty then [] else l.take n :: chunksOf n f (l.drop n)

/-- A SHA-2 digest: block of 16 words of w bits. -/
def sha2 (w : Nat) (ks hs : List (BitVec w)) (msg : List Byte) : List (BitVec w) :=
  let bl := w * 2
  let lenB := w / 4
  let len := msg.length
  let pad := (bl - (len + 1 + lenB) % bl) % bl
  let m := msg ++ 0x80 :: List.replicate pad 0 ++ beBytes lenB (8 * len)
  let out := (chunksOf bl (m.length / bl + 1) m).foldl (fun x blk =>
    let win := (chunksOf (w / 8) 16 blk).map fun b => BitVec.ofNat w (beNat b)
    x.add (shaRounds ks win x)) (Sha.ofList hs)
  out.toList

/-- SHA-256 (32 bytes). -/
def sha256 (msg : List Byte) : List Byte := ((sha2 32 k256 h256 msg).map fun x => beBytes 4 x.toNat).flatten

/-- SHA-384 (48 bytes). -/
def sha384 (msg : List Byte) : List Byte := (((sha2 64 k512 h384 msg).take 6).map fun x => beBytes 8 x.toNat).flatten

/-- HMAC-SHA-256 under a key of 32 bytes. -/
def hmac256 (key msg : List Byte) : List Byte :=
  let k := key ++ List.replicate (64 - key.length) 0
  sha256 (k.map (· ^^^ 0x5C) ++ sha256 (k.map (· ^^^ 0x36) ++ msg))

/-! ECDSA over P-384 -/

/-- The field prime of P-384. -/
def p384 : Nat := 2 ^ 384 - 2 ^ 128 - 2 ^ 96 + 2 ^ 32 - 1
/-- The group order of P-384. -/
def n384 : Nat := 0xFFFFFFFFFFFFFFFFFFFFFFFFFFFFFFFFFFFFFFFFFFFFFFFFC7634D81F4372DDF581A0DB248B0A77AECEC196ACCC52973
/-- The curve constant b of P-384. -/
def b384 : Nat := 0xB3312FA7E23EE7E4988E056BE3F82D19181D9C6EFE8141120314088F5013875AC656398D8A2ED19D2A85C8EDD3EC2AEF
/-- The base point of P-384. -/
def g384 : Nat × Nat :=
  (0xAA87CA22BE8B05378EB1C71EF320AD746E1D3B628BA79B9859F741E082542A385502F25DBF55296C3A545E3872760AB7,
   0x3617DE4A96262C6F5D9E98BF9292DC29F8F41DBD289A147CE9DA3113B5F0B8C00A60B1CE1D7E819D7A431D7C90EA0E5F)

/-- Power modulo m, by the bits of the exponent (k bits). -/
def powMod (m : Nat) : Nat → Nat → Nat → Nat
  | 0, _, _ => 1
  | k + 1, b, e => powMod m k (b * b % m) (e / 2) * (if e % 2 = 1 then b else 1) % m

/-- Inverse modulo a 384-bit prime. -/
def invMod (m a : Nat) : Nat := powMod m 384 (a % m) (m - 2)

/-- Sum of two points; none is the point at infinity. -/
def ecAdd : Option (Nat × Nat) → Option (Nat × Nat) → Option (Nat × Nat)
  | none, q => q
  | p, none => p
  | some (x1, y1), some (x2, y2) =>
    if x1 = x2 ∧ (y1 + y2) % p384 = 0 then none
    else
      let l :=
        if x1 = x2 then (3 * x1 * x1 + p384 - 3) * invMod p384 (2 * y1) % p384
        else (y2 + p384 - y1) * invMod p384 (x2 + p384 - x1) % p384
      let x := (l * l + 2 * p384 - x1 - x2) % p384
      some (x, (l * (x1 + p384 - x) + p384 - y1) % p384)

/-- k times a point, by the bits of k (n bits). -/
def ecMul : Nat → Nat → Option (Nat × Nat) → Option (Nat × Nat)
  | 0, _, _ => none
  | n + 1, k, p => ecAdd (if k % 2 = 1 then p else none) (ecMul n (k / 2) (ecAdd p p))

/-- Verifies an ECDSA P-384 signature over a message hashed by SHA-384 (R436). -/
def ecdsaVerify (pub : Nat × Nat) (r s : Nat) (msg : List Byte) : Bool :=
  let onCurve := pub.1 < p384 && pub.2 < p384 && pub.2 * pub.2 % p384 == (pub.1 ^ 3 + (p384 - 3) * pub.1 + b384) % p384
  let z := beNat (sha384 msg)
  let w := invMod n384 s
  let q := ecAdd (ecMul 384 (z * w % n384) (some g384)) (ecMul 384 (r * w % n384) (some pub))
  onCurve && 0 < r && r < n384 && 0 < s && s < n384 && (q.any fun p => p.1 % n384 == r)

/-! AES-256 and the key wrap of RFC 3394 -/

/-- Doubling in the AES field. -/
def aesTwice (a : Nat) : Nat := if a < 128 then 2 * a else (2 * a - 256) ^^^ 0x1B

/-- Product in the AES field by a small constant (4 bits). -/
def aesMul (c a : Nat) : Nat :=
  let a2 := aesTwice a
  let a4 := aesTwice a2
  let a8 := aesTwice a4
  (if c.testBit 0 then a else 0) ^^^ (if c.testBit 1 then a2 else 0) ^^^ (if c.testBit 2 then a4 else 0)
    ^^^ (if c.testBit 3 then a8 else 0)

/-- Substitution of one byte. -/
def aesSub (a : Nat) : Nat := aesSbox.getD a 0
/-- Inverse substitution of one byte. -/
def aesInvSub (a : Nat) : Nat := aesSbox.idxOf a

/-- The 60 words of the AES-256 key schedule, each 4 bytes; `i` is the next index. -/
def aesExpand : Nat → Nat → Nat → List (List Nat) → List (List Nat)
  | 0, _, _, ws => ws
  | f + 1, i, rc, ws =>
    let t := ws.getD (i - 1) []
    let t' :=
      if i % 8 = 0 then
        match (t.drop 1 ++ t.take 1).map aesSub with
        | a :: r => (a ^^^ rc) :: r
        | [] => []
      else if i % 8 = 4 then t.map aesSub
      else t
    aesExpand f (i + 1) (if i % 8 = 0 then aesTwice rc else rc) (ws ++ [List.zipWith (· ^^^ ·) (ws.getD (i - 8) []) t'])

/-- Round keys of 16 bytes from a key of 32. -/
def aesKeys (key : List Nat) : List (List Nat) :=
  (chunksOf 4 15 (aesExpand 52 8 1 (chunksOf 4 8 key))).map List.flatten

/-- A constant circulant applied to one column. -/
def aesMix (m c : List Nat) : List Nat :=
  (List.range 4).map fun r => (List.range 4).foldl (fun x k => x ^^^ aesMul (m.getD ((k + 4 - r) % 4) 0) (c.getD k 0)) 0

/-- MixColumns with the given first row. -/
def aesMixAll (m b : List Nat) : List Nat := ((chunksOf 4 4 b).map (aesMix m)).flatten

/-- ShiftRows; `d` is 1 forward, 3 inverse. -/
def aesShift (d : Nat) (b : List Nat) : List Nat :=
  (List.range 16).map fun i => b.getD ((i + 4 * d * (i % 4)) % 16) 0

/-- Encrypts one block. -/
def aesEnc (ks : List (List Nat)) (b : List Nat) : List Nat :=
  let x (a b : List Nat) := List.zipWith (· ^^^ ·) a b
  let b := (List.range 13).foldl (fun b r => x (aesMixAll [2, 3, 1, 1] (aesShift 1 (b.map aesSub))) (ks.getD (r + 1) []))
    (x b (ks.getD 0 []))
  x (aesShift 1 (b.map aesSub)) (ks.getD 14 [])

/-- Decrypts one block. -/
def aesDec (ks : List (List Nat)) (b : List Nat) : List Nat :=
  let x (a b : List Nat) := List.zipWith (· ^^^ ·) a b
  let b := (aesShift 3 (x b (ks.getD 14 []))).map aesInvSub
  let b := (List.range 13).foldl (fun b r =>
    (aesShift 3 (aesMixAll [14, 11, 13, 9] (x b (ks.getD (13 - r) [])))).map aesInvSub) b
  x b (ks.getD 0 [])

/-- The six passes of the key wrap over four semiblocks. -/
def wrapSteps (ks : List (List Nat)) (a : List Nat) (r : List (List Nat)) : List Nat × List (List Nat) :=
  (List.range 24).foldl (fun st t =>
    let i := t % 4
    let b := aesEnc ks (st.1 ++ st.2.getD i [])
    (List.zipWith (· ^^^ ·) (b.take 8) ((beBytes 8 (t + 1)).map (·.toNat)), st.2.set i (b.drop 8))) (a, r)

/-- Wraps 32 bytes under a key of 32 (40 bytes). -/
def keyWrap (kek key : List Byte) : List Byte :=
  let st := wrapSteps (aesKeys (kek.map (·.toNat))) (List.replicate 8 0xA6) (chunksOf 8 4 (key.map (·.toNat)))
  (st.1 ++ st.2.flatten).map (BitVec.ofNat 8 ·)

/-- Unwraps 40 bytes; none when the check fails. -/
def keyUnwrap (kek c : List Byte) : Option (List Byte) :=
  let ks := aesKeys (kek.map (·.toNat))
  let c := c.map (·.toNat)
  let st := (List.range 24).foldl (fun (st : List Nat × List (List Nat)) k =>
    let t := 24 - k
    let i := (t - 1) % 4
    let b := aesDec ks (List.zipWith (· ^^^ ·) st.1 ((beBytes 8 t).map (·.toNat)) ++ st.2.getD i [])
    (b.take 8, st.2.set i (b.drop 8))) (c.take 8, chunksOf 8 4 (c.drop 8))
  if st.1 == List.replicate 8 0xA6 && c.length == 40 then some (st.2.flatten.map (BitVec.ofNat 8 ·)) else none

end Sys2Proof.Machine
end

