-- ==== Sys2Proof/Machine/Gf.lean ====
section
/-! DEFINITION. The Reed–Solomon code of a line: field, encoder, errors-and-erasures decoder and the acceptance limits
(09_memory_integrity.md R286 to R291, Table MI-1). Symbols are numbers below 256; symbol s stands at x^(s+16) for s < 64 and at
x^(s−64) above. -/
namespace Sys2Proof.Machine

/-- Multiplication in GF(2^8) modulo x^8 + x^4 + x^3 + x^2 + 1 (R287), by shift and add over n bits of b. -/
def gfMulGo : Nat → Nat → Nat → Nat → Nat
  | 0, _, _, acc => acc
  | n + 1, a, b, acc =>
    gfMulGo n (if 128 ≤ a then (a * 2 % 256) ^^^ 0x1D else a * 2) (b / 2) (if b % 2 = 1 then acc ^^^ a else acc)

/-- Multiplication in GF(2^8). -/
def gfMul (a b : Nat) : Nat := gfMulGo 8 a b 0

/-- a to the power n. -/
def gfPow (a : Nat) : Nat → Nat
  | 0 => 1
  | n + 1 => gfMul a (gfPow a n)

/-- The inverse: a^254. -/
def gfInv (a : Nat) : Nat := gfPow a 254

/-- Value of a polynomial, lowest coefficient first. -/
def gfEval (p : List Nat) (x : Nat) : Nat := p.foldr (fun c acc => c ^^^ gfMul acc x) 0

/-- Product with (1 + r·x), lowest coefficient first. -/
def gfTimes (p : List Nat) (r : Nat) : List Nat := List.zipWith (· ^^^ ·) (p ++ [0]) (0 :: p.map (gfMul r))

/-- The generator's coefficients of x^0 to x^15 (R287): the product of (x − α^i), i from 0 to 15; the top one is 1. -/
def genPoly : List Nat :=
  ((List.range 16).foldl (fun p i => List.zipWith (· ^^^ ·) ((p.map (gfMul (gfPow 2 i))) ++ [0]) (0 :: p)) [1]).take 16

/-- Degree at which symbol s stands (R287). -/
def symDeg (s : Nat) : Nat := if s < 64 then s + 16 else s - 64

/-- Locator of symbol s. -/
def symLoc (s : Nat) : Nat := gfPow 2 (symDeg s)

/-- One data symbol through the remainder register. -/
def rsShift (g rem : List Nat) (d : Nat) : List Nat :=
  let fb := d ^^^ rem.getD 15 0
  List.zipWith (fun a c => a ^^^ gfMul fb c) (0 :: rem.take 15) g

/-- The 16 check coefficients of 64 data symbols (R287). -/
def rsCheck (data : List Nat) : List Nat :=
  let g := genPoly
  data.reverse.foldl (rsShift g) (List.replicate 16 0)

/-- Data symbols of the 64 bytes of a line (R286, R287). -/
def lineSymbols (b : List Byte) : List Nat :=
  (List.range 64).map fun s =>
    let l := s / 8
    let p := s % 8
    let nib := fun (i : Nat) => (b.getD i 0).toNat / 2 ^ (4 * (l % 2)) % 16
    nib (8 * p + 4 + l / 2) * 16 + nib (8 * p + l / 2)

/-- The bytes of 64 data symbols: the inverse of `lineSymbols`. -/
def symbolBytes (sym : List Nat) : List Byte :=
  (List.range 64).map fun i =>
    let p := i / 8
    let hi := i % 8 / 4
    let k := i % 4
    let nib := fun (l : Nat) => sym.getD (8 * l + p) 0 / 2 ^ (4 * hi) % 16
    BitVec.ofNat 8 (nib (2 * k) + nib (2 * k + 1) * 16)

/-- PMASK of R287. -/
def pmask (s : Nat) : Nat := 0x9E * (s + 1) % 256

/-- Byte k of a seal. -/
def sealByte (sealKey : BitVec 128) (k : Nat) : Nat := sealKey.toNat / 2 ^ (8 * k) % 256

/-- `encode` of R287. -/
def rsEncode (line : List Byte) (sealKey : BitVec 128) (poison : Bool) : List Nat :=
  let data := if poison then List.replicate 64 0 else lineSymbols line
  let sym := data ++ (rsCheck data).mapIdx fun k c => c ^^^ sealByte sealKey k
  if poison then sym.mapIdx fun s v => v ^^^ pmask s else sym

/-- Syndromes S_0 to S_15 of a word of 80 symbols, seal removed. -/
def rsSyndromes (w : List Nat) : List Nat :=
  let coeffs := w.drop 64 ++ w.take 64
  (List.range 16).map fun j => gfEval coeffs (gfPow 2 j)

/-- Product of two polynomials modulo x^n. -/
def gfProd (n : Nat) (p q : List Nat) : List Nat :=
  (List.range n).map fun k => (List.range (k + 1)).foldl (fun acc i => acc ^^^ gfMul (p.getD i 0) (q.getD (k - i) 0)) 0

/-- Error values at given positions that explain the syndromes, when there are any (Forney's formula, then a check of all 16
syndromes). -/
def rsValues (synd : List Nat) (pos : List Nat) : Option (List (Nat × Nat)) :=
  let locs := pos.map symLoc
  let omega := gfProd 16 synd (locs.foldl gfTimes [1])
  let vals := pos.map fun s =>
    let x := symLoc s
    let xi := gfInv x
    let den := locs.foldl (fun d y => if y = x then d else gfMul d (1 ^^^ gfMul y xi)) 1
    (s, gfMul (gfEval omega xi) (gfInv den))
  let back := (List.range 16).map fun j => vals.foldl (fun acc v => acc ^^^ gfMul v.2 (gfPow (symLoc v.1) j)) 0
  if back = synd then some vals else none

/-- State of the Berlekamp–Massey recursion: connection polynomial, previous one, its length, shift and discrepancy. -/
structure Bm where
  c : List Nat
  b : List Nat
  l : Nat
  m : Nat
  d : Nat
  deriving DecidableEq, Repr

/-- One step of Berlekamp–Massey at syndrome n of t. -/
def Bm.step (t : List Nat) (s : Bm) (n : Nat) : Bm :=
  let d := (List.range (s.l + 1)).foldl (fun acc i => acc ^^^ gfMul (s.c.getD i 0) (t.getD (n - i) 0)) 0
  if d = 0 then { s with m := s.m + 1 }
  else
    let k := gfMul d (gfInv s.d)
    let shifted := List.replicate s.m 0 ++ s.b.map (gfMul k)
    let len := max s.c.length shifted.length
    let c := (List.range len).map fun i => s.c.getD i 0 ^^^ shifted.getD i 0
    if 2 * s.l ≤ n then ⟨c, s.c, n + 1 - s.l, 1, d⟩ else { s with c := c, m := s.m + 1 }

/-- Positions outside the erased symbols at which errors stand, by Forney syndromes and Berlekamp–Massey; none when no pattern
of at most `vmax` errors fits. -/
def rsErrors (synd erased : List Nat) (vmax : Nat) : Option (List Nat) :=
  let t := (gfProd 16 synd ((erased.map symLoc).foldl gfTimes [1])).drop erased.length
  let r := (List.range t.length).foldl (Bm.step t) ⟨[1], [1], 0, 1, 1⟩
  let roots := (List.range 80).filter fun s => !erased.contains s && gfEval r.c (gfInv (symLoc s)) = 0
  if r.l ≤ vmax && roots.length = r.l then some roots else none

/-- The acceptance row of Table MI-1 that a line falls under. -/
inductive DecodeRow where
  /-- Erasures of two devices: no candidate is decoded. -/
  | two
  /-- One erased lane, at most v errors in any devices. -/
  | erased (lane v : Nat)
  /-- No erasure, at most v errors, all in one device. -/
  | plain (v : Nat)
  deriving DecidableEq, Repr

/-- Symbols of a lane. -/
def laneSyms (l : Nat) : List Nat := (List.range 8).map (8 * l + ·)

/-- Changes of symbols that make a word a codeword within a row's limits, and the error count v. -/
def rsPattern (row : DecodeRow) (w : List Nat) : Option (List (Nat × Nat) × Nat) :=
  let synd := rsSyndromes w
  match row with
  | .two => none
  | .plain vmax =>
    if synd.all (· = 0) then some ([], 0)
    else
      (List.range 10).findSome? fun l =>
        match rsValues synd (laneSyms l) with
        | none => none
        | some vals =>
          let e := vals.filter (·.2 ≠ 0)
          if e.length ≤ vmax then some (e, e.length) else none
  | .erased lane vmax =>
    match rsErrors synd (laneSyms lane) vmax with
    | none => none
    | some pos => (rsValues synd (laneSyms lane ++ pos)).map fun vals => (vals.filter (·.2 ≠ 0), pos.length)

/-- The outcome of a line (R290). -/
inductive LineOut where
  | clean (d : LineData)
  /-- Data, symbols corrected, lanes that held an error other than an erased one, and whether an erased lane was filled. -/
  | corrected (d : LineData) (symbols : Nat) (lanes : List Nat)
  | poison
  | uncorrectable
  deriving DecidableEq, Repr

/-- XORs a list of symbol changes into a word. -/
def symXor (w : List Nat) (e : List (Nat × Nat)) : List Nat :=
  w.mapIdx fun s v => e.foldl (fun v x => if x.1 = s then v ^^^ x.2 else v) v

/-- Decodes 80 received symbols under a seal (R289, R290). -/
def rsDecode (row : DecodeRow) (sealKey : BitVec 128) (word : List Nat) : LineOut :=
  let w := word.mapIdx fun s v => if s < 64 then v else v ^^^ sealByte sealKey (s - 64)
  let p1 := rsPattern row w
  let p2 := rsPattern row (w.mapIdx fun s v => v ^^^ pmask s)
  match p1, p2 with
  | some (e, v), none =>
    let d := lineOfBytes (symbolBytes (symXor w e))
    let lane := match row with | .erased l _ => l | _ => 10
    if v = 0 then .clean d else .corrected d v (((e.map (·.1 / 8)).filter (· ≠ lane)).eraseDups)
  | none, some _ => .poison
  | _, _ => .uncorrectable

end Sys2Proof.Machine
end

