-- ==== Sys2Proof/Machine/Store.lean ====
section
/-! DEFINITION. Sparse storage: a list of (key, value) pairs in one canonical form (keys strictly rising, no pair equal to what
an unlisted key reads as), so that equal contents are equal data. Registers, DRAM symbols, flash bytes and tables use it. -/
namespace Sys2Proof.Machine

/-- Pairs of a key and a value. -/
abbrev Sparse (α : Type) := List (Nat × α)

/-- The value listed at a key. -/
def Sparse.find (m : Sparse α) (k : Nat) : Option α :=
  match m with
  | [] => none
  | (j, v) :: t => if j = k then some v else if k < j then none else Sparse.find t k

/-- Removes a key. -/
def Sparse.del (m : Sparse α) (k : Nat) : Sparse α :=
  match m with
  | [] => []
  | (j, v) :: t => if j = k then t else if k < j then (j, v) :: t else (j, v) :: Sparse.del t k

/-- Lists a key with a value. -/
def Sparse.ins (m : Sparse α) (k : Nat) (x : α) : Sparse α :=
  match m with
  | [] => [(k, x)]
  | (j, v) :: t => if j = k then (k, x) :: t else if k < j then (k, x) :: (j, v) :: t else (j, v) :: Sparse.ins t k x

/-- Reads a key; an unlisted key reads as `d k`. -/
def Sparse.get (d : Nat → α) (m : Sparse α) (k : Nat) : α := (Sparse.find m k).getD (d k)

/-- Writes a key; the value an unlisted key reads as is stored by listing nothing. -/
def Sparse.put [DecidableEq α] (d : Nat → α) (m : Sparse α) (k : Nat) (x : α) : Sparse α :=
  if x = d k then Sparse.del m k else Sparse.ins m k x

/-- Reads a key of a store whose unlisted keys hold no value. -/
def Sparse.get? (m : Sparse α) (k : Nat) : Option α := Sparse.find m k

/-- Removes every key in a range. -/
def Sparse.delRange (m : Sparse α) (lo n : Nat) : Sparse α := m.filter (fun p => p.1 < lo || lo + n ≤ p.1)

/-- Keys strictly rising. -/
def Sparse.rising : Sparse α → Bool
  | [] => true
  | [_] => true
  | p :: q :: t => p.1 < q.1 && Sparse.rising (q :: t)

/-- The canonical form: keys strictly rising, no pair equal to what an unlisted key reads as. -/
def Sparse.wf [DecidableEq α] (d : Nat → α) (m : Sparse α) : Bool :=
  Sparse.rising m && m.all (fun p => decide (p.2 ≠ d p.1))

end Sys2Proof.Machine
end

