-- ==== Sys2Proof/Machine/Twill.lean ====
section
/-! DEFINITION. The Twill block format bit for bit: header, residual codes, decoder and encoder (04_twill_codec.md R142 to R151).
A bitstream is a number, bit n of the stream being bit n of the number; a block's pixels are three lists of 128 values. -/
namespace Sys2Proof.Machine

/-- Twill modes (Table TW-1). -/
inductive TwMode where
  | tl
  | t6
  | t4
  deriving DecidableEq, Repr

/-- Mode code of Table TW-1. -/
def TwMode.code : TwMode → Nat
  | .tl => 0
  | .t6 => 1
  | .t4 => 2

/-- The mode of a region's TWILL field (Table AM-2). -/
def TwMode.ofTwill : Nat → Option TwMode
  | 1 => some .tl
  | 2 => some .t6
  | 3 => some .t4
  | _ => none

/-- Sectors of a block's place: S of R123, 9 in TL (R124). -/
def TwMode.place : TwMode → Nat
  | .tl => 9
  | .t6 => 6
  | .t4 => 4

/-- Sectors of a raw block (R122). -/
def rawSectors (d : Nat) : Nat := if d = 12 then 9 else 8

/-- e_max of R149. -/
def TwMode.emax (m : TwMode) (d : Nat) : Nat :=
  match m with
  | .tl => 0
  | .t6 => d - (3072 - 32) / 384
  | .t4 => d - (2048 - 32) / 384

/-- The budget of R149. -/
def TwMode.budget (m : TwMode) (d : Nat) : Nat :=
  match m with
  | .tl => 512 * (rawSectors d - 1)
  | .t6 => 3072
  | .t4 => 2048

/-- The prediction of R145 from the indices decoded so far, for raster position i > 0. -/
def predict (pr : Nat) (idx : Array Nat) (i : Nat) : Nat :=
  let a := idx[i - 1]?.getD 0
  if i < 32 then a
  else
    let bv := idx[i - 32]?.getD 0
    if i % 32 = 0 then bv
    else if pr = 0 then a
    else if pr = 1 then (a + bv + 1) / 2
    else
      let cv := idx[i - 33]?.getD 0
      if max a bv ≤ cv then min a bv else if cv ≤ min a bv then max a bv else a + bv - cv

/-- A read of the bitstream: stream, position and limit. -/
structure BitRd where
  v : Nat
  pos : Nat
  lim : Nat
  deriving DecidableEq, Repr

/-- Reads w bits; none past the limit. -/
def BitRd.read (r : BitRd) (w : Nat) : Option (Nat × BitRd) :=
  if r.pos + w ≤ r.lim then some (r.v / 2 ^ r.pos % 2 ^ w, { r with pos := r.pos + w }) else none

/-- Counts one-bits, at most n, consuming the zero-bit that ends them. -/
def BitRd.unary : Nat → BitRd → Nat → Option (Nat × BitRd)
  | 0, r, q => some (q, r)
  | n + 1, r, q =>
    match r.read 1 with
    | none => none
    | some (b, r) => if b = 1 then BitRd.unary n r (q + 1) else some (q, r)

/-- Reads a code of R146 with Rice parameter k. -/
def BitRd.code (r : BitRd) (k nb : Nat) : Option (Nat × BitRd) :=
  match BitRd.unary 24 r 0 with
  | none => none
  | some (q, r) =>
    if q = 24 then r.read nb
    else (r.read k).map fun (l, r) => (q * 2 ^ k + l, r)

/-- Reads n further indices of a component. -/
def readIdx (pr k nb : Nat) : Nat → BitRd → Array Nat → Option (Array Nat × BitRd)
  | 0, r, idx => some (idx, r)
  | n + 1, r, idx =>
    if pr = 3 || idx.size = 0 then
      match r.read nb with
      | none => none
      | some (x, r) => readIdx pr k nb n r (idx.push x)
    else
      match r.code k nb with
      | none => none
      | some (z, r) =>
        let m := 2 ^ nb
        if m ≤ z then none
        else
          let p := predict pr idx idx.size
          let res : Int := if z % 2 = 1 then -(((z + 1) / 2 : Nat) : Int) else ((z / 2 : Nat) : Int)
          readIdx pr k nb n r (idx.push (((p : Int) + res) % (m : Int)).toNat)

/-- `recon` of R148. -/
def recon (idx e : Nat) : Nat := idx * 2 ^ e + (if e = 0 then 0 else 2 ^ (e - 1))

/-- Why a block is poisoned: EXTRA of source 0x042 (Table FC-1a). -/
inductive TwBad where
  | header
  | sizeMap
  | bitstream
  deriving DecidableEq, Repr

/-- Table TW-5. -/
def headerValid (m : TwMode) (d size h : Nat) : Bool :=
  let nibs := (List.range 7).foldl (fun x i => x ^^^ bits h (4 * i + 3) (4 * i)) 0
  bits h 31 28 = nibs && bits h 1 0 = m.code && bits h 5 2 ≤ m.emax d && bits h 11 8 ≤ 12 && bits h 15 12 ≤ 12 &&
    bits h 19 16 ≤ 12 && bits h 27 24 = size && bits h 23 22 = 0

/-- `decode_block` of R148 for a coded block of `size` sectors. -/
def decodeCoded (m : TwMode) (d size v : Nat) : TwBad ⊕ List (List Nat) :=
  let h := v % 2 ^ 32
  if !headerValid m d size h then .inl .header
  else
    let e := bits h 5 2
    let pr := bits h 7 6
    let r0 : Option (List (List Nat) × BitRd) := some ([], ⟨v, 32, size * 512⟩)
    let out := (List.range 3).foldl (fun acc c =>
      match acc with
      | none => none
      | some (l, r) => (readIdx pr (bits h (11 + 4 * c) (8 + 4 * c)) (d - e) 128 r #[]).map fun (idx, r) => (l ++ [idx.toList.map (recon · e)], r)) r0
    match out with
    | none => .inl .bitstream
    | some (l, _) => .inr l

/-- The pixels of a raw TL block (R147). -/
def decodeRaw (d v : Nat) : List (List Nat) :=
  (List.range 3).map fun c => (List.range 128).map fun i => v / 2 ^ (d * (128 * c + i)) % 2 ^ d

/-- Decodes a stored block: TL entry or fixed sectors, and its bits (R143, R147). -/
def decodeBlock (m : TwMode) (d entry v : Nat) : TwBad ⊕ List (List Nat) :=
  match m with
  | .tl => if entry = 15 then .inr (decodeRaw d v) else if 1 ≤ entry && entry ≤ 8 then decodeCoded .tl d entry v else .inl .sizeMap
  | m => decodeCoded m d m.place v

/-! Encoding (R149) -/

/-- The residual code z of an index against its prediction (R146). -/
def zOf (nb idx p : Nat) : Nat :=
  let m : Nat := 2 ^ nb
  let u := (((idx : Int) - p) % (m : Int)).toNat
  let r : Int := if 2 * u < m then u else (u : Int) - m
  if 0 ≤ r then (2 * r).toNat else (-2 * r - 1).toNat

/-- Length of the code of z (R146). -/
def codeLen (k nb z : Nat) : Nat := if z / 2 ^ k < 24 then z / 2 ^ k + 1 + k else 24 + nb

/-- The residual codes of a component's indices but the first. -/
def residuals (pr nb : Nat) (idx : List Nat) : List Nat :=
  let arr := idx.toArray
  (List.range 127).map fun i => zOf nb (arr[i + 1]?.getD 0) (predict pr arr (i + 1))

/-- The least total code length over k from 0 to 12 and the lowest k that gives it. -/
def bestK (nb : Nat) (zs : List Nat) : Nat × Nat :=
  (List.range 13).foldl (fun best k =>
    let c := zs.foldl (fun n z => n + codeLen k nb z) 0
    if k = 0 || c < best.1 then (c, k) else best) (0, 0)

/-- cost(pr, e) of R149 with the k of each component. -/
def blockCost (pr nb : Nat) (idx : List (List Nat)) : Nat × List Nat :=
  if pr = 3 then (32 + 384 * nb, [0, 0, 0])
  else
    let bs := idx.map fun l => bestK nb (residuals pr nb l)
    (bs.foldl (fun n b => n + nb + b.1) 32, bs.map (·.2))

/-- The predictor of least cost, lowest on a tie: cost, predictor, parameters. -/
def bestPred (nb : Nat) (idx : List (List Nat)) : Nat × Nat × List Nat :=
  (List.range 4).foldl (fun best pr =>
    let c := blockCost pr nb idx
    if pr = 0 || c.1 < best.1 then (c.1, pr, c.2) else best) (0, 0, [])

/-- A bit writer: value and length. -/
abbrev BitWr := Nat × Nat

/-- Appends v in w bits. -/
def BitWr.put (b : BitWr) (v w : Nat) : BitWr := (b.1 + v % 2 ^ w * 2 ^ b.2, b.2 + w)

/-- Appends the code of z (R146). -/
def BitWr.code (b : BitWr) (k nb z : Nat) : BitWr :=
  let q := z / 2 ^ k
  if q < 24 then ((b.put (2 ^ q - 1) (q + 1))).put (z % 2 ^ k) k else (b.put (2 ^ 24 - 1) 24).put z nb

/-- Appends a component. -/
def BitWr.component (b : BitWr) (pr k nb : Nat) (idx : List Nat) : BitWr :=
  if pr = 3 then idx.foldl (fun b x => BitWr.put b x nb) b
  else (residuals pr nb idx).foldl (fun b z => BitWr.code b k nb z) (BitWr.put b (idx.headD 0) nb)

/-- Completes a header: HCHK over its other seven nibbles (Table TW-4). -/
def withHchk (h : Nat) : Nat := h + (List.range 7).foldl (fun x i => x ^^^ bits h (4 * i + 3) (4 * i)) 0 * 2 ^ 28

/-- A coded block of Table TW-4. -/
def codedBlock (m : TwMode) (size e pr nb : Nat) (ks : List Nat) (padX padY : Bool) (idx : List (List Nat)) : Nat :=
  let h := withHchk (size * 2 ^ 24 + b2n padY * 2 ^ 21 + b2n padX * 2 ^ 20 + ks.getD 2 0 * 2 ^ 16 + ks.getD 1 0 * 2 ^ 12 +
    ks.getD 0 0 * 2 ^ 8 + pr * 2 ^ 6 + e * 2 ^ 2 + m.code)
  ((List.range 3).foldl (fun b c => BitWr.component b pr (ks.getD c 0) nb (idx.getD c [])) ((h, 32) : BitWr)).1

/-- The encoded block: its bits, sectors, size-map entry (or S) and QEXP. -/
structure Encoded where
  v : Nat
  sectors : Nat
  entry : Nat
  qexp : Nat
  deriving DecidableEq, Repr

/-- The quantiser search of R149 from e on, n exponents left. -/
def encodeFrom (m : TwMode) (d : Nat) (padX padY : Bool) (pix : List (List Nat)) : Nat → Nat → Encoded
  | 0, _ => ⟨pix.flatten.reverse.foldl (fun acc x => acc * 2 ^ d + x) 0, rawSectors d, 15, 0⟩
  | n + 1, e =>
    let idx := pix.map fun l => l.map (· / 2 ^ e)
    let nb := d - e
    let (c, pr, ks) := bestPred nb idx
    if c ≤ m.budget d then
      let size := if m = .tl then (c + 511) / 512 else m.place
      ⟨codedBlock m size e pr nb ks padX padY idx, size, size, e⟩
    else encodeFrom m d padX padY pix n (e + 1)

/-- `choose` of R149 for the pixels of a block. -/
def encodeBlock (m : TwMode) (d : Nat) (padX padY : Bool) (pix : List (List Nat)) : Encoded :=
  encodeFrom m d padX padY pix (m.emax d + 1) 0

end Sys2Proof.Machine
end

