-- ==== Sys2Proof/Syntax.lean ====
section
/-! DEFINITION. The commands and events of the block: one constructor of `Instr` per row of spec/opcode_table.json, in the
table's order, with the operands its rule names. What only the outside world can say (a sensor reading, the bits a sweep
found passing, errors a DRAM burst comes back with) is an operand. -/
namespace Sys2Proof

/-- How one read of the passport went on the I2C bus (R445): the three reads answered; GEN changed between the reads;
a NACK with FIELD_N asserted; a NACK with FIELD_N released. -/
inductive PpRead where
  | answered
  | genMismatch
  | nackField
  | nackFree
  deriving DecidableEq, Repr

/-- What the outside world answers during one eyelet's action: the passport read of E0 and the halves whose core cannot run verified firmware (R437);
the lanes that the training of the Welt finds failing, from A to B and from B to A (R308); the codecs whose ROM vectors failed, each with its first failing vector (R307), and for each fuse-map entry in order whether the device accepts soft PPR, and reports and accepts hard
PPR (R305). -/
structure EyeletEnv where
  pp : PpRead
  coreFail : List Half
  deadLanes : Fin 5 × Fin 5
  codecFail : List (Fin 16 × Fin 64)
  ppr : List (Bool × Bool)
  deriving DecidableEq, Repr

/-- What came back of one test of a lane (R264): the bursts that differ from what was sent, each with its number in the test and its 64 bits; every
other burst came back as it was sent. -/
abbrev Received := List (Fin 64 × BitVec 64)

/-- What the sweeps of one lane brought (R264, R265), for every setting tested, in order. `rd` holds one read delay sweep for each PHY_VREF code, `wr` one
write delay sweep for each DRAM_VREF code (one sweep each in a read or write step), `check` the tests of a training check at
WR_DLY − MIN_EYE_W/2, WR_DLY and WR_DLY + MIN_EYE_W/2 (Table DI-6). `gate` is the read gate found (Table DI-4, step 5) and `oscCount` the DQS
oscillator count (R268). -/
structure LaneSweep where
  dev : Fin 20
  gate : Int
  rd : List (List Received)
  wr : List (List Received)
  check : List Received
  oscCount : Nat
  deriving DecidableEq, Repr

/-- What the CS and CA sweeps found on the lane of one device at one rate (R264, Table DI-4, step 3): for each CS setting, and for each CA setting at each
CA_VREF code, how many samples of the test showed the pattern that DDR5 defines for the mode. -/
structure CaSweep where
  dev : Fin 20
  cs : List Nat
  ca : List (List Nat)
  deriving DecidableEq, Repr

/-- What quick tracking finds (R271): each device's oscillator count (one that is not listed shows no drift), and what came back of the 8-burst read
tests of the lanes. -/
structure QuickTrack where
  counts : List (Fin 20 × Nat)
  reads : List (Fin 20 × Received)
  deriving DecidableEq, Repr

/-- A DLL locks, and what quick tracking then finds (R271, R341). -/
structure DllLocked where
  sub : Fin 16
  quick : QuickTrack
  deriving DecidableEq, Repr

/-- How a DLL relock ends: locked or not, and what quick tracking then finds (R271, Table CK-4). -/
structure Relock where
  locked : Bool
  quick : QuickTrack
  deriving DecidableEq, Repr

/-- How a read or Vref step runs: its time, and whether PFW_N, the fatal state or a trip cuts it off (R244, R274). -/
structure StepRun where
  us : Nat
  cut : Bool
  deriving DecidableEq, Repr

/-- How a write step or a check runs: its time, the granule it borrows, and whether it is cut off (R244, R274). -/
structure BorrowRun where
  us : Nat
  granule : Nat
  cut : Bool
  deriving DecidableEq, Repr

/-- The symbol errors a burst comes back with: (symbol index, exclusive-or value) (R286, R289). -/
abbrev SymErr := List (Nat × Byte)

/-- What a read burst brings: its symbol errors, and the lanes whose read gate moves, and which way (R270, R286). -/
structure ReadBurst where
  err : SymErr
  gates : List (Fin 10 × Bool)
  deriving DecidableEq, Repr

/-- The data of a partial write and whether it arrives with poison (R175, R177). -/
structure PtlData where
  data : LineData
  poison : Bool
  deriving DecidableEq, Repr

/-- A rank that the refresh keeper reaches, and whether the controller's command path failed (R232, R257). -/
structure KeeperRank where
  rank : Fin 2
  pathFailed : Bool
  deriving DecidableEq, Repr

/-- A link that leaves L0, and the correctable-error status of the head's CXL RAS capability when a link error has set it (R155, R189, Table FC-1a). -/
structure Recovery where
  head : Fin 4
  ras : Option (BitVec 30)
  deriving DecidableEq, Repr

/-- The source whose message a collector takes, and whether the parity of the store fails (R418). -/
structure Taken where
  source : Nat
  parity : Bool
  deriving DecidableEq, Repr

/-- A ring whose first record has waited, and whether the host withholds posted credits (R109, R184). -/
structure SkipOf where
  ring : Fin 512
  noCredits : Bool
  deriving DecidableEq, Repr

/-- A step of the scrubber of a half and the time it takes (R22, R299). -/
structure ScrubRun where
  half : Half
  us : Nat
  deriving DecidableEq, Repr

/-- How a retraining of the Welt ends: up or not, and the lanes found failing in each direction (R308, R326). -/
structure WeltTrained where
  ok : Bool
  deadAB : Fin 5
  deadBA : Fin 5
  deriving DecidableEq, Repr

/-- An on-die LUT SECDED error an engine meets (R88): table 0 to 79, entry, correctable or not. -/
structure LutErr where
  table : Nat
  entry : Nat
  uncorrectable : Bool
  deriving DecidableEq, Repr

/-- For whom a block decoder works (R152, R153). -/
inductive DecodeFor where
  | engine (e : Fin 16)
  | window (h : Fin 4)
  deriving DecidableEq, Repr

/-- The ring descriptor words that RING_DESCRIPTOR_WRITE writes (Table HP-5). -/
inductive RdWord where
  | baseLo
  | baseHi
  | tailaLo
  | tailaHi
  | start
  deriving DecidableEq, Repr

/-- Why a rail failed or its soft start failed (CAUSE of PS_RAIL_n_STATUS). -/
inductive RailCause where
  | underUv
  | overOv
  | pgLow
  | overCurrent
  deriving DecidableEq, Repr

/-- What a host writes in a head's configuration space and MSI-X table: base addresses, Max_Payload_Size, MSI-X Enable, and of a vector its address,
its data and its mask (R155, R181, R182, R190). -/
inductive CfgReg where
  | bar (i : Fin 3)
  | maxPayload
  | msixEnable
  | msixAddr (v : Fin 4)
  | msixData (v : Fin 4)
  | msixMask (v : Fin 4)
  deriving DecidableEq, Repr

/-- Where a register write goes: a word address over SPI or a management window (R10); a byte offset of a management
window with its size (R161); a byte offset of a doorbell window with its size (R164); a register of a head's configuration space. -/
inductive WriteTarget where
  | word (p : Path) (addr : BitVec 24)
  | window (h : Fin 4) (offset : BitVec 21) (bytes : Nat)
  | doorbell (h : Fin 4) (offset : BitVec 16) (bytes : Nat)
  | config (h : Fin 4) (r : CfgReg)
  deriving DecidableEq, Repr

/-- What a head's configuration space, its DOE and its CXL register blocks report beside the registers of the device (R155, R156, R180, R186,
R451). -/
inductive CfgItem where
  | ids
  | serial
  | kamtalDvsec
  | registerLocator
  | cxlDvsec
  | control
  | bar (i : Fin 3)
  | msix (v : Fin 4)
  | doeDiscovery
  | cdat
  | hdm (d : Fin 4)
  | ras
  | memoryDeviceStatus
  | mailbox
  deriving DecidableEq, Repr

/-- Where a read goes: a word address over SPI (R452), a byte offset of a management window or of a doorbell window (R161, R164), or an item of a
head's configuration space. -/
inductive ReadTarget where
  | spi (addr : BitVec 24)
  | window (h : Fin 4) (offset : BitVec 21)
  | doorbell (h : Fin 4) (offset : BitVec 16)
  | config (h : Fin 4) (item : CfgItem)
  deriving DecidableEq, Repr

/-- The JTAG instructions the spec names (R480). -/
inductive TapInstr where
  | bypass
  | idcode
  | samplePreload
  | extest
  | ac1149_6
  deriving DecidableEq, Repr

/-- The two phase-locked loops of a half (Table CK-1). -/
inductive Pll where
  | core
  | memory
  deriving DecidableEq, Repr

/-- A host's programming of one HDM decoder, with its DPA skip (R155, R173). -/
structure HdmProg where
  base : Nat
  size : Nat
  skip : Nat
  ways : Nat
  granularity : Nat
  position : Nat
  deriving DecidableEq, Repr

/-- One command or event of the block; the table's row name stands in LAWS.json. -/
inductive Instr where
  | auxUp (testEn : Bool)
  | eyeletEntry (env : EyeletEnv)
  | passportRetry (pp : PpRead)
  | trainingDone (n : Fin 16) (lanes0 lanes1 : List LaneSweep) (ca0 ca1 : List CaSweep) (zq0 zq1 : Bool)
  | fillDone
  | eyeletComplete
  | laceRise
  | eyeWarn
  | laceAbort
  | laceGlitch
  | laceAbortWrite (p : Path)
  | softStartFail (r : Fin 12) (overCurrent : Bool) (mv : Nat)
  | softStartRetry (r : Fin 12)
  | railGood (r : Fin 12)
  | railFail (r : Fin 12) (cause : RailCause) (mv : Nat)
  | transitionStart (p : Path) (v : Word)
  | transitionBlankEnd
  | pfwAssert (vinMv : Nat)
  | pfwRide
  | pfwDelayEnd
  | railGroupDrop
  | powerFailRecord (byVrec : Bool) (vinMv : Nat) (samples : List (BitVec 12)) (tShedUs tRecUs : Nat)
  | recordWritten (ok : Bool)
  | vauxFail (vauxc : Bool) (mv : Nat)
  | auxReset
  | vinReturnOff (vinMv : Nat)
  | shortPress
  | forcedOff
  | svcStart
  | warmReset
  | watchdogExpiry (h : Half)
  | tickStart (h : Half)
  | tickOutEnd
  | cutOff (h : Half)
  | productionEnd (h : Half)
  | idleCycleEnd (h : Half)
  | freeze (p : Path)
  | release (p : Path)
  | setDelay (p : Path)
  | setGain (p : Path)
  | streamOn (p : Path)
  | streamOff (p : Path)
  | switchLast (p : Path)
  | opcodeInvalid (p : Path) (op : BitVec 4)
  | admitLast (p : Path) (sel : Fin 4)
  | admissionDone
  | activate (p : Path)
  | cancel (p : Path)
  | commit (p : Path)
  | lutCopyDone
  | lutDataAccess (p : Path) (w : Option Word)
  | frameLoRead (p : Path) (doorbell : Bool)
  | publishDoorbell (h : Fin 4) (src : Fin 16) (slot tag : BitVec 16)
  | publicationCount (src : Fin 16)
  | slotSelect (h : Fin 4) (src : Fin 16) (slot : BitVec 16)
  | pixelWindowWrite (h : Fin 4) (offset : BitVec 35) (bytes : List Byte) (allEnabled : Bool)
  | blockRowEncoded (src : Fin 16)
  | sizeMapMerge (src : Fin 16) (err : SymErr)
  | pixelWindowRead (h : Fin 4) (offset : BitVec 35) (lines : Nat)
  | slotCopyToArchive (h : Fin 4) (src : Fin 16) (slot : BitVec 16)
  | slotCopyFromArchive (h : Fin 4) (src : Fin 16)
  | slotCopyDone (h : Fin 4)
  | fenceRead (h : Fin 4)
  | fenceReadComplete (h : Fin 4) (waited10ns : Nat)
  | ringDescriptorWrite (h : Fin 4) (r : Fin 512) (w : RdWord) (v : Word)
  | arm (h : Fin 4) (r : Fin 512) (log2 : BitVec 5)
  | disarm (h : Fin 4) (r : Fin 512) (log2 : BitVec 5)
  | armEffect (r : Fin 512)
  | consumedWrite (h : Fin 4) (r : Fin 512) (v : Word)
  | chunkStaged (e : Fin 16) (lutErrs : List LutErr)
  | streamOpen (e : Fin 16)
  | chunkRecordWrite (r : Fin 512)
  | chunkSkip (x : SkipOf)
  | recordAbandon (r : Fin 512)
  | panicAssert (e : Fin 16) (level : Nat)
  | panicRelease (e : Fin 16) (level : Nat)
  | panicMaxExpiry (e : Fin 16)
  | engineStart (e : Fin 16)
  | fence (p : Path) (e : Fin 16)
  | enable (p : Path) (e : Fin 16)
  | engineSelfCheckFail (e : Fin 16)
  | memRd (h : Fin 4) (hpa : Nat)
  | memRdData (h : Fin 4) (hpa : Nat)
  | memSpecRd (h : Fin 4) (hpa : Nat)
  | memInv (h : Fin 4) (hpa : Nat)
  | memInvNt (h : Fin 4) (hpa : Nat)
  | memWr (h : Fin 4) (hpa : Nat) (data : LineData) (poison : Bool)
  | memWrPtl (h : Fin 4) (hpa : Nat) (x : PtlData) (enables : BitVec 64)
  | dramReadReturn (n : Fin 16) (x : ReadBurst)
  | blockDecode (who : DecodeFor) (src : Fin 16) (slot block : Nat)
  | getEventRecords (h : Fin 4) (log : Fin 4)
  | clearEventRecords (h : Fin 4) (log : Fin 4) (count : Nat)
  | getTimestamp (h : Fin 4)
  | setTimestamp (h : Fin 4) (v : BitVec 64)
  | getSupportedLogs (h : Fin 4)
  | getLog (h : Fin 4)
  | identifyMemoryDevice (h : Fin 4)
  | getPoisonList (h : Fin 4) (dpa length : Nat)
  | getHeadSummary (h : Fin 4)
  | getRingStatus (h : Fin 4) (first count : Nat)
  | getAdmissionResult (h : Fin 4)
  | readSelvedgeLog (h : Fin 4) (first count : Nat)
  | roleChallenge (h : Fin 4) (role : Nat)
  | roleResponse (h : Fin 4) (resp : BitVec 256)
  | dropRole (h : Fin 4)
  | unsupportedOpcode (h : Fin 4) (opcode : BitVec 16)
  | linkTraining (h : Fin 4)
  | linkUp (h : Fin 4) (rate width : Fin 3) (flit68 : Bool)
  | linkRecovery (h : Recovery)
  | linkDown (h : Fin 4) (partialWrites partialLines : Nat)
  | perstAssert (h : Fin 4) (partialWrites partialLines : Nat)
  | busMasterEnableClear (h : Fin 4)
  | hdmDecoderCommit (h : Fin 4) (d : Fin 4) (prog : HdmProg)
  | visit (n : Fin 16)
  | refresh (n : Fin 16) (rank : Fin 2)
  | refreshKeeper (n : Fin 16) (x : KeeperRank)
  | mr4Poll (n : Fin 16) (codes : List (Fin 8)) (aboveRated : Bool)
  | bulkAgePromotion (n : Fin 16)
  | alertWindowExpiry (n : Fin 16)
  | writeCrcAlert (n : Fin 16)
  | verifyReadback (n : Fin 16) (err : SymErr)
  | tsReqWrite (p : Path) (n : Fin 16) (v : Word)
  | tsSwitch (n : Fin 16)
  | frequencyChange (n : Fin 16) (rampUs relockUs trackUs : Nat)
  | rampEnd (n : Fin 16)
  | dllLock (x : DllLocked)
  | frequencyChangeDone
  | archiveSleep (n : Fin 16)
  | archiveWake (n : Fin 16)
  | wakeEventStart (h : Half)
  | retire (p : Path) (n : Fin 16)
  | retrain (p : Path) (n : Fin 16)
  | clearMarks (p : Path) (n : Fin 16)
  | trackingMeasurement (n : Fin 16) (rank : Fin 2) (counts : List (Fin 10 × Nat))
  | readStep (n : Fin 16) (lanes : List LaneSweep) (x : StepRun)
  | writeStep (n : Fin 16) (lanes : List LaneSweep) (x : BorrowRun)
  | vrefStep (n : Fin 16) (lanes : List LaneSweep) (x : StepRun)
  | checkStep (n : Fin 16) (lanes : List LaneSweep) (x : BorrowRun)
  | rebuildGranule (h : Half)
  | regionFillDone (h : Half)
  | fastClose (p : Path)
  | scrubStart (p : Path)
  | scrubAbort (p : Path)
  | scrubStep (x : ScrubRun)
  | weltLost (cause : Fin 3)
  | flitReplay (repaired : Option Half)
  | weltRetrain (x : WeltTrained)
  | rejoin
  | rejoinWrite (p : Path)
  | heelFrameSend (h : Half)
  | heelFrame (sender : Half) (frame : Word)
  | heelSilent (sender : Half)
  | heartbeat
  | leadershipTakeover
  | claimDrop
  | wlFence (p : Path) (fenceA fenceB : Bool)
  | refclkLoss
  | refclkReturn (quick : List (Fin 16 × QuickTrack))
  | refclkLossTimeout
  | corePllLockLost (h : Half)
  | memoryPllLockLost (h : Half)
  | lockWindow (h : Half) (pll : Pll) (count : Nat) (quick : List (Fin 16 × QuickTrack))
  | lockmonFallback (h : Half)
  | dllLockLost (n : Fin 16)
  | dllRelockStep (n : Fin 16) (x : Relock)
  | auxckConfigWrite (p : Path) (n : Fin 4) (tick : Bool) (v : Word)
  | ppsEdge
  | ppsGlitch
  | ppsLost
  | todSentence (bytes : List Byte)
  | todByteTimeout
  | todStale
  | masterLost
  | ftickEdge
  | ftickLost
  | set (p : Path)
  | stepNow (p : Path)
  | tbCaptureWrite (p : Path) (v : Word)
  | tsqPop (p : Path)
  | sensorRead (h : Half) (readings : List Int)
  | modelUpdate (h : Half) (busyPermille : Nat) (samples : List (BitVec 12))
  | stepEvaluation (h : Half)
  | warmingEnd (h : Half)
  | messageCollect (h : Half) (source : Taken)
  | stickyClear (p : Path) (w : Fin 10) (bits : Word)
  | force (p : Path) (w : Fin 10) (bits : Word)
  | read (t : ReadTarget) (count : Nat) (partialWord : Bool)
  | write (addr : BitVec 24) (words : List Word) (partialWord : Bool)
  | fetch (addr : BitVec 24) (count : BitVec 7) (excess : Bool)
  | fetchDone (unanswered : List Nat)
  | rdbuf (addr : BitVec 24) (words : Nat) (partialWord : Bool)
  | shortFrame (addr : BitVec 24)
  | chal (role : Fin 4)
  | resp
  | drop
  | roleLockEnd (p : Path)
  | flashRead (p : Path) (lenM1 : BitVec 6)
  | flashProgram (p : Path) (lenM1 : BitVec 6)
  | flashEraseSector (p : Path)
  | flashOpDone (deviceError : Bool)
  | nextBankWrite (p : Path) (bank : Bool)
  | warmResetWrite (p : Path)
  | auditEntryWrite (flashError fieldAsserted : Bool)
  | passportWriteTimeout
  | fieldRelease
  | registerWrite (t : WriteTarget) (v : BitVec 64)
  | lockmonLock (h : Half) (quick : List (Fin 16 × QuickTrack))
  | memoryPllRelockTimeout (h : Half)
  | alertNRelease (n : Fin 16)
  | todFramingError
  | tapInstruction (instr : TapInstr)
  | busMasterEnableSet (h : Fin 4)
  deriving DecidableEq, Repr

end Sys2Proof
end

