-- ==== Sys2Proof/Machine/Parts.lean ====
section
/-! DEFINITION. Structured state behind the registers of the memory path, the frame schedule, the lamp engines and the heads
(chapters 02 to 10): plain data that State gathers. -/
namespace Sys2Proof.Machine

/-! Records of two copies (16) -/

/-- A record kept in two copies: the sequence number and the content of each valid copy, none where a copy is not valid. Even numbers go to the
first, odd ones to the second (R441). -/
structure Copies (α : Type) where
  even : Option (Nat × α) := none
  odd : Option (Nat × α) := none
  deriving DecidableEq, Repr

/-- The valid copy with the higher sequence number: the one a read uses (R441). -/
def Copies.newest {α : Type} (c : Copies α) : Option (Nat × α) :=
  match c.even, c.odd with
  | some x, some y => if x.1 < y.1 then some y else some x
  | some x, none => some x
  | none, y => y

/-- The sequence number that an update takes (R441). -/
def Copies.nextSeq {α : Type} (c : Copies α) : Nat := match c.newest with | some x => x.1 + 1 | none => 1

/-- The copy of a sequence number takes a content, or is valid no more. -/
def Copies.set {α : Type} (c : Copies α) (seq : Nat) (x : Option α) : Copies α :=
  let v := x.map fun y => (seq, y)
  if seq % 2 = 0 then { c with even := v } else { c with odd := v }

/-- An update writes the other copy with the next sequence number (R441). -/
def Copies.put {α : Type} (c : Copies α) (x : α) : Copies α := c.set c.nextSeq (some x)

/-- The write of the newest copy was cut off: the earlier one is in force again (R441). -/
def Copies.cut {α : Type} (c : Copies α) : Copies α := match c.newest with | some x => c.set x.1 none | none => c

/-- What the device-health record holds of a subchannel: marked devices, retirement, and hard repairs as fuse-map entries (R278, R305). -/
structure HealthRec where
  marks : List Nat := []
  retired : Bool := false
  hppr : List Nat := []
  deriving DecidableEq, Repr

/-! Address map (06) -/

/-- A region entry (Table AM-2). -/
structure Region where
  base : Nat
  size : Nat
  cls : Nat
  il : Nat
  hset : Nat
  twill : Nat
  rdHeads : Nat
  wrHeads : Nat
  strict : Bool
  guard : Bool
  subBase : Nat
  deriving DecidableEq, Repr

/-- A region table (R194): entries and four sets of nine mask words HALF, SUB0 to SUB2, BG0 to BG2, BA0, BA1. -/
structure RegionTable where
  regions : List Region := []
  hash : List (List Nat) := []
  deriving DecidableEq, Repr

/-- Fill of one region at run time (R212): which halves are still to fill it, and whether its event was raised. -/
structure Filling where
  region : Nat
  a : Bool
  b : Bool
  noted : Bool := false
  deriving DecidableEq, Repr

/-! Frame schedule (02) -/

/-- A source entry (Table FS-11). -/
structure SrcCfg where
  src : Nat
  d12 : Bool
  retain : Bool
  frozen : Bool
  head : Nat
  maxSlots : Nat
  width : Nat
  height : Nat
  ringBase : Nat
  stride : Nat
  depth : Nat
  dMax : Nat
  delay : Nat
  deriving DecidableEq, Repr

/-- A stream descriptor (Table LE-1). `alt` is none for 0xFF. -/
structure StreamCfg where
  stream : Nat
  engine : Nat
  alt : Option Nat
  src : Nat
  head : Nat
  mode : Nat
  box : Nat
  enabled : Bool
  offsets : Bool
  gridW : Nat
  gridH : Nat
  aff : List Int
  gauze : Nat
  offs : Nat
  format : Nat
  dither : Nat
  chunkLamps : Nat
  share : Nat
  lut : Nat
  seed : Nat
  fill : List Nat
  deriving DecidableEq, Repr

/-- An admitted Last (Table FS-10) with its region table. -/
structure LastCfg where
  rateN : Nat
  rateD : Nat
  cutoff : Nat
  wend : Nat
  ts0 : Nat
  ts1 : Nat
  nbrK : Nat
  frameBase : Nat
  srcs : List SrcCfg
  streams : List StreamCfg
  map : RegionTable
  deriving DecidableEq, Repr

/-- A queued operator command (R57 to R62). -/
structure Cmd where
  op : Nat
  target : Nat
  value : Nat
  /-- Tick at which it takes effect, and the tick asked for. -/
  eff : Nat
  asked : Nat
  path : Nat
  role : Nat
  split : Bool
  deriving DecidableEq, Repr

/-- A counted publication: slot, tick in which it counts, and the slot counted immediately before (R54). -/
structure Counted where
  slot : Nat
  tick : Nat
  prev : Option Nat
  deriving DecidableEq, Repr

/-- What waits behind the assembly buffer of a source, in the order of the head (R132, R140, R210). -/
inductive Ingest where
  | line (row line : Nat) (d : LineData)
  | select (slot : Nat)
  | publish (slot tag tick : Nat) (late : Bool)
  deriving DecidableEq, Repr

/-- An accepted publication that waits for its blocks (Table AM-9, step 3). -/
structure PubReq where
  slot : Nat
  tag : Nat
  tick : Nat
  late : Bool
  deriving DecidableEq, Repr

/-- A source at run time: publication (02), write slot and line assembly (04). -/
structure SrcRt where
  counted : List Counted := []
  frozen : Bool := false
  /-- The production slot of the last tick before the freeze, and its previous slot (R51). -/
  held : Option (Option Nat × Option Nat) := none
  delay : Nat := 0
  prod : Option Nat := none
  prev : Option Nat := none
  /-- Production and previous slot of the tick before the one whose commands are being applied (R51, R484). -/
  before : Option Nat × Option Nat := (none, none)
  /-- Slots begun in this tick (R49). -/
  begun : Nat := 0
  incomplete : List Nat := []
  wslot : Option Nat := none
  /-- 0 no pass, 1 open, 2 done. -/
  pass : Nat := 0
  brow : Nat := 0
  /-- The pass was opened beyond MAX_SLOTS (R49, R140). -/
  bulk : Bool := false
  /-- Lines of the open block row, key row × 2048 + line. -/
  asm : Sparse LineData := []
  encoding : Bool := false
  wait : List Ingest := []
  pubs : List PubReq := []
  /-- DB_PUB_STATUS_s (Table AM-7). -/
  pubStatus : Nat := 0
  /-- TL size-map entries still to merge, oldest first: slot, block and entry (R124). -/
  mapWait : List (Nat × Nat × Nat) := []
  /-- LOSSY, MAX_QEXP and SECTORS of the pass under way. -/
  lossy : Nat := 0
  maxQ : Nat := 0
  sectors : Nat := 0
  /-- The event of R133 was raised in this tick. -/
  noted : Bool := false
  /-- The head's link went down while the encoders had the block row: the pass closes when they are done (R28, R56). -/
  closing : Bool := false
  /-- Items taken from `wait` since the rings were reset (R208). -/
  taken : Nat := 0
  deriving DecidableEq, Repr

/-- One frame schedule: the leader's, or in split mode each half's own (R323). -/
structure Sched where
  /-- The Last in force and its number. -/
  last : Option (Nat × LastCfg) := none
  /-- A tick runs; an activation took place since start. -/
  running : Bool := false
  everActive : Bool := false
  frame : Nat := 0
  /-- Core cycle and length in cycles of the current tick, and the carry of R368. -/
  tickAt : Nat := 0
  tickLen : Nat := 0
  frac : Nat := 0
  /-- Counts that the next tick jumps over: targets that passed with no tick (R369), or a rejoin (Table WL-4). -/
  jump : Nat := 0
  cutDone : Bool := false
  prodDone : Bool := false
  /-- In the maintenance window of an idle cycle (R45). -/
  idleWindow : Bool := false
  gain : Nat := 0x8000
  /-- Enabled streams. -/
  enabled : BitVec 512 := 0
  srcs : Vector SrcRt 16 := Vector.replicate 16 {}
  cmds : List Cmd := []
  /-- The armed Last; the effective tick of an accepted ACTIVATE with the role and path that asked for it. -/
  armed : Option Nat := none
  actAt : Option (Nat × Nat × Nat) := none
  /-- Number of the Last whose region table is in force. -/
  mapOf : Nat := 0
  /-- The region table in force and the regions being filled. -/
  map : RegionTable := {}
  filling : List Filling := []
  deriving DecidableEq, Repr

/-! DRAM controllers and interface (07, 08, 09) -/

/-- Who waits for a line read from DRAM. -/
inductive Reader where
  /-- A host request of a head, by number (R31). -/
  | host (h id : Nat)
  /-- An engine at an epoch (R116). -/
  | engine (e epoch : Nat)
  /-- A pixel-window read of a head. -/
  | window (h : Nat)
  /-- A slot copy of a head, by number (R214). -/
  | copy (h id : Nat)
  /-- A scrub pass, by number: subchannel, its address, the DPA line, and whether the line lies in a reserve (R299, R300). -/
  | scrub (pass n sa line : Nat) (moved : Bool)
  deriving DecidableEq, Repr

/-- A line of a queued read visit: line 0 to 3 of the granule, its DPA when one applies, and its readers. -/
structure RdLine where
  idx : Nat
  dpa : Option Nat
  readers : List Reader
  deriving DecidableEq, Repr

/-- A read-queue entry: one visit (R218). -/
structure RdEntry where
  g : Nat
  born : Nat
  /-- Order in which the controller made its entries (R219, R222). -/
  seq : Nat
  lines : List RdLine
  /-- Promoted by age from the Bulk queue (R223). -/
  aged : Bool := false
  deriving DecidableEq, Repr

/-- A line of a queued write visit; `tag` is 1 + the source whose encoder wrote it, 101 + the head of a host write, 201 + the head of a
slot copy, else 0. `reqs` are the host requests (head, number) whose Cmp waits for this place (R221). -/
structure WrLine where
  idx : Nat
  data : LineData
  poison : Bool
  tag : Nat
  reqs : List (Nat × Nat) := []
  deriving DecidableEq, Repr

/-- A write-queue entry: one visit (R218). -/
structure WrEntry where
  g : Nat
  seq : Nat
  lines : List WrLine
  deriving DecidableEq, Repr

/-- A read that waits where it is for a place in its queue (R221, R226, R245): granule, line, DPA when one applies, its queue, its reader. -/
structure RdWait where
  g : Nat
  idx : Nat
  dpa : Option Nat
  frame : Bool
  reader : Reader
  deriving DecidableEq, Repr

/-- A write that waits where it is for a place in the write queue, and whether it counts as Bulk (R221, R226, R245). -/
structure WrWait where
  g : Nat
  line : WrLine
  bulk : Bool
  deriving DecidableEq, Repr

/-- A burst in the retry buffer (R238): line number on the subchannel, data, poison, and how often the verify state has rewritten it (R240):
0 never, 1 once, 2 as poison. -/
structure Burst where
  line : Nat
  data : LineData
  poison : Bool
  tries : Nat := 0
  deriving DecidableEq, Repr

/-- A read burst on its way back: line number, DPA when one applies, readers. -/
structure Flight where
  line : Nat
  dpa : Option Nat
  readers : List Reader
  deriving DecidableEq, Repr

/-- Trained settings of one device at one rate (Table DI-3), with its read-gate position and when it last moved (R270), its oscillator baseline
and its eye. -/
structure DevSet where
  rd : Nat := 0
  wr : Nat := 0
  phyVref : Nat := 0
  dramVref : Nat := 0
  eyeW : Nat := 0
  eyeH : Nat := 0
  adj : Int := 0
  base : Nat := 0
  gate : Int := 0
  gateAt : Option Nat := none
  deriving DecidableEq, Repr

/-- The settings of a subchannel at one trained rate (R261): the rate code, CS_DLY, CA_DLY and CA_VREF, and its 20 devices. -/
structure RateSet where
  rate : Nat
  csDly : Nat := 0
  caDly : Nat := 0
  caVref : Nat := 0
  devs : List DevSet := List.replicate 20 {}
  deriving DecidableEq, Repr

/-- A row-map entry (R306): rank, bank group, bank, row and lane. -/
structure RowEntry where
  rank : Nat
  bg : Nat
  ba : Nat
  row : Nat
  lane : Nat
  deriving DecidableEq, Repr

/-- A frequency change under way (Table DC-4): the new set, where it stands, and the devices that failed quick tracking at the new rate. -/
structure Change where
  target : Nat
  /-- 0 ramping to the target, 1 relocking there; 2 and 3 the same on the way back to the old set. -/
  phase : Nat
  failNew : List Nat
  us : Nat
  /-- The channel's ramp counter (R337): Q and the core cycle at which its ramp began. -/
  rampQ : Nat := 0
  rampAt : Nat := 0
  deriving DecidableEq, Repr

/-- A retraining or relock step waiting (Table DI-6; kind 5 is a DLL relock), with the tick and stitch of its request (R273). -/
structure TrainStep where
  kind : Nat
  sub : Nat
  rank : Nat
  frame : Nat := 0
  stitch : Nat := 0
  deriving DecidableEq, Repr

/-- A subchannel pending for a frequency change, with the tick and stitch of its request (R23). -/
structure FreqReq where
  sub : Nat
  frame : Nat
  stitch : Nat
  deriving DecidableEq, Repr

/-- One subchannel. -/
structure Sub where
  frameQ : List RdEntry := []
  bulkQ : List RdEntry := []
  writeQ : List WrEntry := []
  /-- Reads and writes that wait for a place, in order of arrival (R221, R226, R245). -/
  rdWait : List RdWait := []
  wrWait : List WrWait := []
  /-- Entries made; Bulk visits admitted in the last µs under the cap, by core cycle (R226); rank-7 writes left of the run (R227). -/
  made : Nat := 0
  admits : List Nat := []
  run : Nat := 0
  retry : List Burst := []
  flight : List Flight := []
  lfsr : Nat := 0x1B873593
  sealKey : BitVec 128 := 0
  /-- Ranks in self-refresh. -/
  sr : BitVec 2 := 0
  /-- Next bank address to refresh, per rank (R229). -/
  refPos : Vector Nat 2 := Vector.replicate 2 0
  refAb : Bool := false
  /-- Refresh rate wanted by the last poll, and calm polls in a row (R230). -/
  hotWant : Bool := false
  calm : Nat := 0
  /-- A rank that woke is not polled until the next 16 ms point (R252). -/
  woke : Bool := false
  /-- Rolling activate counts (R236), key rank × 32 + bank group × 4 + bank. -/
  raa : Sparse Nat := []
  /-- Write CRC: waiting for the release of ALERT_n, a replay running, its number and next burst, verify state (R239, R240). -/
  alerting : Bool := false
  replaying : Bool := false
  replayNo : Nat := 0
  replayAt : Nat := 0
  verify : Bool := false
  /-- Requested timing set (R243) and a change under way. -/
  want : Option Nat := none
  change : Option Change := none
  /-- Devices marked failed in this run, and retirement in it (R276, R277). -/
  marks : List Nat := []
  retired : Bool := false
  retireDue : Bool := false
  rowMap : List RowEntry := []
  fast : Bool := false
  /-- The start-up fill leaves it out (R296). -/
  skipFill : Bool := false
  trained : Bool := false
  /-- Settings per trained rate (R261). -/
  sets : List RateSet := []
  /-- Devices whose write CRC is disabled (R241, R276). -/
  crcOff : List Nat := []
  deriving DecidableEq, Repr

/-- A subchannel that ramps its channel clock: the ramp ends by itself (R339). -/
def Sub.ramping (u : Sub) : Bool := match u.change with | some c => c.phase == 0 || c.phase == 2 | none => false

/-- A rebuild of a subchannel (R282, R284). -/
structure Rebuild where
  sub : Nat
  cursor : Nat
  loss : Bool
  /-- Granules at or above the cursor that were moved to the front (R284). -/
  front : List Nat
  /-- Stopped by PFW_N, the fatal state or a trip (Table DI-7): it copies no more, and accesses go on as the cursor stands. -/
  stopped : Bool := false
  deriving DecidableEq, Repr

/-- A wake event waiting for its half's budget (Table DC-5). -/
inductive WakeEv where
  | engine (e : Nat)
  | link (h : Nat)
  | archive (n : Nat)
  | exit (n rank : Nat)
  deriving DecidableEq, Repr

/-- Row of a waiting event in Table DC-5. -/
def WakeEv.row : WakeEv → Nat
  | .engine _ => 3
  | .link _ => 4
  | .archive _ => 5
  | .exit _ _ => 5

/-- The memory of one half: spare, rebuild, wake budget, scrubber (07 R253, 08 R279, 09 R298). -/
structure MemHalf where
  spare : Option Nat := none
  rebuild : Option Rebuild := none
  /-- Core cycles at which wake events started in the last 10 µs, and the events waiting, in order of request. -/
  wakes : List Nat := []
  waiting : List WakeEv := []
  /-- The scrubber's next line of the range, and lines still to take. -/
  scrubAt : Nat := 0
  scrubLeft : Nat := 0
  /-- A scrub step ran in this maintenance window (R299). -/
  stepped : Bool := false
  /-- Subchannels taken offline in this maintenance window (R273); the heads withhold credits for its steps (R245). -/
  offline : List Nat := []
  hold : Bool := false
  /-- Core cycle from which encoders may take blocks beyond MAX_SLOTS again from P3 on (Table TH-3). -/
  ingestAt : Nat := 0
  deriving DecidableEq, Repr

/-- An extent of one subchannel filled with zero data in this run (R295, R212): first line and number of lines. -/
structure Fill where
  sub : Nat
  line : Nat
  n : Nat
  deriving DecidableEq, Repr

/-- The DRAM side of the device. -/
structure Mem where
  subs : Vector Sub 16 := Vector.replicate 16 {}
  a : MemHalf := {}
  b : MemHalf := {}
  /-- Starts of the DRAM (its content is lost with its rails), and extents filled since. -/
  run : Nat := 0
  fills : List Fill := []
  /-- The rates trained at the start, when a half trained (R262). -/
  rates : Option (Nat × Nat) := none
  /-- The DRAM fitted to the module: ranks, and the density code of AM_SUB_CAP (R5). -/
  ranks : Nat := 1
  density : Nat := 2
  /-- Subchannels pending for a frequency change and steps pending, in order of request (R23, R273). -/
  freqPend : List FreqReq := []
  steps : List TrainStep := []
  poison : List (Nat × Bool) := []
  poisonOver : Option Nat := none
  /-- Histogram of a scrub pass, key (subchannel × 32 + device) × 2, + 1 for ERASED (R303), and lines visited. -/
  hist : Sparse Nat := []
  scrubLines : Nat := 0
  /-- Number of the scrub pass, and its reads that have not come back (R299). -/
  scrubPass : Nat := 0
  scrubOut : Nat := 0
  /-- Lowest and highest DPA line that the pass found newly UNCORRECTABLE. -/
  scrubFirst : Option Nat := none
  scrubLast : Option Nat := none
  deriving DecidableEq, Repr

/-! Lamp engines (03) -/

/-- A chunk record in staging (R95) or a repeat chunk handed to delivery (R101). -/
structure Rec where
  engine : Nat
  /-- The head that delivers it. -/
  head : Nat
  frame : Nat
  chunk : Nat
  bytes : List Byte
  rep : Bool
  isLast : Bool
  /-- Core cycle since which it has waited at the head of its ring. -/
  since : Option Nat := none
  deriving DecidableEq, Repr

/-- Fields of a ring descriptor (Table HP-5). -/
structure RingDesc where
  base : Nat := 0
  tail : Nat := 0
  start : Nat := 0
  log2 : Nat := 0
  arm : Bool := false
  deriving DecidableEq, Repr

/-- A host ring (R105 to R110). -/
structure Ring where
  desc : RingDesc := {}
  consumed : Nat := 0
  armed : Bool := false
  /-- Fields in force while armed. -/
  inForce : RingDesc := {}
  /-- An ARM (with its fields) or a DISARM waiting for the next chunk boundary. -/
  wait : Option (Option RingDesc) := none
  tail : Nat := 0
  chunks : Nat := 0
  skips : Nat := 0
  skipping : Bool := false
  gap : Bool := false
  queue : List Rec := []
  /-- Frame count and next chunk index after the last one announced or skipped (R118). -/
  next : Option (Nat × Nat) := none
  /-- The head that described the ring last (R105, R187). -/
  owner : Option Nat := none
  deriving DecidableEq, Repr

/-- A line that has arrived in an engine's input stage: data or poison, and whether it degrades its lamps (R114). -/
structure InLine where
  line : Nat
  data : Option LineData
  degraded : Bool
  deriving DecidableEq, Repr

/-- A decoded block in an engine's input stage. -/
structure InBlock where
  src : Nat
  slot : Nat
  block : Nat
  pix : Option (List (List Nat))
  deriving DecidableEq, Repr

/-- A lamp engine. -/
structure Engine where
  fenced : Bool := false
  enable : Bool := false
  /-- Enabled again, or idle in the last tick: the start counts in the wake budget (R253). -/
  cold : Bool := true
  waiting : Bool := false
  /-- Streams still to open in this tick, in order; streams it computes for others. -/
  plan : List Nat := []
  moved : List Nat := []
  /-- Stream being computed and its next chunk; open streams. -/
  cur : Option (Nat × Nat) := none
  opened : List Nat := []
  lines : List InLine := []
  blocks : List InBlock := []
  /-- Lines asked for and not yet returned. -/
  asked : List Nat := []
  /-- Panic: core cycle of assertion, cycles spent in it this tick, barred until stitch 0. -/
  panicAt : Option Nat := none
  panicUsed : Nat := 0
  panicBar : Bool := false
  lamps : Nat := 0
  deriving DecidableEq, Repr

/-- An accepted COMMIT of the LUT banks that waits for its tick (R85): the effective tick, TABLE, and who asked. -/
structure LutCommit where
  eff : Nat
  table : Nat
  path : Nat
  role : Nat
  split : Bool
  deriving DecidableEq, Repr

/-- The lamp engines' shared state: LUT banks (entries differing from the identity curves, key bank × 2^20 + table × 2^13 +
entry), a COMMIT waiting for its tick, streams computed away from home, rings. -/
structure Lamps where
  engines : Vector Engine 16 := Vector.replicate 16 {}
  lut : Sparse Nat := []
  commit : Option LutCommit := none
  rings : Sparse Ring := []
  /-- Stream → engine that computes it when not its home engine. -/
  away : Sparse Nat := []
  /-- Streams without a qualifying engine in this tick (R117). -/
  orphans : List Nat := []
  deriving DecidableEq, Repr

/-! Host heads (05) -/

/-- An HDM decoder (R173). -/
structure Hdm where
  committed : Bool := false
  /-- Error Not Committed. -/
  error : Bool := false
  /-- Base of its DPA range, formed when it was committed. -/
  dpaBase : Nat := 0
  prog : HdmProg := ⟨0, 0, 0, 1, 256, 0⟩
  deriving DecidableEq, Repr

/-- A CXL.mem response: data with its poison flag, or Cmp. -/
inductive MemResp where
  | data (d : LineData) (poison : Bool)
  | cmp
  deriving DecidableEq, Repr

/-- A host request in flight (R31). -/
structure HostReq where
  id : Nat
  /-- 0 read, 1 write, 2 MemWrPtl. -/
  kind : Nat
  dpa : Nat
  /-- Region when it is STRICT (R207). -/
  strict : Option Nat
  data : LineData
  mask : BitVec 64
  resp : Option MemResp
  /-- A MemWrPtl whose line was written whole after it (R206). -/
  stale : Bool := false
  /-- A MemWrPtl that came with poison (R177). -/
  poison : Bool := false
  deriving DecidableEq, Repr

/-- A request that waits for the credits of a head: withheld (R245), or none left of 1,024 (R31). -/
structure HeldReq where
  kind : Nat
  hpa : Nat
  data : LineData
  poison : Bool
  mask : BitVec 64
  deriving DecidableEq, Repr

/-- An event record (R171): the message word, its short time-stamp and the CXL time-stamp. -/
structure EventRec where
  handle : Nat
  msg : Nat
  stamp : Nat
  time : Int
  deriving DecidableEq, Repr

/-- One head's copy of an event log. -/
structure EventLog where
  recs : List EventRec := []
  /-- Records made, from which handles are formed. -/
  made : Nat := 0
  /-- Records lost since the overflow flag was set, and the time-stamps of the first and the last. -/
  lost : Nat := 0
  firstLost : Int := 0
  lastLost : Int := 0
  deriving DecidableEq, Repr

/-- A slot copy under way (R214): its number, what it copies, the DPAs it copies from and to, and its lines. -/
structure Copy where
  id : Nat
  fromArchive : Bool
  src : Nat
  slot : Nat
  base : Nat
  dest : Nat
  lines : Nat
  /-- Next granule to read, granules passed over because a rank sleeps (R251), lines asked for and not yet returned. -/
  next : Nat := 0
  later : List Nat := []
  asked : List Nat := []
  /-- Lines copied, lines copied as poison, and whether it cannot go on (R215). -/
  done : Nat := 0
  bad : Nat := 0
  early : Bool := false
  deriving DecidableEq, Repr

/-- A pixel-window read being served (R153): source, write slot, row, first line, lines. -/
structure WinRead where
  src : Nat
  slot : Nat
  row : Nat
  line : Nat
  lines : Nat
  deriving DecidableEq, Repr

/-- A fence read that waits (R208): the number of the next request at its receipt, and per source how many items had to be taken by then; none
before its head gives credits for it (R245). -/
structure Fence where
  before : Option (Nat × List (Nat × Nat))
  deriving DecidableEq, Repr

/-- A CXL.io access that waits: a read for its head's credits or for the window read before it (R153, R245), a register write for the reads of its
path before it (R454). -/
inductive IoReq where
  | window (offset lines : Nat)
  | word (offset bytes : Nat)
  | doorbell (offset bytes : Nat)
  | reg (addr : Nat)
  | write (addr value : Nat)
  | frameLo
  | config (item : CfgItem)
  deriving DecidableEq, Repr

/-- An entry of a head's MSI-X table, and its pending bit (R182). -/
structure MsixEntry where
  addr : Nat := 0
  data : Nat := 0
  masked : Bool := true
  pending : Bool := false
  deriving DecidableEq, Repr

/-- One head. -/
structure Head where
  hdm : Vector Hdm 4 := Vector.replicate 4 {}
  bme : Bool := false
  /-- Max_Payload_Size of the function, bytes (R181). -/
  mps : Nat := 128
  /-- HP_n_CFG as it was when the head last began to train (R160). -/
  cfg : Nat := 936
  /-- Base addresses, MSI-X Enable and the MSI-X table of the function (R155, R182, R190). -/
  bars : Vector Nat 3 := Vector.replicate 3 0
  msixOn : Bool := false
  msixTab : Vector MsixEntry 4 := Vector.replicate 4 {}
  /-- Return code and payload of the last mailbox command (R168, R190). -/
  mbox : Option (Nat × List Byte) := none
  perst : Bool := false
  /-- Correctable-error status of the head's CXL RAS capability: link-level errors (R155). -/
  ras : Nat := 0
  tickEn : Bool := false
  frameHi : Nat := 0
  nextId : Nat := 0
  flight : List HostReq := []
  /-- MemWrPtl received whole whose link went down before their old data came: they are committed when it comes (Table HP-11). -/
  orphans : List HostReq := []
  held : List HeldReq := []
  /-- Request credits withheld since this core cycle, and the core cycle at which they were last returned (R31, R245). -/
  withheld : Option Nat := none
  released : Option Nat := none
  logs : Vector EventLog 4 := Vector.replicate 4 {}
  tsoff : Int := 0
  copyDst : Nat := 0
  copy : Option Copy := none
  /-- Slot copies started, from which their numbers are formed. -/
  copies : Nat := 0
  copyStatus : Nat := 0
  /-- Fence reads waiting to complete, and other CXL.io reads waiting, in order of receipt (R208, R245). -/
  fences : List Fence := []
  io : List IoReq := []
  /-- The event of R187 was raised in this start; the GUARD event of this tick was raised (R202). -/
  notReady : Bool := false
  guarded : Bool := false
  /-- A Get Poison List that returned part of its entries: its range and how many it returned (R172). -/
  poisonAt : Option (Nat × Nat × Nat) := none
  win : Option WinRead := none
  winAsked : List Nat := []
  winLines : List InLine := []
  winBlocks : List InBlock := []
  training : Bool := false
  deriving DecidableEq, Repr

end Sys2Proof.Machine
end

