-- ==== Sys2Proof/Machine/FcTable.lean ====
section
/-! DEFINITION. The 320 fault sources: which IDs are reserved, the default severity of each and the fatal class (15 R411, R412;
Tables FC-1, FC-2). -/
namespace Sys2Proof.Machine

/-- Default severity of a source, or none for a reserved ID (Tables FC-1, FC-2; severity codes of Table FC-3). -/
def sourceSev (s : Nat) : Option Nat :=
  if s < 0x009 then [2, 4, 2, 0, 0, 0, 2, 2, 2][s]?
  else if s < 0x010 then none
  else if s < 0x015 then [0, 2, 0, 2, 0][s - 0x010]?
  else if s < 0x020 then none
  else if s < 0x030 then some 0
  else if s < 0x040 then some 2
  else if s < 0x045 then [1, 3, 3, 0, 2][s - 0x040]?
  else if s < 0x050 then none
  else if s < 0x070 then [2, 0, 0, 0, 1][(s - 0x050) % 8]?
  else if s < 0x078 then some 0
  else if s < 0x07B then [2, 0, 0][s - 0x078]?
  else if s < 0x080 then none
  else if s < 0x100 then [1, 3, 1, 1, 2, 3, 2, 4][(s - 0x080) % 8]?
  else if s < 0x107 then [2, 1, 2, 2, 0, 0, 1][s - 0x100]?
  else if s < 0x110 then none
  else if s < 0x118 then [4, 2, 3, 4][(s - 0x110) % 4]?
  else if s < 0x11F then [0, 2, 0, 0, 2, 2, 0][s - 0x118]?
  else if s < 0x120 then none
  else if s < 0x12C then [2, 3, 3, 2, 2, 4, 4, 4, 3, 3, 4, 4][s - 0x120]?
  else if s < 0x130 then [0, 2, 0, 2][s - 0x12C]?
  else if s < 0x138 then [2, 2, 4, 0][(s - 0x130) % 4]?
  else if s < 0x13B then [0, 4, 4][s - 0x138]?
  else none

/-- A reserved source (R412). -/
def reservedSource (s : Nat) : Bool := (sourceSev s).isNone

/-- The fatal class (R411): default severity FATAL. -/
def fatalClass (s : Nat) : Bool := sourceSev s == some 4

end Sys2Proof.Machine
end

