-- ==== Sys2Proof/Machine/RegMap.lean ====
section
/-! DEFINITION. The register map: every field of every register table of the spec as a descriptor (word address and bits), and the
table of access types, roles and reset values (00_scope.md R10 to R15; the register tables of chapters 02 to 16). Registers
marked per path keep one copy per access path, at key + 2^24 × path number (R485). -/
namespace Sys2Proof.Machine

/-- The register blocks, one per chapter, each in a page of 65,536 word addresses of its own. -/
inductive Block where
  | mg
  | fc
  | ps
  | th
  | ck
  | tb
  | fs
  | le
  | tw
  | am
  | mi
  | dc
  | di
  | hp
  | wl
  deriving DecidableEq, Repr

/-- The page of a block: its word addresses are those with these upper bits. -/
def Block.page : Block → Nat
  | .mg => 0x00
  | .fc => 0x01
  | .ps => 0x02
  | .th => 0x03
  | .ck => 0x04
  | .tb => 0x05
  | .fs => 0x06
  | .le => 0x07
  | .tw => 0x08
  | .am => 0x09
  | .mi => 0x0A
  | .dc => 0x10
  | .di => 0x20
  | .hp => 0x30
  | .wl => 0x38

/-- A register field: its block, the word offset in the block, the bit range, and which copy of a per-path register it is in. -/
structure Fld where
  blk : Block
  off : Nat
  hi : Nat
  lo : Nat
  copy : Nat
  deriving DecidableEq, Repr

/-- The key of a field's word: its word address, and 2^24 for each copy of a per-path register. -/
def Fld.a (f : Fld) : Nat := f.blk.page * 0x10000 + f.off % 0x10000 + 0x1000000 * f.copy

/-- Access types of Table SC-6. -/
inductive Acc where
  | ro
  | rw
  | rwl
  | w1c
  | w1s
  | ros
  deriving DecidableEq, Repr

/-- One field of a register: bits, access, power-on value, and whether warm reset keeps it. -/
structure FldInfo where
  hi : Nat
  lo : Nat
  acc : Acc
  po : Nat
  keep : Bool
  deriving DecidableEq, Repr

/-- Whether a register has one copy, one per path, or one that only the SPI path reaches. -/
inductive RegKind where
  | shared
  | perPath
  | spiOnly
  deriving DecidableEq, Repr

/-- A register or family of registers: base word address, index strides and counts (largest stride first), the role
(0 any, 1 operator, 2 installer, 3 maker) and the fields. -/
structure RegTpl where
  base : Nat
  dims : List (Nat × Nat)
  role : Nat
  kind : RegKind
  fields : List FldInfo
  deriving DecidableEq, Repr

/-- The copy of a per-path field that belongs to a path. -/
def Fld.on (f : Fld) (p : Path) : Fld := { f with copy := p.idx }

/-! FS_STATUS -/
def F.FS_STATUS.CMD_LEVEL : Fld := ⟨.fs, 0x0, 22, 16, 0⟩
def F.FS_STATUS.TS_ACTIVE : Fld := ⟨.fs, 0x0, 8, 8, 0⟩
def F.FS_STATUS.LAST_ARMED : Fld := ⟨.fs, 0x0, 7, 6, 0⟩
def F.FS_STATUS.LAST_ACTIVE : Fld := ⟨.fs, 0x0, 5, 4, 0⟩
def F.FS_STATUS.STATE : Fld := ⟨.fs, 0x0, 3, 0, 0⟩
/-! FS_RATE -/
def F.FS_RATE.RATE_D : Fld := ⟨.fs, 0x1, 28, 18, 0⟩
def F.FS_RATE.RATE_N : Fld := ⟨.fs, 0x1, 17, 0, 0⟩
/-! FS_WINDOWS -/
def F.FS_WINDOWS.CUTOFF : Fld := ⟨.fs, 0x2, 27, 16, 0⟩
def F.FS_WINDOWS.WEND : Fld := ⟨.fs, 0x2, 11, 0, 0⟩
/-! FS_STITCH -/
def F.FS_STITCH.TICK_LEN : Fld := ⟨.fs, 0x3, 31, 14, 0⟩
def F.FS_STITCH.WINDOW : Fld := ⟨.fs, 0x3, 13, 12, 0⟩
def F.FS_STITCH.STITCH : Fld := ⟨.fs, 0x3, 11, 0, 0⟩
/-! FS_FRAME_LO -/
def F.FS_FRAME_LO.FRAME_LO : Fld := ⟨.fs, 0x4, 31, 0, 0⟩
/-! FS_FRAME_HI -/
def F.FS_FRAME_HI.FRAME_HI : Fld := ⟨.fs, 0x5, 31, 0, 0⟩
/-! FS_TICK_LO -/
def F.FS_TICK_LO.TICK_LO : Fld := ⟨.fs, 0x8, 31, 0, 0⟩
/-! FS_TICK_HI -/
def F.FS_TICK_HI.TICK_HI : Fld := ⟨.fs, 0x9, 31, 0, 0⟩
/-! FS_CMD_ARG -/
def F.FS_CMD_ARG.VALUE : Fld := ⟨.fs, 0xA, 31, 16, 0⟩
def F.FS_CMD_ARG.TARGET : Fld := ⟨.fs, 0xA, 8, 0, 0⟩
/-! FS_CMD_OP -/
def F.FS_CMD_OP.OPCODE : Fld := ⟨.fs, 0xB, 3, 0, 0⟩
/-! FS_CMD_RESULT -/
def F.FS_CMD_RESULT.DEFER : Fld := ⟨.fs, 0xC, 31, 16, 0⟩
def F.FS_CMD_RESULT.SEQ : Fld := ⟨.fs, 0xC, 15, 8, 0⟩
def F.FS_CMD_RESULT.RESULT : Fld := ⟨.fs, 0xC, 3, 0, 0⟩
/-! FS_LAST_CTRL -/
def F.FS_LAST_CTRL.SEL : Fld := ⟨.fs, 0x10, 5, 4, 0⟩
def F.FS_LAST_CTRL.CANCEL : Fld := ⟨.fs, 0x10, 2, 2, 0⟩
def F.FS_LAST_CTRL.ACTIVATE : Fld := ⟨.fs, 0x10, 1, 1, 0⟩
def F.FS_LAST_CTRL.ADMIT : Fld := ⟨.fs, 0x10, 0, 0, 0⟩
/-! FS_ADMIT_RESULT -/
def F.FS_ADMIT_RESULT.DONE : Fld := ⟨.fs, 0x11, 31, 31, 0⟩
def F.FS_ADMIT_RESULT.OK : Fld := ⟨.fs, 0x11, 30, 30, 0⟩
def F.FS_ADMIT_RESULT.LAST : Fld := ⟨.fs, 0x11, 29, 28, 0⟩
def F.FS_ADMIT_RESULT.UNIT : Fld := ⟨.fs, 0x11, 25, 16, 0⟩
def F.FS_ADMIT_RESULT.REASON : Fld := ⟨.fs, 0x11, 7, 0, 0⟩
/-! FS_ADMIT_UTIL -/
def F.FS_ADMIT_UTIL.SUB_TS1 : Fld := ⟨.fs, 0x12, 29, 26, 0⟩
def F.FS_ADMIT_UTIL.UTIL_TS1 : Fld := ⟨.fs, 0x12, 25, 16, 0⟩
def F.FS_ADMIT_UTIL.SUB_TS0 : Fld := ⟨.fs, 0x12, 13, 10, 0⟩
def F.FS_ADMIT_UTIL.UTIL_TS0 : Fld := ⟨.fs, 0x12, 9, 0, 0⟩
/-! FS_EVENT_CNT -/
def F.FS_EVENT_CNT.REPEAT : Fld := ⟨.fs, 0x13, 31, 16, 0⟩
def F.FS_EVENT_CNT.LATE_CMD : Fld := ⟨.fs, 0x13, 15, 0, 0⟩
/-! FS_SRC_STATE_n -/
def F.FS_SRC_STATE_n.NO_SLOT (n : Nat) : Fld := ⟨.fs, 0x100 + 0x4 * n, 31, 31, 0⟩
def F.FS_SRC_STATE_n.INCOMPLETE (n : Nat) : Fld := ⟨.fs, 0x100 + 0x4 * n, 30, 30, 0⟩
def F.FS_SRC_STATE_n.PREV_PRESENT (n : Nat) : Fld := ⟨.fs, 0x100 + 0x4 * n, 29, 29, 0⟩
def F.FS_SRC_STATE_n.FROZEN (n : Nat) : Fld := ⟨.fs, 0x100 + 0x4 * n, 28, 28, 0⟩
def F.FS_SRC_STATE_n.DELAY (n : Nat) : Fld := ⟨.fs, 0x100 + 0x4 * n, 27, 16, 0⟩
def F.FS_SRC_STATE_n.PROD_SLOT (n : Nat) : Fld := ⟨.fs, 0x100 + 0x4 * n, 15, 0, 0⟩
/-! FS_SRC_PUB_n -/
def F.FS_SRC_PUB_n.FREE (n : Nat) : Fld := ⟨.fs, 0x101 + 0x4 * n, 31, 16, 0⟩
def F.FS_SRC_PUB_n.LAST_PUB (n : Nat) : Fld := ⟨.fs, 0x101 + 0x4 * n, 15, 0, 0⟩
/-! FS_SRC_CNT_n -/
def F.FS_SRC_CNT_n.REFUSED (n : Nat) : Fld := ⟨.fs, 0x102 + 0x4 * n, 31, 24, 0⟩
def F.FS_SRC_CNT_n.SUPERSEDED (n : Nat) : Fld := ⟨.fs, 0x102 + 0x4 * n, 23, 16, 0⟩
def F.FS_SRC_CNT_n.LATE_PUB (n : Nat) : Fld := ⟨.fs, 0x102 + 0x4 * n, 15, 0, 0⟩
/-! LE_LUT_CTRL -/
def F.LE_LUT_CTRL.COMMIT : Fld := ⟨.le, 0x0, 31, 31, 0⟩
def F.LE_LUT_CTRL.COPYING : Fld := ⟨.le, 0x0, 30, 30, 0⟩
def F.LE_LUT_CTRL.ACTIVE_BANK : Fld := ⟨.le, 0x0, 29, 29, 0⟩
def F.LE_LUT_CTRL.TABLE : Fld := ⟨.le, 0x0, 22, 16, 0⟩
def F.LE_LUT_CTRL.ENTRY : Fld := ⟨.le, 0x0, 12, 0, 0⟩
/-! LE_LUT_DATA -/
def F.LE_LUT_DATA.DATA : Fld := ⟨.le, 0x1, 19, 0, 0⟩
/-! LE_PANIC_CFG -/
def F.LE_PANIC_CFG.PANIC_MAX : Fld := ⟨.le, 0x2, 31, 24, 0⟩
def F.LE_PANIC_CFG.PANIC_HI : Fld := ⟨.le, 0x2, 23, 12, 0⟩
def F.LE_PANIC_CFG.PANIC_LO : Fld := ⟨.le, 0x2, 11, 0, 0⟩
/-! LE_RING_WAIT -/
def F.LE_RING_WAIT.RING_WAIT : Fld := ⟨.le, 0x3, 11, 0, 0⟩
/-! LE_RING_STATE_n -/
def F.LE_RING_STATE_n.STATE (n : Nat) : Fld := ⟨.le, 0x400 + 0x2 * n, 31, 30, 0⟩
def F.LE_RING_STATE_n.HEAD (n : Nat) : Fld := ⟨.le, 0x400 + 0x2 * n, 29, 28, 0⟩
def F.LE_RING_STATE_n.USED (n : Nat) : Fld := ⟨.le, 0x400 + 0x2 * n, 24, 0, 0⟩
/-! LE_RING_SKIP_n -/
def F.LE_RING_SKIP_n.SKIPS (n : Nat) : Fld := ⟨.le, 0x401 + 0x2 * n, 31, 0, 0⟩
/-! LE_n_CTRL -/
def F.LE_n_CTRL.ENABLE (n : Nat) : Fld := ⟨.le, 0x1000 + 0x800 * n, 1, 1, 0⟩
def F.LE_n_CTRL.FENCE (n : Nat) : Fld := ⟨.le, 0x1000 + 0x800 * n, 0, 0, 0⟩
/-! LE_n_STATUS -/
def F.LE_n_STATUS.EPOCH (n : Nat) : Fld := ⟨.le, 0x1001 + 0x800 * n, 31, 24, 0⟩
def F.LE_n_STATUS.OPEN (n : Nat) : Fld := ⟨.le, 0x1001 + 0x800 * n, 23, 20, 0⟩
def F.LE_n_STATUS.CAUSE (n : Nat) : Fld := ⟨.le, 0x1001 + 0x800 * n, 19, 18, 0⟩
def F.LE_n_STATUS.PANIC (n : Nat) : Fld := ⟨.le, 0x1001 + 0x800 * n, 17, 17, 0⟩
def F.LE_n_STATUS.MOVED_IN (n : Nat) : Fld := ⟨.le, 0x1001 + 0x800 * n, 16, 16, 0⟩
def F.LE_n_STATUS.CUR_STREAM (n : Nat) : Fld := ⟨.le, 0x1001 + 0x800 * n, 12, 4, 0⟩
def F.LE_n_STATUS.STATE (n : Nat) : Fld := ⟨.le, 0x1001 + 0x800 * n, 3, 0, 0⟩
/-! LE_n_COUNT -/
def F.LE_n_COUNT.SUBST_CHUNKS (n : Nat) : Fld := ⟨.le, 0x1002 + 0x800 * n, 31, 16, 0⟩
def F.LE_n_COUNT.PANIC_STITCH (n : Nat) : Fld := ⟨.le, 0x1002 + 0x800 * n, 15, 0, 0⟩
/-! LE_n_LAMPS -/
def F.LE_n_LAMPS.LAMPS (n : Nat) : Fld := ⟨.le, 0x1003 + 0x800 * n, 31, 0, 0⟩
/-! TW_ENABLE -/
def F.TW_ENABLE.T4_EN : Fld := ⟨.tw, 0x0, 2, 2, 0⟩
def F.TW_ENABLE.T6_EN : Fld := ⟨.tw, 0x0, 1, 1, 0⟩
def F.TW_ENABLE.TL_EN : Fld := ⟨.tw, 0x0, 0, 0, 0⟩
/-! TW_ASM_A -/
def F.TW_ASM_A.USED : Fld := ⟨.tw, 0x1, 20, 0, 0⟩
/-! TW_ASM_B -/
def F.TW_ASM_B.USED : Fld := ⟨.tw, 0x2, 20, 0, 0⟩
/-! TW_DEC_ERR -/
def F.TW_DEC_ERR.HDR_ERR : Fld := ⟨.tw, 0x3, 31, 16, 0⟩
def F.TW_DEC_ERR.MAP_ERR : Fld := ⟨.tw, 0x3, 15, 0, 0⟩
/-! TW_SRC_SEL_n -/
def F.TW_SRC_SEL_n.PASS_OPEN (n : Nat) : Fld := ⟨.tw, 0x100 + 0x4 * n, 31, 31, 0⟩
def F.TW_SRC_SEL_n.PASS_DONE (n : Nat) : Fld := ⟨.tw, 0x100 + 0x4 * n, 30, 30, 0⟩
def F.TW_SRC_SEL_n.BROW (n : Nat) : Fld := ⟨.tw, 0x100 + 0x4 * n, 27, 16, 0⟩
def F.TW_SRC_SEL_n.WSLOT (n : Nat) : Fld := ⟨.tw, 0x100 + 0x4 * n, 15, 0, 0⟩
/-! TW_SRC_STAT_n -/
def F.TW_SRC_STAT_n.MAX_QEXP (n : Nat) : Fld := ⟨.tw, 0x101 + 0x4 * n, 31, 28, 0⟩
def F.TW_SRC_STAT_n.LOSSY (n : Nat) : Fld := ⟨.tw, 0x101 + 0x4 * n, 21, 0, 0⟩
/-! TW_SRC_DROP_n -/
def F.TW_SRC_DROP_n.FORMAT (n : Nat) : Fld := ⟨.tw, 0x102 + 0x4 * n, 31, 24, 0⟩
def F.TW_SRC_DROP_n.ORDER (n : Nat) : Fld := ⟨.tw, 0x102 + 0x4 * n, 23, 16, 0⟩
def F.TW_SRC_DROP_n.RANGE (n : Nat) : Fld := ⟨.tw, 0x102 + 0x4 * n, 15, 8, 0⟩
def F.TW_SRC_DROP_n.HEAD (n : Nat) : Fld := ⟨.tw, 0x102 + 0x4 * n, 7, 0, 0⟩
/-! TW_SRC_SIZE_n -/
def F.TW_SRC_SIZE_n.SECTORS (n : Nat) : Fld := ⟨.tw, 0x103 + 0x4 * n, 31, 0, 0⟩
/-! HP_n_CFG -/
def F.HP_n_CFG.EVT_MIN (n : Nat) : Fld := ⟨.hp, 0x0 + 0x1000 * n, 11, 9, 0⟩
def F.HP_n_CFG.ENABLE (n : Nat) : Fld := ⟨.hp, 0x0 + 0x1000 * n, 8, 8, 0⟩
def F.HP_n_CFG.MAX_RATE (n : Nat) : Fld := ⟨.hp, 0x0 + 0x1000 * n, 7, 6, 0⟩
def F.HP_n_CFG.MAX_WIDTH (n : Nat) : Fld := ⟨.hp, 0x0 + 0x1000 * n, 5, 4, 0⟩
def F.HP_n_CFG.FLIT68 (n : Nat) : Fld := ⟨.hp, 0x0 + 0x1000 * n, 3, 3, 0⟩
/-! HP_n_LINK -/
def F.HP_n_LINK.UP (n : Nat) : Fld := ⟨.hp, 0x1 + 0x1000 * n, 31, 31, 0⟩
def F.HP_n_LINK.RATE (n : Nat) : Fld := ⟨.hp, 0x1 + 0x1000 * n, 30, 29, 0⟩
def F.HP_n_LINK.WIDTH (n : Nat) : Fld := ⟨.hp, 0x1 + 0x1000 * n, 28, 27, 0⟩
def F.HP_n_LINK.FLIT256 (n : Nat) : Fld := ⟨.hp, 0x1 + 0x1000 * n, 26, 26, 0⟩
def F.HP_n_LINK.RECOVERY (n : Nat) : Fld := ⟨.hp, 0x1 + 0x1000 * n, 25, 25, 0⟩
def F.HP_n_LINK.DOWN_COUNT (n : Nat) : Fld := ⟨.hp, 0x1 + 0x1000 * n, 15, 0, 0⟩
/-! HP_n_MEDIA -/
def F.HP_n_MEDIA.MEDIA_STATUS (n : Nat) : Fld := ⟨.hp, 0x2 + 0x1000 * n, 31, 30, 0⟩
def F.HP_n_MEDIA.MB_READY (n : Nat) : Fld := ⟨.hp, 0x2 + 0x1000 * n, 29, 29, 0⟩
def F.HP_n_MEDIA.MEM_ACTIVE (n : Nat) : Fld := ⟨.hp, 0x2 + 0x1000 * n, 28, 28, 0⟩
def F.HP_n_MEDIA.FATAL (n : Nat) : Fld := ⟨.hp, 0x2 + 0x1000 * n, 27, 27, 0⟩
def F.HP_n_MEDIA.HDM_COMMITTED (n : Nat) : Fld := ⟨.hp, 0x2 + 0x1000 * n, 23, 20, 0⟩
/-! HP_n_INFLIGHT -/
def F.HP_n_INFLIGHT.DEVLOAD (n : Nat) : Fld := ⟨.hp, 0x3 + 0x1000 * n, 31, 30, 0⟩
def F.HP_n_INFLIGHT.PEAK (n : Nat) : Fld := ⟨.hp, 0x3 + 0x1000 * n, 21, 11, 0⟩
def F.HP_n_INFLIGHT.NOW (n : Nat) : Fld := ⟨.hp, 0x3 + 0x1000 * n, 10, 0, 0⟩
/-! HP_n_CREDIT -/
def F.HP_n_CREDIT.WITHHELD (n : Nat) : Fld := ⟨.hp, 0x4 + 0x1000 * n, 31, 0, 0⟩
/-! HP_n_REQ_ERR -/
def F.HP_n_REQ_ERR.NOT_READY (n : Nat) : Fld := ⟨.hp, 0x5 + 0x1000 * n, 31, 24, 0⟩
def F.HP_n_REQ_ERR.UNMAPPED (n : Nat) : Fld := ⟨.hp, 0x5 + 0x1000 * n, 23, 16, 0⟩
def F.HP_n_REQ_ERR.PTL_POISON (n : Nat) : Fld := ⟨.hp, 0x5 + 0x1000 * n, 15, 8, 0⟩
def F.HP_n_REQ_ERR.DB_FORMAT (n : Nat) : Fld := ⟨.hp, 0x5 + 0x1000 * n, 7, 0, 0⟩
/-! HP_n_POISON -/
def F.HP_n_POISON.POISON_RESP (n : Nat) : Fld := ⟨.hp, 0x6 + 0x1000 * n, 31, 0, 0⟩
/-! HP_n_LOSS -/
def F.HP_n_LOSS.MEM_KEPT (n : Nat) : Fld := ⟨.hp, 0x7 + 0x1000 * n, 31, 22, 0⟩
def F.HP_n_LOSS.MEM_DROPPED (n : Nat) : Fld := ⟨.hp, 0x7 + 0x1000 * n, 21, 12, 0⟩
def F.HP_n_LOSS.IO_DROPPED (n : Nat) : Fld := ⟨.hp, 0x7 + 0x1000 * n, 11, 0, 0⟩
/-! HP_n_MW -/
def F.HP_n_MW.ROLE (n : Nat) : Fld := ⟨.hp, 0x8 + 0x1000 * n, 31, 30, 0⟩
def F.HP_n_MW.PAGE (n : Nat) : Fld := ⟨.hp, 0x8 + 0x1000 * n, 5, 0, 0⟩
/-! HP_n_TSOFF_LO -/
def F.HP_n_TSOFF_LO.OFFSET_LO (n : Nat) : Fld := ⟨.hp, 0x9 + 0x1000 * n, 31, 0, 0⟩
/-! HP_n_TSOFF_HI -/
def F.HP_n_TSOFF_HI.OFFSET_HI (n : Nat) : Fld := ⟨.hp, 0xA + 0x1000 * n, 31, 0, 0⟩
/-! HP_n_EVT -/
def F.HP_n_EVT.OVERFLOW (n : Nat) : Fld := ⟨.hp, 0xB + 0x1000 * n, 31, 28, 0⟩
def F.HP_n_EVT.DROPPED (n : Nat) : Fld := ⟨.hp, 0xB + 0x1000 * n, 15, 0, 0⟩
/-! AM_STATUS -/
def F.AM_STATUS.SPLIT : Fld := ⟨.am, 0x0, 17, 17, 0⟩
def F.AM_STATUS.FILL_BUSY : Fld := ⟨.am, 0x0, 16, 16, 0⟩
def F.AM_STATUS.TABLE : Fld := ⟨.am, 0x0, 9, 8, 0⟩
def F.AM_STATUS.N_REGION_M1 : Fld := ⟨.am, 0x0, 7, 0, 0⟩
/-! AM_SUB_CAP -/
def F.AM_SUB_CAP.UNITS_B : Fld := ⟨.am, 0x1, 31, 18, 0⟩
def F.AM_SUB_CAP.DENSITY : Fld := ⟨.am, 0x1, 17, 16, 0⟩
def F.AM_SUB_CAP.RANKS2 : Fld := ⟨.am, 0x1, 15, 15, 0⟩
def F.AM_SUB_CAP.UNITS_A : Fld := ⟨.am, 0x1, 13, 0, 0⟩
/-! AM_HS_m_k -/
def F.AM_HS_m_k.MASK (m k : Nat) : Fld := ⟨.am, 0x10 + 0x10 * m + k, 19, 0, 0⟩
/-! AM_HEAD_n_ERR -/
def F.AM_HEAD_n_ERR.RD_DENIED (n : Nat) : Fld := ⟨.am, 0x80 + 0x2 * n, 31, 22, 0⟩
def F.AM_HEAD_n_ERR.WR_DENIED (n : Nat) : Fld := ⟨.am, 0x80 + 0x2 * n, 21, 12, 0⟩
def F.AM_HEAD_n_ERR.UNREACH (n : Nat) : Fld := ⟨.am, 0x80 + 0x2 * n, 11, 6, 0⟩
def F.AM_HEAD_n_ERR.GUARD_DROP (n : Nat) : Fld := ⟨.am, 0x80 + 0x2 * n, 5, 0, 0⟩
/-! AM_HEAD_n_FENCE -/
def F.AM_HEAD_n_FENCE.FENCES (n : Nat) : Fld := ⟨.am, 0x81 + 0x2 * n, 31, 16, 0⟩
def F.AM_HEAD_n_FENCE.MAX_10NS (n : Nat) : Fld := ⟨.am, 0x81 + 0x2 * n, 7, 0, 0⟩
/-! AM_RGN_r_A -/
def F.AM_RGN_r_A.SIZE (r : Nat) : Fld := ⟨.am, 0x1000 + 0x4 * r, 29, 16, 0⟩
def F.AM_RGN_r_A.BASE (r : Nat) : Fld := ⟨.am, 0x1000 + 0x4 * r, 12, 0, 0⟩
/-! AM_RGN_r_B -/
def F.AM_RGN_r_B.FILLING (r : Nat) : Fld := ⟨.am, 0x1001 + 0x4 * r, 18, 18, 0⟩
def F.AM_RGN_r_B.GUARD (r : Nat) : Fld := ⟨.am, 0x1001 + 0x4 * r, 17, 17, 0⟩
def F.AM_RGN_r_B.STRICT (r : Nat) : Fld := ⟨.am, 0x1001 + 0x4 * r, 16, 16, 0⟩
def F.AM_RGN_r_B.WR_HEADS (r : Nat) : Fld := ⟨.am, 0x1001 + 0x4 * r, 15, 12, 0⟩
def F.AM_RGN_r_B.RD_HEADS (r : Nat) : Fld := ⟨.am, 0x1001 + 0x4 * r, 11, 8, 0⟩
def F.AM_RGN_r_B.TWILL (r : Nat) : Fld := ⟨.am, 0x1001 + 0x4 * r, 7, 6, 0⟩
def F.AM_RGN_r_B.HSET (r : Nat) : Fld := ⟨.am, 0x1001 + 0x4 * r, 5, 4, 0⟩
def F.AM_RGN_r_B.IL (r : Nat) : Fld := ⟨.am, 0x1001 + 0x4 * r, 3, 2, 0⟩
def F.AM_RGN_r_B.CLASS (r : Nat) : Fld := ⟨.am, 0x1001 + 0x4 * r, 1, 0, 0⟩
/-! AM_RGN_r_C -/
def F.AM_RGN_r_C.SUB_BASE (r : Nat) : Fld := ⟨.am, 0x1002 + 0x4 * r, 12, 0, 0⟩
/-! DC_n_CFG -/
def F.DC_n_CFG.ARCH_IDLE (n : Nat) : Fld := ⟨.dc, 0x0 + 0x1000 * n, 31, 24, 0⟩
def F.DC_n_CFG.BULK_AGE (n : Nat) : Fld := ⟨.dc, 0x0 + 0x1000 * n, 23, 16, 0⟩
def F.DC_n_CFG.TS_REQ (n : Nat) : Fld := ⟨.dc, 0x0 + 0x1000 * n, 3, 2, 0⟩
def F.DC_n_CFG.ARCH_SLEEP_EN (n : Nat) : Fld := ⟨.dc, 0x0 + 0x1000 * n, 1, 1, 0⟩
def F.DC_n_CFG.REF_AB (n : Nat) : Fld := ⟨.dc, 0x0 + 0x1000 * n, 0, 0, 0⟩
/-! DC_n_STATUS -/
def F.DC_n_STATUS.STATE (n : Nat) : Fld := ⟨.dc, 0x1 + 0x1000 * n, 31, 28, 0⟩
def F.DC_n_STATUS.TS_ACTIVE (n : Nat) : Fld := ⟨.dc, 0x1 + 0x1000 * n, 27, 27, 0⟩
def F.DC_n_STATUS.TS_PENDING (n : Nat) : Fld := ⟨.dc, 0x1 + 0x1000 * n, 26, 26, 0⟩
def F.DC_n_STATUS.HOT (n : Nat) : Fld := ⟨.dc, 0x1 + 0x1000 * n, 25, 25, 0⟩
def F.DC_n_STATUS.DRAIN (n : Nat) : Fld := ⟨.dc, 0x1 + 0x1000 * n, 24, 24, 0⟩
def F.DC_n_STATUS.VERIFY (n : Nat) : Fld := ⟨.dc, 0x1 + 0x1000 * n, 23, 23, 0⟩
def F.DC_n_STATUS.RANK1_ASLEEP (n : Nat) : Fld := ⟨.dc, 0x1 + 0x1000 * n, 22, 22, 0⟩
def F.DC_n_STATUS.RFM_REQ (n : Nat) : Fld := ⟨.dc, 0x1 + 0x1000 * n, 21, 21, 0⟩
def F.DC_n_STATUS.BULK_CAPPED (n : Nat) : Fld := ⟨.dc, 0x1 + 0x1000 * n, 20, 20, 0⟩
/-! DC_n_QUEUE -/
def F.DC_n_QUEUE.WRITE (n : Nat) : Fld := ⟨.dc, 0x2 + 0x1000 * n, 31, 24, 0⟩
def F.DC_n_QUEUE.FRAME (n : Nat) : Fld := ⟨.dc, 0x2 + 0x1000 * n, 23, 16, 0⟩
def F.DC_n_QUEUE.BULK (n : Nat) : Fld := ⟨.dc, 0x2 + 0x1000 * n, 15, 8, 0⟩
def F.DC_n_QUEUE.WRITE_PEAK (n : Nat) : Fld := ⟨.dc, 0x2 + 0x1000 * n, 7, 0, 0⟩
/-! DC_n_AGE -/
def F.DC_n_AGE.PROMOTED (n : Nat) : Fld := ⟨.dc, 0x3 + 0x1000 * n, 31, 16, 0⟩
def F.DC_n_AGE.FRAME_MAX (n : Nat) : Fld := ⟨.dc, 0x3 + 0x1000 * n, 15, 8, 0⟩
def F.DC_n_AGE.BULK_MAX (n : Nat) : Fld := ⟨.dc, 0x3 + 0x1000 * n, 7, 0, 0⟩
/-! DC_n_REF -/
def F.DC_n_REF.KEEPER (n : Nat) : Fld := ⟨.dc, 0x4 + 0x1000 * n, 31, 16, 0⟩
def F.DC_n_REF.HOT_ENTRIES (n : Nat) : Fld := ⟨.dc, 0x4 + 0x1000 * n, 15, 8, 0⟩
def F.DC_n_REF.MR4_MAX (n : Nat) : Fld := ⟨.dc, 0x4 + 0x1000 * n, 2, 0, 0⟩
/-! DC_n_NBR -/
def F.DC_n_NBR.K (n : Nat) : Fld := ⟨.dc, 0x5 + 0x1000 * n, 31, 28, 0⟩
def F.DC_n_NBR.COUNT (n : Nat) : Fld := ⟨.dc, 0x5 + 0x1000 * n, 27, 0, 0⟩
/-! DC_n_RFM -/
def F.DC_n_RFM.RFM (n : Nat) : Fld := ⟨.dc, 0x6 + 0x1000 * n, 31, 0, 0⟩
/-! DC_n_CRC -/
def F.DC_n_CRC.ALERTS (n : Nat) : Fld := ⟨.dc, 0x7 + 0x1000 * n, 31, 16, 0⟩
def F.DC_n_CRC.REPLAY_FAIL (n : Nat) : Fld := ⟨.dc, 0x7 + 0x1000 * n, 15, 8, 0⟩
def F.DC_n_CRC.VERIFY_UNCOR (n : Nat) : Fld := ⟨.dc, 0x7 + 0x1000 * n, 7, 0, 0⟩
/-! DC_n_FCHG -/
def F.DC_n_FCHG.CHANGES (n : Nat) : Fld := ⟨.dc, 0x8 + 0x1000 * n, 31, 16, 0⟩
def F.DC_n_FCHG.LAST_US (n : Nat) : Fld := ⟨.dc, 0x8 + 0x1000 * n, 15, 8, 0⟩
def F.DC_n_FCHG.FAILED (n : Nat) : Fld := ⟨.dc, 0x8 + 0x1000 * n, 7, 1, 0⟩
/-! DC_n_TS_m_A -/
def F.DC_n_TS_m_A.CL (m n : Nat) : Fld := ⟨.dc, 0x10 + 0x4 * m + 0x1000 * n, 31, 24, 0⟩
def F.DC_n_TS_m_A.TRCD (m n : Nat) : Fld := ⟨.dc, 0x10 + 0x4 * m + 0x1000 * n, 23, 16, 0⟩
def F.DC_n_TS_m_A.TRP (m n : Nat) : Fld := ⟨.dc, 0x10 + 0x4 * m + 0x1000 * n, 15, 8, 0⟩
def F.DC_n_TS_m_A.RATE (m n : Nat) : Fld := ⟨.dc, 0x10 + 0x4 * m + 0x1000 * n, 2, 0, 0⟩
/-! DC_n_TS_m_B -/
def F.DC_n_TS_m_B.TRC (m n : Nat) : Fld := ⟨.dc, 0x11 + 0x4 * m + 0x1000 * n, 31, 23, 0⟩
def F.DC_n_TS_m_B.TRAS (m n : Nat) : Fld := ⟨.dc, 0x11 + 0x4 * m + 0x1000 * n, 22, 15, 0⟩
def F.DC_n_TS_m_B.TWR (m n : Nat) : Fld := ⟨.dc, 0x11 + 0x4 * m + 0x1000 * n, 14, 7, 0⟩
def F.DC_n_TS_m_B.TRTP (m n : Nat) : Fld := ⟨.dc, 0x11 + 0x4 * m + 0x1000 * n, 6, 0, 0⟩
/-! DC_n_TS_m_C -/
def F.DC_n_TS_m_C.TFAW (m n : Nat) : Fld := ⟨.dc, 0x12 + 0x4 * m + 0x1000 * n, 31, 24, 0⟩
def F.DC_n_TS_m_C.TWTR_L (m n : Nat) : Fld := ⟨.dc, 0x12 + 0x4 * m + 0x1000 * n, 23, 16, 0⟩
def F.DC_n_TS_m_C.TRRD_L (m n : Nat) : Fld := ⟨.dc, 0x12 + 0x4 * m + 0x1000 * n, 15, 8, 0⟩
def F.DC_n_TS_m_C.TCCD_L (m n : Nat) : Fld := ⟨.dc, 0x12 + 0x4 * m + 0x1000 * n, 7, 0, 0⟩
/-! DC_n_TS_m_D -/
def F.DC_n_TS_m_D.TRFC1 (m n : Nat) : Fld := ⟨.dc, 0x13 + 0x4 * m + 0x1000 * n, 31, 20, 0⟩
def F.DC_n_TS_m_D.TRFCSB (m n : Nat) : Fld := ⟨.dc, 0x13 + 0x4 * m + 0x1000 * n, 19, 8, 0⟩
def F.DC_n_TS_m_D.TRRD_S (m n : Nat) : Fld := ⟨.dc, 0x13 + 0x4 * m + 0x1000 * n, 7, 4, 0⟩
def F.DC_n_TS_m_D.TWTR_S (m n : Nat) : Fld := ⟨.dc, 0x13 + 0x4 * m + 0x1000 * n, 3, 0, 0⟩
/-! DC_WAKE -/
def F.DC_WAKE.N (h : Nat) : Fld := ⟨.dc, 0x20 + 0x8000 * h, 31, 24, 0⟩
def F.DC_WAKE.WAITS (h : Nat) : Fld := ⟨.dc, 0x20 + 0x8000 * h, 15, 0, 0⟩
/-! DI_n_CTRL -/
def F.DI_n_CTRL.CLEAR_MARKS (n : Nat) : Fld := ⟨.di, 0x0 + 0x1000 * n, 2, 2, 0⟩
def F.DI_n_CTRL.RETIRE (n : Nat) : Fld := ⟨.di, 0x0 + 0x1000 * n, 1, 1, 0⟩
def F.DI_n_CTRL.RETRAIN (n : Nat) : Fld := ⟨.di, 0x0 + 0x1000 * n, 0, 0, 0⟩
/-! DI_n_STATUS -/
def F.DI_n_STATUS.STATE (n : Nat) : Fld := ⟨.di, 0x1 + 0x1000 * n, 31, 28, 0⟩
def F.DI_n_STATUS.ERASURE (n : Nat) : Fld := ⟨.di, 0x1 + 0x1000 * n, 27, 27, 0⟩
def F.DI_n_STATUS.REBUILDING (n : Nat) : Fld := ⟨.di, 0x1 + 0x1000 * n, 26, 26, 0⟩
def F.DI_n_STATUS.RATE0 (n : Nat) : Fld := ⟨.di, 0x1 + 0x1000 * n, 25, 23, 0⟩
def F.DI_n_STATUS.RATE1 (n : Nat) : Fld := ⟨.di, 0x1 + 0x1000 * n, 22, 20, 0⟩
def F.DI_n_STATUS.FAIL_V (n : Nat) : Fld := ⟨.di, 0x1 + 0x1000 * n, 19, 19, 0⟩
def F.DI_n_STATUS.FAIL_DEV (n : Nat) : Fld := ⟨.di, 0x1 + 0x1000 * n, 18, 14, 0⟩
/-! DI_n_LIMITS -/
def F.DI_n_LIMITS.MIN_EYE_W (n : Nat) : Fld := ⟨.di, 0x2 + 0x1000 * n, 31, 24, 0⟩
def F.DI_n_LIMITS.MIN_EYE_H (n : Nat) : Fld := ⟨.di, 0x2 + 0x1000 * n, 23, 16, 0⟩
def F.DI_n_LIMITS.TRACK_LIMIT (n : Nat) : Fld := ⟨.di, 0x2 + 0x1000 * n, 15, 8, 0⟩
def F.DI_n_LIMITS.TRACK_JUMP (n : Nat) : Fld := ⟨.di, 0x2 + 0x1000 * n, 7, 0, 0⟩
/-! DI_n_CA -/
def F.DI_n_CA.CA_VREF (n : Nat) : Fld := ⟨.di, 0x3 + 0x1000 * n, 31, 24, 0⟩
def F.DI_n_CA.CS_DLY (n : Nat) : Fld := ⟨.di, 0x3 + 0x1000 * n, 23, 12, 0⟩
def F.DI_n_CA.CA_DLY (n : Nat) : Fld := ⟨.di, 0x3 + 0x1000 * n, 11, 0, 0⟩
/-! DI_n_TRACK -/
def F.DI_n_TRACK.RUNS (n : Nat) : Fld := ⟨.di, 0x4 + 0x1000 * n, 31, 16, 0⟩
def F.DI_n_TRACK.RETRAIN_REQ (n : Nat) : Fld := ⟨.di, 0x4 + 0x1000 * n, 15, 8, 0⟩
def F.DI_n_TRACK.JUMPS (n : Nat) : Fld := ⟨.di, 0x4 + 0x1000 * n, 7, 0, 0⟩
/-! DI_n_RETRAIN -/
def F.DI_n_RETRAIN.STEPS (n : Nat) : Fld := ⟨.di, 0x5 + 0x1000 * n, 31, 16, 0⟩
def F.DI_n_RETRAIN.PENDING (n : Nat) : Fld := ⟨.di, 0x5 + 0x1000 * n, 15, 12, 0⟩
def F.DI_n_RETRAIN.LAST_KIND (n : Nat) : Fld := ⟨.di, 0x5 + 0x1000 * n, 11, 8, 0⟩
def F.DI_n_RETRAIN.LAST_US (n : Nat) : Fld := ⟨.di, 0x5 + 0x1000 * n, 7, 0, 0⟩
/-! DI_n_REBUILD -/
def F.DI_n_REBUILD.STATE (n : Nat) : Fld := ⟨.di, 0x6 + 0x1000 * n, 31, 30, 0⟩
def F.DI_n_REBUILD.CURSOR (n : Nat) : Fld := ⟨.di, 0x6 + 0x1000 * n, 29, 16, 0⟩
def F.DI_n_REBUILD.POISONED (n : Nat) : Fld := ⟨.di, 0x6 + 0x1000 * n, 15, 0, 0⟩
/-! DI_n_DEV_m_A -/
def F.DI_n_DEV_m_A.FAILED (m n : Nat) : Fld := ⟨.di, 0x100 + 0x2 * m + 0x1000 * n, 31, 31, 0⟩
def F.DI_n_DEV_m_A.EYE_W (m n : Nat) : Fld := ⟨.di, 0x100 + 0x2 * m + 0x1000 * n, 30, 22, 0⟩
def F.DI_n_DEV_m_A.WR_DLY (m n : Nat) : Fld := ⟨.di, 0x100 + 0x2 * m + 0x1000 * n, 21, 11, 0⟩
def F.DI_n_DEV_m_A.RD_DLY (m n : Nat) : Fld := ⟨.di, 0x100 + 0x2 * m + 0x1000 * n, 10, 0, 0⟩
/-! DI_n_DEV_m_B -/
def F.DI_n_DEV_m_B.TRACK_ADJ (m n : Nat) : Fld := ⟨.di, 0x101 + 0x2 * m + 0x1000 * n, 31, 24, 0⟩
def F.DI_n_DEV_m_B.EYE_H (m n : Nat) : Fld := ⟨.di, 0x101 + 0x2 * m + 0x1000 * n, 23, 16, 0⟩
def F.DI_n_DEV_m_B.PHY_VREF (m n : Nat) : Fld := ⟨.di, 0x101 + 0x2 * m + 0x1000 * n, 15, 8, 0⟩
def F.DI_n_DEV_m_B.DRAM_VREF (m n : Nat) : Fld := ⟨.di, 0x101 + 0x2 * m + 0x1000 * n, 7, 0, 0⟩
/-! DI_SPARE -/
def F.DI_SPARE.SPARE_EN (h : Nat) : Fld := ⟨.di, 0x20 + 0x8000 * h, 31, 31, 0⟩
def F.DI_SPARE.ACTIVE (h : Nat) : Fld := ⟨.di, 0x20 + 0x8000 * h, 30, 30, 0⟩
def F.DI_SPARE.IN_USE (h : Nat) : Fld := ⟨.di, 0x20 + 0x8000 * h, 29, 29, 0⟩
def F.DI_SPARE.SUBCH (h : Nat) : Fld := ⟨.di, 0x20 + 0x8000 * h, 27, 24, 0⟩
def F.DI_SPARE.RATE (h : Nat) : Fld := ⟨.di, 0x20 + 0x8000 * h, 7, 0, 0⟩
/-! MI_STATUS -/
def F.MI_STATUS.SELFTEST_FAIL : Fld := ⟨.mi, 0x0, 31, 16, 0⟩
def F.MI_STATUS.FILL_A : Fld := ⟨.mi, 0x0, 9, 8, 0⟩
def F.MI_STATUS.FILL_B : Fld := ⟨.mi, 0x0, 7, 6, 0⟩
def F.MI_STATUS.FAST_OPEN : Fld := ⟨.mi, 0x0, 5, 5, 0⟩
def F.MI_STATUS.FILL_PCT : Fld := ⟨.mi, 0x0, 4, 0, 0⟩
/-! MI_CFG -/
def F.MI_CFG.FAST_CLOSE : Fld := ⟨.mi, 0x1, 1, 1, 0⟩
def F.MI_CFG.FAST_START : Fld := ⟨.mi, 0x1, 0, 0, 0⟩
/-! MI_PPR_CFG -/
def F.MI_PPR_CFG.HPPR_EN : Fld := ⟨.mi, 0x2, 0, 0, 0⟩
/-! MI_PPR_STAT -/
def F.MI_PPR_STAT.SPPR : Fld := ⟨.mi, 0x3, 31, 24, 0⟩
def F.MI_PPR_STAT.HPPR : Fld := ⟨.mi, 0x3, 23, 16, 0⟩
def F.MI_PPR_STAT.ROWMAP : Fld := ⟨.mi, 0x3, 15, 8, 0⟩
def F.MI_PPR_STAT.UNREPAIRED : Fld := ⟨.mi, 0x3, 7, 0, 0⟩
/-! MI_SCRUB_BASE_LO -/
def F.MI_SCRUB_BASE_LO.BASE_LO : Fld := ⟨.mi, 0x10, 31, 6, 0⟩
/-! MI_SCRUB_BASE_HI -/
def F.MI_SCRUB_BASE_HI.BASE_HI : Fld := ⟨.mi, 0x11, 8, 0, 0⟩
/-! MI_SCRUB_LEN_LO -/
def F.MI_SCRUB_LEN_LO.LEN_LO : Fld := ⟨.mi, 0x12, 31, 0, 0⟩
/-! MI_SCRUB_LEN_HI -/
def F.MI_SCRUB_LEN_HI.LEN_HI : Fld := ⟨.mi, 0x13, 3, 0, 0⟩
/-! MI_SCRUB_CTRL -/
def F.MI_SCRUB_CTRL.STEP_LINES : Fld := ⟨.mi, 0x14, 31, 16, 0⟩
def F.MI_SCRUB_CTRL.ABORT : Fld := ⟨.mi, 0x14, 1, 1, 0⟩
def F.MI_SCRUB_CTRL.START : Fld := ⟨.mi, 0x14, 0, 0, 0⟩
/-! MI_SCRUB_STATUS -/
def F.MI_SCRUB_STATUS.STATE : Fld := ⟨.mi, 0x15, 31, 30, 0⟩
def F.MI_SCRUB_STATUS.RESULT : Fld := ⟨.mi, 0x15, 29, 27, 0⟩
/-! MI_SCRUB_LINES_LO -/
def F.MI_SCRUB_LINES_LO.LINES_LO : Fld := ⟨.mi, 0x16, 31, 0, 0⟩
/-! MI_SCRUB_LINES_HI -/
def F.MI_SCRUB_LINES_HI.LINES_HI : Fld := ⟨.mi, 0x17, 3, 0, 0⟩
/-! MI_SCRUB_CORR -/
def F.MI_SCRUB_CORR.CORRECTED : Fld := ⟨.mi, 0x18, 31, 0, 0⟩
/-! MI_SCRUB_UNCOR -/
def F.MI_SCRUB_UNCOR.UNCOR : Fld := ⟨.mi, 0x19, 31, 0, 0⟩
/-! MI_SCRUB_POISON -/
def F.MI_SCRUB_POISON.POISON : Fld := ⟨.mi, 0x1A, 31, 0, 0⟩
/-! MI_SCRUB_SKIP -/
def F.MI_SCRUB_SKIP.SKIPPED : Fld := ⟨.mi, 0x1B, 31, 0, 0⟩
/-! MI_SCRUB_FIRST_LO -/
def F.MI_SCRUB_FIRST_LO.FIRST_LO : Fld := ⟨.mi, 0x1C, 31, 0, 0⟩
/-! MI_SCRUB_FIRST_HI -/
def F.MI_SCRUB_FIRST_HI.VALID : Fld := ⟨.mi, 0x1D, 31, 31, 0⟩
def F.MI_SCRUB_FIRST_HI.FIRST_HI : Fld := ⟨.mi, 0x1D, 8, 0, 0⟩
/-! MI_SCRUB_LAST_LO -/
def F.MI_SCRUB_LAST_LO.LAST_LO : Fld := ⟨.mi, 0x1E, 31, 0, 0⟩
/-! MI_SCRUB_LAST_HI -/
def F.MI_SCRUB_LAST_HI.VALID : Fld := ⟨.mi, 0x1F, 31, 31, 0⟩
def F.MI_SCRUB_LAST_HI.LAST_HI : Fld := ⟨.mi, 0x1F, 8, 0, 0⟩
/-! MI_HIST_SEL -/
def F.MI_HIST_SEL.SUBCH : Fld := ⟨.mi, 0x20, 8, 5, 0⟩
def F.MI_HIST_SEL.DEV : Fld := ⟨.mi, 0x20, 4, 0, 0⟩
/-! MI_HIST_DATA -/
def F.MI_HIST_DATA.ERASED : Fld := ⟨.mi, 0x21, 31, 16, 0⟩
def F.MI_HIST_DATA.CORR : Fld := ⟨.mi, 0x21, 15, 0, 0⟩
/-! MI_SUB_n_CNT -/
def F.MI_SUB_n_CNT.CORR_READS (n : Nat) : Fld := ⟨.mi, 0x100 + 0x2 * n, 31, 0, 0⟩
/-! MI_SUB_n_ERR -/
def F.MI_SUB_n_ERR.UNCOR_READS (n : Nat) : Fld := ⟨.mi, 0x101 + 0x2 * n, 31, 20, 0⟩
def F.MI_SUB_n_ERR.POISON_READS (n : Nat) : Fld := ⟨.mi, 0x101 + 0x2 * n, 19, 8, 0⟩
def F.MI_SUB_n_ERR.ROWMAP_N (n : Nat) : Fld := ⟨.mi, 0x101 + 0x2 * n, 7, 0, 0⟩
/-! WL_STATUS -/
def F.WL_STATUS.TOKEN : Fld := ⟨.wl, 0x0, 31, 24, 0⟩
def F.WL_STATUS.LANES_BA : Fld := ⟨.wl, 0x0, 23, 17, 0⟩
def F.WL_STATUS.LANES_AB : Fld := ⟨.wl, 0x0, 16, 10, 0⟩
def F.WL_STATUS.LEADER : Fld := ⟨.wl, 0x0, 4, 4, 0⟩
def F.WL_STATUS.STATE : Fld := ⟨.wl, 0x0, 3, 0, 0⟩
/-! WL_CTRL -/
def F.WL_CTRL.REJOIN : Fld := ⟨.wl, 0x1, 3, 3, 0⟩
def F.WL_CTRL.AUTO_REJOIN : Fld := ⟨.wl, 0x1, 2, 2, 0⟩
def F.WL_CTRL.FENCE_B : Fld := ⟨.wl, 0x1, 1, 1, 0⟩
def F.WL_CTRL.FENCE_A : Fld := ⟨.wl, 0x1, 0, 0, 0⟩
/-! WL_HEEL_A -/
def F.WL_HEEL_A.SEQ : Fld := ⟨.wl, 0x2, 23, 16, 0⟩
def F.WL_HEEL_A.FLAGS : Fld := ⟨.wl, 0x2, 15, 9, 0⟩
def F.WL_HEEL_A.SILENT : Fld := ⟨.wl, 0x2, 8, 8, 0⟩
def F.WL_HEEL_A.BAD : Fld := ⟨.wl, 0x2, 7, 0, 0⟩
/-! WL_HEEL_B -/
def F.WL_HEEL_B.SEQ : Fld := ⟨.wl, 0x3, 23, 16, 0⟩
def F.WL_HEEL_B.FLAGS : Fld := ⟨.wl, 0x3, 15, 9, 0⟩
def F.WL_HEEL_B.SILENT : Fld := ⟨.wl, 0x3, 8, 8, 0⟩
def F.WL_HEEL_B.BAD : Fld := ⟨.wl, 0x3, 7, 0, 0⟩
/-! WL_LINK_CNT -/
def F.WL_LINK_CNT.REPLAYS : Fld := ⟨.wl, 0x4, 31, 12, 0⟩
def F.WL_LINK_CNT.LOSSES : Fld := ⟨.wl, 0x4, 11, 4, 0⟩
def F.WL_LINK_CNT.LANE_REPAIRS : Fld := ⟨.wl, 0x4, 3, 0, 0⟩
/-! WL_SPLIT -/
def F.WL_SPLIT.HOLD : Fld := ⟨.wl, 0x5, 31, 19, 0⟩
def F.WL_SPLIT.REJOINS : Fld := ⟨.wl, 0x5, 18, 12, 0⟩
def F.WL_SPLIT.TICKS : Fld := ⟨.wl, 0x5, 11, 0, 0⟩
/-! WL_LOAD -/
def F.WL_LOAD.PEAK_BA : Fld := ⟨.wl, 0x6, 25, 16, 0⟩
def F.WL_LOAD.PEAK_AB : Fld := ⟨.wl, 0x6, 9, 0, 0⟩
/-! CK_h_CFG -/
def F.CK_h_CFG.SD_SEED (h : Nat) : Fld := ⟨.ck, 0x0 + 0x20 * h, 31, 16, 0⟩
def F.CK_h_CFG.SD_DITHER (h : Nat) : Fld := ⟨.ck, 0x0 + 0x20 * h, 15, 15, 0⟩
def F.CK_h_CFG.SSC_MODE (h : Nat) : Fld := ⟨.ck, 0x0 + 0x20 * h, 14, 13, 0⟩
def F.CK_h_CFG.LOCKMON_EN (h : Nat) : Fld := ⟨.ck, 0x0 + 0x20 * h, 12, 12, 0⟩
def F.CK_h_CFG.LOCKMON_SRC (h : Nat) : Fld := ⟨.ck, 0x0 + 0x20 * h, 11, 11, 0⟩
/-! CK_h_RAMP -/
def F.CK_h_RAMP.DEFAULT (h : Nat) : Fld := ⟨.ck, 0x1 + 0x20 * h, 31, 31, 0⟩
def F.CK_h_RAMP.N_SEG (h : Nat) : Fld := ⟨.ck, 0x1 + 0x20 * h, 27, 24, 0⟩
def F.CK_h_RAMP.SLEW_MAX (h : Nat) : Fld := ⟨.ck, 0x1 + 0x20 * h, 9, 0, 0⟩
/-! CK_h_SEG_i -/
def F.CK_h_SEG_i.P (h i : Nat) : Fld := ⟨.ck, 0x8 + 0x20 * h + i, 24, 16, 0⟩
def F.CK_h_SEG_i.S (h i : Nat) : Fld := ⟨.ck, 0x8 + 0x20 * h + i, 9, 0, 0⟩
/-! CK_h_STATUS -/
def F.CK_h_STATUS.REF_OK (h : Nat) : Fld := ⟨.ck, 0x2 + 0x20 * h, 31, 31, 0⟩
def F.CK_h_STATUS.CORE_LOCK (h : Nat) : Fld := ⟨.ck, 0x2 + 0x20 * h, 30, 30, 0⟩
def F.CK_h_STATUS.MEM_LOCK (h : Nat) : Fld := ⟨.ck, 0x2 + 0x20 * h, 29, 29, 0⟩
def F.CK_h_STATUS.MEM_HOLD (h : Nat) : Fld := ⟨.ck, 0x2 + 0x20 * h, 28, 28, 0⟩
def F.CK_h_STATUS.LOCKMON_FALLBACK (h : Nat) : Fld := ⟨.ck, 0x2 + 0x20 * h, 27, 27, 0⟩
def F.CK_h_STATUS.SSC_ACTIVE (h : Nat) : Fld := ⟨.ck, 0x2 + 0x20 * h, 26, 25, 0⟩
def F.CK_h_STATUS.LOCKMON_MV (h : Nat) : Fld := ⟨.ck, 0x2 + 0x20 * h, 11, 0, 0⟩
/-! CK_h_EVENTS -/
def F.CK_h_EVENTS.REF_LOSS (h : Nat) : Fld := ⟨.ck, 0x3 + 0x20 * h, 31, 24, 0⟩
def F.CK_h_EVENTS.MEM_LOSS (h : Nat) : Fld := ⟨.ck, 0x3 + 0x20 * h, 23, 16, 0⟩
def F.CK_h_EVENTS.RAMPS (h : Nat) : Fld := ⟨.ck, 0x3 + 0x20 * h, 15, 0, 0⟩
/-! CK_CH_n -/
def F.CK_CH_n.RAMPING (n : Nat) : Fld := ⟨.ck, 0x50 + n, 24, 24, 0⟩
def F.CK_CH_n.RATE (n : Nat) : Fld := ⟨.ck, 0x50 + n, 23, 21, 0⟩
def F.CK_CH_n.Q (n : Nat) : Fld := ⟨.ck, 0x50 + n, 17, 0, 0⟩
/-! CK_DLL_n -/
def F.CK_DLL_n.STATE (n : Nat) : Fld := ⟨.ck, 0x40 + n, 31, 30, 0⟩
def F.CK_DLL_n.COASTS (n : Nat) : Fld := ⟨.ck, 0x40 + n, 23, 16, 0⟩
def F.CK_DLL_n.RELOCKS (n : Nat) : Fld := ⟨.ck, 0x40 + n, 15, 8, 0⟩
/-! CK_AUX_n_CFG -/
def F.CK_AUX_n_CFG.EN (n : Nat) : Fld := ⟨.ck, 0x80 + 0x2 * n, 31, 31, 0⟩
def F.CK_AUX_n_CFG.SRC (n : Nat) : Fld := ⟨.ck, 0x80 + 0x2 * n, 30, 28, 0⟩
def F.CK_AUX_n_CFG.DELAY (n : Nat) : Fld := ⟨.ck, 0x80 + 0x2 * n, 27, 22, 0⟩
def F.CK_AUX_n_CFG.DIV_M1 (n : Nat) : Fld := ⟨.ck, 0x80 + 0x2 * n, 11, 0, 0⟩
/-! CK_AUX_n_TICK -/
def F.CK_AUX_n_TICK.K_M1 (n : Nat) : Fld := ⟨.ck, 0x81 + 0x2 * n, 15, 0, 0⟩
/-! CK_AUX_STATUS -/
def F.CK_AUX_STATUS.REFUSED : Fld := ⟨.ck, 0x88, 7, 4, 0⟩
def F.CK_AUX_STATUS.RUNNING : Fld := ⟨.ck, 0x88, 3, 0, 0⟩
/-! TB_CFG -/
def F.TB_CFG.BAUD : Fld := ⟨.tb, 0x0, 26, 24, 0⟩
def F.TB_CFG.FTICK_MUL : Fld := ⟨.tb, 0x0, 21, 20, 0⟩
def F.TB_CFG.TICK_SRC : Fld := ⟨.tb, 0x0, 17, 16, 0⟩
def F.TB_CFG.STEP_POLICY : Fld := ⟨.tb, 0x0, 13, 12, 0⟩
def F.TB_CFG.PHASE_SNAP : Fld := ⟨.tb, 0x0, 8, 8, 0⟩
def F.TB_CFG.TSQ_TICK : Fld := ⟨.tb, 0x0, 4, 4, 0⟩
def F.TB_CFG.TOD_EN : Fld := ⟨.tb, 0x0, 0, 0, 0⟩
/-! TB_TICKIO -/
def F.TB_TICKIO.FTICK_DLY : Fld := ⟨.tb, 0x1, 31, 12, 0⟩
def F.TB_TICKIO.TICK_OUT_W : Fld := ⟨.tb, 0x1, 11, 0, 0⟩
/-! TB_PHASE_OFS -/
def F.TB_PHASE_OFS.PHASE_OFS : Fld := ⟨.tb, 0x2, 25, 0, 0⟩
/-! TB_STATUS -/
def F.TB_STATUS.EPOCH : Fld := ⟨.tb, 0x3, 31, 16, 0⟩
def F.TB_STATUS.TIME_VALID : Fld := ⟨.tb, 0x3, 15, 15, 0⟩
def F.TB_STATUS.MASTER : Fld := ⟨.tb, 0x3, 14, 14, 0⟩
def F.TB_STATUS.PPS_OK : Fld := ⟨.tb, 0x3, 13, 13, 0⟩
def F.TB_STATUS.FTICK_OK : Fld := ⟨.tb, 0x3, 12, 12, 0⟩
def F.TB_STATUS.FREE_RUN : Fld := ⟨.tb, 0x3, 11, 11, 0⟩
def F.TB_STATUS.TIME_SLEW : Fld := ⟨.tb, 0x3, 10, 10, 0⟩
def F.TB_STATUS.PHASE_SLEW : Fld := ⟨.tb, 0x3, 9, 9, 0⟩
def F.TB_STATUS.STEP_HELD : Fld := ⟨.tb, 0x3, 8, 8, 0⟩
/-! TB_TIME_LO -/
def F.TB_TIME_LO.TIME_LO : Fld := ⟨.tb, 0x4, 31, 0, 0⟩
/-! TB_TIME_HI -/
def F.TB_TIME_HI.TIME_HI : Fld := ⟨.tb, 0x5, 31, 0, 0⟩
/-! TB_OFFSET -/
def F.TB_OFFSET.OFFSET : Fld := ⟨.tb, 0x6, 31, 0, 0⟩
/-! TB_RATE -/
def F.TB_RATE.RATE_PPB : Fld := ⟨.tb, 0x7, 31, 0, 0⟩
/-! TB_UTC -/
def F.TB_UTC.FROM_TOD : Fld := ⟨.tb, 0x8, 31, 31, 0⟩
def F.TB_UTC.UTC_OFS : Fld := ⟨.tb, 0x8, 15, 0, 0⟩
/-! TB_TOD_CNT -/
def F.TB_TOD_CNT.APPLIED : Fld := ⟨.tb, 0x9, 31, 24, 0⟩
def F.TB_TOD_CNT.BAD : Fld := ⟨.tb, 0x9, 23, 16, 0⟩
def F.TB_TOD_CNT.STALE : Fld := ⟨.tb, 0x9, 15, 8, 0⟩
def F.TB_TOD_CNT.SEQ_GAP : Fld := ⟨.tb, 0x9, 7, 0, 0⟩
/-! TB_PPS_CNT -/
def F.TB_PPS_CNT.EDGES : Fld := ⟨.tb, 0xA, 31, 16, 0⟩
def F.TB_PPS_CNT.GLITCH : Fld := ⟨.tb, 0xA, 15, 8, 0⟩
def F.TB_PPS_CNT.PPS_LOSS : Fld := ⟨.tb, 0xA, 7, 4, 0⟩
def F.TB_PPS_CNT.FTICK_LOSS : Fld := ⟨.tb, 0xA, 3, 0, 0⟩
/-! TB_TICK_CNT -/
def F.TB_TICK_CNT.MISSED : Fld := ⟨.tb, 0xB, 31, 16, 0⟩
def F.TB_TICK_CNT.SNAPS : Fld := ⟨.tb, 0xB, 15, 0, 0⟩
/-! TB_CAL_DATE -/
def F.TB_CAL_DATE.YEAR : Fld := ⟨.tb, 0x10, 31, 16, 0⟩
def F.TB_CAL_DATE.MONTH : Fld := ⟨.tb, 0x10, 11, 8, 0⟩
def F.TB_CAL_DATE.DAY : Fld := ⟨.tb, 0x10, 4, 0, 0⟩
/-! TB_CAL_TIME -/
def F.TB_CAL_TIME.HOUR : Fld := ⟨.tb, 0x11, 20, 16, 0⟩
def F.TB_CAL_TIME.MINUTE : Fld := ⟨.tb, 0x11, 13, 8, 0⟩
def F.TB_CAL_TIME.SECOND : Fld := ⟨.tb, 0x11, 5, 0, 0⟩
/-! TB_SET_DATE -/
def F.TB_SET_DATE.YEAR : Fld := ⟨.tb, 0x12, 31, 16, 0⟩
def F.TB_SET_DATE.MONTH : Fld := ⟨.tb, 0x12, 11, 8, 0⟩
def F.TB_SET_DATE.DAY : Fld := ⟨.tb, 0x12, 4, 0, 0⟩
/-! TB_SET_TIME -/
def F.TB_SET_TIME.HOUR : Fld := ⟨.tb, 0x13, 20, 16, 0⟩
def F.TB_SET_TIME.MINUTE : Fld := ⟨.tb, 0x13, 13, 8, 0⟩
def F.TB_SET_TIME.SECOND : Fld := ⟨.tb, 0x13, 5, 0, 0⟩
/-! TB_SET_CTRL -/
def F.TB_SET_CTRL.SET : Fld := ⟨.tb, 0x14, 31, 31, 0⟩
def F.TB_SET_CTRL.STEP_NOW : Fld := ⟨.tb, 0x14, 30, 30, 0⟩
def F.TB_SET_CTRL.RESULT : Fld := ⟨.tb, 0x14, 3, 0, 0⟩
/-! TB_CAPTURE -/
def F.TB_CAPTURE.ID : Fld := ⟨.tb, 0x18, 15, 0, 0⟩
/-! TB_TSQ_STATUS -/
def F.TB_TSQ_STATUS.OVF : Fld := ⟨.tb, 0x19, 31, 31, 0⟩
def F.TB_TSQ_STATUS.DROPPED : Fld := ⟨.tb, 0x19, 23, 8, 0⟩
def F.TB_TSQ_STATUS.LEVEL : Fld := ⟨.tb, 0x19, 5, 0, 0⟩
/-! TB_TSQ_POP -/
def F.TB_TSQ_POP.ID : Fld := ⟨.tb, 0x1A, 31, 16, 0⟩
def F.TB_TSQ_POP.KIND : Fld := ⟨.tb, 0x1A, 15, 8, 0⟩
def F.TB_TSQ_POP.EPOCH : Fld := ⟨.tb, 0x1A, 7, 0, 0⟩
/-! TB_TSQ_TIME_LO -/
def F.TB_TSQ_TIME_LO.TIME_LO : Fld := ⟨.tb, 0x1B, 31, 0, 0⟩
/-! TB_TSQ_TIME_HI -/
def F.TB_TSQ_TIME_HI.TIME_HI : Fld := ⟨.tb, 0x1C, 31, 0, 0⟩
/-! PS_STATUS -/
def F.PS_STATUS.STATE : Fld := ⟨.ps, 0x0, 31, 28, 0⟩
def F.PS_STATUS.EYELET : Fld := ⟨.ps, 0x0, 27, 24, 0⟩
def F.PS_STATUS.LACE : Fld := ⟨.ps, 0x0, 23, 23, 0⟩
def F.PS_STATUS.HOLDING : Fld := ⟨.ps, 0x0, 22, 22, 0⟩
def F.PS_STATUS.SOLO : Fld := ⟨.ps, 0x0, 21, 21, 0⟩
def F.PS_STATUS.PFW : Fld := ⟨.ps, 0x0, 20, 20, 0⟩
def F.PS_STATUS.LAST_GOOD : Fld := ⟨.ps, 0x0, 15, 12, 0⟩
/-! PS_CTRL -/
def F.PS_CTRL.LACE_ABORT : Fld := ⟨.ps, 0x1, 0, 0, 0⟩
/-! PS_LACE_CFG -/
def F.PS_LACE_CFG.JOIN : Fld := ⟨.ps, 0x2, 31, 31, 0⟩
def F.PS_LACE_CFG.EYE_WARN : Fld := ⟨.ps, 0x2, 23, 16, 0⟩
def F.PS_LACE_CFG.E0_MIN : Fld := ⟨.ps, 0x2, 15, 0, 0⟩
/-! PS_LACE_CNT -/
def F.PS_LACE_CNT.GLITCH : Fld := ⟨.ps, 0x3, 31, 24, 0⟩
def F.PS_LACE_CNT.ABORTS : Fld := ⟨.ps, 0x3, 23, 16, 0⟩
def F.PS_LACE_CNT.WARNS : Fld := ⟨.ps, 0x3, 15, 8, 0⟩
/-! PS_PFW_CFG -/
def F.PS_PFW_CFG.PFW_DLY : Fld := ⟨.ps, 0x4, 31, 23, 0⟩
def F.PS_PFW_CFG.V_REC : Fld := ⟨.ps, 0x4, 22, 13, 0⟩
def F.PS_PFW_CFG.EST_TOL : Fld := ⟨.ps, 0x4, 12, 5, 0⟩
/-! PS_HOLDUP -/
def F.PS_HOLDUP.HOLDUP_LOW : Fld := ⟨.ps, 0x5, 31, 31, 0⟩
def F.PS_HOLDUP.DLY_USED : Fld := ⟨.ps, 0x5, 30, 22, 0⟩
def F.PS_HOLDUP.C_HOLD : Fld := ⟨.ps, 0x5, 15, 0, 0⟩
/-! PS_PFW_STATUS -/
def F.PS_PFW_STATUS.ASSERTS : Fld := ⟨.ps, 0x6, 31, 24, 0⟩
def F.PS_PFW_STATUS.RIDES : Fld := ⟨.ps, 0x6, 23, 16, 0⟩
def F.PS_PFW_STATUS.RECORD_FAIL : Fld := ⟨.ps, 0x6, 15, 15, 0⟩
def F.PS_PFW_STATUS.LAST_FLAGS : Fld := ⟨.ps, 0x6, 5, 0, 0⟩
/-! PS_TRANS -/
def F.PS_TRANS.START : Fld := ⟨.ps, 0x7, 31, 31, 0⟩
def F.PS_TRANS.BUSY : Fld := ⟨.ps, 0x7, 30, 30, 0⟩
def F.PS_TRANS.ABANDONED : Fld := ⟨.ps, 0x7, 29, 29, 0⟩
def F.PS_TRANS.REFUSED : Fld := ⟨.ps, 0x7, 28, 28, 0⟩
def F.PS_TRANS.RAIL : Fld := ⟨.ps, 0x7, 27, 24, 0⟩
def F.PS_TRANS.BLANK : Fld := ⟨.ps, 0x7, 9, 0, 0⟩
/-! PS_TRANS_WIN -/
def F.PS_TRANS_WIN.UV : Fld := ⟨.ps, 0x8, 31, 16, 0⟩
def F.PS_TRANS_WIN.OV : Fld := ⟨.ps, 0x8, 15, 0, 0⟩
/-! PS_SVC -/
def F.PS_SVC.FORCED : Fld := ⟨.ps, 0x9, 31, 31, 0⟩
def F.PS_SVC.PRESSED : Fld := ⟨.ps, 0x9, 30, 30, 0⟩
def F.PS_SVC.SHORT : Fld := ⟨.ps, 0x9, 15, 8, 0⟩
def F.PS_SVC.IGNORED : Fld := ⟨.ps, 0x9, 7, 0, 0⟩
/-! PS_ADC_CFG -/
def F.PS_ADC_CFG.DWELL : Fld := ⟨.ps, 0x10, 5, 0, 0⟩
/-! PS_RAIL_n_WIN -/
def F.PS_RAIL_n_WIN.UV (n : Nat) : Fld := ⟨.ps, 0x100 + 0x4 * n, 31, 16, 0⟩
def F.PS_RAIL_n_WIN.OV (n : Nat) : Fld := ⟨.ps, 0x100 + 0x4 * n, 15, 0, 0⟩
/-! PS_RAIL_n_BOUND -/
def F.PS_RAIL_n_BOUND.LO_BOUND (n : Nat) : Fld := ⟨.ps, 0x101 + 0x4 * n, 31, 16, 0⟩
def F.PS_RAIL_n_BOUND.HI_BOUND (n : Nat) : Fld := ⟨.ps, 0x101 + 0x4 * n, 15, 0, 0⟩
/-! PS_RAIL_n_CFG -/
def F.PS_RAIL_n_CFG.GLITCH (n : Nat) : Fld := ⟨.ps, 0x102 + 0x4 * n, 31, 24, 0⟩
def F.PS_RAIL_n_CFG.TSS (n : Nat) : Fld := ⟨.ps, 0x102 + 0x4 * n, 23, 16, 0⟩
def F.PS_RAIL_n_CFG.ILIM (n : Nat) : Fld := ⟨.ps, 0x102 + 0x4 * n, 15, 0, 0⟩
/-! PS_RAIL_n_STATUS -/
def F.PS_RAIL_n_STATUS.STATE (n : Nat) : Fld := ⟨.ps, 0x103 + 0x4 * n, 31, 28, 0⟩
def F.PS_RAIL_n_STATUS.PG (n : Nat) : Fld := ⟨.ps, 0x103 + 0x4 * n, 27, 27, 0⟩
def F.PS_RAIL_n_STATUS.IN_WIN (n : Nat) : Fld := ⟨.ps, 0x103 + 0x4 * n, 26, 26, 0⟩
def F.PS_RAIL_n_STATUS.CLAMPED (n : Nat) : Fld := ⟨.ps, 0x103 + 0x4 * n, 25, 25, 0⟩
def F.PS_RAIL_n_STATUS.CAUSE (n : Nat) : Fld := ⟨.ps, 0x103 + 0x4 * n, 24, 22, 0⟩
def F.PS_RAIL_n_STATUS.RETRIES (n : Nat) : Fld := ⟨.ps, 0x103 + 0x4 * n, 21, 20, 0⟩
/-! PS_ADC_CH_c_CFG -/
def F.PS_ADC_CH_c_CFG.EN (c : Nat) : Fld := ⟨.ps, 0x200 + 0x2 * c, 31, 31, 0⟩
def F.PS_ADC_CH_c_CFG.GAIN (c : Nat) : Fld := ⟨.ps, 0x200 + 0x2 * c, 3, 2, 0⟩
def F.PS_ADC_CH_c_CFG.FILT (c : Nat) : Fld := ⟨.ps, 0x200 + 0x2 * c, 0, 0, 0⟩
/-! PS_ADC_CH_c_DATA -/
def F.PS_ADC_CH_c_DATA.F_VALID (c : Nat) : Fld := ⟨.ps, 0x201 + 0x2 * c, 31, 31, 0⟩
def F.PS_ADC_CH_c_DATA.S_VALID (c : Nat) : Fld := ⟨.ps, 0x201 + 0x2 * c, 30, 30, 0⟩
def F.PS_ADC_CH_c_DATA.SAMPLE (c : Nat) : Fld := ⟨.ps, 0x201 + 0x2 * c, 27, 16, 0⟩
def F.PS_ADC_CH_c_DATA.VALUE (c : Nat) : Fld := ⟨.ps, 0x201 + 0x2 * c, 15, 0, 0⟩
/-! TH_CFG -/
def F.TH_CFG.PMAX : Fld := ⟨.th, 0x0, 31, 24, 0⟩
def F.TH_CFG.T_HIGH : Fld := ⟨.th, 0x0, 23, 16, 0⟩
def F.TH_CFG.HYST : Fld := ⟨.th, 0x0, 15, 12, 0⟩
def F.TH_CFG.TRIP : Fld := ⟨.th, 0x0, 7, 0, 0⟩
/-! TH_MARGIN -/
def F.TH_MARGIN.M_WARM : Fld := ⟨.th, 0x1, 15, 8, 0⟩
def F.TH_MARGIN.M_SENS : Fld := ⟨.th, 0x1, 7, 0, 0⟩
/-! TH_FORCE -/
def F.TH_FORCE.MIN_STEP : Fld := ⟨.th, 0x2, 2, 0, 0⟩
/-! TH_STATUS -/
def F.TH_STATUS.STEP : Fld := ⟨.th, 0x3, 31, 29, 0⟩
def F.TH_STATUS.WARMING_A : Fld := ⟨.th, 0x3, 28, 28, 0⟩
def F.TH_STATUS.WARMING_B : Fld := ⟨.th, 0x3, 27, 27, 0⟩
def F.TH_STATUS.SPLIT : Fld := ⟨.th, 0x3, 26, 26, 0⟩
def F.TH_STATUS.SENSOR_LOSS : Fld := ⟨.th, 0x3, 25, 25, 0⟩
def F.TH_STATUS.TEMP_USE : Fld := ⟨.th, 0x3, 15, 0, 0⟩
/-! TH_POWER -/
def F.TH_POWER.P_A : Fld := ⟨.th, 0x4, 31, 16, 0⟩
def F.TH_POWER.P_B : Fld := ⟨.th, 0x4, 15, 0, 0⟩
/-! TH_CNT -/
def F.TH_CNT.STEP_UPS : Fld := ⟨.th, 0x5, 31, 16, 0⟩
def F.TH_CNT.MS_P4 : Fld := ⟨.th, 0x5, 15, 0, 0⟩
/-! TH_SENS_h_s -/
def F.TH_SENS_h_s.VALID (h s : Nat) : Fld := ⟨.th, 0x10 + 0x8 * h + s, 31, 31, 0⟩
def F.TH_SENS_h_s.TEMP (h s : Nat) : Fld := ⟨.th, 0x10 + 0x8 * h + s, 15, 0, 0⟩
/-! TH_NODE_h_i -/
def F.TH_NODE_h_i.TEMP (h i : Nat) : Fld := ⟨.th, 0x20 + 0x8 * h + i, 15, 0, 0⟩
/-! FC_STATUS -/
def F.FC_STATUS.FATAL : Fld := ⟨.fc, 0x0, 31, 31, 0⟩
def F.FC_STATUS.ERR_N_LOW : Fld := ⟨.fc, 0x0, 30, 30, 0⟩
def F.FC_STATUS.FATAL_V : Fld := ⟨.fc, 0x0, 29, 29, 0⟩
def F.FC_STATUS.SPLIT_STORE : Fld := ⟨.fc, 0x0, 28, 28, 0⟩
def F.FC_STATUS.PIN_COUNT : Fld := ⟨.fc, 0x0, 23, 16, 0⟩
def F.FC_STATUS.LAST_SRC : Fld := ⟨.fc, 0x0, 8, 0, 0⟩
/-! FC_CFG -/
def F.FC_CFG.FORCE_FATAL_EN : Fld := ⟨.fc, 0x1, 7, 7, 0⟩
def F.FC_CFG.PIN_THR : Fld := ⟨.fc, 0x1, 2, 0, 0⟩
/-! FC_LOG_WR -/
def F.FC_LOG_WR.COUNT : Fld := ⟨.fc, 0x2, 31, 0, 0⟩
/-! FC_LOG_CNT -/
def F.FC_LOG_CNT.MERGED : Fld := ⟨.fc, 0x3, 31, 16, 0⟩
def F.FC_LOG_CNT.OVERWRITTEN : Fld := ⟨.fc, 0x3, 15, 0, 0⟩
/-! FC_FATAL_LO -/
def F.FC_FATAL_LO.MSG_LO : Fld := ⟨.fc, 0x4, 31, 0, 0⟩
/-! FC_FATAL_HI -/
def F.FC_FATAL_HI.MSG_HI : Fld := ⟨.fc, 0x5, 31, 0, 0⟩
/-! FC_FATAL_TS -/
def F.FC_FATAL_TS.TS : Fld := ⟨.fc, 0x6, 31, 0, 0⟩
/-! FC_STICKY_w -/
def F.FC_STICKY_w.STICKY (w : Nat) : Fld := ⟨.fc, 0x10 + w, 31, 0, 0⟩
/-! FC_MASK_w -/
def F.FC_MASK_w.MASK (w : Nat) : Fld := ⟨.fc, 0x20 + w, 31, 0, 0⟩
/-! FC_FORCE_w -/
def F.FC_FORCE_w.FORCE (w : Nat) : Fld := ⟨.fc, 0x30 + w, 31, 0, 0⟩
/-! FC_SRC_s -/
def F.FC_SRC_s.FATAL_CLASS (s : Nat) : Fld := ⟨.fc, 0x100 + s, 31, 31, 0⟩
def F.FC_SRC_s.STICKY (s : Nat) : Fld := ⟨.fc, 0x100 + s, 30, 30, 0⟩
def F.FC_SRC_s.MASKED (s : Nat) : Fld := ⟨.fc, 0x100 + s, 29, 29, 0⟩
def F.FC_SRC_s.SEV (s : Nat) : Fld := ⟨.fc, 0x100 + s, 26, 24, 0⟩
def F.FC_SRC_s.MERGED (s : Nat) : Fld := ⟨.fc, 0x100 + s, 15, 0, 0⟩
/-! FC_LOG_e_LO -/
def F.FC_LOG_e_LO.MSG_LO (e : Nat) : Fld := ⟨.fc, 0x400 + 0x4 * e, 31, 0, 0⟩
/-! FC_LOG_e_HI -/
def F.FC_LOG_e_HI.MSG_HI (e : Nat) : Fld := ⟨.fc, 0x401 + 0x4 * e, 31, 0, 0⟩
/-! FC_LOG_e_TS -/
def F.FC_LOG_e_TS.TS (e : Nat) : Fld := ⟨.fc, 0x402 + 0x4 * e, 31, 0, 0⟩
/-! FC_LOG_e_INFO -/
def F.FC_LOG_e_INFO.VALID (e : Nat) : Fld := ⟨.fc, 0x403 + 0x4 * e, 31, 31, 0⟩
def F.FC_LOG_e_INFO.HALF (e : Nat) : Fld := ⟨.fc, 0x403 + 0x4 * e, 30, 30, 0⟩
def F.FC_LOG_e_INFO.SPLIT (e : Nat) : Fld := ⟨.fc, 0x403 + 0x4 * e, 29, 29, 0⟩
def F.FC_LOG_e_INFO.EPOCH (e : Nat) : Fld := ⟨.fc, 0x403 + 0x4 * e, 15, 0, 0⟩
/-! MG_ID -/
def F.MG_ID.PART : Fld := ⟨.mg, 0x0, 31, 16, 0⟩
def F.MG_ID.DIE_REV : Fld := ⟨.mg, 0x0, 15, 12, 0⟩
def F.MG_ID.GRADE : Fld := ⟨.mg, 0x0, 11, 10, 0⟩
/-! MG_SERIAL_LO -/
def F.MG_SERIAL_LO.SERIAL_LO : Fld := ⟨.mg, 0x1, 31, 0, 0⟩
/-! MG_SERIAL_HI -/
def F.MG_SERIAL_HI.SERIAL_HI : Fld := ⟨.mg, 0x2, 31, 0, 0⟩
/-! MG_STATUS -/
def F.MG_STATUS.FW_OK : Fld := ⟨.mg, 0x3, 31, 31, 0⟩
def F.MG_STATUS.BANK : Fld := ⟨.mg, 0x3, 30, 30, 0⟩
def F.MG_STATUS.FALLBACK : Fld := ⟨.mg, 0x3, 29, 29, 0⟩
def F.MG_STATUS.SEC_VER : Fld := ⟨.mg, 0x3, 15, 8, 0⟩
def F.MG_STATUS.WDOG : Fld := ⟨.mg, 0x3, 7, 0, 0⟩
/-! MG_CTRL -/
def F.MG_CTRL.WARM_RESET : Fld := ⟨.mg, 0x4, 0, 0, 0⟩
/-! MG_BOOT -/
def F.MG_BOOT.MIN_SEC : Fld := ⟨.mg, 0x5, 31, 24, 0⟩
def F.MG_BOOT.NEXT_BANK : Fld := ⟨.mg, 0x5, 0, 0, 0⟩
/-! MG_ROLE -/
def F.MG_ROLE.ROLE : Fld := ⟨.mg, 0x8, 31, 30, 0⟩
def F.MG_ROLE.REQ : Fld := ⟨.mg, 0x8, 29, 28, 0⟩
def F.MG_ROLE.CHAL : Fld := ⟨.mg, 0x8, 27, 27, 0⟩
def F.MG_ROLE.RESP : Fld := ⟨.mg, 0x8, 26, 26, 0⟩
def F.MG_ROLE.DROP : Fld := ⟨.mg, 0x8, 25, 25, 0⟩
def F.MG_ROLE.LOCKED : Fld := ⟨.mg, 0x8, 24, 24, 0⟩
def F.MG_ROLE.FAILS : Fld := ⟨.mg, 0x8, 7, 4, 0⟩
def F.MG_ROLE.RESULT : Fld := ⟨.mg, 0x8, 3, 0, 0⟩
/-! MG_ROLE_CHAL_i -/
def F.MG_ROLE_CHAL_i.CHAL (i : Nat) : Fld := ⟨.mg, 0x10 + i, 31, 0, 0⟩
/-! MG_ROLE_RESP_i -/
def F.MG_ROLE_RESP_i.RESP (i : Nat) : Fld := ⟨.mg, 0x18 + i, 31, 0, 0⟩
/-! MG_FL_ADDR -/
def F.MG_FL_ADDR.SPACE : Fld := ⟨.mg, 0x30, 31, 30, 0⟩
def F.MG_FL_ADDR.ADDR : Fld := ⟨.mg, 0x30, 24, 0, 0⟩
/-! MG_FL_CTRL -/
def F.MG_FL_CTRL.GO : Fld := ⟨.mg, 0x31, 31, 31, 0⟩
def F.MG_FL_CTRL.BUSY : Fld := ⟨.mg, 0x31, 30, 30, 0⟩
def F.MG_FL_CTRL.OP : Fld := ⟨.mg, 0x31, 29, 28, 0⟩
def F.MG_FL_CTRL.RESULT : Fld := ⟨.mg, 0x31, 27, 25, 0⟩
def F.MG_FL_CTRL.LEN_M1 : Fld := ⟨.mg, 0x31, 5, 0, 0⟩
/-! MG_FL_DATA_i -/
def F.MG_FL_DATA_i.DATA (i : Nat) : Fld := ⟨.mg, 0x80 + i, 31, 0, 0⟩
/-! MG_SPI_STAT -/
def F.MG_SPI_STAT.PARTIAL : Fld := ⟨.mg, 0x50, 31, 24, 0⟩
def F.MG_SPI_STAT.EXCESS : Fld := ⟨.mg, 0x50, 23, 16, 0⟩
def F.MG_SPI_STAT.SHORT : Fld := ⟨.mg, 0x50, 15, 8, 0⟩
def F.MG_SPI_STAT.MISS : Fld := ⟨.mg, 0x50, 7, 4, 0⟩
def F.MG_SPI_STAT.F_SHORT : Fld := ⟨.mg, 0x50, 2, 2, 0⟩
def F.MG_SPI_STAT.F_EXCESS : Fld := ⟨.mg, 0x50, 1, 1, 0⟩
def F.MG_SPI_STAT.F_PARTIAL : Fld := ⟨.mg, 0x50, 0, 0, 0⟩
/-! MG_SPI_FETCH -/
def F.MG_SPI_FETCH.BUSY : Fld := ⟨.mg, 0x51, 31, 31, 0⟩
def F.MG_SPI_FETCH.TIMEOUT : Fld := ⟨.mg, 0x51, 30, 30, 0⟩
def F.MG_SPI_FETCH.COUNT : Fld := ⟨.mg, 0x51, 6, 0, 0⟩
/-! MG_PP_STAT -/
def F.MG_PP_STAT.SOURCE : Fld := ⟨.mg, 0x58, 31, 30, 0⟩
def F.MG_PP_STAT.INSTALL_OK : Fld := ⟨.mg, 0x58, 29, 29, 0⟩
def F.MG_PP_STAT.KEY_FAIL : Fld := ⟨.mg, 0x58, 28, 28, 0⟩
def F.MG_PP_STAT.RETRIES : Fld := ⟨.mg, 0x58, 27, 22, 0⟩
def F.MG_PP_STAT.DROPPED : Fld := ⟨.mg, 0x58, 15, 0, 0⟩
/-! MG_AUDIT_STAT -/
def F.MG_AUDIT_STAT.SEQ : Fld := ⟨.mg, 0x5C, 31, 16, 0⟩
def F.MG_AUDIT_STAT.MERGED : Fld := ⟨.mg, 0x5C, 15, 8, 0⟩
def F.MG_AUDIT_STAT.FULL : Fld := ⟨.mg, 0x5C, 7, 0, 0⟩
/-! MG_START -/
def F.MG_START.T_RUN : Fld := ⟨.mg, 0x60, 31, 0, 0⟩
/-- Register table, part 0. -/
def regTable0 : List RegTpl := [
  -- FS_STATUS
  ⟨0x60000, [], 0, .shared, [⟨22, 16, .ro, 0, true⟩, ⟨8, 8, .ro, 0, true⟩, ⟨7, 6, .ro, 0, true⟩, ⟨5, 4, .ro, 0, true⟩, ⟨3, 0, .ro, 0, true⟩]⟩,
  -- FS_RATE
  ⟨0x60001, [], 0, .shared, [⟨28, 18, .ro, 0, true⟩, ⟨17, 0, .ro, 0, true⟩]⟩,
  -- FS_WINDOWS
  ⟨0x60002, [], 0, .shared, [⟨27, 16, .ro, 0, true⟩, ⟨11, 0, .ro, 0, true⟩]⟩,
  -- FS_STITCH
  ⟨0x60003, [], 0, .shared, [⟨31, 14, .ro, 0, true⟩, ⟨13, 12, .ro, 3, true⟩, ⟨11, 0, .ro, 0, true⟩]⟩,
  -- FS_FRAME_LO
  ⟨0x60004, [], 0, .shared, [⟨31, 0, .ro, 0, true⟩]⟩,
  -- FS_FRAME_HI
  ⟨0x60005, [], 0, .shared, [⟨31, 0, .ro, 0, true⟩]⟩,
  -- FS_TICK_LO
  ⟨0x60008, [], 0, .perPath, [⟨31, 0, .rw, 0, false⟩]⟩,
  -- FS_TICK_HI
  ⟨0x60009, [], 0, .perPath, [⟨31, 0, .rw, 0, false⟩]⟩,
  -- FS_CMD_ARG
  ⟨0x6000A, [], 0, .perPath, [⟨31, 16, .rw, 0, false⟩, ⟨8, 0, .rw, 0, false⟩]⟩,
  -- FS_CMD_OP
  ⟨0x6000B, [], 1, .shared, [⟨3, 0, .rwl, 0, false⟩]⟩,
  -- FS_CMD_RESULT
  ⟨0x6000C, [], 0, .perPath, [⟨31, 16, .ro, 0, false⟩, ⟨15, 8, .ro, 0, false⟩, ⟨3, 0, .ro, 0, false⟩]⟩,
  -- FS_LAST_CTRL
  ⟨0x60010, [], 2, .shared, [⟨5, 4, .rwl, 0, false⟩, ⟨2, 2, .w1s, 0, false⟩, ⟨1, 1, .w1s, 0, false⟩, ⟨0, 0, .w1s, 0, false⟩]⟩,
  -- FS_ADMIT_RESULT
  ⟨0x60011, [], 0, .shared, [⟨31, 31, .ro, 0, true⟩, ⟨30, 30, .ro, 0, true⟩, ⟨29, 28, .ro, 0, true⟩, ⟨25, 16, .ro, 0, true⟩, ⟨7, 0, .ro, 0, true⟩]⟩,
  -- FS_ADMIT_UTIL
  ⟨0x60012, [], 0, .shared, [⟨29, 26, .ro, 0, true⟩, ⟨25, 16, .ro, 0, true⟩, ⟨13, 10, .ro, 0, true⟩, ⟨9, 0, .ro, 0, true⟩]⟩,
  -- FS_EVENT_CNT
  ⟨0x60013, [], 0, .shared, [⟨31, 16, .ro, 0, true⟩, ⟨15, 0, .ro, 0, true⟩]⟩,
  -- FS_SRC_STATE_n
  ⟨0x60100, [(0x4, 16)], 0, .shared, [⟨31, 31, .ro, 1, true⟩, ⟨30, 30, .ro, 0, true⟩, ⟨29, 29, .ro, 0, true⟩, ⟨28, 28, .ro, 0, true⟩, ⟨27, 16, .ro, 0, true⟩, ⟨15, 0, .ro, 65535, true⟩]⟩,
  -- FS_SRC_PUB_n
  ⟨0x60101, [(0x4, 16)], 0, .shared, [⟨31, 16, .ro, 0, true⟩, ⟨15, 0, .ro, 65535, true⟩]⟩,
  -- FS_SRC_CNT_n
  ⟨0x60102, [(0x4, 16)], 0, .shared, [⟨31, 24, .ro, 0, true⟩, ⟨23, 16, .ro, 0, true⟩, ⟨15, 0, .ro, 0, true⟩]⟩,
  -- LE_LUT_CTRL
  ⟨0x70000, [], 2, .shared, [⟨31, 31, .w1s, 0, false⟩, ⟨30, 30, .ro, 0, true⟩, ⟨29, 29, .ro, 0, true⟩, ⟨22, 16, .rwl, 0, false⟩, ⟨12, 0, .rwl, 0, false⟩]⟩,
  -- LE_LUT_DATA
  ⟨0x70001, [], 2, .shared, [⟨19, 0, .rwl, 0, false⟩]⟩]
/-- Register table, part 1. -/
def regTable1 : List RegTpl := [
  -- LE_PANIC_CFG
  ⟨0x70002, [], 2, .shared, [⟨31, 24, .rwl, 64, true⟩, ⟨23, 12, .rwl, 512, true⟩, ⟨11, 0, .rwl, 128, true⟩]⟩,
  -- LE_RING_WAIT
  ⟨0x70003, [], 2, .shared, [⟨11, 0, .rwl, 256, true⟩]⟩,
  -- LE_RING_STATE_n
  ⟨0x70400, [(0x2, 512)], 0, .shared, [⟨31, 30, .ro, 0, true⟩, ⟨29, 28, .ro, 0, true⟩, ⟨24, 0, .ro, 0, true⟩]⟩,
  -- LE_RING_SKIP_n
  ⟨0x70401, [(0x2, 512)], 0, .shared, [⟨31, 0, .ro, 0, true⟩]⟩,
  -- LE_n_CTRL
  ⟨0x71000, [(0x800, 16)], 2, .shared, [⟨1, 1, .w1s, 0, false⟩, ⟨0, 0, .w1s, 0, false⟩]⟩,
  -- LE_n_STATUS
  ⟨0x71001, [(0x800, 16)], 0, .shared, [⟨31, 24, .ro, 0, true⟩, ⟨23, 20, .ro, 0, true⟩, ⟨19, 18, .ro, 0, true⟩, ⟨17, 17, .ro, 0, true⟩, ⟨16, 16, .ro, 0, true⟩, ⟨12, 4, .ro, 0, true⟩, ⟨3, 0, .ro, 0, true⟩]⟩,
  -- LE_n_COUNT
  ⟨0x71002, [(0x800, 16)], 0, .shared, [⟨31, 16, .ro, 0, true⟩, ⟨15, 0, .ro, 0, true⟩]⟩,
  -- LE_n_LAMPS
  ⟨0x71003, [(0x800, 16)], 0, .shared, [⟨31, 0, .ro, 0, true⟩]⟩,
  -- TW_ENABLE
  ⟨0x80000, [], 3, .shared, [⟨2, 2, .rwl, 1, true⟩, ⟨1, 1, .rwl, 1, true⟩, ⟨0, 0, .rwl, 1, true⟩]⟩,
  -- TW_ASM_A
  ⟨0x80001, [], 0, .shared, [⟨20, 0, .ro, 0, true⟩]⟩,
  -- TW_ASM_B
  ⟨0x80002, [], 0, .shared, [⟨20, 0, .ro, 0, true⟩]⟩,
  -- TW_DEC_ERR
  ⟨0x80003, [], 0, .shared, [⟨31, 16, .ro, 0, true⟩, ⟨15, 0, .ro, 0, true⟩]⟩,
  -- TW_SRC_SEL_n
  ⟨0x80100, [(0x4, 16)], 0, .shared, [⟨31, 31, .ro, 0, true⟩, ⟨30, 30, .ro, 0, true⟩, ⟨27, 16, .ro, 0, true⟩, ⟨15, 0, .ro, 65535, true⟩]⟩,
  -- TW_SRC_STAT_n
  ⟨0x80101, [(0x4, 16)], 0, .shared, [⟨31, 28, .ro, 0, true⟩, ⟨21, 0, .ro, 0, true⟩]⟩,
  -- TW_SRC_DROP_n
  ⟨0x80102, [(0x4, 16)], 0, .shared, [⟨31, 24, .ro, 0, true⟩, ⟨23, 16, .ro, 0, true⟩, ⟨15, 8, .ro, 0, true⟩, ⟨7, 0, .ro, 0, true⟩]⟩,
  -- TW_SRC_SIZE_n
  ⟨0x80103, [(0x4, 16)], 0, .shared, [⟨31, 0, .ro, 0, true⟩]⟩,
  -- HP_n_CFG
  ⟨0x300000, [(0x1000, 4)], 3, .shared, [⟨11, 9, .rwl, 1, true⟩, ⟨8, 8, .rwl, 1, true⟩, ⟨7, 6, .rwl, 2, true⟩, ⟨5, 4, .rwl, 2, true⟩, ⟨3, 3, .rwl, 1, true⟩]⟩,
  -- HP_n_LINK
  ⟨0x300001, [(0x1000, 4)], 0, .shared, [⟨31, 31, .ro, 0, true⟩, ⟨30, 29, .ro, 0, true⟩, ⟨28, 27, .ro, 0, true⟩, ⟨26, 26, .ro, 0, true⟩, ⟨25, 25, .ro, 0, true⟩, ⟨15, 0, .ro, 0, true⟩]⟩,
  -- HP_n_MEDIA
  ⟨0x300002, [(0x1000, 4)], 0, .shared, [⟨31, 30, .ro, 0, true⟩, ⟨29, 29, .ro, 0, true⟩, ⟨28, 28, .ro, 0, true⟩, ⟨27, 27, .ro, 0, true⟩, ⟨23, 20, .ro, 0, true⟩]⟩,
  -- HP_n_INFLIGHT
  ⟨0x300003, [(0x1000, 4)], 0, .shared, [⟨31, 30, .ro, 0, true⟩, ⟨21, 11, .ro, 0, true⟩, ⟨10, 0, .ro, 0, true⟩]⟩]
/-- Register table, part 2. -/
def regTable2 : List RegTpl := [
  -- HP_n_CREDIT
  ⟨0x300004, [(0x1000, 4)], 0, .shared, [⟨31, 0, .ro, 0, true⟩]⟩,
  -- HP_n_REQ_ERR
  ⟨0x300005, [(0x1000, 4)], 0, .shared, [⟨31, 24, .ro, 0, true⟩, ⟨23, 16, .ro, 0, true⟩, ⟨15, 8, .ro, 0, true⟩, ⟨7, 0, .ro, 0, true⟩]⟩,
  -- HP_n_POISON
  ⟨0x300006, [(0x1000, 4)], 0, .shared, [⟨31, 0, .ro, 0, true⟩]⟩,
  -- HP_n_LOSS
  ⟨0x300007, [(0x1000, 4)], 0, .shared, [⟨31, 22, .ro, 0, true⟩, ⟨21, 12, .ro, 0, true⟩, ⟨11, 0, .ro, 0, true⟩]⟩,
  -- HP_n_MW
  ⟨0x300008, [(0x1000, 4)], 0, .shared, [⟨31, 30, .ro, 0, true⟩, ⟨5, 0, .ro, 0, true⟩]⟩,
  -- HP_n_TSOFF_LO
  ⟨0x300009, [(0x1000, 4)], 0, .shared, [⟨31, 0, .ro, 0, true⟩]⟩,
  -- HP_n_TSOFF_HI
  ⟨0x30000A, [(0x1000, 4)], 0, .shared, [⟨31, 0, .ro, 0, true⟩]⟩,
  -- HP_n_EVT
  ⟨0x30000B, [(0x1000, 4)], 0, .shared, [⟨31, 28, .ro, 0, true⟩, ⟨15, 0, .ro, 0, true⟩]⟩,
  -- AM_STATUS
  ⟨0x90000, [], 0, .shared, [⟨17, 17, .ro, 0, true⟩, ⟨16, 16, .ro, 0, true⟩, ⟨9, 8, .ro, 0, true⟩, ⟨7, 0, .ro, 0, true⟩]⟩,
  -- AM_SUB_CAP
  ⟨0x90001, [], 0, .shared, [⟨31, 18, .ro, 0, true⟩, ⟨17, 16, .ro, 0, true⟩, ⟨15, 15, .ro, 0, true⟩, ⟨13, 0, .ro, 0, true⟩]⟩,
  -- AM_HS_m_k
  ⟨0x90010, [(0x10, 4), (0x1, 9)], 0, .shared, [⟨19, 0, .ro, 0, true⟩]⟩,
  -- AM_HEAD_n_ERR
  ⟨0x90080, [(0x2, 4)], 0, .shared, [⟨31, 22, .ro, 0, true⟩, ⟨21, 12, .ro, 0, true⟩, ⟨11, 6, .ro, 0, true⟩, ⟨5, 0, .ro, 0, true⟩]⟩,
  -- AM_HEAD_n_FENCE
  ⟨0x90081, [(0x2, 4)], 0, .shared, [⟨31, 16, .ro, 0, true⟩, ⟨7, 0, .ro, 0, true⟩]⟩,
  -- AM_RGN_r_A
  ⟨0x91000, [(0x4, 256)], 0, .shared, [⟨29, 16, .ro, 0, true⟩, ⟨12, 0, .ro, 0, true⟩]⟩,
  -- AM_RGN_r_B
  ⟨0x91001, [(0x4, 256)], 0, .shared, [⟨18, 18, .ro, 0, true⟩, ⟨17, 17, .ro, 0, true⟩, ⟨16, 16, .ro, 0, true⟩, ⟨15, 12, .ro, 0, true⟩, ⟨11, 8, .ro, 0, true⟩, ⟨7, 6, .ro, 0, true⟩, ⟨5, 4, .ro, 0, true⟩, ⟨3, 2, .ro, 0, true⟩, ⟨1, 0, .ro, 0, true⟩]⟩,
  -- AM_RGN_r_C
  ⟨0x91002, [(0x4, 256)], 0, .shared, [⟨12, 0, .ro, 0, true⟩]⟩,
  -- DC_n_CFG
  ⟨0x100000, [(0x1000, 16)], 3, .shared, [⟨31, 24, .rwl, 10, true⟩, ⟨23, 16, .rwl, 40, true⟩, ⟨3, 2, .rwl, 0, true⟩, ⟨1, 1, .rwl, 1, true⟩, ⟨0, 0, .rwl, 0, true⟩]⟩,
  -- DC_n_STATUS
  ⟨0x100001, [(0x1000, 16)], 0, .shared, [⟨31, 28, .ro, 0, true⟩, ⟨27, 27, .ro, 0, true⟩, ⟨26, 26, .ro, 0, true⟩, ⟨25, 25, .ro, 0, true⟩, ⟨24, 24, .ro, 0, true⟩, ⟨23, 23, .ro, 0, true⟩, ⟨22, 22, .ro, 0, true⟩, ⟨21, 21, .ro, 0, true⟩, ⟨20, 20, .ro, 0, true⟩]⟩,
  -- DC_n_QUEUE
  ⟨0x100002, [(0x1000, 16)], 0, .shared, [⟨31, 24, .ro, 0, true⟩, ⟨23, 16, .ro, 0, true⟩, ⟨15, 8, .ro, 0, true⟩, ⟨7, 0, .ro, 0, true⟩]⟩,
  -- DC_n_AGE
  ⟨0x100003, [(0x1000, 16)], 0, .shared, [⟨31, 16, .ro, 0, true⟩, ⟨15, 8, .ro, 0, true⟩, ⟨7, 0, .ro, 0, true⟩]⟩]
/-- Register table, part 3. -/
def regTable3 : List RegTpl := [
  -- DC_n_REF
  ⟨0x100004, [(0x1000, 16)], 0, .shared, [⟨31, 16, .ro, 0, true⟩, ⟨15, 8, .ro, 0, true⟩, ⟨2, 0, .ro, 0, true⟩]⟩,
  -- DC_n_NBR
  ⟨0x100005, [(0x1000, 16)], 0, .shared, [⟨31, 28, .ro, 0, true⟩, ⟨27, 0, .ro, 0, true⟩]⟩,
  -- DC_n_RFM
  ⟨0x100006, [(0x1000, 16)], 0, .shared, [⟨31, 0, .ro, 0, true⟩]⟩,
  -- DC_n_CRC
  ⟨0x100007, [(0x1000, 16)], 0, .shared, [⟨31, 16, .ro, 0, true⟩, ⟨15, 8, .ro, 0, true⟩, ⟨7, 0, .ro, 0, true⟩]⟩,
  -- DC_n_FCHG
  ⟨0x100008, [(0x1000, 16)], 0, .shared, [⟨31, 16, .ro, 0, true⟩, ⟨15, 8, .ro, 0, true⟩, ⟨7, 1, .ro, 0, true⟩]⟩,
  -- DC_n_TS_m_A
  ⟨0x100010, [(0x1000, 16), (0x4, 2)], 0, .shared, [⟨31, 24, .ro, 0, true⟩, ⟨23, 16, .ro, 0, true⟩, ⟨15, 8, .ro, 0, true⟩, ⟨2, 0, .ro, 0, true⟩]⟩,
  -- DC_n_TS_m_B
  ⟨0x100011, [(0x1000, 16), (0x4, 2)], 0, .shared, [⟨31, 23, .ro, 0, true⟩, ⟨22, 15, .ro, 0, true⟩, ⟨14, 7, .ro, 0, true⟩, ⟨6, 0, .ro, 0, true⟩]⟩,
  -- DC_n_TS_m_C
  ⟨0x100012, [(0x1000, 16), (0x4, 2)], 0, .shared, [⟨31, 24, .ro, 0, true⟩, ⟨23, 16, .ro, 0, true⟩, ⟨15, 8, .ro, 0, true⟩, ⟨7, 0, .ro, 0, true⟩]⟩,
  -- DC_n_TS_m_D
  ⟨0x100013, [(0x1000, 16), (0x4, 2)], 0, .shared, [⟨31, 20, .ro, 0, true⟩, ⟨19, 8, .ro, 0, true⟩, ⟨7, 4, .ro, 0, true⟩, ⟨3, 0, .ro, 0, true⟩]⟩,
  -- DC_WAKE
  ⟨0x100020, [(0x8000, 2)], 3, .shared, [⟨31, 24, .rwl, 8, true⟩, ⟨15, 0, .ro, 0, true⟩]⟩,
  -- DI_n_CTRL
  ⟨0x200000, [(0x1000, 16)], 3, .shared, [⟨2, 2, .w1s, 0, true⟩, ⟨1, 1, .w1s, 0, false⟩, ⟨0, 0, .w1s, 0, false⟩]⟩,
  -- DI_n_STATUS
  ⟨0x200001, [(0x1000, 16)], 0, .shared, [⟨31, 28, .ro, 0, true⟩, ⟨27, 27, .ro, 0, true⟩, ⟨26, 26, .ro, 0, true⟩, ⟨25, 23, .ro, 0, true⟩, ⟨22, 20, .ro, 0, true⟩, ⟨19, 19, .ro, 0, true⟩, ⟨18, 14, .ro, 0, true⟩]⟩,
  -- DI_n_LIMITS
  ⟨0x200002, [(0x1000, 16)], 3, .shared, [⟨31, 24, .rwl, 16, true⟩, ⟨23, 16, .rwl, 8, true⟩, ⟨15, 8, .rwl, 24, true⟩, ⟨7, 0, .rwl, 16, true⟩]⟩,
  -- DI_n_CA
  ⟨0x200003, [(0x1000, 16)], 0, .shared, [⟨31, 24, .ro, 0, true⟩, ⟨23, 12, .ro, 0, true⟩, ⟨11, 0, .ro, 0, true⟩]⟩,
  -- DI_n_TRACK
  ⟨0x200004, [(0x1000, 16)], 0, .shared, [⟨31, 16, .ro, 0, true⟩, ⟨15, 8, .ro, 0, true⟩, ⟨7, 0, .ro, 0, true⟩]⟩,
  -- DI_n_RETRAIN
  ⟨0x200005, [(0x1000, 16)], 0, .shared, [⟨31, 16, .ro, 0, true⟩, ⟨15, 12, .ro, 0, true⟩, ⟨11, 8, .ro, 0, true⟩, ⟨7, 0, .ro, 0, true⟩]⟩,
  -- DI_n_REBUILD
  ⟨0x200006, [(0x1000, 16)], 0, .shared, [⟨31, 30, .ro, 0, true⟩, ⟨29, 16, .ro, 0, true⟩, ⟨15, 0, .ro, 0, true⟩]⟩,
  -- DI_n_DEV_m_A
  ⟨0x200100, [(0x1000, 16), (0x2, 20)], 0, .shared, [⟨31, 31, .ro, 0, true⟩, ⟨30, 22, .ro, 0, true⟩, ⟨21, 11, .ro, 0, true⟩, ⟨10, 0, .ro, 0, true⟩]⟩,
  -- DI_n_DEV_m_B
  ⟨0x200101, [(0x1000, 16), (0x2, 20)], 0, .shared, [⟨31, 24, .ro, 0, true⟩, ⟨23, 16, .ro, 0, true⟩, ⟨15, 8, .ro, 0, true⟩, ⟨7, 0, .ro, 0, true⟩]⟩,
  -- DI_SPARE
  ⟨0x200020, [(0x8000, 2)], 3, .shared, [⟨31, 31, .rwl, 0, true⟩, ⟨30, 30, .ro, 0, true⟩, ⟨29, 29, .ro, 0, true⟩, ⟨27, 24, .ro, 0, true⟩, ⟨7, 0, .rwl, 2, true⟩]⟩]
/-- Register table, part 4. -/
def regTable4 : List RegTpl := [
  -- MI_STATUS
  ⟨0xA0000, [], 0, .shared, [⟨31, 16, .ro, 0, true⟩, ⟨9, 8, .ro, 0, true⟩, ⟨7, 6, .ro, 0, true⟩, ⟨5, 5, .ro, 0, true⟩, ⟨4, 0, .ro, 0, true⟩]⟩,
  -- MI_CFG
  ⟨0xA0001, [], 2, .shared, [⟨1, 1, .w1s, 0, false⟩, ⟨0, 0, .rwl, 0, true⟩]⟩,
  -- MI_PPR_CFG
  ⟨0xA0002, [], 3, .shared, [⟨0, 0, .rwl, 0, true⟩]⟩,
  -- MI_PPR_STAT
  ⟨0xA0003, [], 0, .shared, [⟨31, 24, .ro, 0, true⟩, ⟨23, 16, .ro, 0, true⟩, ⟨15, 8, .ro, 0, true⟩, ⟨7, 0, .ro, 0, true⟩]⟩,
  -- MI_SCRUB_BASE_LO
  ⟨0xA0010, [], 2, .shared, [⟨31, 6, .rwl, 0, true⟩]⟩,
  -- MI_SCRUB_BASE_HI
  ⟨0xA0011, [], 2, .shared, [⟨8, 0, .rwl, 0, true⟩]⟩,
  -- MI_SCRUB_LEN_LO
  ⟨0xA0012, [], 2, .shared, [⟨31, 0, .rwl, 0, true⟩]⟩,
  -- MI_SCRUB_LEN_HI
  ⟨0xA0013, [], 2, .shared, [⟨3, 0, .rwl, 0, true⟩]⟩,
  -- MI_SCRUB_CTRL
  ⟨0xA0014, [], 2, .shared, [⟨31, 16, .rwl, 4096, true⟩, ⟨1, 1, .w1s, 0, false⟩, ⟨0, 0, .w1s, 0, false⟩]⟩,
  -- MI_SCRUB_STATUS
  ⟨0xA0015, [], 0, .shared, [⟨31, 30, .ro, 0, true⟩, ⟨29, 27, .ro, 0, true⟩]⟩,
  -- MI_SCRUB_LINES_LO
  ⟨0xA0016, [], 0, .shared, [⟨31, 0, .ro, 0, true⟩]⟩,
  -- MI_SCRUB_LINES_HI
  ⟨0xA0017, [], 0, .shared, [⟨3, 0, .ro, 0, true⟩]⟩,
  -- MI_SCRUB_CORR
  ⟨0xA0018, [], 0, .shared, [⟨31, 0, .ro, 0, true⟩]⟩,
  -- MI_SCRUB_UNCOR
  ⟨0xA0019, [], 0, .shared, [⟨31, 0, .ro, 0, true⟩]⟩,
  -- MI_SCRUB_POISON
  ⟨0xA001A, [], 0, .shared, [⟨31, 0, .ro, 0, true⟩]⟩,
  -- MI_SCRUB_SKIP
  ⟨0xA001B, [], 0, .shared, [⟨31, 0, .ro, 0, true⟩]⟩,
  -- MI_SCRUB_FIRST_LO
  ⟨0xA001C, [], 0, .shared, [⟨31, 0, .ro, 0, true⟩]⟩,
  -- MI_SCRUB_FIRST_HI
  ⟨0xA001D, [], 0, .shared, [⟨31, 31, .ro, 0, true⟩, ⟨8, 0, .ro, 0, true⟩]⟩,
  -- MI_SCRUB_LAST_LO
  ⟨0xA001E, [], 0, .shared, [⟨31, 0, .ro, 0, true⟩]⟩,
  -- MI_SCRUB_LAST_HI
  ⟨0xA001F, [], 0, .shared, [⟨31, 31, .ro, 0, true⟩, ⟨8, 0, .ro, 0, true⟩]⟩]
/-- Register table, part 5. -/
def regTable5 : List RegTpl := [
  -- MI_HIST_SEL
  ⟨0xA0020, [], 0, .perPath, [⟨8, 5, .rw, 0, false⟩, ⟨4, 0, .rw, 0, false⟩]⟩,
  -- MI_HIST_DATA
  ⟨0xA0021, [], 0, .perPath, [⟨31, 16, .ro, 0, true⟩, ⟨15, 0, .ro, 0, true⟩]⟩,
  -- MI_SUB_n_CNT
  ⟨0xA0100, [(0x2, 16)], 0, .shared, [⟨31, 0, .ro, 0, true⟩]⟩,
  -- MI_SUB_n_ERR
  ⟨0xA0101, [(0x2, 16)], 0, .shared, [⟨31, 20, .ro, 0, true⟩, ⟨19, 8, .ro, 0, true⟩, ⟨7, 0, .ro, 0, true⟩]⟩,
  -- WL_STATUS
  ⟨0x380000, [], 0, .shared, [⟨31, 24, .ro, 0, true⟩, ⟨23, 17, .ro, 0, true⟩, ⟨16, 10, .ro, 0, true⟩, ⟨4, 4, .ro, 0, true⟩, ⟨3, 0, .ro, 0, true⟩]⟩,
  -- WL_CTRL
  ⟨0x380001, [], 3, .shared, [⟨3, 3, .w1s, 0, false⟩, ⟨2, 2, .rwl, 1, true⟩, ⟨1, 1, .w1s, 0, true⟩, ⟨0, 0, .w1s, 0, true⟩]⟩,
  -- WL_HEEL_A
  ⟨0x380002, [], 0, .shared, [⟨23, 16, .ro, 0, true⟩, ⟨15, 9, .ro, 0, true⟩, ⟨8, 8, .ro, 1, true⟩, ⟨7, 0, .ro, 0, true⟩]⟩,
  -- WL_HEEL_B
  ⟨0x380003, [], 0, .shared, [⟨23, 16, .ro, 0, true⟩, ⟨15, 9, .ro, 0, true⟩, ⟨8, 8, .ro, 1, true⟩, ⟨7, 0, .ro, 0, true⟩]⟩,
  -- WL_LINK_CNT
  ⟨0x380004, [], 0, .shared, [⟨31, 12, .ro, 0, true⟩, ⟨11, 4, .ro, 0, true⟩, ⟨3, 0, .ro, 0, true⟩]⟩,
  -- WL_SPLIT
  ⟨0x380005, [], 0, .shared, [⟨31, 19, .ro, 0, true⟩, ⟨18, 12, .ro, 0, true⟩, ⟨11, 0, .ro, 0, true⟩]⟩,
  -- WL_LOAD
  ⟨0x380006, [], 0, .shared, [⟨25, 16, .ro, 0, true⟩, ⟨9, 0, .ro, 0, true⟩]⟩,
  -- CK_h_CFG
  ⟨0x40000, [(0x20, 2)], 3, .shared, [⟨31, 16, .rwl, 44257, true⟩, ⟨15, 15, .rwl, 1, true⟩, ⟨14, 13, .rwl, 0, true⟩, ⟨12, 12, .rwl, 0, true⟩, ⟨11, 11, .rwl, 0, true⟩]⟩,
  -- CK_h_RAMP
  ⟨0x40001, [(0x20, 2)], 0, .shared, [⟨31, 31, .ro, 0, true⟩, ⟨27, 24, .ro, 0, true⟩, ⟨9, 0, .ro, 0, true⟩]⟩,
  -- CK_h_SEG_i
  ⟨0x40008, [(0x20, 2), (0x1, 8)], 0, .shared, [⟨24, 16, .ro, 0, true⟩, ⟨9, 0, .ro, 0, true⟩]⟩,
  -- CK_h_STATUS
  ⟨0x40002, [(0x20, 2)], 0, .shared, [⟨31, 31, .ro, 0, true⟩, ⟨30, 30, .ro, 0, true⟩, ⟨29, 29, .ro, 0, true⟩, ⟨28, 28, .ro, 0, true⟩, ⟨27, 27, .ro, 0, true⟩, ⟨26, 25, .ro, 0, true⟩, ⟨11, 0, .ro, 0, true⟩]⟩,
  -- CK_h_EVENTS
  ⟨0x40003, [(0x20, 2)], 0, .shared, [⟨31, 24, .ro, 0, true⟩, ⟨23, 16, .ro, 0, true⟩, ⟨15, 0, .ro, 0, true⟩]⟩,
  -- CK_CH_n
  ⟨0x40050, [(0x1, 16)], 0, .shared, [⟨24, 24, .ro, 0, true⟩, ⟨23, 21, .ro, 0, true⟩, ⟨17, 0, .ro, 0, true⟩]⟩,
  -- CK_DLL_n
  ⟨0x40040, [(0x1, 16)], 0, .shared, [⟨31, 30, .ro, 0, true⟩, ⟨23, 16, .ro, 0, true⟩, ⟨15, 8, .ro, 0, true⟩]⟩,
  -- CK_AUX_n_CFG
  ⟨0x40080, [(0x2, 4)], 2, .shared, [⟨31, 31, .rwl, 0, true⟩, ⟨30, 28, .rwl, 0, true⟩, ⟨27, 22, .rwl, 0, true⟩, ⟨11, 0, .rwl, 0, true⟩]⟩,
  -- CK_AUX_n_TICK
  ⟨0x40081, [(0x2, 4)], 2, .shared, [⟨15, 0, .rwl, 4095, true⟩]⟩]
/-- Register table, part 6. -/
def regTable6 : List RegTpl := [
  -- CK_AUX_STATUS
  ⟨0x40088, [], 0, .shared, [⟨7, 4, .ro, 0, true⟩, ⟨3, 0, .ro, 0, true⟩]⟩,
  -- TB_CFG
  ⟨0x50000, [], 2, .shared, [⟨26, 24, .rwl, 0, true⟩, ⟨21, 20, .rwl, 0, true⟩, ⟨17, 16, .rwl, 1, true⟩, ⟨13, 12, .rwl, 0, true⟩, ⟨8, 8, .rwl, 0, true⟩, ⟨4, 4, .rwl, 0, true⟩, ⟨0, 0, .rwl, 1, true⟩]⟩,
  -- TB_TICKIO
  ⟨0x50001, [], 2, .shared, [⟨31, 12, .rwl, 0, true⟩, ⟨11, 0, .rwl, 64, true⟩]⟩,
  -- TB_PHASE_OFS
  ⟨0x50002, [], 2, .shared, [⟨25, 0, .rwl, 0, true⟩]⟩,
  -- TB_STATUS
  ⟨0x50003, [], 0, .shared, [⟨31, 16, .ro, 0, true⟩, ⟨15, 15, .ro, 0, true⟩, ⟨14, 14, .ro, 0, true⟩, ⟨13, 13, .ro, 0, true⟩, ⟨12, 12, .ro, 0, true⟩, ⟨11, 11, .ro, 0, true⟩, ⟨10, 10, .ro, 0, true⟩, ⟨9, 9, .ro, 0, true⟩, ⟨8, 8, .ro, 0, true⟩]⟩,
  -- TB_TIME_LO
  ⟨0x50004, [], 0, .shared, [⟨31, 0, .ro, 0, true⟩]⟩,
  -- TB_TIME_HI
  ⟨0x50005, [], 0, .shared, [⟨31, 0, .ro, 0, true⟩]⟩,
  -- TB_OFFSET
  ⟨0x50006, [], 0, .shared, [⟨31, 0, .ro, 0, true⟩]⟩,
  -- TB_RATE
  ⟨0x50007, [], 0, .shared, [⟨31, 0, .ro, 0, true⟩]⟩,
  -- TB_UTC
  ⟨0x50008, [], 2, .shared, [⟨31, 31, .ro, 0, true⟩, ⟨15, 0, .rwl, 37, true⟩]⟩,
  -- TB_TOD_CNT
  ⟨0x50009, [], 0, .shared, [⟨31, 24, .ro, 0, true⟩, ⟨23, 16, .ro, 0, true⟩, ⟨15, 8, .ro, 0, true⟩, ⟨7, 0, .ro, 0, true⟩]⟩,
  -- TB_PPS_CNT
  ⟨0x5000A, [], 0, .shared, [⟨31, 16, .ro, 0, true⟩, ⟨15, 8, .ro, 0, true⟩, ⟨7, 4, .ro, 0, true⟩, ⟨3, 0, .ro, 0, true⟩]⟩,
  -- TB_TICK_CNT
  ⟨0x5000B, [], 0, .shared, [⟨31, 16, .ro, 0, true⟩, ⟨15, 0, .ro, 0, true⟩]⟩,
  -- TB_CAL_DATE
  ⟨0x50010, [], 0, .shared, [⟨31, 16, .ro, 1970, true⟩, ⟨11, 8, .ro, 1, true⟩, ⟨4, 0, .ro, 1, true⟩]⟩,
  -- TB_CAL_TIME
  ⟨0x50011, [], 0, .shared, [⟨20, 16, .ro, 0, true⟩, ⟨13, 8, .ro, 0, true⟩, ⟨5, 0, .ro, 0, true⟩]⟩,
  -- TB_SET_DATE
  ⟨0x50012, [], 2, .shared, [⟨31, 16, .rwl, 0, false⟩, ⟨11, 8, .rwl, 0, false⟩, ⟨4, 0, .rwl, 0, false⟩]⟩,
  -- TB_SET_TIME
  ⟨0x50013, [], 2, .shared, [⟨20, 16, .rwl, 0, false⟩, ⟨13, 8, .rwl, 0, false⟩, ⟨5, 0, .rwl, 0, false⟩]⟩,
  -- TB_SET_CTRL
  ⟨0x50014, [], 2, .shared, [⟨31, 31, .w1s, 0, false⟩, ⟨30, 30, .w1s, 0, false⟩, ⟨3, 0, .ro, 0, true⟩]⟩,
  -- TB_CAPTURE
  ⟨0x50018, [], 0, .shared, [⟨15, 0, .rw, 0, false⟩]⟩,
  -- TB_TSQ_STATUS
  ⟨0x50019, [], 0, .shared, [⟨31, 31, .w1c, 0, true⟩, ⟨23, 8, .ro, 0, true⟩, ⟨5, 0, .ro, 0, true⟩]⟩]
/-- Register table, part 7. -/
def regTable7 : List RegTpl := [
  -- TB_TSQ_POP
  ⟨0x5001A, [], 0, .shared, [⟨31, 16, .ro, 0, true⟩, ⟨15, 8, .ro, 0, true⟩, ⟨7, 0, .ro, 0, true⟩]⟩,
  -- TB_TSQ_TIME_LO
  ⟨0x5001B, [], 0, .perPath, [⟨31, 0, .ro, 0, true⟩]⟩,
  -- TB_TSQ_TIME_HI
  ⟨0x5001C, [], 0, .perPath, [⟨31, 0, .ro, 0, true⟩]⟩,
  -- PS_STATUS
  ⟨0x20000, [], 0, .shared, [⟨31, 28, .ro, 0, true⟩, ⟨27, 24, .ro, 0, true⟩, ⟨23, 23, .ro, 0, true⟩, ⟨22, 22, .ro, 0, true⟩, ⟨21, 21, .ro, 0, true⟩, ⟨20, 20, .ro, 0, true⟩, ⟨15, 12, .ro, 0, true⟩]⟩,
  -- PS_CTRL
  ⟨0x20001, [], 3, .shared, [⟨0, 0, .w1s, 0, false⟩]⟩,
  -- PS_LACE_CFG
  ⟨0x20002, [], 3, .shared, [⟨31, 31, .ro, 0, true⟩, ⟨23, 16, .rwl, 50, true⟩, ⟨15, 0, .rwl, 100, true⟩]⟩,
  -- PS_LACE_CNT
  ⟨0x20003, [], 0, .shared, [⟨31, 24, .ro, 0, true⟩, ⟨23, 16, .ro, 0, true⟩, ⟨15, 8, .ro, 0, true⟩]⟩,
  -- PS_PFW_CFG
  ⟨0x20004, [], 3, .shared, [⟨31, 23, .rwl, 50, true⟩, ⟨22, 13, .rwl, 800, true⟩, ⟨12, 5, .rwl, 50, true⟩]⟩,
  -- PS_HOLDUP
  ⟨0x20005, [], 0, .shared, [⟨31, 31, .ro, 0, true⟩, ⟨30, 22, .ro, 0, true⟩, ⟨15, 0, .ro, 0, true⟩]⟩,
  -- PS_PFW_STATUS
  ⟨0x20006, [], 0, .shared, [⟨31, 24, .ro, 0, true⟩, ⟨23, 16, .ro, 0, true⟩, ⟨15, 15, .ro, 0, true⟩, ⟨5, 0, .ro, 0, true⟩]⟩,
  -- PS_TRANS
  ⟨0x20007, [], 3, .shared, [⟨31, 31, .w1s, 0, false⟩, ⟨30, 30, .ro, 0, true⟩, ⟨29, 29, .ro, 0, true⟩, ⟨28, 28, .ro, 0, true⟩, ⟨27, 24, .rwl, 0, true⟩, ⟨9, 0, .rwl, 100, true⟩]⟩,
  -- PS_TRANS_WIN
  ⟨0x20008, [], 3, .shared, [⟨31, 16, .rwl, 0, true⟩, ⟨15, 0, .rwl, 0, true⟩]⟩,
  -- PS_SVC
  ⟨0x20009, [], 0, .shared, [⟨31, 31, .ro, 0, true⟩, ⟨30, 30, .ro, 0, true⟩, ⟨15, 8, .ro, 0, true⟩, ⟨7, 0, .ro, 0, true⟩]⟩,
  -- PS_ADC_CFG
  ⟨0x20010, [], 3, .shared, [⟨5, 0, .rwl, 4, true⟩]⟩,
  -- PS_RAIL_n_WIN
  ⟨0x20100, [(0x4, 12)], 0, .shared, [⟨31, 16, .ro, 0, true⟩, ⟨15, 0, .ro, 0, true⟩]⟩,
  -- PS_RAIL_n_BOUND
  ⟨0x20101, [(0x4, 12)], 0, .shared, [⟨31, 16, .ro, 0, true⟩, ⟨15, 0, .ro, 0, true⟩]⟩,
  -- PS_RAIL_n_CFG
  ⟨0x20102, [(0x4, 12)], 0, .shared, [⟨31, 24, .ro, 0, true⟩, ⟨23, 16, .ro, 0, true⟩, ⟨15, 0, .ro, 0, true⟩]⟩,
  -- PS_RAIL_n_STATUS
  ⟨0x20103, [(0x4, 12)], 0, .shared, [⟨31, 28, .ro, 0, true⟩, ⟨27, 27, .ro, 0, true⟩, ⟨26, 26, .ro, 0, true⟩, ⟨25, 25, .ro, 0, true⟩, ⟨24, 22, .ro, 0, true⟩, ⟨21, 20, .ro, 0, true⟩]⟩,
  -- PS_ADC_CH_c_CFG
  ⟨0x20200, [(0x2, 24)], 3, .shared, [⟨31, 31, .rwl, 1, true⟩, ⟨3, 2, .rwl, 0, true⟩, ⟨0, 0, .rwl, 0, true⟩]⟩,
  -- PS_ADC_CH_c_DATA
  ⟨0x20201, [(0x2, 24)], 0, .shared, [⟨31, 31, .ro, 0, true⟩, ⟨30, 30, .ro, 0, true⟩, ⟨27, 16, .ro, 0, true⟩, ⟨15, 0, .ro, 0, true⟩]⟩]
/-- Register table, part 8. -/
def regTable8 : List RegTpl := [
  -- TH_CFG
  ⟨0x30000, [], 3, .shared, [⟨31, 24, .rwl, 84, true⟩, ⟨23, 16, .rwl, 140, true⟩, ⟨15, 12, .rwl, 5, true⟩, ⟨7, 0, .rwl, 150, true⟩]⟩,
  -- TH_MARGIN
  ⟨0x30001, [], 3, .shared, [⟨15, 8, .rwl, 16, true⟩, ⟨7, 0, .rwl, 4, true⟩]⟩,
  -- TH_FORCE
  ⟨0x30002, [], 3, .shared, [⟨2, 0, .rwl, 0, true⟩]⟩,
  -- TH_STATUS
  ⟨0x30003, [], 0, .shared, [⟨31, 29, .ro, 0, true⟩, ⟨28, 28, .ro, 1, true⟩, ⟨27, 27, .ro, 1, true⟩, ⟨26, 26, .ro, 0, true⟩, ⟨25, 25, .ro, 0, true⟩, ⟨15, 0, .ro, 0, true⟩]⟩,
  -- TH_POWER
  ⟨0x30004, [], 0, .shared, [⟨31, 16, .ro, 0, true⟩, ⟨15, 0, .ro, 0, true⟩]⟩,
  -- TH_CNT
  ⟨0x30005, [], 0, .shared, [⟨31, 16, .ro, 0, true⟩, ⟨15, 0, .ro, 0, true⟩]⟩,
  -- TH_SENS_h_s
  ⟨0x30010, [(0x8, 2), (0x1, 8)], 0, .shared, [⟨31, 31, .ro, 0, true⟩, ⟨15, 0, .ro, 0, true⟩]⟩,
  -- TH_NODE_h_i
  ⟨0x30020, [(0x8, 2), (0x1, 6)], 0, .shared, [⟨15, 0, .ro, 0, true⟩]⟩,
  -- FC_STATUS
  ⟨0x10000, [], 0, .shared, [⟨31, 31, .ros, 0, true⟩, ⟨30, 30, .ros, 0, true⟩, ⟨29, 29, .ros, 0, true⟩, ⟨28, 28, .ros, 0, true⟩, ⟨23, 16, .ros, 0, true⟩, ⟨8, 0, .ros, 0, true⟩]⟩,
  -- FC_CFG
  ⟨0x10001, [], 3, .shared, [⟨7, 7, .rwl, 0, true⟩, ⟨2, 0, .rwl, 3, true⟩]⟩,
  -- FC_LOG_WR
  ⟨0x10002, [], 0, .shared, [⟨31, 0, .ros, 0, true⟩]⟩,
  -- FC_LOG_CNT
  ⟨0x10003, [], 0, .shared, [⟨31, 16, .ros, 0, true⟩, ⟨15, 0, .ros, 0, true⟩]⟩,
  -- FC_FATAL_LO
  ⟨0x10004, [], 0, .shared, [⟨31, 0, .ros, 0, true⟩]⟩,
  -- FC_FATAL_HI
  ⟨0x10005, [], 0, .shared, [⟨31, 0, .ros, 0, true⟩]⟩,
  -- FC_FATAL_TS
  ⟨0x10006, [], 0, .shared, [⟨31, 0, .ros, 0, true⟩]⟩,
  -- FC_STICKY_w
  ⟨0x10010, [(0x1, 10)], 2, .shared, [⟨31, 0, .w1c, 0, true⟩]⟩,
  -- FC_MASK_w
  ⟨0x10020, [(0x1, 10)], 3, .shared, [⟨31, 0, .rwl, 0, true⟩]⟩,
  -- FC_FORCE_w
  ⟨0x10030, [(0x1, 10)], 3, .shared, [⟨31, 0, .w1s, 0, false⟩]⟩,
  -- FC_SRC_s
  ⟨0x10100, [(0x1, 320)], 3, .shared, [⟨31, 31, .ro, 0, true⟩, ⟨30, 30, .ros, 0, true⟩, ⟨29, 29, .ros, 0, true⟩, ⟨26, 24, .rwl, 0, true⟩, ⟨15, 0, .ros, 0, true⟩]⟩,
  -- FC_LOG_e_LO
  ⟨0x10400, [(0x4, 256)], 0, .shared, [⟨31, 0, .ros, 0, true⟩]⟩]
/-- Register table, part 9. -/
def regTable9 : List RegTpl := [
  -- FC_LOG_e_HI
  ⟨0x10401, [(0x4, 256)], 0, .shared, [⟨31, 0, .ros, 0, true⟩]⟩,
  -- FC_LOG_e_TS
  ⟨0x10402, [(0x4, 256)], 0, .shared, [⟨31, 0, .ros, 0, true⟩]⟩,
  -- FC_LOG_e_INFO
  ⟨0x10403, [(0x4, 256)], 0, .shared, [⟨31, 31, .ros, 0, true⟩, ⟨30, 30, .ros, 0, true⟩, ⟨29, 29, .ros, 0, true⟩, ⟨15, 0, .ros, 0, true⟩]⟩,
  -- MG_ID
  ⟨0x0, [], 0, .shared, [⟨31, 16, .ro, 10336, true⟩, ⟨15, 12, .ro, 0, true⟩, ⟨11, 10, .ro, 0, true⟩]⟩,
  -- MG_SERIAL_LO
  ⟨0x1, [], 0, .shared, [⟨31, 0, .ro, 0, true⟩]⟩,
  -- MG_SERIAL_HI
  ⟨0x2, [], 0, .shared, [⟨31, 0, .ro, 0, true⟩]⟩,
  -- MG_STATUS
  ⟨0x3, [], 0, .shared, [⟨31, 31, .ro, 0, true⟩, ⟨30, 30, .ro, 0, true⟩, ⟨29, 29, .ro, 0, true⟩, ⟨15, 8, .ro, 0, true⟩, ⟨7, 0, .ro, 0, true⟩]⟩,
  -- MG_CTRL
  ⟨0x4, [], 2, .shared, [⟨0, 0, .w1s, 0, false⟩]⟩,
  -- MG_BOOT
  ⟨0x5, [], 3, .shared, [⟨31, 24, .ro, 0, true⟩, ⟨0, 0, .rwl, 0, true⟩]⟩,
  -- MG_ROLE
  ⟨0x8, [], 0, .spiOnly, [⟨31, 30, .ro, 0, false⟩, ⟨29, 28, .rw, 0, false⟩, ⟨27, 27, .w1s, 0, false⟩, ⟨26, 26, .w1s, 0, false⟩, ⟨25, 25, .w1s, 0, false⟩, ⟨24, 24, .ro, 0, false⟩, ⟨7, 4, .ro, 0, false⟩, ⟨3, 0, .ro, 0, false⟩]⟩,
  -- MG_ROLE_CHAL_i
  ⟨0x10, [(0x1, 8)], 0, .spiOnly, [⟨31, 0, .ro, 0, false⟩]⟩,
  -- MG_ROLE_RESP_i
  ⟨0x18, [(0x1, 8)], 0, .spiOnly, [⟨31, 0, .rw, 0, false⟩]⟩,
  -- MG_FL_ADDR
  ⟨0x30, [], 0, .perPath, [⟨31, 30, .rw, 0, false⟩, ⟨24, 0, .rw, 0, false⟩]⟩,
  -- MG_FL_CTRL
  ⟨0x31, [], 0, .perPath, [⟨31, 31, .w1s, 0, false⟩, ⟨30, 30, .ro, 0, false⟩, ⟨29, 28, .rw, 0, false⟩, ⟨27, 25, .ro, 0, true⟩, ⟨5, 0, .rw, 0, false⟩]⟩,
  -- MG_FL_DATA_i
  ⟨0x80, [(0x1, 64)], 0, .perPath, [⟨31, 0, .rw, 0, false⟩]⟩,
  -- MG_SPI_STAT
  ⟨0x50, [], 0, .shared, [⟨31, 24, .ro, 0, true⟩, ⟨23, 16, .ro, 0, true⟩, ⟨15, 8, .ro, 0, true⟩, ⟨7, 4, .ro, 0, true⟩, ⟨2, 2, .w1c, 0, true⟩, ⟨1, 1, .w1c, 0, true⟩, ⟨0, 0, .w1c, 0, true⟩]⟩,
  -- MG_SPI_FETCH
  ⟨0x51, [], 0, .shared, [⟨31, 31, .ro, 0, false⟩, ⟨30, 30, .ro, 0, false⟩, ⟨6, 0, .ro, 0, false⟩]⟩,
  -- MG_PP_STAT
  ⟨0x58, [], 0, .shared, [⟨31, 30, .ro, 0, true⟩, ⟨29, 29, .ro, 0, true⟩, ⟨28, 28, .ro, 0, true⟩, ⟨27, 22, .ro, 0, true⟩, ⟨15, 0, .ro, 0, true⟩]⟩,
  -- MG_AUDIT_STAT
  ⟨0x5C, [], 0, .shared, [⟨31, 16, .ro, 0, true⟩, ⟨15, 8, .ro, 0, true⟩, ⟨7, 0, .ro, 0, true⟩]⟩,
  -- MG_START
  ⟨0x60, [], 0, .shared, [⟨31, 0, .ro, 0, true⟩]⟩]
/-- Every register of the spec. -/
def regTable : List RegTpl :=
  regTable0 ++ regTable1 ++ regTable2 ++ regTable3 ++ regTable4 ++ regTable5 ++ regTable6 ++ regTable7 ++ regTable8 ++ regTable9

/-- Whether an offset is a combination of the strides. -/
def dimsMatch : List (Nat × Nat) → Nat → Bool
  | [], o => o == 0
  | (s, n) :: t, o => o / s < n && dimsMatch t (o % s)

/-- The register at a word address; none for an unassigned address (R13). -/
def regAt (a : Nat) : Option RegTpl := regTable.find? (fun t => t.base ≤ a && dimsMatch t.dims (a - t.base))

/-- A word built from one number per field. -/
def wordOf (fs : List (FldInfo × Nat)) : Word := fs.foldl (fun w f => setBits w f.1.hi f.1.lo f.2) 0

/-- Power-on value of a register key (per-path keys included). FC_SRC_s takes the default severity of its source (R411, R412). -/
def regPowerOn (k : Nat) : Word :=
  let a := k % 0x1000000
  if 0x10100 ≤ a ∧ a < 0x10240 then
    let s := a - 0x10100
    setBits (setBits 0 26 24 ((sourceSev s).getD 0)) 31 31 (b2n (fatalClass s))
  else
    match regAt a with
    | none => 0
    | some t => wordOf (t.fields.map fun f => (f, f.po))

/-- Value of a register after a management warm reset (R12): a field whose warm-reset value is 0 is cleared, others stay. -/
def regWarm (k : Nat) (w : Word) : Word :=
  match regAt (k % 0x1000000) with
  | none => w
  | some t => t.fields.foldl (fun w f => if f.keep then w else setBits w f.hi f.lo 0) w

end Sys2Proof.Machine
end

