-- ==== Sys2Proof/Machine/State.lean ====
section
/-! DEFINITION. The state of the block as plain data: the register file, the structured state behind it chapter by chapter, the
DRAM and the image flash, the queue of waiting commands, and the trace of what the device sends out. -/
namespace Sys2Proof.Machine

/-- Why a step stops with a fault. The spec gives every command an effect, so no meaning of this model raises one. -/
inductive Fault where
  /-- Raised by nothing: kept so that the interface has a named fault. Safe. -/
  | none
  deriving DecidableEq, Repr

/-- Why a command has no meaning. -/
inductive Refusal where
  /-- The command's arm has no meaning yet (raised by `exec` only). Safe: nothing is claimed about it. -/
  | notModelled (mnemonic : String)
  deriving DecidableEq, Repr

/-- A Selvedge message before it is packed (R415) with its stamps (R420). -/
structure Msg where
  half : Half
  src : Nat
  kind : Nat
  sev : Nat
  detail : Nat
  extra : Nat
  ts : Nat
  epoch : Nat
  /-- The CXL time-stamp of each head when the message was raised (R170). -/
  times : List Int
  deriving DecidableEq, Repr

/-- One log-ring entry (R420); `split` is the SPLIT flag of FC_LOG_e_INFO. -/
structure LogEntry where
  msg : Msg
  split : Bool
  /-- Logged in split mode by this store and not yet through a rejoin (R432). -/
  inSplit : Bool
  deriving DecidableEq, Repr

/-- The Selvedge store of one half (R417 to R421) and its fatal state (R426). -/
structure FcStore where
  sticky : BitVec 320 := 0
  merged : Sparse Nat := []
  /-- The newest entries, oldest first, at most 256. -/
  log : List LogEntry := []
  wr : Nat := 0
  mergedAll : Nat := 0
  overwritten : Nat := 0
  first : Option Msg := none
  /-- Messages waiting for the collector, at most one per source (R417). -/
  pend : List Msg := []
  fatal : Bool := false
  deriving DecidableEq, Repr

/-- A time-stamp queue entry (R373). -/
structure TsqEntry where
  id : Nat
  kind : Nat
  epoch : Nat
  time : Nat
  deriving DecidableEq, Repr

/-- A good ToD sentence (R358, R360), and the core cycle at which its CRC byte ended (R361). -/
structure Sentence where
  x : Nat
  utc : Int
  timeValid : Bool
  utcValid : Bool
  seq : Nat
  ended : Nat
  deriving DecidableEq, Repr

/-- The time base (R354 to R377). Times are in units of 2^-32 ns. -/
structure TimeBase where
  time : Nat := 0
  /-- R, core cycles per second of device time with 16 fraction bits (R355). -/
  rate : Nat := 78643200000000
  /-- What is still to slew (R355, R364). -/
  slew : Int := 0
  /-- Core-cycle lengths of the last 16 intervals between accepted PPS edges, newest first (R363). -/
  intervals : List Nat := []
  /-- Core cycle and device time of the last accepted PPS edge, and its X. -/
  lastEdge : Option Nat := none
  lastEdgeTime : Nat := 0
  x : Option Nat := none
  pend : Option Sentence := none
  lastSeq : Option Nat := none
  /-- Bytes received of the sentence under way, SYNC included (R360). -/
  rx : List Byte := []
  /-- Core cycle at which a sentence with TIME_VALID last applied (R366). -/
  lastApplied : Option Nat := none
  /-- The master was present and ceased to be: time advances at the last R (R366). -/
  masterGone : Bool := false
  utc : Option Int := none
  /-- Core cycle of the last accepted FTICK_IN edge, the last 16 accepted intervals and the edge count (R370). -/
  ftLast : Option Nat := none
  ftIntervals : List Nat := []
  ftCount : Nat := 0
  tsq : List TsqEntry := []
  /-- An overflow event was raised for the present filling of the queue (R374). -/
  tsqRaised : Bool := false
  tickOut : Bool := false
  /-- TICK_SRC in force: a write takes effect at the next stitch 0. -/
  tickSrc : Nat := 1
  deriving DecidableEq, Repr

/-- What the power-fail record takes at the start of shedding (Table PS-5). -/
structure ShedStart where
  reason : Nat
  eyelet : Nat
  stitch : Nat
  time : Nat
  frame : Nat
  epoch : Nat
  vinPfw : Nat
  railGood : Nat
  railV : List Nat
  railI : List Nat
  delayCut : Bool
  split : Bool
  deriving DecidableEq, Repr

/-- One channel of a monitor ADC (R399, R400): valid samples since the last change of FILT or GAIN, newest first; samples still invalid after a
change of GAIN; the last sample and its VALID bit; the filter output and its VALID bit; the last valid filter output. -/
structure AdcChan where
  filt : List Nat := []
  settle : Nat := 0
  sample : Nat := 0
  sampleOk : Bool := false
  value : Nat := 0
  valid : Bool := false
  last : Nat := 0
  deriving DecidableEq, Repr

/-- The monitor ADC of one half: its channels, and the channel being visited with the samples taken of it. -/
structure Adc where
  chans : Vector AdcChan 24 := Vector.replicate 24 {}
  visit : Option (Nat × Nat) := none
  deriving DecidableEq, Repr

/-- A channel. -/
def Adc.chan (a : Adc) (c : Nat) : AdcChan := (a.chans[c]?).getD {}

/-- Updates a channel. -/
def Adc.modChan (a : Adc) (c : Nat) (f : AdcChan → AdcChan) : Adc := { a with chans := a.chans.setIfInBounds c (f (a.chan c)) }

/-- The power supervisor (13_power_supervision.md). -/
structure Power where
  /-- AUX domain up; core cycle count of its start (MG_START). -/
  aux : Bool := false
  auxAt : Nat := 0
  /-- TEST_EN was sampled high (R474). -/
  test : Bool := false
  /-- JOIN as taken from OTP at power-on (R385). -/
  join : Bool := true
  /-- The next eyelet may be entered; the present eyelet's action runs. -/
  entryDue : Bool := false
  acting : Bool := false
  /-- The EYE_WARN event of the present eyelet was raised (R386). -/
  warned : Bool := false
  /-- Stopped modules ignore LACE until the next start (R386). -/
  ignoreLace : Bool := false
  /-- The settings lists of E2 were applied in this start (R449). -/
  listed : Bool := false
  /-- The fatal state was kept into this start (R429). -/
  fatalKept : Bool := false
  /-- RAILEN outputs. -/
  railen : BitVec 12 := 0
  /-- The transition running: rail, old and new window (R383). -/
  trans : Option (Nat × (Nat × Nat) × (Nat × Nat)) := none
  /-- V_REC in force for the run, mV (R396). -/
  vrec : Nat := 8000
  /-- The half whose AUX domain drives LACE, RAILEN_n and PFW_N, held from PFW_N, an abort or a forced off until the record is written (R389). -/
  drive : Option Half := none
  /-- The charge estimator: current drawn since PFW_N, in units of 10 mA for 1 µs; none while it does not run (R390, R392). -/
  charge : Option Nat := none
  /-- Core cycle at which the device's own pull of LACE by LACE_ABORT ends (R387). -/
  abortEnd : Option Nat := none
  pfwVin : Nat := 0
  pfwDelay : Bool := false
  transAbandoned : Bool := false
  shed : Option ShedStart := none
  /-- Rail groups still to drop, in order (Table PS-4), and whether the record has started. -/
  groups : List (List Nat) := []
  recording : Bool := false
  /-- FLAGS and slot of the record being written. -/
  recFlags : Nat := 0
  recSlot : Nat := 0
  recBytes : List Byte := []
  /-- The monitor ADCs of the halves. -/
  adcA : Adc := {}
  adcB : Adc := {}
  /-- The TAP instruction loaded (R480). -/
  tap : TapInstr := .idcode
  deriving DecidableEq, Repr

/-- The ADC of a half. -/
def Power.adc (p : Power) (h : Half) : Adc := match h with | .a => p.adcA | .b => p.adcB

/-- Updates the ADC of a half. -/
def Power.modAdc (p : Power) (h : Half) (f : Adc → Adc) : Power := match h with | .a => { p with adcA := f p.adcA } | .b => { p with adcB := f p.adcB }

/-- The thermal model of one half (R402 to R408). Temperatures in 1/256 °C. -/
structure Thermal where
  nodes : Option (Vector Int 6) := none
  /-- The last sample of each sensor stood at or above TRIP (R410). -/
  tripped : BitVec 8 := 0
  /-- The sensors have been read once (R402). -/
  seen : Bool := false
  sensorLoss : Bool := false
  /-- 2 s have passed since the first update (R406). -/
  warmed : Bool := false
  /-- TEMP_USE of the half, 0.5 °C units. -/
  use : Int := 0
  /-- The last 4 half powers, mW, newest first. -/
  powers : List Nat := []
  step : Nat := 0
  /-- Milliseconds since the last rise, and of the unbroken fall condition (R408). -/
  sinceRise : Option Nat := none
  fallHeld : Nat := 0
  deriving DecidableEq, Repr

/-- One half's view of the Welt and its leadership duties (10_halves_leadership.md). -/
structure WeltHalf where
  coreGood : Bool := false
  selftest : Bool := false
  fenced : Bool := false
  fencePending : Bool := false
  claim : Bool := false
  heelSeq : Nat := 0
  /-- Consecutive bad frames seen from this half by the other. -/
  badRun : Nat := 0
  /-- Committed writes held for the far half: subchannel × 2^32 + line of it, data, poison (R322). -/
  hold : List (Nat × LineData × Bool) := []
  deriving DecidableEq, Repr

/-- The Welt. -/
structure Welt where
  up : Bool := false
  leader : Half := .a
  /-- Leadership was settled at this start (R315). -/
  settled : Bool := false
  /-- Leadership was taken over: the old leader's heel frames count for ERR_N until a rejoin (R432). -/
  tookOver : Bool := false
  /-- Core cycle since which the Welt has stayed up after a loss (R326). -/
  upSince : Nat := 0
  rejoinWanted : Bool := false
  /-- Rejoined in this tick: interleaved regions are served again from the next stitch 0 (Table WL-4, step 5). -/
  mending : Bool := false
  a : WeltHalf := {}
  b : WeltHalf := {}
  deriving DecidableEq, Repr

/-- An earlier setting of an AUXCK output: its two words, and the core cycle at which another took its place (R353). -/
structure AuxWas where
  n : Nat
  cfg : Word
  tick : Word
  till : Nat
  deriving DecidableEq, Repr

/-- The clocks of one half (11_clocking.md) beyond the registers. -/
structure ClockHalf where
  /-- Lock windows in a row that counted within 1 (R343), per PLL. -/
  coreGoodRun : Nat := 0
  memGoodRun : Nat := 0
  coreEnabled : Bool := false
  memEnabled : Bool := false
  /-- The core PLL, or the memory PLL, has fallen back to the counter for the run (R345). -/
  fallback : Bool := false
  /-- A memory PLL loss of this run (Table CK-4). -/
  memLost : Bool := false
  /-- CK_h_CFG as read at the enable of the core PLL (R450). -/
  cfg : Word := 0
  /-- The dither LFSR of the half's sigma-delta modulators (R334). -/
  dither : BitVec 16 := 0
  /-- Settings of its AUXCK outputs that gave way in the present tick, in order (R353). -/
  aux : List AuxWas := []
  deriving DecidableEq, Repr

/-- One audit entry (Table MG-10). -/
structure AuditEntry where
  time : Nat
  seq : Nat
  epoch : Nat
  role : Nat
  path : Nat
  kind : Nat
  split : Bool
  target : Nat
  old : Nat
  new : Nat
  deriving DecidableEq, Repr

/-- Role state of one path (R455, R456). -/
structure PathRole where
  role : Nat := 0
  /-- Challenge draw, role asked for, and core cycle of issue. -/
  chal : Option (BitVec 256 × Nat × Nat) := none
  fails : Nat := 0
  locked : Bool := false
  deriving DecidableEq, Repr

/-- A flash-engine operation under way (R442): path, OP, SPACE, address, words. -/
structure FlashOp where
  path : Path
  op : Nat
  space : Nat
  addr : Nat
  words : List Word
  deriving DecidableEq, Repr

/-- OTP fields of Table MG-6. Never-programmed bits read 0 (R469). -/
structure Otp where
  makerKeyHash : BitVec 384 := 0
  minSec : BitVec 64 := 0
  kMaker : BitVec 256 := 0
  kWrap : BitVec 256 := 0
  loBound : Vector (BitVec 16) 12 := Vector.replicate 12 0
  hiBound : Vector (BitVec 16) 12 := Vector.replicate 12 0
  defRail : Vector (BitVec 64) 12 := Vector.replicate 12 0
  grade : BitVec 2 := 0
  laceSolo : Bool := false
  /-- One bit a field, and from bit 9 one for the bounds of each rail. -/
  lock : BitVec 21 := 0
  /-- Words already programmed, as (field, word) numbers. -/
  done : List (Nat × Nat) := []
  deriving DecidableEq, Repr

/-- What the device sends or shows outside: the model's own trace of outputs, oldest first. -/
inductive Out where
  /-- Words that a read of the register space returns on a path. -/
  | readData (p : Path) (words : List Word)
  /-- A heel frame on a half's wire (R312). -/
  | heel (h : Half) (frame : Word)
  /-- MISO words of a READ or RDBUF frame (R452). -/
  | miso (words : List Word)
  /-- The identification word shifted out of the TAP (R480). -/
  | tdo (w : Word)
  /-- A CXL.mem response of a head to its request of that number, with its DevLoad (R179). Its MetaField is always No-Op (R155). -/
  | cxl (head id : Nat) (r : MemResp) (devLoad : Nat)
  /-- A posted Memory Write of a head with its traffic class and its Relaxed Ordering, No Snoop and ID-Based Ordering attributes (R181). -/
  | post (head addr : Nat) (bytes : List Byte) (tc : Nat) (relaxed noSnoop idOrder : Bool)
  /-- An MSI-X message: a write of the vector's data to the address programmed for it (R182, Table HP-8). -/
  | msix (head vector addr data : Nat)
  /-- What a head's configuration space, DOE or CXL register blocks report for an item (R155). -/
  | config (head : Nat) (values : List Nat)
  /-- A mailbox completion: CXL return code and payload (R168). -/
  | mailbox (head code : Nat) (payload : List Byte)
  /-- The lines a pixel-window read returns; none is poisoned data (R153). -/
  | window (head : Nat) (lines : List (Option LineData))
  /-- The word a fence read returns (R208). -/
  | fence (head : Nat) (w : Word)
  deriving DecidableEq, Repr

/-- The management core of a half (R434): the bank whose verified firmware it runs, and the image in its SRAM. -/
structure MgCore where
  fw : Option Nat := none
  sram : List Byte := []
  deriving DecidableEq, Repr

/-- Management state (16_management_configuration.md). -/
structure Manage where
  coreA : MgCore := {}
  coreB : MgCore := {}
  /-- Core cycle at which the firmware of a restart under way runs again (R438). -/
  fwAt : Option Nat := none
  roles : Vector PathRole 5 := Vector.replicate 5 {}
  /-- Audit queue, oldest first, at most 64 (R458), and entries written to the ring, newest first. -/
  audit : List AuditEntry := []
  auditSeq : Nat := 0
  /-- Entries of changes that met a full queue and cannot be refused: they wait behind it for a place, with no SEQ yet. -/
  auditWait : List AuditEntry := []
  /-- Last refusal entries: path, kind, target, device time (R458). -/
  refusals : List (Nat × Nat × Nat × Nat) := []
  /-- Operation in the flash engine (R442). -/
  op : Option FlashOp := none
  otp : Otp := {}
  /-- Passport bytes (8 KiB); unlisted bytes read 0. -/
  passport : Sparse Byte := []
  /-- FIELD_N is asserted: the passport's RF side is in use (R447). -/
  fieldN : Bool := false
  /-- Passport writes waiting on FIELD_N: address and bytes (R447). -/
  ppWaiting : List (Nat × List Byte) := []
  /-- Of these, how many came before the flash engine's own passport write under way. -/
  ppAhead : Nat := 0
  /-- Serial number in force (R445) and the installer and operator keys unwrapped (R457). -/
  serial : BitVec 64 := 0
  /-- PCI subsystem vendor and subsystem ID of the identity zone, 0 without one (R451). -/
  subsystem : Nat × Nat := (0, 0)
  keyInstaller : Option (BitVec 256) := none
  keyOperator : Option (BitVec 256) := none
  /-- The audit tail of the passport is to be rewritten once FIELD_N is released (R447). -/
  tailDue : Bool := false
  /-- The install zone used this start (2,048 bytes), empty when none (R448). -/
  zone : List Byte := []
  /-- Bytes 0x0000 to 0x0FFF in use this start: passport, mirror copy, or empty for OTP defaults (R445). -/
  body : List Byte := []
  /-- Retries made and those left for NACKs with FIELD_N released, of the passport read under way (R445). -/
  ppRetries : Nat := 0
  ppNackRetries : Nat := 0
  ppPending : Bool := false
  /-- Fetch buffer (64 words), index addresses (Table MG-8), and the FETCH under way: address and count. -/
  fetchBuf : Sparse Word := []
  fetching : Option (Nat × Nat) := none
  /-- IMON scales of the identity zone read at start, none under OTP defaults (Table MG-7). -/
  imon : List Nat := []
  /-- The copies of the boot record (NEXT_BANK) and of the device-health record (R441). -/
  boot : Copies Bool := {}
  health : Copies (List HealthRec) := {}
  /-- The record written last: the device-health record (or else the boot record), and the core cycle of its write. -/
  recordAt : Option (Bool × Nat) := none
  /-- Flash ranges (address, length) whose program or erase failed or was cut off and that no erase has covered since (R442, R461, R470). -/
  torn : List (Nat × Nat) := []
  /-- Messages of DEGR or above written to the passport's fault tail (Table MG-7). -/
  faultTail : Nat := 0
  deriving DecidableEq, Repr

/-- The state of the block. -/
structure State where
  pending : List Instr
  out : List Out
  /-- Core cycles since reset, and random draws made: the model's own counters. -/
  now : Nat
  free : Nat
  regs : Sparse Word
  mem : List Host.Cell
  flash : List Host.Cell
  fcA : FcStore
  fcB : FcStore
  tb : TimeBase
  pwr : Power
  thA : Thermal
  thB : Thermal
  wl : Welt
  ckA : ClockHalf
  ckB : ClockHalf
  mg : Manage
  sched : Sched
  /-- The other half's own schedule, in split mode only (R323). -/
  sched2 : Option Sched
  /-- The other half's own time base, in split mode only, with what its TB registers would hold (R323; the registers show the leader's). -/
  tb2 : Option (TimeBase × List Nat)
  /-- Lasts available: admitted and not touched since (R489). -/
  lasts : Vector (Option LastCfg) 4
  /-- Lasts still to admit at start, the admission under way and whether it is a start-up admission (R64, R66). -/
  admQueue : List Nat
  admitting : Option Nat
  admStart : Bool
  /-- The Last under admission was touched in the flash meanwhile (R489). -/
  admTouched : Bool
  /-- Role and path of the ADMIT that started it, for the audit entry of its end (R458). -/
  admBy : Option (Nat × Nat)
  /-- TW_ENABLE as read at E12, for the whole run (R450). -/
  twUsed : Word
  dm : Mem
  le : Lamps
  heads : Vector Head 4
  deriving DecidableEq, Repr

/-- The rail bounds programmed in OTP as delivered, mV: RAIL_00 to RAIL_11 (R469). -/
def deliveredBounds : List (Nat × Nat) :=
  [(0, 0), (3135, 3465), (776, 824), (725, 775), (725, 775), (820, 880), (873, 927), (1164, 1236), (1067, 1133), (1067, 1133),
    (0, 0), (0, 0)]

/-- OTP as delivered (R469): the bounds of RAIL_01 to RAIL_09 programmed and locked, everything else blank. -/
def deliveredOtp : Otp :=
  { loBound := Vector.ofFn fun i => BitVec.ofNat 16 (deliveredBounds.getD i.val (0, 0)).1
    hiBound := Vector.ofFn fun i => BitVec.ofNat 16 (deliveredBounds.getD i.val (0, 0)).2
    done := (List.range 9).map fun i => (4, i + 1)
    lock := 0x7FC00 }

/-- The block with no power: every register at its power-on value, nothing in flash, passport or OTP but what R469 names. -/
def State.reset : State :=
  { pending := [], out := [], now := 0, free := 0, regs := [], mem := [], flash := [], fcA := {}, fcB := {}, tb := {}, pwr := {},
    thA := {}, thB := {}, wl := {}, ckA := {}, ckB := {}, mg := { otp := deliveredOtp }, sched := {}, sched2 := none, tb2 := none,
    lasts := Vector.replicate 4 none, admQueue := [], admitting := none, admStart := false, admTouched := false, admBy := none, twUsed := 0, dm := {}, le := {},
    heads := Vector.replicate 4 {} }

end Sys2Proof.Machine
end

