-- ==== Sys2Proof/Machine/Ops.lean ====
section
/-! DEFINITION. The named operations every meaning is written over: register fields, outputs, random draws, the clock, the fault
collector's raise (15 R414 to R418), roles and the audit log (16 R455, R458), and the gated register write (00 R11 to R15). -/
namespace Sys2Proof.Machine

/-! Register fields -/

/-- The word of a register key. -/
def State.word (s : State) (k : Nat) : Word := Sparse.get regPowerOn s.regs k

/-- Stores a register word. -/
def State.setWord (s : State) (k : Nat) (w : Word) : State := { s with regs := Sparse.put regPowerOn s.regs k w }

/-- Reads a register field. -/
def State.rd (s : State) (f : Fld) : Nat := bits (s.word f.a).toNat f.hi f.lo

/-- Writes a register field (by the device itself: no role, no audit). -/
def State.wr (s : State) (f : Fld) (v : Nat) : State := s.setWord f.a (setBits (s.word f.a) f.hi f.lo v)

/-- Sets or clears a one-bit field. -/
def State.flag (s : State) (f : Fld) (b : Bool) : State := s.wr f (b2n b)

/-- A field of one bit is set. -/
def State.on (s : State) (f : Fld) : Bool := s.rd f != 0

/-- Adds to a saturating counter field. -/
def State.bump (s : State) (f : Fld) (n : Nat := 1) : State := s.wr f (satAdd (f.hi + 1 - f.lo) (s.rd f) n)

/-- Adds to a wrapping counter field. -/
def State.wrap (s : State) (f : Fld) (n : Nat := 1) : State := s.wr f (s.rd f + n)

/-- Raises a field that shows a greatest value. -/
def State.peak (s : State) (f : Fld) (v : Nat) : State :=
  s.wr f (min (max (s.rd f) v) (2 ^ (f.hi + 1 - f.lo) - 1))

/-- Signed reading of a field. -/
def State.rdS (s : State) (f : Fld) : Int := toSigned (f.hi + 1 - f.lo) (s.rd f)

/-- Signed, saturating writing of a field. -/
def State.wrS (s : State) (f : Fld) (v : Int) : State :=
  let w := f.hi + 1 - f.lo
  s.wr f (ofSigned w (sat v (-(2 ^ (w - 1) : Nat)) ((2 ^ (w - 1) : Nat) - 1)))

/-- A rail is good (R379): STATE 3, or 6 during a transition. -/
def State.railGood (s : State) (r : Nat) : Bool :=
  s.rd (F.PS_RAIL_n_STATUS.STATE r) == 3 || s.rd (F.PS_RAIL_n_STATUS.STATE r) == 6

/-! Outputs and draws -/

/-- Appends to the output trace. -/
def State.emit (s : State) (o : Out) : State := { s with out := s.out ++ [o] }

/-- A fresh draw of the on-die random source. -/
def State.draw (s : State) : BitVec 256 × State := (Config.randomDraw s.free, { s with free := s.free + 1 })

/-! Parts of the state kept per half -/

/-- The Selvedge store of a half. -/
def State.fc (s : State) (h : Half) : FcStore := match h with | .a => s.fcA | .b => s.fcB

/-- Updates the Selvedge store of a half. -/
def State.modFc (s : State) (h : Half) (f : FcStore → FcStore) : State :=
  match h with | .a => { s with fcA := f s.fcA } | .b => { s with fcB := f s.fcB }

/-- The thermal state of a half. -/
def State.th (s : State) (h : Half) : Thermal := match h with | .a => s.thA | .b => s.thB

/-- Updates the thermal state of a half. -/
def State.modTh (s : State) (h : Half) (f : Thermal → Thermal) : State :=
  match h with | .a => { s with thA := f s.thA } | .b => { s with thB := f s.thB }

/-- The clocks of a half. -/
def State.ck (s : State) (h : Half) : ClockHalf := match h with | .a => s.ckA | .b => s.ckB

/-- Updates the clocks of a half. -/
def State.modCk (s : State) (h : Half) (f : ClockHalf → ClockHalf) : State :=
  match h with | .a => { s with ckA := f s.ckA } | .b => { s with ckB := f s.ckB }

/-- A half's side of the Welt. -/
def State.wh (s : State) (h : Half) : WeltHalf := match h with | .a => s.wl.a | .b => s.wl.b

/-- Updates a half's side of the Welt. -/
def State.modWh (s : State) (h : Half) (f : WeltHalf → WeltHalf) : State :=
  match h with
  | .a => { s with wl := { s.wl with a := f s.wl.a } }
  | .b => { s with wl := { s.wl with b := f s.wl.b } }

/-- Updates the time base. -/
def State.modTb (s : State) (f : TimeBase → TimeBase) : State := { s with tb := f s.tb }

/-- Updates the supervisor. -/
def State.modPwr (s : State) (f : Power → Power) : State := { s with pwr := f s.pwr }

/-- Updates management. -/
def State.modMg (s : State) (f : Manage → Manage) : State := { s with mg := f s.mg }

/-- Updates the Welt. -/
def State.modWl (s : State) (f : Welt → Welt) : State := { s with wl := f s.wl }

/-- The half that leads (R19). -/
def State.leader (s : State) : Half := s.wl.leader

/-- Split mode: WL_STATUS.STATE 2 (R311). -/
def State.split (s : State) : Bool := s.rd F.WL_STATUS.STATE == 2

/-- The halves are joined: the Welt is up and not waiting for a rejoin (R311, R326). -/
def State.joined (s : State) : Bool := s.wl.up && !s.split

/-- The half of an index of 16 (R18). -/
def half16 (n : Nat) : Half := if n < 8 then .a else .b

/-- The half of a head (R18). -/
def half4 (h : Nat) : Half := if h < 2 then .a else .b

/-- The half that serves a path: heads their own, SPI the leader (R314). -/
def State.pathHalf (s : State) (p : Path) : Half := match p with | .spi => s.leader | .head h => half4 h.val

/-! The clock (12 R354, R355) -/

/-- Device time in whole nanoseconds. -/
def State.time (s : State) : Nat := s.tb.time / 2 ^ 32 % 2 ^ 64

/-- A short time-stamp (R357). -/
def State.stamp (s : State) : Nat := s.time % 2 ^ 32

/-- The time epoch (R356). -/
def State.epoch (s : State) : Nat := s.rd F.TB_STATUS.EPOCH

/-- Device time of one core cycle, units of 2^-32 ns: 10^9 / R, truncated. -/
def cycleTime (rate : Nat) : Nat := 10 ^ 9 * 2 ^ 48 / rate

/-- n core cycles pass: device time advances, and a slew in progress is applied at 100 ppm (R355). -/
def TimeBase.pass (t : TimeBase) (n : Nat) : TimeBase :=
  let inc := cycleTime t.rate
  let room : Int := n * (inc / 10000)
  let d := sat t.slew (-room) room
  { t with time := ((t.time : Int) + n * inc + d).toNat % 2 ^ 96, slew := t.slew - d }

/-- n core cycles pass. -/
def State.advance (s : State) (n : Nat) : State :=
  { s with now := s.now + n, tb := s.tb.pass n, tb2 := s.tb2.map fun x => (x.1.pass n, x.2) }

/-- The TB fields of which each half has a copy in split mode: status, measurements and counters. -/
def baseFields : List Fld :=
  [F.TB_STATUS.EPOCH, F.TB_STATUS.TIME_VALID, F.TB_STATUS.MASTER, F.TB_STATUS.PPS_OK, F.TB_STATUS.FTICK_OK, F.TB_STATUS.FREE_RUN,
    F.TB_STATUS.PHASE_SLEW, F.TB_STATUS.STEP_HELD, F.TB_OFFSET.OFFSET, F.TB_RATE.RATE_PPB, F.TB_UTC.FROM_TOD, F.TB_TOD_CNT.APPLIED, F.TB_TOD_CNT.BAD,
    F.TB_TOD_CNT.STALE, F.TB_TOD_CNT.SEQ_GAP, F.TB_PPS_CNT.EDGES, F.TB_PPS_CNT.GLITCH, F.TB_PPS_CNT.PPS_LOSS, F.TB_PPS_CNT.FTICK_LOSS,
    F.TB_TICK_CNT.MISSED, F.TB_TICK_CNT.SNAPS, F.TB_SET_CTRL.STEP_NOW, F.TB_TSQ_STATUS.OVF, F.TB_TSQ_STATUS.DROPPED]

/-- The values of those fields now. -/
def State.baseValues (s : State) : List Nat := baseFields.map s.rd

/-- The schedule and the time base of the half that does not lead come to the front, and that half counts as the leader: what it does in split mode
is what a leader does, with its own copies (R323). -/
def State.flip (s : State) : State :=
  let x := s.tb2.getD (s.tb, s.baseValues)
  let t := (List.zip baseFields x.2).foldl (fun s f => s.wr f.1 f.2) s
  { t with wl := { s.wl with leader := s.wl.leader.other }, sched := s.sched2.getD s.sched, sched2 := s.sched2.map fun _ => s.sched
           tb := x.1, tb2 := some (s.tb, s.baseValues) }

/-- The state with a half's own time base in front. -/
def State.asSeen (s : State) (h : Half) : State := if s.split && h != s.leader then s.flip else s

/-- Something that befalls the time base of both halves: in split mode each takes the shared pins for itself (R323). -/
def State.onBases (s : State) (f : State → State) : State :=
  let s := f s
  if s.split then (f s.flip).flip else s

/-- Time passes until a core cycle, if it still lies ahead. -/
def State.jumpTo (s : State) (t : Nat) : State := if s.now < t then s.advance (t - s.now) else s

/-- Core cycles in a span of nanoseconds at the nominal rate of 1.2 GHz. -/
def cyclesOf (ns : Nat) : Nat := ns * 12 / 10

/-- Bytes of the image flash; unlisted bytes are erased (R440). -/
def State.flashBytes (s : State) (a n : Nat) : List Byte := (List.range n).map fun i => Sparse.get (fun _ => 0xFF) s.flash (a + i)

/-- Base of the booted bank (Table MG-3). -/
def State.bankBase (s : State) : Nat := 0x800000 * s.rd F.MG_STATUS.BANK

/-- The hottest of a list of temperatures. -/
def hottest (l : List Int) : Option Int := l.foldl (fun m x => some (match m with | none => x | some y => max x y)) none

/-! Selvedge: raising (15 R414 to R418) -/

/-- Unit form of DETAIL (R416). -/
def unitForm (u v : Nat) : Nat := u % 1024 * 2 ^ 30 + v % 2 ^ 30

/-- Line form of DETAIL (R416): device index and address [40:6]. -/
def lineForm (dev addr : Nat) : Nat := dev % 32 * 2 ^ 35 + addr / 64 % 2 ^ 35

/-- Severity of a source in force (R413). -/
def State.sevOf (s : State) (src : Nat) : Nat := if fatalClass src then 4 else s.rd (F.FC_SRC_s.SEV src)

/-- A source's sticky bit in a store. -/
def FcStore.isSticky (f : FcStore) (src : Nat) : Bool := f.sticky.getLsbD src

/-- Merges a message: counts it on its source and overall, saturating (R418). -/
def FcStore.merge (f : FcStore) (src : Nat) (n : Nat := 1) : FcStore :=
  { f with merged := Sparse.put (fun _ => 0) f.merged src (satAdd 16 (Sparse.get (fun _ => 0) f.merged src) n)
           mergedAll := satAdd 16 f.mergedAll n }

/-- U in force (R375). -/
def State.utcOffset (s : State) : Int := s.tb.utc.getD (s.rdS F.TB_UTC.UTC_OFS)

/-- UTC in nanoseconds: TAI less the offset in force (R170). -/
def State.utcNs (s : State) : Int := (s.time : Int) - s.utcOffset * 10 ^ 9

/-- A block of a half raises a message: it becomes pending, or is merged into a pending one of its source (R417). A
reserved source raises none (R412). -/
def State.raise (s : State) (h : Half) (src kind detail extra : Nat) : State :=
  if reservedSource src then s
  else
    s.modFc h fun f =>
      if f.pend.any (fun m => m.src == src) then f.merge src
      else
        let v := s.asSeen h
        { f with pend := f.pend ++ [⟨h, src, kind, s.sevOf src, detail, extra, v.stamp, v.epoch, s.heads.toList.map fun x => v.utcNs + x.tsoff⟩] }

/-- Raises at the leader (blocks of which only the leader's copy acts, R18). -/
def State.raiseL (s : State) (src kind detail extra : Nat) : State := s.raise s.leader src kind detail extra

/-! Roles and the audit log -/

/-- The role state of a path. -/
def State.role (s : State) (p : Path) : PathRole := (s.mg.roles[p.idx]?).getD {}

/-- Updates the role state of a path. -/
def State.modRole (s : State) (p : Path) (f : PathRole → PathRole) : State :=
  s.modMg fun m => { m with roles := m.roles.setIfInBounds p.idx (f (s.role p)) }

/-- Drops a path's role, its challenge and its failure count (R438, R455). -/
def State.clearRole (s : State) (p : Path) : State := s.modRole p fun _ => {}

/-- The audit queue is full (R458). -/
def State.auditFull (s : State) : Bool := 64 ≤ s.mg.audit.length

/-- An entry takes its place in the queue and with it the next SEQ (Table MG-10). -/
def State.queueAudit (s : State) (e : AuditEntry) : State :=
  let q := s.mg.auditSeq
  (s.modMg fun m => { m with audit := m.audit ++ [{ e with seq := q }], auditSeq := q + 1 }).wr F.MG_AUDIT_STAT.SEQ q

/-- Makes an audit entry (Table MG-10). What the role gates is discarded while the queue is full (R458) and never comes here; any other change has
happened, so its entry waits for a place (R439; DESIGN CHOICE, log 223). Bit 7 of KIND is the split mode of the acceptance: now, unless given. -/
def State.audit (s : State) (role path kind target old new : Nat) (split : Bool := s.split) : State :=
  let e : AuditEntry := ⟨s.time, 0, s.epoch, role, path, kind, split, target % 2 ^ 32, old % 2 ^ 32, new % 2 ^ 32⟩
  if s.auditFull then s.modMg fun m => { m with auditWait := m.auditWait ++ [e] } else s.queueAudit e

/-- The oldest entry that waits takes the place that has come free. -/
def State.refillAudit (s : State) : State :=
  match s.mg.auditWait with
  | [] => s
  | e :: t => if s.auditFull then s else (s.modMg fun m => { m with auditWait := t }).queueAudit e

/-- A refusal of this kind on this path and target was entered less than 1 s ago (R458). -/
def State.refusedLately (s : State) (p : Path) (kind target : Nat) : Bool :=
  s.mg.refusals.any fun r => r.1 == p.idx && r.2.1 == kind && r.2.2.1 == target && s.time < r.2.2.2 + 10 ^ 9

/-- Records a refusal (kind 2 unless given), merged when one for the same path and target was entered within 1 s (R458). -/
def State.auditRefusal (s : State) (p : Path) (target old new : Nat) (kind : Nat := 2) : State :=
  if s.refusedLately p kind target then s.bump F.MG_AUDIT_STAT.MERGED
  else if s.auditFull then s.bump F.MG_AUDIT_STAT.FULL
  else
    (s.audit (s.role p).role p.idx kind target old new).modMg fun m =>
      { m with refusals := (p.idx, kind, target, s.time) :: m.refusals.filter (fun r => !(r.1 == p.idx && r.2.1 == kind && r.2.2.1 == target)) }

/-! The gated register write -/

/-- A register holds fields or bits that its role gates (R11, R455). -/
def RegTpl.gated (t : RegTpl) : Bool :=
  0 < t.role && t.fields.any fun f => f.acc == .rwl || f.acc == .w1s || f.acc == .w1c

/-- The stored word after a write of v: RW and RWL fields take it, W1C bits written with 1 are cleared, the rest stays
(R11, R13). W1S bits are acted on by the register's own effect. -/
def RegTpl.written (t : RegTpl) (w : Word) (v : Nat) : Word :=
  t.fields.foldl (fun w f =>
    match f.acc with
    | .rw | .rwl => setBits w f.hi f.lo (bits v f.hi f.lo)
    | .w1c => setBits w f.hi f.lo (bits w.toNat f.hi f.lo &&& (bits v f.hi f.lo ^^^ (2 ^ (f.hi + 1 - f.lo) - 1)))
    | .w1s | .ro | .ros => w) w

/-- The key of a register's copy for a path. -/
def RegTpl.key (t : RegTpl) (p : Path) (a : Nat) : Nat :=
  match t.kind with | .perPath => a + 0x1000000 * p.idx | .shared | .spiOnly => a

/-- The plain part of a write: every writable field as one update (R15). -/
def State.storeWrite (s : State) (p : Path) (t : RegTpl) (a : Nat) (v : Nat) : State :=
  let k := t.key p a
  s.setWord k (t.written (s.word k) v)

/-- What became of a write's role check. -/
inductive Gate where
  /-- Unassigned address, or a register that this path does not reach: ignored (R13). -/
  | ignored
  /-- The writer lacks the role: discarded and recorded (R14). -/
  | refused (t : RegTpl)
  /-- The audit queue is full: discarded and counted (R458). -/
  | full (t : RegTpl)
  | allowed (t : RegTpl)
  deriving DecidableEq, Repr

/-- The role check of a write by a role (R11, R455, R458). -/
def State.gate (s : State) (p : Path) (role : Nat) (a : Nat) : Gate :=
  match regAt a with
  | none => .ignored
  | some t =>
    if t.kind == .spiOnly && p != .spi then .ignored
    else if t.gated && role < t.role then .refused t
    else if t.gated && s.auditFull then .full t
    else .allowed t

/-- The half that a register belongs to, for the blocks that each half has of its own (R18): clocks, their channels and outputs, engine pages, sensors and
thermal nodes, integrity counters, DC and DI pages, head pages. -/
def regHalf (a : Nat) : Option Half :=
  if 0x40000 ≤ a && a < 0x40040 then some (if a < 0x40020 then .a else .b)
  else if 0x40040 ≤ a && a < 0x40060 then some (half16 (a % 16))
  else if 0x40080 ≤ a && a < 0x40088 then some (if a < 0x40084 then .a else .b)
  else if 0x90080 ≤ a && a < 0x90088 then some (half4 ((a - 0x90080) / 2))
  else if 0x30010 ≤ a && a < 0x30030 then some (if a / 8 % 2 = 0 then .a else .b)
  else if 0xA0100 ≤ a && a < 0xA0120 then some (half16 ((a - 0xA0100) / 2))
  else if 0x100000 ≤ a && a < 0x110000 then some (half16 ((a - 0x100000) / 0x1000))
  else if 0x200000 ≤ a && a < 0x210000 then some (half16 ((a - 0x200000) / 0x1000))
  else if 0x300000 ≤ a && a < 0x304000 then some (half4 ((a - 0x300000) / 0x1000))
  else if 0x71000 ≤ a && a < 0x79000 then some (half16 ((a - 0x71000) / 0x800))
  else none

/-- In split mode a path does not reach a register of the other half (01, Management path); an unassigned address is none (R13). -/
def State.farReg (s : State) (p : Path) (a : Nat) : Bool :=
  s.split && (regAt a).isSome && (match regHalf a with | some h => h != s.pathHalf p | none => false)

/-! Words of role-gated registers that show structured state -/

/-- The masked bit of a source (R424). -/
def State.masked (s : State) (src : Nat) : Bool :=
  !fatalClass src && (s.rd (F.FC_MASK_w.MASK (src / 32))).testBit (src % 32)

/-- The store that a path's access acts on: the leader's, or in split mode that of the half serving the path (R419). -/
def State.storeHalf (s : State) (p : Path) : Half := if s.split then s.pathHalf p else s.leader

/-- FC_SRC_s as the store of a half shows it. -/
def State.srcWord (s : State) (h : Half) (i : Nat) : Nat :=
  b2n (fatalClass i) * 2 ^ 31 + b2n ((s.fc h).isSticky i) * 2 ^ 30 + b2n (s.masked i) * 2 ^ 29 + s.rd (F.FC_SRC_s.SEV i) * 2 ^ 24
    + Sparse.get (fun _ => 0) (s.fc h).merged i

/-- MIN_SEC: the number of bits set in OTP (Table MG-6). -/
def Otp.minSecCount (o : Otp) : Nat := ((List.range 64).filter fun i => o.minSec.getLsbD i).length

/-- NEXT_BANK of the boot record; none while no copy is valid (R441). -/
def State.nextBank (s : State) : Option Bool := s.mg.boot.newest.map (·.2)

/-- The device-health record in force of a subchannel (R278, R441). -/
def State.health (s : State) (n : Nat) : HealthRec := ((s.mg.health.newest.bind fun r => r.2[n]?).getD {})

/-- MG_BOOT. -/
def State.bootWord (s : State) : Nat := s.mg.otp.minSecCount * 2 ^ 24 + b2n (s.nextBank.getD false)

/-- PS_LACE_CFG: JOIN as taken from OTP at power-on (R385). -/
def State.laceWord (s : State) : Nat := (setBits (s.word F.PS_LACE_CFG.JOIN.a) 31 31 (b2n s.pwr.join)).toNat

/-- A role-gated register as it reads on a path, for the audit log: the word of key k at address a (R458, Table MG-9). -/
def State.gatedWord (s : State) (p : Path) (k a : Nat) : Nat :=
  if 0x10100 ≤ a ∧ a < 0x10240 then s.srcWord (s.storeHalf p) (a - 0x10100)
  else if a = 5 then s.bootWord
  else if a = F.PS_LACE_CFG.JOIN.a then s.laceWord
  else (s.word k).toNat

/-- Unit number of a path in a REFUSED message: the head, or 4 for SPI (Table FC-1a). -/
def pathUnit (p : Path) : Nat := match p with | .spi => 4 | .head h => h.val

/-- The event of a management access to the far half (R486, Table FC-1a). -/
def State.farAccess (s : State) (p : Path) (a : Nat) (write : Bool) : State :=
  s.raise (s.pathHalf p) 0x078 0x0B (unitForm (pathUnit p) a) (b2n write + 2 * 10)

/-- Reads of a path wait: a later write of the path takes effect after them (R454). -/
def State.pathBusy (s : State) (p : Path) : Bool := match p with | .spi => false | .head h => !s.heads[h].io.isEmpty

/-- A register write takes its place behind the reads of its path that wait. -/
def State.deferWrite (s : State) (p : Path) (a v : Nat) : State :=
  match p with
  | .spi => s
  | .head h => { s with heads := s.heads.set h { s.heads[h] with io := s.heads[h].io ++ [.write a v] } }

/-- A write through a path (R11, R14, R15, R458): checked for role, stored as one update, then `act` does what the register's
bits start; an applied role-gated change is recorded (kind 1) unless the register records a kind of its own
(`ownAudit`). A register of the far half in split mode is not reached. -/
def State.gatedNow (s : State) (p : Path) (a v : Nat) (ownAudit : Bool) (act : State → State) : State :=
  if s.farReg p a then s.farAccess p a true
  else
    match s.gate p (s.role p).role a with
    | .ignored => s
    | .refused t => s.auditRefusal p a (s.gatedWord p (t.key p a) a) v
    | .full _ => s.bump F.MG_AUDIT_STAT.FULL
    | .allowed t =>
      let s' := act (s.storeWrite p t a v)
      if t.gated && !ownAudit then
        s'.audit (s.role p).role p.idx 1 a (s.gatedWord p (t.key p a) a) (s'.gatedWord p (t.key p a) a)
      else s'

/-- A write through a path, in the order in which the path issued its accesses (R454). -/
def State.gatedWrite (s : State) (p : Path) (a v : Nat) (ownAudit : Bool) (act : State → State) : State :=
  if s.pathBusy p then s.deferWrite p a v else s.gatedNow p a v ownAudit act

end Sys2Proof.Machine
end

