-- ==== Sys2Proof/Machine/Map.lean ====
section
/-! DEFINITION. The address map: schedules per half, region tables and their rules, placement of a line (06_address_map_ordering.md
R192 to R199), routing through a remap (08 R280, R282) and the classes (R200). -/
namespace Sys2Proof.Machine

/-! The frame schedule of a half -/

/-- The schedule that a half runs: the leader's, or its own in split mode (R20, R323). -/
def State.schedOf (s : State) (h : Half) : Sched :=
  if h = s.leader then s.sched else if s.split then s.sched2.getD s.sched else s.sched

/-- Updates the schedule that a half runs. -/
def State.modSched (s : State) (h : Half) (f : Sched → Sched) : State :=
  if s.split && h != s.leader then { s with sched2 := some (f (s.sched2.getD s.sched)) } else { s with sched := f s.sched }

/-- Updates every schedule that runs. -/
def State.modScheds (s : State) (f : Sched → Sched) : State :=
  { s with sched := f s.sched, sched2 := if s.split then some (f (s.sched2.getD s.sched)) else s.sched2 }

/-- A source's run-time state. -/
def Sched.rt (c : Sched) (n : Nat) : SrcRt := (c.srcs[n]?).getD {}

/-- Updates a source's run-time state. -/
def Sched.modRt (c : Sched) (n : Nat) (f : SrcRt → SrcRt) : Sched := { c with srcs := c.srcs.setIfInBounds n (f (c.rt n)) }

/-- The Last in force. -/
def Sched.cfg (c : Sched) : Option LastCfg := c.last.map (·.2)

/-- A source entry of the Last in force. -/
def Sched.src (c : Sched) (n : Nat) : Option SrcCfg := c.cfg.bind fun l => l.srcs.find? (·.src == n)

/-- A stream descriptor of the Last in force. -/
def Sched.stream (c : Sched) (n : Nat) : Option StreamCfg := c.cfg.bind fun l => l.streams.find? (·.stream == n)

/-- ACTIVE: a tick runs under a Last. -/
def Sched.active (c : Sched) : Bool := c.running && c.last.isSome

/-- Length of the current tick, or of a tick at 120 Hz before any. -/
def Sched.len (c : Sched) : Nat := if c.tickLen = 0 then 10000000 else c.tickLen

/-- Stitches in a number of core cycles. -/
def Sched.stitches (c : Sched) (n : Nat) : Nat := n * 4096 / c.len

/-- The half whose schedule counts a source: in split mode its publishing head's (R324), by the Last in force on that half. -/
def State.srcHalf (s : State) (n : Nat) : Half :=
  if s.split then
    match [s.leader, s.leader.other].find? fun h => ((s.schedOf h).src n).any fun c => half4 c.head == h with
    | some h => h
    | none => s.leader
  else s.leader

/-- The run-time state of a source. -/
def State.rt (s : State) (n : Nat) : SrcRt := (s.schedOf (s.srcHalf n)).rt n

/-- Updates the run-time state of a source. -/
def State.modRt (s : State) (n : Nat) (f : SrcRt → SrcRt) : State := s.modSched (s.srcHalf n) fun c => c.modRt n f

/-! Subchannels, heads, engines -/

/-- A subchannel. -/
def State.sub (s : State) (n : Nat) : Sub := (s.dm.subs[n]?).getD {}

/-- Updates the DRAM side. -/
def State.modDm (s : State) (f : Mem → Mem) : State := { s with dm := f s.dm }

/-- Updates a subchannel. -/
def State.modSub (s : State) (n : Nat) (f : Sub → Sub) : State :=
  s.modDm fun d => { d with subs := d.subs.setIfInBounds n (f (s.sub n)) }

/-- The memory side of a half. -/
def State.mh (s : State) (h : Half) : MemHalf := match h with | .a => s.dm.a | .b => s.dm.b

/-- Updates the memory side of a half. -/
def State.modMh (s : State) (h : Half) (f : MemHalf → MemHalf) : State :=
  s.modDm fun d => match h with | .a => { d with a := f d.a } | .b => { d with b := f d.b }

/-- A head. -/
def State.head (s : State) (h : Nat) : Head := (s.heads[h]?).getD {}

/-- Updates a head. -/
def State.modHead (s : State) (h : Nat) (f : Head → Head) : State := { s with heads := s.heads.setIfInBounds h (f (s.head h)) }

/-- Updates the lamp engines' shared state. -/
def State.modLe (s : State) (f : Lamps → Lamps) : State := { s with le := f s.le }

/-- An engine. -/
def State.eng (s : State) (e : Nat) : Engine := (s.le.engines[e]?).getD {}

/-- Updates an engine. -/
def State.modEng (s : State) (e : Nat) (f : Engine → Engine) : State :=
  s.modLe fun l => { l with engines := l.engines.setIfInBounds e (f (s.eng e)) }

/-- A ring. -/
def State.ring (s : State) (r : Nat) : Ring := Sparse.get (fun _ => {}) s.le.rings r

/-- Updates a ring. -/
def State.modRing (s : State) (r : Nat) (f : Ring → Ring) : State :=
  s.modLe fun l => { l with rings := Sparse.put (fun _ => {}) l.rings r (f (s.ring r)) }

/-! Region tables (R194 to R196) -/

/-- Parity of the DPA bits [27:8] that a mask selects: `par` of R197. -/
def par (dpa mask : Nat) : Nat := b2n (parity (bits dpa 27 8 &&& mask))

/-- A mask word of a hash set. -/
def RegionTable.mask (t : RegionTable) (set k : Nat) : Nat := (t.hash.getD set []).getD k 0

/-- The region that holds a DPA, with its number. -/
def RegionTable.find (t : RegionTable) (dpa : Nat) : Option (Nat × Region) :=
  let u := dpa / 2 ^ 28
  (List.zip (List.range t.regions.length) t.regions).find? fun r => r.2.base ≤ u && u < r.2.base + r.2.size

/-- n_sub of a region. -/
def Region.nsub (r : Region) : Nat := if r.il = 0 then 16 else 8

/-- Storage of one piece on each subchannel, bytes (Table AM-3). -/
def Region.piece (r : Region) : Nat := if r.il = 0 then 2 ^ 24 else 2 ^ 25

/-- Storage extent on each subchannel, in 16 MiB units (R195). -/
def Region.units (r : Region) : Nat := if r.il = 0 then r.size else 2 * r.size

/-- A region has storage on a half. -/
def Region.onHalf (r : Region) (h : Half) : Bool := r.il == 0 || r.il == h.idx + 1

/-- `place` of R197: subchannel and subchannel address of a DPA of region r. -/
def RegionTable.place (t : RegionTable) (r : Region) (dpa : Nat) : Nat × Nat :=
  let m := t.mask r.hset
  let p := (dpa - r.base * 2 ^ 28) / 2 ^ 28
  let sub := par dpa (m 3) * 4 + par dpa (m 2) * 2 + par dpa (m 1)
  let bg := par dpa (m 6) * 4 + par dpa (m 5) * 2 + par dpa (m 4)
  let ba := par dpa (m 8) * 2 + par dpa (m 7)
  let half := if r.il = 0 then par dpa (m 0) else r.il - 1
  let keep := if r.il = 0 then bits dpa 27 17 else bits dpa 27 16
  (8 * half + sub,
    r.subBase * 2 ^ 24 + p * r.piece + keep * 2 ^ 13 + ba * 2 ^ 11 + bg * 2 ^ 8 + bits dpa 7 6 * 2 ^ 6)

/-- Row-bit count rb of R197 for a density code. -/
def rankBits (density : Nat) : Nat := 34 + density

/-- Rank of a subchannel address. -/
def State.rankOf (s : State) (sa : Nat) : Nat := sa / 2 ^ rankBits s.dm.density

/-- Row, bank group and bank of a subchannel address (R197). -/
def State.bankOf (s : State) (sa : Nat) : Nat × Nat × Nat := (sa % 2 ^ rankBits s.dm.density / 2 ^ 18, bits sa 10 8, bits sa 12 11)

/-- Storage of one subchannel as fitted, 16 MiB units. -/
def State.fullUnits (s : State) : Nat := 1024 * 2 ^ s.dm.density * s.dm.ranks

/-- UNITS of a half (AM_SUB_CAP). -/
def State.units (s : State) (h : Half) : Nat :=
  match h with | .a => s.rd F.AM_SUB_CAP.UNITS_A | .b => s.rd F.AM_SUB_CAP.UNITS_B

/-- UNITS that the present start gives a half: those of AM_SUB_CAP from E9 on, and before it those of the storage fitted, 7/8 of it where SPARE_EN will
take effect (R5, R169, R279). -/
def State.startUnits (s : State) (h : Half) : Nat :=
  if s.units h ≠ 0 then s.units h else if s.on (F.DI_SPARE.SPARE_EN h.idx) then s.fullUnits * 7 / 8 else s.fullUnits

/-- Module capacity in 256 MiB units (R169, R279). -/
def State.capacity (s : State) : Nat := (s.startUnits .a + s.startUnits .b) / 2

/-- Reduces a vector over GF(2) by a basis with distinct leading bits. -/
def xorReduce (basis : List Nat) (v : Nat) : Nat := basis.foldl (fun v b => min v (v ^^^ b)) v

/-- Puts a vector into a basis kept in falling order. -/
def basisPut (v : Nat) : List Nat → List Nat
  | [] => [v]
  | b :: t => if b < v then v :: b :: t else b :: basisPut v t

/-- The vectors are linearly independent over GF(2). -/
def independent (l : List Nat) : Bool :=
  (l.foldl (fun acc v =>
    match acc with
    | none => none
    | some basis => let r := xorReduce basis v; if r = 0 then none else some (basisPut r basis)) (some [] : Option (List Nat))).isSome

/-- A hash set passes for an IL (R199): the outputs and copied bits, as masks over DPA [27:6], are independent, and so are HALF and
SUB0 to SUB2 restricted to the group bits. -/
def hashPasses (m : List Nat) (il : Nat) : Bool :=
  let outs := if il = 0 then m else m.drop 1
  let copied := if il = 0 then (List.range 11).map (9 + ·) else (List.range 12).map (8 + ·)
  let group := if il = 0 then 15 else 7
  let heads := if il = 0 then m.take 4 else (m.drop 1).take 3
  independent (outs.map (· % 2 ^ 20 * 4) ++ [1, 2] ++ copied.map (fun b => 2 ^ (b + 2))) &&
    independent (heads.map (fun w => w % 2 ^ 20 &&& group))

/-- A region entry of 16 bytes (Table AM-2), and whether every field lies within the table. -/
def parseRegion (b : List Byte) : Region × Bool :=
  let r : Region := ⟨field b 0 2, field b 2 2, field b 4 1, field b 5 1, field b 6 1, field b 7 1, field b 8 1, field b 9 1,
    (field b 10 1).testBit 0, (field b 10 1).testBit 1, field b 12 2⟩
  (r, r.base ≤ 8191 && 1 ≤ r.size && r.size ≤ 8192 && r.cls ≤ 2 && r.il ≤ 2 && r.hset ≤ 3 && r.twill ≤ 3 && r.rdHeads ≤ 15 &&
    r.wrHeads ≤ 15 && field b 10 1 ≤ 3 && field b 11 1 = 0 && field b 14 2 = 0)

/-- Storage extents of two regions meet on some subchannel. -/
def extentsMeet (r q : Region) : Bool :=
  ((r.onHalf .a && q.onHalf .a) || (r.onHalf .b && q.onHalf .b)) &&
    r.subBase < q.subBase + q.units && q.subBase < r.subBase + r.units

/-- The rules of R196 for region number i against the entries before it and the module; of two entries that clash, the later one
fails. -/
def State.regionOk (s : State) (rs : List Region) (i : Nat) (r : Region) (fieldsOk : Bool) : Bool :=
  fieldsOk &&
    (rs.take i).all (fun q => q.base < r.base && q.base + q.size ≤ r.base && !extentsMeet q r) &&
    r.base + r.size ≤ s.capacity &&
    (!r.onHalf .a || r.subBase + r.units ≤ s.units .a) && (!r.onHalf .b || r.subBase + r.units ≤ s.units .b) &&
    (r.twill = 0 || r.cls = 0 || r.cls = 2) &&
    (r.cls ≠ 2 || (s.dm.ranks = 2 && s.fullUnits / 2 ≤ r.subBase)) &&
    (!r.guard || (r.cls = 0 && r.twill = 0)) &&
    (r.wrHeads &&& r.rdHeads) = r.wrHeads

/-- A region-table image: the table, or the reason and unit of the refusal (R196). Image errors give reason 0x0A, rule errors 0x07. -/
def State.parseRegions (s : State) (img : List Byte) : (Nat × Nat) ⊕ RegionTable :=
  let len := field img 8 4
  let n := field img 6 2
  let hs := field img 16 4
  let ro := field img 20 4
  let body := img.take len
  let zeroed := body.take 12 ++ List.replicate 4 0 ++ body.drop 16
  if field img 0 4 ≠ 0x4B523031 || field img 4 2 ≠ 0x100 || img.length < len || len < 32 || crc32 zeroed ≠ field img 12 4 ||
      n = 0 || 256 < n || len < hs + 144 || len < ro + 16 * n || field img 24 8 ≠ 0 then .inl (0x0A, 0)
  else
    let words := (List.range 4).map fun m => (List.range 9).map fun k => field img (hs + 36 * m + 4 * k) 4
    let parsed := (List.range n).map fun i => parseRegion (slice img (ro + 16 * i) 16)
    let rs := parsed.map (·.1)
    match (List.range n).find? fun i => !s.regionOk rs i (rs.getD i ⟨0, 0, 0, 0, 0, 0, 0, 0, false, false, 0⟩) ((parsed[i]?.map (·.2)).getD false) with
    | some i => .inl (0x07, 512 + i)
    | none =>
      match (List.range 4).find? fun m => (words.getD m []).any (2 ^ 20 ≤ ·) || rs.any (fun r => r.hset == m && !hashPasses (words.getD m []) r.il) with
      | some m => .inl (0x07, 768 + m)
      | none => .inr ⟨rs, words⟩

/-! Routing (08 R280, R282) -/

/-- The half of a subchannel. -/
def subHalf (n : Nat) : Half := half16 n

/-- `remap` of R280. -/
def State.remap (s : State) (n sa : Nat) : Nat × Nat :=
  let g := sa / 256
  let others := ((List.range 8).map (8 * (subHalf n).idx + ·)).filter (· ≠ n)
  (others.getD (g % 7) 0, s.units (subHalf n) * 2 ^ 24 + g / 7 * 256 + sa % 256)

/-- A subchannel is remapped (DI_n_STATUS.STATE 5). -/
def State.remapped (s : State) (n : Nat) : Bool := s.rd (F.DI_n_STATUS.STATE n) == 5

/-- Where an access to a subchannel address goes, and whether it left its own subchannel: to the reserve when the subchannel is
remapped or its rebuild has passed the granule (R280, R282, R284). -/
def State.route (s : State) (n sa : Nat) : Nat × Nat × Bool :=
  if s.remapped n then let t := s.remap n sa; (t.1, t.2, true)
  else
    match (s.mh (subHalf n)).rebuild with
    | some r =>
      if r.sub = n && (sa / 256 < r.cursor || r.front.contains (sa / 256)) then let t := s.remap n sa; (t.1, t.2, true)
      else (n, sa, false)
    | none => (n, sa, false)

/-! Reachability -/

/-- The device is being shed or a half is in the fatal state: what self-refresh is for (DC_n_STATUS.STATE 4). -/
def State.stopping (s : State) (h : Half) : Bool := s.pwr.shed.isSome || (s.fc h).fatal

/-- A region can be reached from a half: always while joined, else, and until the stitch 0 after a rejoin, only when it is local to that
half (R21, R216, Table WL-4). -/
def State.reaches (s : State) (h : Half) (r : Region) : Bool := !(s.split || s.wl.mending) || r.il == h.idx + 1

/-- A hold buffer has a write for a line (R322): until the rejoin it is out of reach, as an interleaved line is. -/
def State.heldLine (s : State) (n sa : Nat) : Bool := (s.wl.a.hold ++ s.wl.b.hold).any fun w => w.1 == n * 2 ^ 32 + sa / 64

/-- A line by its unrouted place is held in a hold buffer, which keys it by where accesses reach it (R322). -/
def State.heldAt (s : State) (n sa : Nat) : Bool := let t := s.route n sa; s.heldLine t.1 t.2.1

/-- Fill state of a region in force on the schedule of a half. -/
def Sched.fillingOf (c : Sched) (i : Nat) : Option Filling := c.filling.find? (fun f => f.region == i && (f.a || f.b))

/-- A request of this origin and region goes to the Frame queue (Table AM-5): host reads of Frame regions with TWILL 0. -/
def Region.frameRead (r : Region) : Bool := r.cls == 0 && r.twill == 0

end Sys2Proof.Machine
end

