-- ==== Sys2Proof/Machine/DramOps.lean ====
section
/-! DEFINITION. What a line of DRAM holds and how it is stored and decoded: cells, fills, seals, the row of Table MI-1 that applies,
the write queue and the poison list (07 R218, R220, R224; 09 R286 to R296; 05 R172). -/
namespace Sys2Proof.Machine

/-- Key of symbol `sym` of line `line` of subchannel n. -/
def symKey (n line sym : Nat) : Nat := (n * 2 ^ 32 + line) * 128 + sym

/-- What a symbol that no cell lists reads as: the zero codeword under the seal in a filled extent (R295), else what the DRAM powered
up with. -/
def Mem.blank (d : Mem) (k : Nat) : Byte :=
  let l := k / 128
  let n := l / 2 ^ 32
  let line := l % 2 ^ 32
  if d.fills.any (fun f => f.sub == n && f.line ≤ line && line < f.line + f.n) then
    if k % 128 < 64 then 0 else BitVec.ofNat 8 (sealByte ((d.subs[n]?).getD {}).sealKey (k % 128 - 64))
  else Config.dramPowerUp (d.run * 2 ^ 64 + k)

/-- Symbol of a line. -/
def State.symbol (s : State) (k : Nat) : Byte := Sparse.get s.dm.blank s.mem k

/-- The 80 symbols of a line. -/
def State.symbols (s : State) (n line : Nat) : List Nat := (List.range 80).map fun i => (s.symbol (symKey n line i)).toNat

/-- Stores the 80 symbols of a line. -/
def State.putSymbols (s : State) (n line : Nat) (sym : List Nat) : State :=
  { s with mem := (List.zip (List.range 80) sym).foldl (fun m p => Sparse.put s.dm.blank m (symKey n line p.1) (BitVec.ofNat 8 p.2)) s.mem }

/-- Stores a line as a codeword, or as the poison encoding (R287, R292). -/
def State.storeLine (s : State) (n line : Nat) (d : LineData) (poison : Bool) : State :=
  s.putSymbols n line (rsEncode (bytesOfLine d) (s.sub n).sealKey poison)

/-- Fills an extent of a subchannel with zero data (R295). -/
def State.fill (s : State) (n line cnt : Nat) : State :=
  { s with mem := Sparse.delRange s.mem (symKey n line 0) (cnt * 128), dm := { s.dm with fills := s.dm.fills ++ [⟨n, line, cnt⟩] } }

/-- Lanes erased for a line: the failed device's when it lies in its rank, and those of row-map entries of other devices (R289, R306). -/
def State.erasedLanes (s : State) (n sa : Nat) : List Nat :=
  let u := s.sub n
  let rank := s.rankOf sa
  let (row, bg, ba) := s.bankOf sa
  let failed := (u.marks.filter (fun m => m / 10 == rank)).map (· % 10)
  let mapped := (u.rowMap.filter fun e => e.rank == rank && e.bg == bg && e.ba == ba && e.row == row).map (·.lane)
  (failed ++ mapped).eraseDups

/-- The row of Table MI-1 for a line. -/
def State.decodeRow (s : State) (n sa : Nat) : DecodeRow :=
  let fast := (s.sub n).fast
  match s.erasedLanes n sa with
  | [] => .plain (if fast then 2 else 8)
  | [l] => .erased l (if fast then 2 else 4)
  | _ => .two

/-- Decodes what DRAM holds for a line. -/
def State.decodeLine (s : State) (n line : Nat) : LineOut :=
  rsDecode (s.decodeRow n (line * 64)) (s.sub n).sealKey (s.symbols n line)

/-- Errors a burst comes back with stay in the line until it is written. -/
def State.disturb (s : State) (n line : Nat) (err : SymErr) : State :=
  if err.isEmpty then s
  else s.putSymbols n line (symXor (s.symbols n line) (err.map fun e => (e.1, e.2.toNat)))

/-- The power-limit step in force on a half: the leader's, or in split mode its own (R408). -/
def State.stepFor (s : State) (h : Half) : Nat := (s.th (if s.split then h else s.leader)).step

/-! Visits (R217, R234 to R238) -/

/-- The last row of a bank. -/
def State.lastRow (s : State) : Nat := 2 ^ (rankBits s.dm.density - 18) - 1

/-- The rows that a neighbour refresh of a row activates (R234). -/
def State.neighbours (s : State) (row : Nat) : List Nat := (if row = 0 then [] else [row - 1]) ++ (if row = s.lastRow then [] else [row + 1])

/-- Key of a bank in the activate counts. -/
def bankKey (rank bg ba : Nat) : Nat := rank * 32 + bg * 4 + ba

/-- Takes a number off the activate counts of a bank address in all eight bank groups of a rank (R236). -/
def Sub.raaLess (u : Sub) (rank ba n : Nat) : Sub :=
  { u with raa := (List.range 8).foldl (fun m g =>
      Sparse.put (fun _ => 0) m (bankKey rank g ba) (Sparse.get (fun _ => 0) m (bankKey rank g ba) - n)) u.raa }

/-- ACTIVATEs of a bank count in ranks that ask for refresh management; a count that reaches the initial threshold brings an RFMsb of its
bank address, and no count reaches the maximum threshold (R236). -/
def State.countActs (s : State) (n rank bg ba cnt : Nat) : State :=
  let m := Config.refreshManagement n rank
  if m.asks then
    let k := bankKey rank bg ba
    let c := Sparse.get (fun _ => 0) (s.sub n).raa k + cnt
    let s := s.modSub n fun u => { u with raa := Sparse.put (fun _ => 0) u.raa k (min c (m.max - 1)) }
    if m.initial ≤ c then (s.modSub n fun u => u.raaLess rank ba m.byRfm).bump (F.DC_n_RFM.RFM n) else s
  else s

/-- An ACTIVATE outside visits, of a training step: it counts and draws nothing (R235, R236). -/
def State.activateOnly (s : State) (n g : Nat) : State :=
  let b := s.bankOf (g * 256)
  s.countActs n (s.rankOf (g * 256)) b.2.1 b.2.2 1

/-- An ACTIVATE of a visit: the draw of R235, the neighbour refresh it may bring, and the counts of the bank (R234 to R236). -/
def State.activate (s : State) (n g : Nat) : State :=
  let x := lfsrStep (s.sub n).lfsr
  let s := s.modSub n fun u => { u with lfsr := x }
  let k := s.rd (F.DC_n_NBR.K n)
  let b := s.bankOf (g * 256)
  let rows := if 6 ≤ k && x % 2 ^ k = 0 then s.neighbours b.1 else []
  let s := if rows.isEmpty then s else s.bump (F.DC_n_NBR.COUNT n)
  s.countActs n (s.rankOf (g * 256)) b.2.1 b.2.2 (1 + rows.length)

/-- A write burst: the line is stored and the burst enters the retry buffer (R238). -/
def State.burst (s : State) (n : Nat) (b : Burst) : State :=
  (s.storeLine n b.line b.data b.poison).modSub n fun u => { u with retry := u.retry ++ [b] }

/-- Insertion of a line in ascending column order (R218). -/
def insertWrite (l : WrLine) : List WrLine → List WrLine
  | [] => [l]
  | x :: t => if l.idx ≤ x.idx then l :: x :: t else x :: insertWrite l t

/-- A write visit: one ACTIVATE, then the bursts in ascending column order. -/
def State.writeVisit (s : State) (n : Nat) (e : WrEntry) : State :=
  (e.lines.foldr insertWrite []).foldl (fun s l => s.burst n ⟨e.g * 4 + l.idx, l.data, l.poison, 0⟩) (s.activate n e.g)

/-! Queues (R218 to R227) -/

/-- The newest queued data of a line (R220). -/
def Sub.queued (u : Sub) (line : Nat) : Option (LineData × Bool) :=
  match u.wrWait.find? fun w => w.g * 4 + w.line.idx == line with
  | some w => some (w.line.data, w.line.poison)
  | none =>
    match (u.writeQ.find? (·.g == line / 4)).bind fun e => e.lines.find? (·.idx == line % 4) with
    | some w => some (w.data, w.poison)
    | none => (u.retry.reverse.find? (·.line == line)).map fun b => (b.data, b.poison)

/-- A queued line as a decoding outcome. -/
def queuedOut : LineData × Bool → LineOut
  | (_, true) => .poison
  | (d, false) => .clean d

/-- The newest content of a line: queued data, or what DRAM holds (R206, R220). -/
def State.newest (s : State) (n line : Nat) : LineOut :=
  match (s.sub n).queued line with
  | some q => queuedOut q
  | none => s.decodeLine n line

/-- The newest content of a line as a visit of its own reads it, or as its queue answers it (R217, R220). -/
def State.fetchLine (s : State) (n line : Nat) : LineOut × State :=
  match (s.sub n).queued line with
  | some q => (queuedOut q, s)
  | none => (s.decodeLine n line, s.activate n (line / 4))

/-- The Bulk cap of a power-limit step, visits per µs (R226, Table TH-3). -/
def bulkCap (step : Nat) : Option Nat :=
  match step with | 0 => none | 1 => some 32 | 2 => some 16 | 3 => some 8 | _ => some 4

/-- Bulk visits admitted in the last µs. -/
def Sub.recent (u : Sub) (now : Nat) : List Nat := u.admits.filter fun t => now < t + 1200

/-- A Bulk visit may be admitted under the cap (R226). -/
def Sub.bulkRoom (u : Sub) (now : Nat) (cap : Option Nat) : Bool :=
  match cap with | none => true | some c => (u.recent now).length < c

/-- Books an admitted Bulk visit. -/
def Sub.bookBulk (u : Sub) (now : Nat) (cap : Option Nat) (bulk : Bool) : Sub :=
  match cap, bulk with | some _, true => { u with admits := now :: u.recent now } | _, _ => u

/-- An entry takes a reader for a line of its granule. -/
def RdEntry.take (e : RdEntry) (w : RdWait) : RdEntry :=
  if e.lines.any (·.idx == w.idx) then
    { e with lines := e.lines.map fun l => if l.idx == w.idx then { l with readers := l.readers ++ [w.reader] } else l }
  else { e with lines := e.lines ++ [⟨w.idx, w.dpa, [w.reader]⟩] }

/-- A read joins the queued entry of its granule, the oldest where there are two (R218). -/
def joinRead : List RdEntry → RdWait → List RdEntry
  | [], _ => []
  | e :: t, w => if e.g == w.g then e.take w :: t else e :: joinRead t w

/-- A waiting read takes its place in its queue, or none when it has to wait on (R218, R221, R226). -/
def Sub.admitRead (u : Sub) (now : Nat) (cap : Option Nat) (w : RdWait) : Option Sub :=
  let q := if w.frame then u.frameQ else u.bulkQ
  let put := fun (u : Sub) (q : List RdEntry) => if w.frame then { u with frameQ := q } else { u with bulkQ := q }
  if q.any (·.g == w.g) then some (put u (joinRead q w))
  else if 64 ≤ q.length || (!w.frame && !u.bulkRoom now cap) then none
  else
    let e : RdEntry := { g := w.g, born := now, seq := u.made, lines := [⟨w.idx, w.dpa, [w.reader]⟩] }
    some ((put { u with made := u.made + 1 } (q ++ [e])).bookBulk now cap (!w.frame))

/-- An entry takes a line: data already queued for it is replaced (R218, R220). -/
def WrEntry.take (e : WrEntry) (w : WrLine) : WrEntry :=
  if e.lines.any (·.idx == w.idx) then
    { e with lines := e.lines.map fun x => if x.idx == w.idx then { w with reqs := x.reqs ++ w.reqs } else x }
  else { e with lines := e.lines ++ [w] }

/-- A write joins the entry of its granule or makes a new one (R218). -/
def Sub.enterWrite (u : Sub) (w : WrWait) : Sub :=
  if u.writeQ.any (·.g == w.g) then { u with writeQ := u.writeQ.map fun e => if e.g == w.g then e.take w.line else e }
  else { u with made := u.made + 1, writeQ := u.writeQ ++ [⟨w.g, u.made, [w.line]⟩] }

/-- A waiting write takes its place in the write queue, or none when it has to wait on (R218, R221, R226). -/
def Sub.admitWrite (u : Sub) (now : Nat) (cap : Option Nat) (w : WrWait) : Option Sub :=
  if u.writeQ.any (·.g == w.g) then some (u.enterWrite w)
  else if 64 ≤ u.writeQ.length || (w.bulk && !u.bulkRoom now cap) then none
  else some ((u.enterWrite w).bookBulk now cap w.bulk)

/-- What waits takes the places there are, in order of arrival. -/
def Sub.admitAll (u : Sub) (now : Nat) (cap : Option Nat) : Sub :=
  let u := u.rdWait.foldl (fun u w => (u.admitRead now cap w).getD { u with rdWait := u.rdWait ++ [w] }) { u with rdWait := [] }
  u.wrWait.foldl (fun u w => (u.admitWrite now cap w).getD { u with wrWait := u.wrWait ++ [w] }) { u with wrWait := [] }

/-- The drain state of the write queue after a change (R224). -/
def State.noteQueue (s : State) (n : Nat) : State :=
  let len := (s.sub n).writeQ.length
  let s := s.peak (F.DC_n_QUEUE.WRITE_PEAK n) len
  if 48 ≤ len then s.wr (F.DC_n_STATUS.DRAIN n) 1
  else if len ≤ 16 then s.wr (F.DC_n_STATUS.DRAIN n) 0
  else s

/-- Changes the write side of a subchannel and follows its drain state. -/
def State.modWrites (s : State) (n : Nat) (f : Sub → Sub) : State := (s.modSub n f).noteQueue n

/-- The controller of a subchannel takes entries: it runs (R245, R255, R256). -/
def State.takes (s : State) (n : Nat) : Bool := s.rd (F.DC_n_STATUS.STATE n) == 1

/-- Waiting reads and writes of a subchannel take their places (R221, R226, R245). -/
def State.letIn (s : State) (n : Nat) : State :=
  if s.takes n then s.modWrites n fun u => u.admitAll s.now (bulkCap (s.stepFor (subHalf n))) else s

/-- A write waits behind the others; one that waits for the same line already is replaced (R220). -/
def Sub.putWrite (u : Sub) (w : WrWait) : Sub :=
  if u.wrWait.any (fun x => x.g == w.g && x.line.idx == w.line.idx) then
    { u with wrWait := u.wrWait.map fun x =>
        if x.g == w.g && x.line.idx == w.line.idx then { x with line := { w.line with reqs := x.line.reqs ++ w.line.reqs } } else x }
  else { u with wrWait := u.wrWait ++ [w] }

/-- A write of a line reaches its controller, of Frame or Bulk class; a retired subchannel takes none (R256). -/
def State.queueWrite (s : State) (n sa : Nat) (w : WrLine) (bulk : Bool) : State :=
  if (s.sub n).retired then s
  else (s.modSub n fun u => u.putWrite ⟨sa / 256, { w with idx := sa / 64 % 4 }, bulk⟩).letIn n

/-- A write of the device's own, of Bulk class and with no request behind it. -/
def ownWrite (d : LineData) (poison : Bool) : WrLine := { idx := 0, data := d, poison := poison, tag := 0 }

/-- A read of a line reaches its controller. -/
def State.queueRead (s : State) (n sa : Nat) (dpa : Option Nat) (frame : Bool) (r : Reader) : State :=
  (s.modSub n fun u => { u with rdWait := u.rdWait ++ [⟨sa / 256, sa / 64 % 4, dpa, frame, r⟩] }).letIn n

/-- Writes a line by its unrouted place: through a remap or a running rebuild (R280, R282, R284). In a rebuild that ended with loss a
write to a granule not yet treated moves it to the front: its other lines become poison in the target. -/
def State.writeAt (s : State) (n sa : Nat) (w : WrLine) (bulk : Bool) : State :=
  let h := subHalf n
  match (s.mh h).rebuild with
  | some r =>
    if r.sub = n && r.loss && r.cursor ≤ sa / 256 && !r.front.contains (sa / 256) then
      let s := s.modMh h fun m => { m with rebuild := some { r with front := r.front ++ [sa / 256] } }
      let s := (List.range 4).foldl (fun s i =>
        if i = sa / 64 % 4 then s
        else let t := s.remap n (sa / 256 * 256 + 64 * i); (s.queueWrite t.1 t.2 (ownWrite 0 true) true).bump (F.DI_n_REBUILD.POISONED n)) s
      let t := s.remap n sa
      s.queueWrite t.1 t.2 w bulk
    else let t := s.route n sa; s.queueWrite t.1 t.2.1 w bulk
  | none => let t := s.route n sa; s.queueWrite t.1 t.2.1 w bulk

/-- Where a write to a subchannel address may not land: the subchannel it reaches is retired, unless its rebuild ended with loss and the
write moves its granule to the front (R34, R284). -/
def State.writeLost (s : State) (n sa : Nat) : Bool :=
  match (s.mh (subHalf n)).rebuild with
  | some r =>
    if r.sub = n && r.loss && r.cursor ≤ sa / 256 && !r.front.contains (sa / 256) then (s.sub (s.remap n sa).1).retired
    else (s.sub (s.route n sa).1).retired
  | none => (s.sub (s.route n sa).1).retired

/-! Poison list (R172) -/

/-- Enters a line by DPA line number; `true` for source External. -/
def State.listPoison (s : State) (line : Nat) (ext : Bool) : State :=
  if s.dm.poison.any (·.1 == line) then s
  else if 256 ≤ s.dm.poison.length then s.modDm fun d => { d with poisonOver := some (d.poisonOver.getD s.time) }
  else s.modDm fun d => { d with poison := d.poison ++ [(line, ext)] }

/-- A write stored valid data in a line. -/
def State.unlistPoison (s : State) (line : Nat) : State :=
  if s.dm.poison.any (·.1 == line) then s.modDm fun d => { d with poison := d.poison.filter (·.1 != line), poisonOver := none } else s

/-! Messages of a subchannel -/

/-- DETAIL and EXTRA [6] of a line message (R416): by DPA, or by subchannel address when none applies. -/
def lineDetail (dev : Nat) (dpa : Option Nat) (sa : Nat) : Nat × Nat :=
  match dpa with
  | some a => (lineForm dev a, 0)
  | none => (lineForm dev sa, 64)

/-- Raises a line message on source k of a subchannel. -/
def State.lineMsg (s : State) (n k kind dev : Nat) (dpa : Option Nat) (sa extra : Nat) : State :=
  let d := lineDetail dev dpa sa
  s.raise (subHalf n) (0x080 + 8 * n + k) kind d.1 (extra + d.2)

/-- Raises a unit message on source k of a subchannel. -/
def State.subMsg (s : State) (n k kind unit value extra : Nat) : State :=
  s.raise (subHalf n) (0x080 + 8 * n + k) kind (unitForm unit value) extra

/-- What a demand read's outcome counts and reports (R294). -/
def State.demandOutcome (s : State) (n line : Nat) (dpa : Option Nat) (o : LineOut) : State :=
  match o with
  | .clean _ => s
  | .corrected _ v lanes =>
    let dev := match lanes with | [l] => 10 * s.rankOf (line * 64) + l | _ => 31
    (s.bump (F.MI_SUB_n_CNT.CORR_READS n)).lineMsg n 0 1 dev dpa (line * 64) (min v 63)
  | .poison => s.bump (F.MI_SUB_n_ERR.POISON_READS n)
  | .uncorrectable => (s.bump (F.MI_SUB_n_ERR.UNCOR_READS n)).lineMsg n 1 2 31 dpa (line * 64) 0

/-- The data of an outcome that gives data. -/
def LineOut.data? : LineOut → Option LineData
  | .clean d => some d
  | .corrected d _ _ => some d
  | .poison => none
  | .uncorrectable => none

/-- A line of a subchannel is degraded (R114): erasure mode or retirement. -/
def State.degradedSub (s : State) (n : Nat) : Bool := (s.sub n).retired || s.on (F.DI_n_STATUS.ERASURE n)

end Sys2Proof.Machine
end

