-- ==== Sys2Proof/Machine/TimeOps.lean ====
section
/-! DEFINITION. The time base's shared operations: the rate, the time-stamp queue, steps, the calendar and the length of a tick
(12_time_base.md R355 to R377). -/
namespace Sys2Proof.Machine

/-- R nominal with 16 fraction bits (R355). -/
def nominalRate : Nat := 78643200000000

/-- R clamped to ±200 ppm of nominal (R355). -/
def clampRate (r : Nat) : Nat := min (max r (nominalRate - 15728640000)) (nominalRate + 15728640000)

/-- Mean of a list, or none when it is empty. -/
def meanOf (l : List Nat) : Option Nat := if l.isEmpty then none else some (l.foldl (· + ·) 0 / l.length)

/-- R from the measured intervals (R363): 16 fraction bits. -/
def rateOf (intervals : List Nat) : Nat :=
  if intervals.isEmpty then nominalRate
  else clampRate (intervals.foldl (· + ·) 0 * 65536 / intervals.length)

/-- RATE_PPB of TB_RATE. -/
def ratePpb (rate : Nat) : Int := (((rate : Int) - nominalRate) * 10).tdiv (65536 * 12)

/-- Queues a time-stamp entry, or drops it when the queue is full (R373, R374). -/
def State.tsqPush (s : State) (kind id : Nat) : State :=
  if 32 ≤ s.tb.tsq.length then
    let s := (s.bump F.TB_TSQ_STATUS.DROPPED).wr F.TB_TSQ_STATUS.OVF 1
    if s.tb.tsqRaised then s
    else (s.raiseL 0x11E 0x0F (unitForm 0 (s.rd F.TB_TSQ_STATUS.DROPPED)) 4).modTb fun t => { t with tsqRaised := true }
  else s.modTb fun t => { t with tsq := t.tsq ++ [⟨id % 65536, kind, s.epoch % 256, s.time⟩] }

/-- Sets device time, in 2^-32 ns; elapsed time since the last edge keeps its meaning. -/
def State.setTime (s : State) (t96 : Nat) : State :=
  s.modTb fun t =>
    { t with time := t96 % 2 ^ 96, slew := 0
             lastEdgeTime := ((t.lastEdgeTime : Int) + t96 - t.time).toNat }

/-- A step of device time to x ns (R365). -/
def State.step365 (s : State) (x : Nat) : State :=
  let s := ((s.setTime (x * 2 ^ 32)).wr F.TB_STATUS.TIME_VALID 1).wrap F.TB_STATUS.EPOCH
  (s.tsqPush 5 s.epoch).raiseL 0x11A 0x19 (unitForm 0 s.epoch) 1

/-- STEP_POLICY in force (Table TB-2; 3 is taken as 2). -/
def State.stepPolicy (s : State) : Nat := min (s.rd F.TB_CFG.STEP_POLICY) 2

/-- What an accepted edge with expected time x does about the offset (R364); `sentence` says that x came from one. -/
def State.actOnOffset (s : State) (x : Nat) (sentence : Bool) : State :=
  let o : Int := (x : Int) * 2 ^ 32 - s.tb.time
  let now := s.on F.TB_SET_CTRL.STEP_NOW
  let s := (s.wrS F.TB_OFFSET.OFFSET (o.tdiv (2 ^ 32))).wr F.TB_SET_CTRL.STEP_NOW 0
  if !s.on F.TB_STATUS.TIME_VALID && sentence then (s.step365 x).wr F.TB_STATUS.STEP_HELD 0
  else if o.natAbs < 1000 * 2 ^ 32 then (s.modTb fun t => { t with slew := o }).wr F.TB_STATUS.STEP_HELD 0
  else if s.stepPolicy = 0 then (s.step365 x).wr F.TB_STATUS.STEP_HELD 0
  else if s.stepPolicy = 1 then (s.modTb fun t => { t with slew := o }).wr F.TB_STATUS.STEP_HELD 0
  else if now then (s.step365 x).wr F.TB_STATUS.STEP_HELD 0
  else if s.on F.TB_STATUS.STEP_HELD then s
  else (s.wr F.TB_STATUS.STEP_HELD 1).raiseL 0x11B 0x19 (unitForm 0 s.epoch) 2

/-- Targets free-run: FTICK chosen and lost (R370). -/
def State.targetsFree (s : State) : Bool := s.tb.tickSrc == 2 && !s.on F.TB_STATUS.FTICK_OK && s.tb.ftLast.isSome

/-- The sentence that applies at an edge now (R361): 1 ms to 1,000 ms after its CRC byte. -/
def TimeBase.applying (t : TimeBase) (now : Nat) : Option Sentence :=
  t.pend.filter fun p => p.ended + 1200000 ≤ now && now ≤ p.ended + 1200000000

/-- A sentence applies (R361, R366, R375). -/
def State.applySentence (s : State) (p : Sentence) : State :=
  let s := s.modTb fun t =>
    { t with pend := none
             lastApplied := if p.timeValid then some s.now else t.lastApplied
             utc := if p.utcValid then some p.utc else t.utc }
  let s := if p.utcValid then s.wr F.TB_UTC.FROM_TOD 1 else s
  (s.bump F.TB_TOD_CNT.APPLIED).tsqPush 4 p.seq

/-- The master is present (R366): PPS not lost and a TIME_VALID sentence applied within 3 s. -/
def State.masterNow (s : State) : Bool :=
  s.on F.TB_STATUS.PPS_OK && (s.tb.lastApplied.any fun a => s.now ≤ a + 3600000000)

/-- Counts a glitch on PPS_IN or FTICK_IN (R362, R370). -/
def State.glitch (s : State) : State := s.bump F.TB_PPS_CNT.GLITCH

/-- An edge of PPS_IN is accepted now (R362): the first after start or loss, or 1 s ± 100 µs of device time after the last. -/
def State.ppsAccepted (s : State) : Bool :=
  match s.tb.lastEdge with
  | none => true
  | some _ =>
    let d : Int := (s.tb.time : Int) - s.tb.lastEdgeTime
    !s.on F.TB_STATUS.PPS_OK || (999900000 * 2 ^ 32 ≤ d && d ≤ 1000100000 * 2 ^ 32)

/-- R is measured anew and the edge remembered (R363). -/
def TimeBase.takeEdge (t : TimeBase) (now : Nat) (pps : Bool) : TimeBase :=
  let iv := match t.lastEdge with
    | some e => if pps then ((now - e) :: t.intervals).take 16 else t.intervals
    | none => t.intervals
  { t with intervals := iv, rate := rateOf iv, lastEdge := some now, lastEdgeTime := t.time }

/-- The master is present (R366): time no longer runs free. -/
def State.takeMaster (s : State) : State :=
  ((s.modTb fun t => { t with masterGone := false }).wr F.TB_STATUS.MASTER 1).flag F.TB_STATUS.FREE_RUN s.targetsFree

/-- An accepted PPS edge (R362 to R366). -/
def State.acceptPps (s : State) : State :=
  let wasOk := s.on F.TB_STATUS.PPS_OK
  let s := (s.modTb fun t => t.takeEdge s.now wasOk).bump F.TB_PPS_CNT.EDGES
  let s := (s.wr F.TB_STATUS.PPS_OK 1).wrS F.TB_RATE.RATE_PPB (ratePpb s.tb.rate)
  let sent := s.tb.applying s.now
  let x := match sent, s.tb.x with
    | some p, _ => p.x
    | none, some x => x + 10 ^ 9
    | none, none => (Config.openX s.free).toNat
  let s := if sent.isNone && s.tb.x.isNone then { s with free := s.free + 1 } else s
  let s := (s.modTb fun t => { t with x := some x }).tsqPush 1 (x / 10 ^ 9)
  let s := match sent with
    | some p => s.applySentence p
    | none => s
  let s := s.actOnOffset x sent.isSome
  if s.masterNow then s.takeMaster else s

/-! The calendar (R375 to R377) -/

/-- A leap year (R376). -/
def leapYear (y : Nat) : Bool := (y % 4 == 0 && y % 100 != 0) || y % 400 == 0

/-- Days of a month (R376). -/
def monthDays (y m : Nat) : Nat :=
  if m == 2 then (if leapYear y then 29 else 28) else if m == 4 || m == 6 || m == 9 || m == 11 then 30 else 31

/-- Day number since 1970-01-01 (R376). -/
def dayNumber (y m d : Int) : Int :=
  let y := if m ≤ 2 then y - 1 else y
  let era := y / 400
  let yoe := y - 400 * era
  let doy := (153 * (if 2 < m then m - 3 else m + 9) + 2) / 5 + d - 1
  let doe := 365 * yoe + yoe / 4 - yoe / 100 + doy
  146097 * era + doe - 719468

/-- Year, month and day of a day number: the inverse of `dayNumber`. -/
def dateOf (n : Int) : Int × Int × Int :=
  let z := n + 719468
  let era := z / 146097
  let doe := z - era * 146097
  let yoe := (doe - doe / 1460 + doe / 36524 - doe / 146096) / 365
  let doy := doe - (365 * yoe + yoe / 4 - yoe / 100)
  let mp := (5 * doy + 2) / 153
  let d := doy - (153 * mp + 2) / 5 + 1
  let m := if mp < 10 then mp + 3 else mp - 9
  ((yoe + era * 400) + (if m ≤ 2 then 1 else 0), m, d)

/-- UTC seconds shown by the calendar. -/
def State.utcSeconds (s : State) : Int := ((s.time : Int) - s.utcOffset * 10 ^ 9) / 10 ^ 9

/-- RESULT of a calendar set (Table TB-5). -/
def State.setResult (s : State) : Nat :=
  let y := s.rd F.TB_SET_DATE.YEAR
  let m := s.rd F.TB_SET_DATE.MONTH
  let d := s.rd F.TB_SET_DATE.DAY
  if y < 1970 || 2500 < y then 1
  else if m == 0 || 12 < m then 2
  else if d == 0 || monthDays y m < d then 3
  else if 23 < s.rd F.TB_SET_TIME.HOUR then 4
  else if 59 < s.rd F.TB_SET_TIME.MINUTE then 5
  else if 59 < s.rd F.TB_SET_TIME.SECOND then 6
  else if s.on F.TB_STATUS.MASTER then 7
  else 0

/-- The seconds of TAI that a valid staged calendar names (R376, R377). -/
def State.setSeconds (s : State) : Int :=
  dayNumber (s.rd F.TB_SET_DATE.YEAR) (s.rd F.TB_SET_DATE.MONTH) (s.rd F.TB_SET_DATE.DAY) * 86400
    + 3600 * s.rd F.TB_SET_TIME.HOUR + 60 * s.rd F.TB_SET_TIME.MINUTE + s.rd F.TB_SET_TIME.SECOND + s.utcOffset

/-- SET of TB_SET_CTRL (R377), with its audit entry (kind 12). -/
def State.calendarSet (s : State) (p : Path) : State :=
  let r := s.setResult
  let s := s.wr F.TB_SET_CTRL.RESULT r
  let s :=
    if r = 0 then
      let s := (s.setTime (ofSigned 64 (s.setSeconds * 10 ^ 9) * 2 ^ 32)).modTb fun t => { t with pend := none }
      let s := (s.wr F.TB_STATUS.TIME_VALID 1).wrap F.TB_STATUS.EPOCH
      s.tsqPush 7 s.epoch
    else s
  s.audit (s.role p).role p.idx 12 0 r s.epoch

/-- TB_SET_CTRL's action bits: SET, then STEP_NOW. -/
def State.setCtrlAct (s : State) (p : Path) (v : Nat) : State :=
  let s := if bits v 31 31 = 1 then s.calendarSet p else s
  if bits v 30 30 = 1 then s.wr F.TB_SET_CTRL.STEP_NOW 1 else s

/-! Tick length (R367 to R370) -/

/-- Nominal length of a tick and the carry (R368). -/
def lnom (rate n d frac : Nat) : Nat × Nat :=
  let num := rate * d + frac
  let l := num / (n * 65536)
  (l, num - l * (n * 65536))

/-- FTICK_MUL in force: 1, 2 or 4 (3 is taken as 0). -/
def State.ftickMul (s : State) : Nat :=
  match s.rd F.TB_CFG.FTICK_MUL with
  | 1 => 2
  | 2 => 4
  | _ => 1

/-- A distance past the last of targets that lie `per` apart, as the distance from the nearest one. -/
def nearest (x per : Nat) : Int := if per ≤ 2 * x then (x : Int) - per else x

/-- A phase error in cycles, reduced to −l/2 to l/2 − 1 (R368). -/
def reducePhase (e : Int) (l : Nat) : Int := if (l : Int) ≤ 2 * e then e - l else if 2 * e < -(l : Int) then e + l else e

/-- The signed difference of two short time-stamps: positive when a is later than b (R357). -/
def sdiff (a b : Nat) : Int := toSigned 32 (a + 2 ^ 32 - b % 2 ^ 32)

/-- Before the target of the last accepted FTICK_IN edge, `late` (negative) cycles from it: the distance from the nearest target of the earlier edges, each
with FTICK_MUL − 1 more spaced evenly up to the next one (Table TB-3). -/
def ftNearest (mul : Nat) (late : Int) : List Nat → Int
  | [] => late
  | v :: t =>
    let at' := (List.range mul).map fun j => late + (v : Int) - (j * v / mul : Nat)
    (ftNearest mul (late + v) t :: at').foldl (fun best x => if x.natAbs < best.natAbs then x else best) late

/-- The phase error of a tick that starts now, or none without a target (Table TB-3, R368). -/
def State.phaseError (s : State) (n d l : Nat) : Option Int :=
  if s.tb.tickSrc = 1 then
    let per : Nat := d * 10 ^ 9 * 2 ^ 32
    let x := (((s.tb.time : Int) - ((s.rd F.TB_PHASE_OFS.PHASE_OFS * 2 ^ 32 : Nat) : Int)) * (n : Int) % (per : Int)).toNat
    let q := n * 2 ^ 48 * 10 ^ 9
    some (reducePhase ((nearest x per * s.tb.rate + (q / 2 : Nat)) / (q : Nat)) l)
  else if s.tb.tickSrc = 2 then
    s.tb.ftLast.map fun e =>
      let per : Nat := max 1 ((meanOf s.tb.ftIntervals).getD (l * s.ftickMul) / s.ftickMul)
      let late : Int := (s.now : Int) - ((e + 16 * s.rd F.TB_TICKIO.FTICK_DLY : Nat) : Int)
      reducePhase (if late < 0 then ftNearest s.ftickMul late s.tb.ftIntervals else nearest (late % (per : Int)).toNat per) l
  else none

/-- The correction of R368, and whether one target passes with no tick (R369). -/
def corrOf (snap : Bool) (l : Nat) : Option Int → Int × Bool
  | none => (0, false)
  | some e =>
    if !snap then (sat e (-(l / 100 : Nat)) (l / 100 : Nat), false)
    else if e < (l / 10 : Nat) then (e, false)
    else (e - l, true)

/-- An FTICK_IN edge is accepted (R370): the first, or within 1 % of FTICK_MUL × Lnom after the last; without a rate in
force (`l = 0`) there is no expectation. -/
def State.ftickAccepted (s : State) (l : Nat) : Bool :=
  match s.tb.ftLast with
  | none => true
  | some e =>
    let want := l * s.ftickMul
    !s.on F.TB_STATUS.FTICK_OK || l == 0 || (want * 99 ≤ (s.now - e) * 100 && (s.now - e) * 100 ≤ want * 101)

/-- An accepted FTICK_IN edge (R370, R373). -/
def State.acceptFtick (s : State) : State :=
  let ok := s.on F.TB_STATUS.FTICK_OK
  let s := s.modTb fun t =>
    { t with ftIntervals := match t.ftLast with
               | some e => if ok then ((s.now - e) :: t.ftIntervals).take 16 else t.ftIntervals
               | none => t.ftIntervals
             ftLast := some s.now, ftCount := t.ftCount + 1 }
  let s := (s.wr F.TB_STATUS.FTICK_OK 1).tsqPush 2 s.tb.ftCount
  s.flag F.TB_STATUS.FREE_RUN s.tb.masterGone

end Sys2Proof.Machine
end

