-- ==== Sys2Proof/Machine/HeadOps.lean ====
section
/-! DEFINITION. What every head command shares: requests in flight and their responses, DevLoad, refusals, event records, interrupts
and mailbox completions (05_host_heads.md R168 to R179; 06 R207, R486). -/
namespace Sys2Proof.Machine

/-- The link is up, and in L0. -/
def State.linkUp (s : State) (h : Nat) : Bool := s.on (F.HP_n_LINK.UP h)

/-- The link is in L0. -/
def State.inL0 (s : State) (h : Nat) : Bool := s.linkUp h && !s.on (F.HP_n_LINK.RECOVERY h)

/-- An entry of a head's MSI-X table. -/
def Head.vec (x : Head) (v : Nat) : MsixEntry := (x.msixTab[v]?).getD {}

/-- An MSI-X message to the address programmed for its vector, when the function may master the bus and MSI-X is enabled; a masked vector becomes
pending (R182, R183), and so does one whose link is out of L0 (R189, R191, log 148). -/
def State.msix (s : State) (h v : Nat) : State :=
  let x := s.head h
  let e := x.vec v
  if x.bme && x.msixOn && s.linkUp h then
    if e.masked || !s.inL0 h then s.modHead h fun x => { x with msixTab := x.msixTab.setIfInBounds v { e with pending := true } }
    else s.emit (.msix h v e.addr e.data)
  else s

/-- The heads of a half withhold credits for the steps of a maintenance window (R245). -/
def State.heldFor (s : State) (h : Half) : Bool := (s.mh h).hold

/-- A head withholds request credits: for a window's steps, or with 1,024 requests in flight (R31, R245). -/
def State.noCredit (s : State) (h : Nat) : Bool := s.heldFor (half4 h) || 1024 ≤ (s.head h).flight.length

/-- Follows a head's credits: while they are withheld, since when; at their return the withheld stitches count (R178). -/
def State.noteCredits (s : State) (h : Nat) : State :=
  match (s.head h).withheld, s.noCredit h with
  | none, true => s.modHead h fun x => { x with withheld := some s.now }
  | some t, false =>
    (s.modHead h fun x => { x with withheld := none, released := some s.now }).bump (F.HP_n_CREDIT.WITHHELD h)
      ((s.schedOf (half4 h)).stitches (s.now - t) + 1)
  | _, _ => s

/-- Credits are withheld, or were within the last 10 µs (Table HP-9). -/
def State.creditsHeld (s : State) (h : Nat) : Bool :=
  (s.head h).withheld.isSome || (match (s.head h).released with | some t => s.now < t + cyclesOf 10000 | none => false)

/-- DevLoad of a response (Table HP-9). -/
def State.devLoad (s : State) (h : Nat) : Nat :=
  let step := s.stepFor (half4 h)
  let n := (s.head h).flight.length
  if 4 ≤ step || s.creditsHeld h then 3
  else if 2 ≤ step || 768 ≤ n then 2
  else if 256 ≤ n then 1
  else 0

/-- NOW and PEAK of HP_n_INFLIGHT, and the head's credits. -/
def State.noteFlight (s : State) (h : Nat) : State :=
  let n := (s.head h).flight.length
  ((s.wr (F.HP_n_INFLIGHT.NOW h) n).peak (F.HP_n_INFLIGHT.PEAK h) n).noteCredits h

/-- Sends one response. -/
def State.sendResp (s : State) (h id : Nat) (r : MemResp) : State :=
  let load := s.devLoad h
  let s := (s.wr (F.HP_n_INFLIGHT.DEVLOAD h) load).emit (.cxl h id r load)
  match r with
  | .data _ true => s.bump (F.HP_n_POISON.POISON_RESP h)
  | _ => s

/-- The requests of a head that stay in flight, and the responses that may go, in order of receipt: a strict response waits for every
earlier strict request of its region (R207). -/
def splitReady : List HostReq → List Nat → List HostReq × List (Nat × MemResp)
  | [], _ => ([], [])
  | r :: t, blocked =>
    let wait := match r.strict with | some g => blocked.contains g | none => false
    match r.resp with
    | some x =>
      if wait then
        let q := splitReady t blocked
        (r :: q.1, q.2)
      else
        let q := splitReady t blocked
        (q.1, (r.id, x) :: q.2)
    | none =>
      let q := splitReady t (match r.strict with | some g => g :: blocked | none => blocked)
      (r :: q.1, q.2)

/-- Sends every response that is ready while the link is in L0 (R189, R207), each with the DevLoad of the requests then in flight (R179). -/
def State.sendReady (s : State) (h : Nat) : State :=
  if s.inL0 h then
    let q := splitReady (s.head h).flight []
    let s := q.2.foldl (fun s r => (s.sendResp h r.1 r.2).modHead h fun x => { x with flight := x.flight.filter (·.id != r.1) }) s
    (s.modHead h fun x => { x with flight := q.1 }).noteFlight h
  else s

/-- Answers a request in flight. -/
def State.answer (s : State) (h id : Nat) (r : MemResp) : State :=
  (s.modHead h fun x => { x with flight := x.flight.map fun q => if q.id == id then { q with resp := some r } else q }).sendReady h

/-- Free data of a poisoned response. -/
def State.poisonResp (s : State) (h id : Nat) : State :=
  ({ s with free := s.free + 1 }).answer h id (.data (Config.poisonData s.free) true)

/-- A REFUSED message of a request (R486). -/
def State.refusedMsg (s : State) (h src cause : Nat) (write : Bool) (dpa : Nat) (unit : Nat) : State :=
  s.raise (half4 h) src 0x0B (unitForm unit (dpa / 4096)) (b2n write + 2 * cause)

/-! Event records (R171) -/

/-- The event log of a severity (Table HP-9a). -/
def logOf (sev : Nat) : Nat := if sev ≤ 1 then 0 else min (sev - 1) 3

/-- One head takes a record of a message with the time-stamp of its raise, or counts it lost (R170, R171). -/
def State.takeRecord (s : State) (m : Msg) (packed : Nat) (h : Nat) : State :=
  if m.sev < bits (s.head h).cfg 11 9 then s
  else
    let i := logOf m.sev
    let x := s.head h
    let lg := (x.logs[i]?).getD {}
    let time := m.times.getD h 0
    let put := fun l => s.modHead h fun x => { x with logs := x.logs.setIfInBounds i l }
    if lg.recs.length < 64 then
      (put { lg with recs := lg.recs ++ [⟨lg.made % 65535 + 1, packed, m.ts, time⟩], made := lg.made + 1 }).msix h 1
    else
      let s' := (put { lg with lost := lg.lost + 1, firstLost := if lg.lost = 0 then time else lg.firstLost, lastLost := time }).bump (F.HP_n_EVT.DROPPED h)
      let s' := s'.wr (F.HP_n_EVT.OVERFLOW h) (s'.rd (F.HP_n_EVT.OVERFLOW h) ||| 2 ^ i)
      (s'.raise (half4 h) (0x053 + 8 * h) 0x0F (unitForm h 0) i).msix h 1

/-- The 64-bit message word (Table FC-4). -/
def Msg.word (m : Msg) : Nat := m.src * 2 ^ 55 + m.kind * 2 ^ 50 + m.sev * 2 ^ 47 + m.detail % 2 ^ 40 * 2 ^ 7 + m.extra % 128

/-- A logged message becomes an event record on the given heads. -/
def State.eventRecord (s : State) (m : Msg) (heads : List Nat) : State := heads.foldl (fun s h => s.takeRecord m m.word h) s

/-- Drops the role of a path with an audit entry (kind 8): cause 1 DROP, 2 warm reset, 3 link-down. -/
def State.dropRole (s : State) (p : Path) (cause : Nat) : State :=
  let r := (s.role p).role
  if r = 0 then s else (s.modRole p fun x => { x with role := 0, chal := none }).audit r p.idx 8 r cause 0

/-! Mailbox (R168) -/

/-- CXL return codes. PRESUMED: their values are CXL 3.1's, which the spec names but does not list. -/
def rcSuccess : Nat := 0
def rcInvalidInput : Nat := 2
def rcUnsupported : Nat := 3
def rcInvalidHandle : Nat := 14

/-- Firmware runs: no restart is under way (R438). -/
def State.fwRuns (s : State) : Bool := match s.mg.fwAt with | some t => t ≤ s.now | none => true

/-- The mailbox of a head is served: link up, and Mailbox Interface Ready as it reads, 0 until the firmware of a restart runs again (Table HP-10,
R438). -/
def State.mailboxServed (s : State) (h : Nat) : Bool := s.linkUp h && s.on (F.HP_n_MEDIA.MB_READY h) && s.fwRuns

/-- Completes a mailbox command: its result stands in the mailbox and goes out, vector 0. -/
def State.complete (s : State) (h code : Nat) (payload : List Byte) : State :=
  ((s.modHead h fun x => { x with mbox := some (code, payload) }).emit (.mailbox h code payload)).msix h 0

/-- Media status of a half's heads becomes error with the Fatal bit (R188). -/
def State.mediaError (s : State) (h : Half) : State :=
  (List.range 4).foldl (fun s n =>
    if half4 n == h then (s.wr (F.HP_n_MEDIA.MEDIA_STATUS n) 2).wr (F.HP_n_MEDIA.FATAL n) 1 else s) s

end Sys2Proof.Machine
end

