-- ==== Sys2Proof/Machine/Reads.lean ====
section
/-! DEFINITION. Reads of lines: where a DPA lies, the read queues, and what each reader does with a line that arrives
(07 R218, R220; 09 Table MI-2; 03 R116; 05 R175, R177). -/
namespace Sys2Proof.Machine

/-- Region, subchannel and subchannel address of a DPA in the table that a half has in force. -/
def State.locate (s : State) (h : Half) (dpa : Nat) : Option (Nat × Region × Nat × Nat) :=
  let c := s.schedOf h
  (c.map.find dpa).map fun r => let p := c.map.place r.2 dpa; (r.1, r.2, p.1, p.2)

/-- The half of an engine's or a head's index. -/
def engHalf (e : Nat) : Half := half16 e

/-- Merges enabled bytes into a line (R175). -/
def mergeBytes (old new : LineData) (mask : BitVec 64) : LineData :=
  lineOfBytes ((List.range 64).map fun i => if mask.getLsbD i then lineByte new i else lineByte old i)

/-- The host requests whose writes have taken their place in a write queue are answered (R176, R221). -/
def State.answerWrites (s : State) (n : Nat) : State :=
  let done := ((s.sub n).writeQ.map fun e => (e.lines.map (·.reqs)).flatten).flatten
  let s := s.modSub n fun u => { u with writeQ := u.writeQ.map fun e => { e with lines := e.lines.map fun l => { l with reqs := [] } } }
  done.foldl (fun s r => s.answer r.1 r.2 .cmp) s

/-- Waiting requests take their places, and host writes among them are answered. -/
def State.settle (s : State) (n : Nat) : State := (s.letIn n).answerWrites n

/-- A host write of a whole line, or the merge of a MemWrPtl, reaches the controller (R175, R176, R200): its Cmp goes once it has a place. -/
def State.hostWrite (s : State) (h id dpa : Nat) (r : Region) (n sa : Nat) (d : LineData) (poison : Bool) : State :=
  let s := s.writeAt n sa { idx := 0, data := d, poison := poison, tag := 101 + h, reqs := [(h, id)] } (r.cls != 0)
  (if poison then s.listPoison (dpa / 64) true else s.unlistPoison (dpa / 64)).answerWrites (s.route n sa).1

/-- A line arrives for a host request: data, poison, or the merge of a MemWrPtl (R175, R177). One whose line was written whole meanwhile
merges nothing: the later write stands (R206). -/
def State.hostLine (s : State) (h id : Nat) (o : LineOut) : State :=
  match ((s.head h).flight ++ (s.head h).orphans).find? (·.id == id) with
  | none => s
  | some r =>
    let s := s.modHead h fun x => { x with orphans := x.orphans.filter (·.id != id) }
    if r.kind = 2 then
      match o.data? with
      | none => (s.bump (F.HP_n_REQ_ERR.PTL_POISON h)).answer h id .cmp
      | some d =>
        match s.locate (half4 h) r.dpa with
        | none => s.answer h id .cmp
        | some (_, g, n, sa) =>
          if r.stale || s.writeLost n sa then s.answer h id .cmp
          else s.hostWrite h id r.dpa g n sa (mergeBytes d r.data r.mask) r.poison
    else
      match o.data? with
      | some d => s.answer h id (.data d false)
      | none => s.poisonResp h id

/-- A line arrives for an engine; stale epochs and fenced engines drop it (R116). -/
def State.engineLine (s : State) (e epoch line : Nat) (d : Option LineData) (degraded : Bool) : State :=
  if (s.eng e).fenced || epoch != s.rd (F.LE_n_STATUS.EPOCH e) || !(s.eng e).asked.contains line then s
  else s.modEng e fun g => { g with lines := g.lines ++ [⟨line, d, degraded⟩], asked := g.asked.filter (· != line) }

/-- A request that ends at a retired subchannel (R34): REQ_TO_RETIRED, by DPA unless the line lies in a reserve. -/
def State.retiredMsg (s : State) (n sa dpa : Nat) (moved : Bool) : State :=
  s.lineMsg n 5 8 31 (if moved then none else some dpa) sa 0

/-- The one event of a FILLING region (R212), with the region marked as reported. -/
def State.fillingNoted (s : State) (h : Half) (region cause : Nat) (write : Bool) (dpa unit : Nat) : State :=
  if ((s.schedOf h).filling.any fun f => f.region == region && !f.noted) then
    (s.refusedMsg (match h with | .a => 0 | .b => 2) 0x079 cause write dpa unit).modSched h fun c =>
      { c with filling := c.filling.map fun f => if f.region == region then { f with noted := true } else f }
  else s

/-- An internal write of a DPA (encoder, slot copy): false when it is discarded by a FILLING or unreachable region (R212, R216), or
when its subchannel is retired. -/
def State.writeDpa (s : State) (h : Half) (dpa : Nat) (d : LineData) (poison : Bool) (tag : Nat) (bulk : Bool) : Bool × State :=
  match s.locate h dpa with
  | none => (false, s)
  | some (i, rg, n, sa) =>
    if ((s.schedOf h).fillingOf i).isSome then (false, s.fillingNoted h i 5 true dpa 5)
    else if !s.reaches h rg || s.heldAt n sa then (false, s.refusedMsg (match h with | .a => 0 | .b => 2) 0x078 6 true dpa 5)
    else if s.writeLost n sa then
      let t := s.route n sa
      (false, s.retiredMsg t.1 t.2.1 dpa t.2.2)
    else
      let s := s.writeAt n sa { idx := 0, data := d, poison := poison, tag := tag } bulk
      (true, if poison then s else s.unlistPoison (dpa / 64))

/-- A line read for a slot copy goes to its place in the copy (R215): verbatim, a poisoned one as poison; a line that its region or its
subchannel no longer gives, or that its target does not take, ends the copy early with RESULT 6. R215 names split mode and retirement for it; a
region that is gone or FILLING meanwhile ends it in the same way (DESIGN CHOICE, log 177). -/
def State.copyArrives (s : State) (h id line : Nat) (o : LineOut) : State :=
  match (s.head h).copy with
  | none => s
  | some c =>
    let i := line - c.base / 64
    if c.id ≠ id || !c.asked.contains i then s
    else
      let half := half4 h
      let gone := match s.locate half (line * 64) with
        | none => true
        | some (k, g, n, sa) =>
          ((s.schedOf half).fillingOf k).isSome || !s.reaches half g || (s.sub (s.route n sa).1).retired
      let w := if gone then (false, s)
        else s.writeDpa half (c.dest + 64 * i) (o.data?.getD 0) o.data?.isNone (201 + h) true
      let c := { c with asked := c.asked.filter (· != i) }
      let c := if w.1 then { c with done := c.done + 1, bad := c.bad + b2n o.data?.isNone } else { c with early := true }
      w.2.modHead h fun x => { x with copy := some c, copyStatus := 2 ^ 31 + c.done % 2 ^ 25 }

/-- Adds one to a histogram counter of 16 bits (R303). -/
def State.histBump (s : State) (n dev : Nat) (erased : Bool) : State :=
  let k := (n * 32 + dev) * 2 + b2n erased
  s.modDm fun d => { d with hist := Sparse.put (fun _ => 0) d.hist k (satAdd 16 (Sparse.get (fun _ => 0) d.hist k) 1) }

/-- What the scrubber does with a line it has read (R300): place n, sa after routing, DPA line. Its write-back is queued behind the read, so a later
write to the line replaces it (R301). -/
def State.scrubLine (s : State) (n sa line : Nat) (moved : Bool) (o : LineOut) : State :=
  let s := s.modDm fun d => { d with scrubLines := d.scrubLines + 1 }
  match o with
  | .clean _ => s
  | .corrected d _ lanes =>
    let r := 10 * s.rankOf sa
    let erased := s.erasedLanes n sa
    let s := (s.queueWrite n sa (ownWrite d false) true).bump F.MI_SCRUB_CORR.CORRECTED
    let s := lanes.foldl (fun s l => s.histBump n (r + l) false) s
    erased.foldl (fun s l => s.histBump n (r + l) true) s
  | .poison => s.bump F.MI_SCRUB_POISON.POISON
  | .uncorrectable =>
    let two := s.decodeRow n sa == .two
    let dpa := if moved then none else some (line * 64)
    let s := (s.bump F.MI_SCRUB_UNCOR.UNCOR).lineMsg n 1 (if two then 2 else 3) 31 dpa sa (if two then 0 else 1)
    let s := s.modDm fun d => { d with scrubFirst := some (min line (d.scrubFirst.getD line)), scrubLast := some (max line (d.scrubLast.getD line)) }
    if two then s else (s.queueWrite n sa (ownWrite 0 true) true).listPoison line false

/-- The scrub pass ends when no line is left to read and every read has come back (R298). -/
def State.scrubOver (s : State) : State :=
  if s.dm.a.scrubLeft = 0 && s.dm.b.scrubLeft = 0 && s.dm.scrubOut = 0 && s.rd F.MI_SCRUB_STATUS.STATE == 1 then
    (s.wr F.MI_SCRUB_STATUS.STATE 3).wr F.MI_SCRUB_STATUS.RESULT 0
  else s

/-- A line arrives for a scrub pass: one of a pass that has ended counts for nothing, one that its subchannel no longer serves is skipped (R302). -/
def State.scrubArrives (s : State) (pass n sa line : Nat) (moved : Bool) (o : LineOut) : State :=
  if pass ≠ s.dm.scrubPass || s.rd F.MI_SCRUB_STATUS.STATE ≠ 1 then s
  else
    let s := s.modDm fun d => { d with scrubOut := d.scrubOut - 1 }
    let s := if (s.sub n).retired || !(s.wh (subHalf n)).coreGood then s.bump F.MI_SCRUB_SKIP.SKIPPED else s.scrubLine n sa line moved o
    s.scrubOver

/-- A line arrives for a reader. -/
def State.deliver (s : State) (r : Reader) (dpaLine : Nat) (o : LineOut) (degraded : Bool) : State :=
  match r with
  | .host h id => s.hostLine h id o
  | .engine e ep => s.engineLine e ep dpaLine o.data? degraded
  | .window h =>
    if (s.head h).winAsked.contains dpaLine then
      s.modHead h fun x => { x with winLines := x.winLines ++ [⟨dpaLine, o.data?, degraded⟩], winAsked := x.winAsked.filter (· != dpaLine) }
    else s
  | .copy h id => s.copyArrives h id dpaLine o
  | .scrub pass n sa line moved => s.scrubArrives pass n sa line moved o

/-- DPA line number that a reader knows a line by. -/
def dpaLine (dpa : Option Nat) : Nat := (dpa.getD 0) / 64

/-- A read of a line: poison from a retired subchannel or beyond the cursor of a rebuild that ended with loss, queued data at once,
else a place in the Frame or Bulk queue (R200, R220, R256, R284). `known` is the DPA line its reader asked for. -/
def State.readAt (s : State) (n sa dpa : Nat) (frame : Bool) (r : Reader) : State :=
  let (n', sa', moved) := s.route n sa
  let lost := match (s.mh (subHalf n)).rebuild with
    | some b => b.sub == n && b.loss && !moved
    | none => false
  let deg := s.degradedSub n'
  if (s.sub n').retired then (s.retiredMsg n' sa' dpa moved).deliver r (dpa / 64) .poison true
  else if lost then s.deliver r (dpa / 64) .poison true
  else
    match (s.sub n').queued (sa' / 64) with
    | some q => s.deliver r (dpa / 64) (queuedOut q) deg
    | none => s.queueRead n' sa' (some dpa) frame r

/-- An internal read of a DPA by an engine or a window: unreachable and FILLING regions answer poison at once (R212, R216). -/
def State.readDpa (s : State) (h : Half) (dpa : Nat) (frame : Bool) (r : Reader) : State :=
  match s.locate h dpa with
  | none => s.deliver r (dpa / 64) .poison false
  | some (i, rg, n, sa) =>
    if ((s.schedOf h).fillingOf i).isSome then (s.fillingNoted h i 5 false dpa 5).deliver r (dpa / 64) .poison false
    else if !s.reaches h rg || s.heldAt n sa then
      (s.refusedMsg (match h with | .a => 0 | .b => 2) 0x078 6 false dpa 5).deliver r (dpa / 64) .poison true
    else s.readAt n sa dpa frame r

/-! Slot copies move on (R215, R251) -/

/-- The rank of the line at a DPA sleeps under the Archive rules, and its subchannel. -/
def State.asleepAt (s : State) (h : Half) (dpa : Nat) : Option Nat :=
  match s.locate h dpa with
  | none => none
  | some (_, _, n, sa) =>
    let t := s.route n sa
    if s.on (F.DC_n_STATUS.RANK1_ASLEEP t.1) && (s.sub t.1).sr.getLsbD (s.rankOf t.2.1) then some t.1 else none

/-- Granules of a copy. -/
def Copy.granules (c : Copy) : Nat := (c.lines + 3) / 4

/-- The subchannel whose rank a granule of a copy waits for, on the side it reads or the side it writes. -/
def State.copyWaits (s : State) (h : Nat) (c : Copy) (g : Nat) : Option Nat :=
  (s.asleepAt (half4 h) (c.base + 256 * g)).or (s.asleepAt (half4 h) (c.dest + 256 * g))

/-- The next granule whose ranks are awake: one passed over before, else the next of the copy; with the copy as it goes on. -/
def State.copyNext (s : State) (h : Nat) (c : Copy) : (fuel : Nat) → Option Nat × Copy
  | 0 => (none, c)
  | fuel + 1 =>
    match c.later.find? fun g => (s.copyWaits h c g).isNone with
    | some g => (some g, { c with later := c.later.filter (· != g) })
    | none =>
      if c.granules ≤ c.next then (none, c)
      else if (s.copyWaits h c c.next).isNone then (some c.next, { c with next := c.next + 1 })
      else s.copyNext h { c with next := c.next + 1, later := c.later ++ [c.next] } fuel

/-- A write of a slot copy still waits for a place. -/
def State.copyBacklog (s : State) (h : Nat) : Bool := s.dm.subs.toList.any fun u => u.wrWait.any fun w => w.line.tag == 201 + h

/-- A copy with nothing under way reads its next granule, unless the window's steps are due (R34, R245). -/
def State.copyOn (s : State) (h : Nat) : State :=
  match (s.head h).copy with
  | none => s
  | some c =>
    if !c.asked.isEmpty || c.early || s.heldFor (half4 h) || s.copyBacklog h || s.stopping (half4 h) then s
    else
      let r := s.copyNext h c (c.granules + 1)
      match r.1 with
      | none => s.modHead h fun x => { x with copy := some r.2 }
      | some g =>
        let ls := (List.range 4).filterMap fun i => if 4 * g + i < c.lines then some (4 * g + i) else none
        let s := s.modHead h fun x => { x with copy := some { r.2 with asked := ls } }
        ls.foldl (fun s i => s.readDpa (half4 h) (c.base + 64 * i) false (.copy h c.id)) s

/-- Every copy moves on. -/
def State.copiesOn (s : State) : State := (List.range 4).foldl State.copyOn s

end Sys2Proof.Machine
end

