-- ==== Sys2Proof/Machine/LampCalc.lean ====
section
/-! DEFINITION. The lamp pipeline to the bit: slot geometry, the lines and blocks a chunk needs, sampling, correction, dither, packing
and the chunk record (03_lamp_engines.md R80 to R98, R112 to R114; 04 R121 to R124). -/
namespace Sys2Proof.Machine

/-! Slot geometry (R121 to R124) -/

/-- Block columns. -/
def SrcCfg.bw (c : SrcCfg) : Nat := (c.width + 31) / 32

/-- Block rows. -/
def SrcCfg.bh (c : SrcCfg) : Nat := (c.height + 3) / 4

/-- Depth in bits. -/
def SrcCfg.depthBits (c : SrcCfg) : Nat := if c.d12 then 12 else 10

/-- DPA of a slot. -/
def SrcCfg.slotBase (c : SrcCfg) (slot : Nat) : Nat := c.ringBase + slot * c.stride

/-- slot_bytes of 02. -/
def SrcCfg.slotBytes (c : SrcCfg) (m : TwMode) : Nat :=
  let blocks := c.bw * c.bh
  match m with
  | .tl => blocks * 576 + 64 * ((blocks + 127) / 128)
  | m => blocks * m.place * 64

/-- DPA of a block's place. -/
def SrcCfg.blockAt (c : SrcCfg) (m : TwMode) (slot b : Nat) : Nat := c.slotBase slot + 64 * m.place * b

/-- DPA of the size-map line of a block (R124). -/
def SrcCfg.mapLine (c : SrcCfg) (slot b : Nat) : Nat := c.slotBase slot + 576 * (c.bw * c.bh) + b / 2 / 64 * 64

/-- The size-map entry of a block in its map line. -/
def mapEntry (d : LineData) (b : Nat) : Nat := (lineByte d (b / 2 % 64)).toNat / 2 ^ (4 * (b % 2)) % 16

/-- The Twill mode of a source: its ring region's (R122). -/
def Sched.modeOf (c : Sched) (k : SrcCfg) : Option TwMode := (c.map.find k.ringBase).bind fun r => TwMode.ofTwill r.2.twill

/-! Lines in an input stage -/

/-- A line that has arrived. -/
def lineIn (ls : List InLine) (dpa : Nat) : Option InLine := ls.find? (·.line == dpa / 64)

/-- Byte of arrived data; 0 where the line is absent. -/
def byteIn (ls : List InLine) (dpa : Nat) : Nat :=
  match (lineIn ls dpa).bind (·.data) with
  | some d => (lineByte d (dpa % 64)).toNat
  | none => 0

/-- Little-endian number in arrived data. -/
def numIn (ls : List InLine) (dpa n : Nat) : Nat := (List.range n).foldr (fun i acc => byteIn ls (dpa + i) + 256 * acc) 0

/-- DPA line starts of a byte range. -/
def linesOf (dpa n : Nat) : List Nat := if n = 0 then [] else (List.range ((dpa + n - 1) / 64 - dpa / 64 + 1)).map fun i => (dpa / 64 + i) * 64

/-- Lines of a range that have not arrived. -/
def missing (ls : List InLine) (dpas : List Nat) : List Nat := dpas.filter fun a => (lineIn ls a).isNone

/-- A range holds a poisoned line. -/
def poisonedIn (ls : List InLine) (dpa n : Nat) : Bool := (linesOf dpa n).any fun a => ((lineIn ls a).map (·.data.isNone)).getD false

/-! Blocks -/

/-- What a block read still needs: lines, or decoding (`none` lines missing). In TL the map line comes first (R152). -/
def blockNeeds (c : SrcCfg) (m : TwMode) (ls : List InLine) (slot b : Nat) : List Nat :=
  match m with
  | .tl =>
    match lineIn ls (c.mapLine slot b) with
    | none => [c.mapLine slot b]
    | some l =>
      match l.data with
      | none => []
      | some d =>
        let e := mapEntry d b
        let n := if e = 15 then rawSectors c.depthBits else if 1 ≤ e && e ≤ 8 then e else 0
        missing ls (linesOf (c.blockAt m slot b) (64 * n))
  | m => missing ls (linesOf (c.blockAt m slot b) (64 * m.place))

/-- Decodes a block whose lines have arrived: pixels, or why it is poisoned (`none`: by a poisoned line) (R143). -/
def blockFrom (c : SrcCfg) (m : TwMode) (ls : List InLine) (slot b : Nat) : Option TwBad ⊕ List (List Nat) :=
  let entry : Option Nat := match m with
    | .tl => ((lineIn ls (c.mapLine slot b)).bind (·.data)).map (mapEntry · b)
    | m => some m.place
  match entry with
  | none => .inl none
  | some e =>
    let n := match m with | .tl => if e = 15 then rawSectors c.depthBits else if 1 ≤ e && e ≤ 8 then e else 0 | m => m.place
    if poisonedIn ls (c.blockAt m slot b) (64 * n) then .inl none
    else
      match decodeBlock m c.depthBits e (numIn ls (c.blockAt m slot b) (64 * n)) with
      | .inl w => .inl (some w)
      | .inr p => .inr p

/-- A decoded block in an input stage. -/
def blockIn (bs : List InBlock) (src slot b : Nat) : Option InBlock := bs.find? fun x => x.src == src && x.slot == slot && x.block == b

/-! Sampling (R89, R90) -/

/-- Number of lamps (Table LE-1). -/
def StreamCfg.lamps (st : StreamCfg) : Nat := st.gridW * st.gridH

/-- Source position of lamp n, s16.16, with its offsets (R90). -/
def StreamCfg.pos (st : StreamCfg) (n : Nat) (du dv : Int) : Int × Int :=
  let i : Int := ((n % st.gridW : Nat) : Int)
  let j : Int := ((n / st.gridW : Nat) : Int)
  let a := fun k => st.aff.getD k 0
  (a 0 * i + a 1 * j + a 2 + du * 256, a 3 * i + a 4 * j + a 5 + dv * 256)

/-- Pixels that a sample fetches, before clamping (R90): nearest, bilinear or box. -/
def StreamCfg.fetches (st : StreamCfg) (u v : Int) : List (Int × Int) :=
  if st.mode = 0 then [(rnd u 16, rnd v 16)]
  else if st.mode = 1 then
    let x := u / 65536
    let y := v / 65536
    [(x, y), (x + 1, y), (x, y + 1), (x + 1, y + 1)]
  else
    let k := st.box
    let x := (u - ((k : Int) - 2) * 32768) / 65536
    let y := (v - ((k : Int) - 2) * 32768) / 65536
    (List.range (k * k)).map fun q => (x + ((q % k : Nat) : Int), y + ((q / k : Nat) : Int))

/-- Clamps a fetch to the source (R89). -/
def SrcCfg.clamp (c : SrcCfg) (p : Int × Int) : Nat × Nat :=
  ((sat p.1 0 ((c.width : Int) - 1)).toNat, (sat p.2 0 ((c.height : Int) - 1)).toNat)

/-- Block number of a pixel (R121). -/
def SrcCfg.blockOf (c : SrcCfg) (p : Nat × Nat) : Nat := p.2 / 4 * c.bw + p.1 / 32

/-- `sample` of R90 from the fetched values in fetch order, u(D+4). -/
def StreamCfg.combine (st : StreamCfg) (u v : Int) (px : List Nat) : Nat :=
  if st.mode = 0 then px.getD 0 0 * 16
  else if st.mode = 1 then
    let fx := (u / 256 % 256).toNat
    let fy := (v / 256 % 256).toNat
    let a := (256 - fx) * (256 - fy) * px.getD 0 0 + fx * (256 - fy) * px.getD 1 0 + (256 - fx) * fy * px.getD 2 0 + fx * fy * px.getD 3 0
    (rnd a 12).toNat
  else
    let k2 := st.box * st.box
    (16 * px.foldl (· + ·) 0 + k2 / 2) / k2

/-! Correction (R90) -/

/-- A LUT value at rest: the identity curves of R87. Tables 0 to 15 are EOTF, 16 to 79 lamp LUTs. -/
def lutIdentity (key : Nat) : Nat :=
  let x := key % 2 ^ 13
  if key / 2 ^ 13 % 2 ^ 7 < 16 then min (256 * x) 1048575 else min (16 * x) 65535

/-- Key of a LUT entry. -/
def lutKey (bank table entry : Nat) : Nat := bank * 2 ^ 20 + table * 2 ^ 13 + entry

/-- Linear input of a sample by EOTF table t (R90): value and the entries read. -/
def linearise (lut : Nat → Nat) (bank t d x : Nat) : Nat × List (Nat × Nat) :=
  let x16 := x * 2 ^ (12 - d)
  let ix := x16 / 16
  let f := x16 % 16
  let e0 := lut (lutKey bank t ix)
  let e1 := lut (lutKey bank t (ix + 1))
  (((e0 : Int) + rnd (((e1 : Int) - e0) * f) 4).toNat, [(t, ix), (t, ix + 1)])

/-- The identity matrix of R83, rows of three. -/
def identityMatrix : List Int := [0x2000, 0, 0, 0, 0x2000, 0, 0, 0, 0x2000]

/-- A Gauze entry as the engine uses it (Table LE-2). -/
structure Gauze where
  m : List Int
  o : List Int
  dis : Bool
  pos : Bool
  noDith : Bool
  deriving DecidableEq, Repr

/-- The substitute of a poisoned Gauze entry (Table LE-6). -/
def Gauze.subst : Gauze := ⟨identityMatrix, [0, 0, 0], false, false, false⟩

/-- Reads a Gauze entry of 24 bytes as a number (R82, R83). -/
def Gauze.parse (v : Nat) : Gauze :=
  let w := v / 2 ^ 144
  let def' := bits w 37 37 = 1
  ⟨if def' then identityMatrix else (List.range 9).map fun k => toSigned 15 (bits v (16 * k + 14) (16 * k)),
    if def' then [0, 0, 0] else (List.range 3).map fun k => toSigned 12 (bits w (12 * k + 11) (12 * k)),
    bits w 36 36 = 1, bits w 38 38 = 1, bits w 39 39 = 1⟩

/-- Output component c before dither: z by matrix, offset and gain, then the lamp LUT (R90): o[c] and the entries read. -/
def outComponent (lut : Nat → Nat) (bank t gain c : Nat) (g : Gauze) (lin : List Nat) : Nat × List (Nat × Nat) :=
  let acc := (List.range 3).foldl (fun a k => a + g.m.getD (3 * c + k) 0 * ((lin.getD k 0 : Nat) : Int)) 0
  let y := rnd acc 13 + g.o.getD c 0 * 256
  let z := (sat (rnd (y * gain) 15) 0 1048575).toNat
  let ix := z / 256
  let f := z % 256
  let e0 := lut (lutKey bank (16 + t) ix)
  let e1 := lut (lutKey bank (16 + t) (ix + 1))
  (((e0 : Int) + rnd (((e1 : Int) - e0) * f) 8).toNat, [(16 + t, ix), (16 + t, ix + 1)])

/-! Dither (R91, R92) -/

/-- Table LE-3. -/
def bayer (j i : Nat) : Nat := [0, 8, 2, 10, 12, 4, 14, 6, 3, 11, 1, 9, 15, 7, 13, 5].getD (j % 4 * 4 + i % 4) 0

/-- `lfsr_word` of R92. -/
def lfsrWord (seed stream n fc : Nat) : Nat :=
  let f := fc % 2 ^ 32
  let key := seed ^^^ (stream * 65536 + n) ^^^ (f % 65536 * 65536 + f / 65536)
  lfsrStep (lfsrStep (lfsrStep (lfsrStep (if key = 0 then 0x1B873593 else key))))

/-- Output width of a format. -/
def formatWidth (f : Nat) : Nat := if f = 0 then 16 else if f = 1 then 12 else 10

/-- `q(c)` of R91. -/
def ditherTo (st : StreamCfg) (noDith : Bool) (n fc c o : Nat) : Nat :=
  let w := formatWidth st.format
  if w = 16 then o
  else
    let sh := 16 - w
    let t :=
      if st.dither = 0 || noDith then 2 ^ (sh - 1)
      else if st.dither = 1 then bayer (n / st.gridW) (n % st.gridW) * 2 ^ (sh - 4)
      else lfsrWord st.seed st.stream n fc / 2 ^ (8 * c) % 2 ^ sh
    min ((o + t) / 2 ^ sh) (2 ^ w - 1)

/-! One lamp -/

/-- What a lamp computation draws on: Last entries, frame, gain, LUT bank, arrived lines and decoded blocks, the production slot with
its previous one, whether split mode hides its source (R324), and the LUT errors met (R88). -/
structure LampIn where
  st : StreamCfg
  sc : SrcCfg
  fc : Nat
  gain : Nat
  bank : Nat
  lines : List InLine
  blocks : List InBlock
  slot : Option Nat
  prev : Option Nat
  hidden : Bool
  lutErrs : List LutErr
  deriving DecidableEq, Repr

/-- The Gauze entry of a lamp, and whether it is substituted. -/
def LampIn.gauze (x : LampIn) (n : Nat) : Gauze × Bool :=
  let a := x.st.gauze + 24 * n
  if poisonedIn x.lines a 24 then (Gauze.subst, true) else (Gauze.parse (numIn x.lines a 24), false)

/-- Position offsets in force for a lamp, and whether a poisoned entry that would be applied is substituted (R84). -/
def LampIn.offset (x : LampIn) (n : Nat) (g : Gauze) : Int × Int × Bool :=
  if x.st.offsets && g.pos then
    let a := x.st.offs + 4 * n
    if poisonedIn x.lines a 4 then (0, 0, true)
    else let w := numIn x.lines a 4; (toSigned 16 w, toSigned 16 (w / 65536), false)
  else (0, 0, false)

/-- The pixels of a block: production slot, then previous slot, or none for fill; and whether a substitute is used (Table LE-6). -/
def LampIn.block (x : LampIn) (b : Nat) : Option (List (List Nat)) × Bool :=
  match x.slot with
  | none => (none, true)
  | some sl =>
    match (blockIn x.blocks x.sc.src sl b).bind (·.pix) with
    | some p => (some p, false)
    | none =>
      match x.prev with
      | none => (none, true)
      | some pv => ((blockIn x.blocks x.sc.src pv b).bind (·.pix), true)

/-- A pixel of decoded blocks. -/
def pixelOf (p : List (List Nat)) (c x y : Nat) : Nat := (p.getD c []).getD (y % 4 * 32 + x % 32) 0

/-- The three outputs of a lamp, and whether it counts as substituted (R90, R94, R112). -/
def LampIn.lamp (x : LampIn) (lut : Nat → Nat) (n : Nat) : List Nat × Bool :=
  let (g, gSub) := x.gauze n
  if g.dis then ([0, 0, 0], false)
  else
    let dith := fun (o : List Nat) => (List.range 3).map fun c => ditherTo x.st g.noDith n x.fc c (o.getD c 0)
    let fill := (dith x.st.fill, true)
    if x.slot.isNone || x.hidden then fill
    else
      let (du, dv, oSub) := x.offset n g
      let (u, v) := x.st.pos n du dv
      let at' := (x.st.fetches u v).map x.sc.clamp
      let got := at'.map fun p => (p, x.block (x.sc.blockOf p))
      if got.any (·.2.1.isNone) then fill
      else
        let bSub := got.any (·.2.2)
        let d := x.sc.depthBits
        let lin := (List.range 3).map fun c =>
          linearise lut x.bank x.sc.src d (x.st.combine u v (got.map fun q => pixelOf (q.2.1.getD []) c q.1.1 q.1.2))
        let out := (List.range 3).map fun c => outComponent lut x.bank x.st.lut x.gain c g (lin.map (·.1))
        let read := (lin.map (·.2)).flatten ++ (out.map (·.2)).flatten
        if x.lutErrs.any (fun e => e.uncorrectable && read.contains (e.table, e.entry)) then fill
        else (dith (out.map (·.1)), gSub || oSub || bSub)

/-- LUT entries that a lamp reads, for the messages of R88. -/
def LampIn.lutReads (x : LampIn) (lut : Nat → Nat) (n : Nat) : List (Nat × Nat) :=
  let (g, _) := x.gauze n
  if g.dis || x.slot.isNone || x.hidden then []
  else
    let (du, dv, _) := x.offset n g
    let (u, v) := x.st.pos n du dv
    let got := ((x.st.fetches u v).map x.sc.clamp).map fun p => (p, x.block (x.sc.blockOf p))
    if got.any (·.2.1.isNone) then []
    else
      let lin := (List.range 3).map fun c =>
        linearise lut x.bank x.sc.src x.sc.depthBits (x.st.combine u v (got.map fun q => pixelOf (q.2.1.getD []) c q.1.1 q.1.2))
      let out := (List.range 3).map fun c => outComponent lut x.bank x.st.lut x.gain c g (lin.map (·.1))
      (lin.map (·.2)).flatten ++ (out.map (·.2)).flatten

/-- What a chunk of lamps still needs before it can be computed: DPA lines, and blocks to decode (slot and block). -/
def LampIn.needs (x : LampIn) (m : TwMode) (first count : Nat) : List Nat × List (Nat × Nat) :=
  let tables := missing x.lines (linesOf (x.st.gauze + 24 * first) (24 * count)) ++
    (if x.st.offsets then missing x.lines (linesOf (x.st.offs + 4 * first) (4 * count)) else [])
  if !tables.isEmpty then (tables, [])
  else
    match x.slot with
    | none => ([], [])
    | some sl =>
      if x.hidden then ([], [])
      else
        let bs := ((List.range count).map fun k =>
          let n := first + k
          let (g, _) := x.gauze n
          if g.dis then []
          else
            let (du, dv, _) := x.offset n g
            let (u, v) := x.st.pos n du dv
            (x.st.fetches u v).map fun p => x.sc.blockOf (x.sc.clamp p)).flatten.eraseDups
        let want := bs.map fun b =>
          match blockIn x.blocks x.sc.src sl b with
          | none => (sl, b, true)
          | some y =>
            match y.pix, x.prev with
            | none, some pv => (pv, b, (blockIn x.blocks x.sc.src pv b).isNone)
            | _, _ => (sl, b, false)
        let open' := want.filter (·.2.2)
        let lines := (open'.map fun w => blockNeeds x.sc m x.lines w.1 w.2.1).flatten.eraseDups
        (lines, (open'.filter fun w => (blockNeeds x.sc m x.lines w.1 w.2.1).isEmpty).map fun w => (w.1, w.2.1))

/-! Chunks (R95 to R98) -/

/-- Payload of a chunk's lamps (R96). -/
def packLamps (format : Nat) : List (List Nat) → List Byte
  | [] => []
  | a :: t =>
    if format = 0 then leBytes 6 (a.getD 0 0 + a.getD 1 0 * 2 ^ 16 + a.getD 2 0 * 2 ^ 32) ++ packLamps format t
    else if format = 2 then leBytes 4 (a.getD 0 0 + a.getD 1 0 * 2 ^ 10 + a.getD 2 0 * 2 ^ 20) ++ packLamps format t
    else
      let half := fun (l : List Nat) => l.getD 0 0 + l.getD 1 0 * 2 ^ 12 + l.getD 2 0 * 2 ^ 24
      match t with
      | [] => leBytes 9 (half a)
      | b :: t' => leBytes 9 (half a + half b * 2 ^ 36) ++ packLamps format t'

/-- Fields of a chunk header (Table LE-4). -/
structure ChunkHdr where
  stream : Nat
  format : Nat
  flags : Nat
  frame : Nat
  chunk : Nat
  first : Nat
  count : Nat
  payload : Nat
  ts : Nat
  nsub : Nat
  deriving DecidableEq, Repr

/-- The header's 32 bytes with a given CRC. -/
def ChunkHdr.bytes (h : ChunkHdr) (crc : Nat) : List Byte :=
  leBytes 2 h.stream ++ leBytes 1 h.format ++ leBytes 1 h.flags ++ leBytes 8 h.frame ++ leBytes 2 h.chunk ++ leBytes 2 h.first ++
    leBytes 2 h.count ++ leBytes 2 h.payload ++ leBytes 4 h.ts ++ leBytes 2 h.nsub ++ leBytes 2 0 ++ leBytes 4 crc

/-- A chunk record: header with its CRC, payload, zero padding to 64 bytes (R95, R97). -/
def chunkRecord (h : ChunkHdr) (payload : List Byte) : List Byte :=
  let body := h.bytes (crc32 (h.bytes 0 ++ payload)) ++ payload
  body ++ List.replicate ((64 - body.length % 64) % 64) 0

/-- A record with GAP set in its flags and its CRC made good (R98). -/
def withGap (r : List Byte) : List Byte :=
  let len := 32 + field r 18 2
  let flagged := r.take 3 ++ leBytes 1 (field r 3 1 ||| 8) ++ r.drop 4
  let crc := crc32 (flagged.take 28 ++ List.replicate 4 0 ++ slice flagged 32 (len - 32))
  flagged.take 28 ++ leBytes 4 crc ++ flagged.drop 32

/-- Number of chunks of a stream. -/
def StreamCfg.chunks (st : StreamCfg) : Nat := (st.lamps + st.chunkLamps - 1) / st.chunkLamps

/-- Lamps of a chunk. -/
def StreamCfg.count (st : StreamCfg) (c : Nat) : Nat := min st.chunkLamps (st.lamps - c * st.chunkLamps)

/-- Payload bytes of a number of lamps (R96). -/
def payloadBytes (format count : Nat) : Nat := if format = 0 then 6 * count else if format = 1 then (count + 1) / 2 * 9 else 4 * count

/-- Record size of a number of lamps. -/
def recordBytes (format count : Nat) : Nat := (32 + payloadBytes format count + 63) / 64 * 64

/-- A repeat chunk (R72, R98, R101). -/
def repeatRecord (st : StreamCfg) (frame c ts : Nat) : List Byte :=
  chunkRecord ⟨st.stream, st.format, 1 + (if c + 1 = st.chunks then 16 else 0), frame, c, c * st.chunkLamps, st.count c, 0, ts, 0⟩ []

end Sys2Proof.Machine
end

