-- ==== Sys2Proof/Machine/LampOps.lean ====
section
/-! DEFINITION. Shared operations of the lamp engines, the host rings and the wake budget (03_lamp_engines.md R99 to R120; 05 R181 to R185;
07 R253, R254). -/
namespace Sys2Proof.Machine

/-! Time within a tick (R40) -/

/-- The current stitch of a schedule. -/
def State.stitchOf (s : State) (c : Sched) : Nat := if c.running then min (((s.now - c.tickAt + 1) * 4096 - 1) / c.len) 4095 else 0

/-- The stitch of the schedule that a half runs. -/
def State.stitchNow (s : State) (h : Half) : Nat := s.stitchOf (s.schedOf h)

/-- The frame count of the schedule that a half runs. -/
def State.frameCount (s : State) (h : Half) : Nat := (s.schedOf h).frame

/-- WINDOW of FS_STITCH: 0 before C, 1 from C on, 2 maintenance, 3 idle. The window follows the schedule's own events. -/
def Sched.window (c : Sched) : Nat := if !c.running then 3 else if c.prodDone then 2 else if c.cutDone then 1 else 0

/-- A maintenance window is open on the schedule of a half, of a tick or of an idle cycle (R22, R45). -/
def State.maintenance (s : State) (h : Half) : Bool :=
  let c := s.schedOf h
  if c.running then c.prodDone else c.idleWindow

/-! Wake budget (R253, R254) -/

/-- N of a half's budget. -/
def State.wakeN (s : State) (h : Half) : Nat := min (max (s.rd (F.DC_WAKE.N h.idx)) 4) 32

/-- Starts of the last 10 µs. -/
def State.recentWakes (s : State) (h : Half) : List Nat := (s.mh h).wakes.filter fun t => s.now < t + cyclesOf 10000

/-- Counts an event that starts now. -/
def State.countWake (s : State) (h : Half) : State := s.modMh h fun m => { m with wakes := s.now :: s.recentWakes h }

/-- The next waiting event: lowest row first, then order of request. -/
def nextWake (l : List WakeEv) : Option WakeEv :=
  match l.find? (·.row == 3) with
  | some e => some e
  | none => match l.find? (·.row == 4) with
    | some e => some e
    | none => l.head?

/-- An event of rows 3 to 5 may start now. -/
def State.wakeRoom (s : State) (h : Half) : Bool := (s.recentWakes h).length < s.wakeN h

/-- The effect of a wake event; a head that begins to train takes its HP_n_CFG (R160). -/
def State.wakeEffect (s : State) : WakeEv → State
  | .engine e => (s.modEng e fun g => { g with waiting := false }).wr (F.LE_n_STATUS.STATE e) 1
  | .link h => s.modHead h fun x => { x with training := true, cfg := (s.word (0x300000 + 0x1000 * h)).toNat }
  | .archive n =>
    (s.modSub n fun u => { u with sr := u.sr &&& 1, woke := true, refPos := u.refPos.setIfInBounds 1 0 }).wr (F.DC_n_STATUS.RANK1_ASLEEP n) 0
  | .exit n r => s.modSub n fun u => { u with sr := u.sr &&& ~~~(1#2 <<< r), refPos := u.refPos.setIfInBounds r 0 }

/-- Half of a wake event. -/
def WakeEv.half : WakeEv → Half
  | .engine e => half16 e
  | .link h => half4 h
  | .archive n => half16 n
  | .exit n _ => half16 n

/-- A rank of a subchannel may leave self-refresh: its half neither sheds nor is in the fatal state, its memory clock is not held, and it is not
retired (R255 to R257, R347). -/
def State.mayExit (s : State) (n : Nat) : Bool :=
  !s.stopping (half16 n) && !(s.sub n).retired && !s.on (F.CK_h_STATUS.MEM_HOLD (half16 n).idx)

/-- An event that waits may start as far as its unit goes: an Archive rank not from P2 on (R251), and no waiting exit during a change (R246). -/
def State.wakeOk (s : State) : WakeEv → Bool
  | .engine _ => true
  | .link _ => true
  | .archive n => s.mayExit n && (s.sub n).change.isNone && s.stepFor (half16 n) < 2
  | .exit n _ => s.mayExit n && (s.sub n).change.isNone

/-- Asks for an event of rows 3 to 5: it starts at once, or waits; a wait for the budget or for the order of Table DC-5 is counted in WAITS. -/
def State.askWake (s : State) (e : WakeEv) : State :=
  let h := e.half
  if (s.mh h).waiting.contains e then s
  else
    let free := s.wakeRoom h && ((s.mh h).waiting.filter s.wakeOk).isEmpty
    if free && s.wakeOk e then (s.countWake h).wakeEffect e
    else
      let s := s.modMh h fun m => { m with waiting := m.waiting ++ [e] }
      if free then s else s.bump (F.DC_WAKE.WAITS h.idx)

/-- Starts a waiting event when the budget allows and it is the next in order. -/
def State.startWake (s : State) (h : Half) (want : Option WakeEv) : State :=
  match nextWake ((s.mh h).waiting.filter s.wakeOk) with
  | none => s
  | some e =>
    if s.wakeRoom h && (want.isNone || want == some e) then
      ((s.modMh h fun m => { m with waiting := m.waiting.filter (· != e) }).countWake h).wakeEffect e
    else s

/-- Exits that wait after a start or a hold are dropped; a rank that sleeps under the Archive rules still waits for its wake. -/
def State.dropExits (s : State) (n : Nat) : State :=
  s.modMh (half16 n) fun m => { m with waiting := m.waiting.filter fun e => match e with | .exit k _ => k != n | _ => true }

/-- Exits of a subchannel's ranks that wait are dropped: the ranks stay in self-refresh, or are awake by other means. -/
def State.dropWakes (s : State) (n : Nat) : State :=
  s.modMh (half16 n) fun m => { m with waiting := m.waiting.filter fun e => match e with | .archive k => k != n | .exit k _ => k != n | _ => true }

/-! Streams and engines -/

/-- In split mode the schedule of a half runs the streams whose home engine it has, and those of a half that lost its core rail (R117, R323). -/
def State.runsStream (s : State) (h : Half) (st : StreamCfg) : Bool :=
  engHalf st.engine == h || !(s.wh (engHalf st.engine)).coreGood

/-- The stream descriptor in force for a ring: of the schedule that runs the stream. -/
def State.stream (s : State) (r : Nat) : Option StreamCfg :=
  if s.split then
    match [s.leader, s.leader.other].find? fun h => ((s.schedOf h).stream r).any fun st => s.runsStream h st with
    | some h => (s.schedOf h).stream r
    | none => none
  else s.sched.stream r

/-- The engine that computes a stream. -/
def State.engineOf (s : State) (st : StreamCfg) : Nat := (Sparse.get? s.le.away st.stream).getD st.engine

/-- Enabled streams that an engine computes, in stream-table order. -/
def State.streamsOf (s : State) (e : Nat) : List StreamCfg :=
  let c := s.schedOf (engHalf e)
  match c.cfg with
  | none => []
  | some l => l.streams.filter fun st => c.enabled.getLsbD st.stream && s.engineOf st == e

/-- The chunk at which a stream starts or restarts in the tick of frame count f: after the last one announced or skipped (R118). -/
def State.startChunk (s : State) (st f : Nat) : Nat :=
  match (s.ring st).next with
  | some (g, c) => if g = f then c else 0
  | none => 0

/-- A half can reach the data of a stream (R117). -/
def State.reachesStream (s : State) (h : Half) (st : StreamCfg) : Bool :=
  !s.split ||
    (let c := s.schedOf h
     let ok := fun a => match c.map.find a with | some r => s.reaches h r.2 | none => false
     ok st.gauze && (!st.offsets || ok st.offs) && (match c.src st.src with | some k => ok k.ringBase | none => false))

/-- The target of a stream whose engine is fenced (R117). -/
def State.migrationTarget (s : State) (e : Nat) (st : StreamCfg) : Option Nat :=
  let run := fun k => !(s.eng k).fenced && k != e
  let alt := match st.alt with
    | some a => if run a && s.reachesStream (engHalf a) st then some a else none
    | none => none
  match alt with
  | some a => some a
  | none =>
    match (List.range 16).find? fun k => engHalf k == engHalf e && run k with
    | some k => some k
    | none => if s.joined then (List.range 16).find? fun k => engHalf k != engHalf e && run k else none

/-- OPEN, CUR_STREAM, MOVED_IN and the closing of streams whose records are all gone (R99). -/
def State.noteEngine (s : State) (e : Nat) : State :=
  let g := s.eng e
  let live := g.opened.filter fun st =>
    (match g.cur with | some (c, _) => c == st | none => false) || (s.ring st).queue.any fun r => r.engine == e && !r.rep
  let s := s.modEng e fun g => { g with opened := live }
  let s := s.wr (F.LE_n_STATUS.OPEN e) live.length
  let s := match g.cur with | some (c, _) => s.wr (F.LE_n_STATUS.CUR_STREAM e) c | none => s
  s.flag (F.LE_n_STATUS.MOVED_IN e) (!g.moved.isEmpty)

/-! Rings -/

/-- Head of a ring (Table LE-5): that of the records still draining (R65), else its stream's; for a stream that the Last in force lacks, and
before any Last is in force, the head that described the ring (R187). -/
def State.ringHead (s : State) (r : Nat) : Option Nat :=
  match (s.ring r).queue.head? with
  | some q => some q.head
  | none => match s.stream r with | some st => some st.head | none => (s.ring r).owner

/-- RING_WAIT in force. -/
def State.ringWait (s : State) : Nat := max (s.rd F.LE_RING_WAIT.RING_WAIT) 16

/-- SKIPPED message of a ring (Table FC-1a). -/
def State.ringMsg (s : State) (r why : Nat) : State :=
  match s.ringHead r with
  | some h => s.raise (half4 h) (0x052 + 8 * h) 0x0E (unitForm r (s.ring r).skips) why
  | none => s

/-- Skips the first record of a ring: never written, counted, the next one delivered carries GAP (R98, R109). -/
def State.skipFirst (s : State) (r : Nat) : State :=
  match (s.ring r).queue with
  | [] => s
  | q :: t =>
    let s := s.modRing r fun x => { x with queue := t, skips := (x.skips + 1) % 2 ^ 32, gap := true, next := some (q.frame, q.chunk + 1) }
    (s.bump (F.LE_RING_SKIP_n.SKIPS r)).noteEngine q.engine

/-- Skips every queued record of a ring. -/
def State.skipAll (s : State) (r : Nat) : State := (s.ring r).queue.foldl (fun s _ => s.skipFirst r) s

/-- The ring enters the skipping state (R109). -/
def State.enterSkipping (s : State) (r : Nat) : State :=
  if (s.ring r).skipping then s
  else
    let s := (s.modRing r fun x => { x with skipping := true }).ringMsg r 2
    match s.ringHead r with
    | some h => s.msix h 2
    | none => s

/-- Disarms a ring by the device: its chunks are skipped, an ARM that waits is dropped, and the first chunk after a new arming carries GAP (R110,
R183). -/
def State.disarmRing (s : State) (r : Nat) : State :=
  let x := s.ring r
  let s := s.modRing r fun x => { x with wait := none }
  let s := if x.armed then (s.modRing r fun x => { x with armed := false, gap := true, skipping := false }).ringMsg r 1 else s
  let s := s.skipAll r
  match x.owner with
  | some h => if x.armed then s.msix h 2 else s
  | none => s

/-- Ring numbers that belong to a head: rings it delivers or described. -/
def State.ringsOf (s : State) (h : Nat) : List Nat := (s.le.rings.map (·.1)).filter fun r => s.ringHead r == some h || (s.ring r).owner == some h

/-- Disarms every ring of a head, and clears its descriptors when its link went down or it starts anew (R110, R167, R183). -/
def State.disarmHead (s : State) (h : Nat) (clear : Bool) : State :=
  (s.ringsOf h).foldl (fun s r =>
    let s := s.disarmRing r
    if clear then s.modRing r fun x => { x with desc := {}, consumed := 0, tail := 0, wait := none, owner := none } else s) s

/-- A pending ARM or DISARM takes effect at a chunk boundary (R108, R167); an ARM none while Bus Master Enable is clear (R183). -/
def State.applyArm (s : State) (r : Nat) : State :=
  match (s.ring r).wait with
  | none => s
  | some none =>
    let s := (s.modRing r fun x => { x with armed := false, wait := none, gap := true, skipping := false }).ringMsg r 1
    s.skipAll r
  | some (some d) =>
    if (s.ring r).owner.all fun h => (s.head h).bme then
      s.modRing r fun x =>
        { x with armed := true, wait := none, inForce := d, tail := d.start, consumed := d.start, chunks := 0, skips := 0, skipping := false }
    else s.modRing r fun x => { x with wait := none }

/-- Bytes used in a ring: (TAIL − CONSUMED) mod 2^32. -/
def Ring.used (r : Ring) : Nat := (r.tail + 2 ^ 32 - r.consumed) % 2 ^ 32

/-- A record fits (R106). -/
def Ring.fits (r : Ring) (n : Nat) : Bool := n + r.used ≤ 2 ^ r.inForce.log2

/-- Posted writes of n bytes at ring offset `off` (R181): each at most `cap`, none crossing 4 KiB or the ring's end. -/
def posts (fuel h base size off cap : Nat) (bs : List Byte) : List Out :=
  match fuel with
  | 0 => []
  | f + 1 =>
    if bs.isEmpty then []
    else
      let a := base + off
      let n := min (min cap bs.length) (min (4096 - a % 4096) (size - off))
      .post h a (bs.take n) 0 false false false :: posts f h base size ((off + n) % size) cap (bs.drop n)

/-- Writes the first record of an armed ring and announces it (R106, R107, R181). -/
def State.writeRecord (s : State) (r h : Nat) : State :=
  let x := s.ring r
  match x.queue with
  | [] => s
  | q :: t =>
    let bs := if x.gap then withGap q.bytes else q.bytes
    let size := 2 ^ x.inForce.log2
    let out := posts bs.length h x.inForce.base size (x.tail % size) (min 256 (s.head h).mps) bs
    let tail := (x.tail + bs.length) % 2 ^ 32
    let chunks := (x.chunks + 1) % 2 ^ 32
    let rec16 := leBytes 4 tail ++ leBytes 4 chunks ++ leBytes 4 x.skips ++ leBytes 4 q.frame
    let s := out.foldl State.emit s
    let s := s.emit (.post h x.inForce.tail rec16 0 false false false)
    let s := s.modRing r fun y =>
      { y with queue := t, tail := tail, chunks := chunks, skipping := false, gap := false, next := some (q.frame, q.chunk + 1) }
    (if x.gap then s.msix h 2 else s).noteEngine q.engine

/-! Fencing and migration (R115 to R119) -/

/-- Drops an engine's records at a fence: those of earlier ticks are skipped and counted; those of this tick are recomputed, or in the
maintenance window delivered as repeat chunks (R115, R118, R119). -/
def State.dropStaging (s : State) (e frame : Nat) (maint : Bool) : State :=
  (s.le.rings.map (·.1)).foldl (fun s r =>
    let x := s.ring r
    if !(x.queue.any fun q => q.engine == e && !q.rep) then s
    else
      let old := x.queue.filter fun q => q.engine == e && !q.rep && q.frame != frame
      let keep := x.queue.filterMap fun q =>
        if q.engine != e || q.rep then some q
        else if q.frame != frame then none
        else if maint then (s.stream r).map fun st => { q with bytes := repeatRecord st frame q.chunk (s.asSeen (engHalf e)).stamp, rep := true }
        else none
      let s := s.modRing r fun y =>
        { y with queue := keep, skips := (y.skips + old.length) % 2 ^ 32, gap := y.gap || !old.isEmpty
                 next := match old.getLast? with
                   | some q => (match y.next with
                     | some (f, c) => if q.frame < f then some (f, c) else some (q.frame, q.chunk + 1)
                     | none => some (q.frame, q.chunk + 1))
                   | none => y.next }
      let s := s.bump (F.LE_RING_SKIP_n.SKIPS r) old.length
      if maint then s.bump F.FS_EVENT_CNT.REPEAT ((x.queue.filter fun q => q.engine == e && !q.rep && q.frame == frame).length) else s) s

/-- An idle engine that was given streams starts within the wake budget (R104, R117). -/
def State.startMoved (s : State) (e : Nat) : State :=
  let g := s.eng e
  if g.fenced || g.plan.isEmpty || s.rd (F.LE_n_STATUS.STATE e) ≠ 0 then s
  else ((s.wr (F.LE_n_STATUS.STATE e) 4).modEng e fun g => { g with waiting := true }).askWake (.engine e)

/-- Moves the streams of a fenced engine (R117): those with work left in the tick go ahead of the target's streams not yet begun. -/
def State.migrate (s : State) (e : Nat) (sts : List StreamCfg) (frame : Nat) (maint : Bool) : State :=
  let go := sts.foldl (fun (acc : State × Nat) st =>
    let s := acc.1
    match s.migrationTarget e st with
    | none => (s.modLe fun l => { l with orphans := if maint then l.orphans else l.orphans ++ [st.stream] }, acc.2 + 1)
    | some t =>
      let s := s.modLe fun l => { l with away := if t = st.engine then Sparse.del l.away st.stream else Sparse.ins l.away st.stream t }
      let left := !maint && s.startChunk st.stream frame < st.chunks
      (s.modEng t fun g => { g with moved := if t = st.engine then g.moved else g.moved ++ [st.stream],
                                    plan := if left then g.plan ++ [st.stream] else g.plan }, acc.2)) (s, 0)
  let s := go.1
  -- moved streams, in table order, ahead of the target's own streams not yet begun
  let ids := sts.map (·.stream)
  let s := (List.range 16).foldl (fun s t =>
    s.modEng t fun g => { g with plan := (ids.filter g.plan.contains) ++ g.plan.filter (fun x => !ids.contains x) }) s
  let s := (List.range 16).foldl (fun s t => (s.startMoved t).noteEngine t) s
  if go.2 = 0 then s else s.raise (engHalf e) 0x044 0x11 (unitForm e go.2) 0

/-- Fences an engine (R115): cause 1 register, 2 self-check, 3 rail. A fenced engine stays as it is. -/
def State.fenceEngine (s : State) (e cause : Nat) : State :=
  if (s.eng e).fenced then s
  else
    let h := engHalf e
    let c := s.schedOf h
    let sts := s.streamsOf e
    let maint := !c.running || c.prodDone
    let s := s.modEng e fun g => { fenced := true, enable := g.enable, lamps := g.lamps }
    let s := s.modMh h fun m => { m with waiting := m.waiting.filter (· != .engine e) }
    let s := ((((s.wrap (F.LE_n_STATUS.EPOCH e)).wr (F.LE_n_STATUS.CAUSE e) cause).wr (F.LE_n_STATUS.STATE e) 3).wr (F.LE_n_STATUS.PANIC e) 0)
    let s := s.raise h (0x030 + e) 0x11 (unitForm e (s.rd (F.LE_n_STATUS.EPOCH e))) cause
    let s := s.dropStaging e c.frame maint
    s.migrate e sts c.frame maint

end Sys2Proof.Machine
end

