-- ==== Sys2Proof/Machine/DramCtl.lean ====
section
/-! DEFINITION. Shared operations of the DRAM controllers and interfaces: drains and self-refresh, marks, retirement, rebuilds, timing sets,
retraining steps and the display of settings (07 R243 to R257; 08 R261, R272 to R284). -/
namespace Sys2Proof.Machine

/-! Writes reach DRAM -/

/-- Drains the write queue and the retry buffer of a subchannel by visits: all are committed (R176, R237, R255). What waits for a place is no entry. -/
def State.drainSub (s : State) (n : Nat) : State :=
  let s := (s.sub n).writeQ.foldl (fun s e => s.writeVisit n e) s
  s.modWrites n fun u => { u with writeQ := [], retry := [], run := 0, alerting := false, replaying := false, replayNo := 0, replayAt := 0 }

/-- Ranks fitted, as a mask. -/
def State.rankMask (s : State) : BitVec 2 := if s.dm.ranks = 2 then 3 else 1

/-- The subchannel is out of use: retired or remapped. -/
def State.gone (s : State) (n : Nat) : Bool := (s.sub n).retired || s.remapped n

/-- Puts every rank of a subchannel into self-refresh after its drain; in a frequency change the ranks are there already and stay (R248). -/
def State.restSub (s : State) (n : Nat) : State :=
  let s := if (s.sub n).change.isSome then s else s.drainSub n
  let s := s.modSub n fun u => { u with sr := s.rankMask }
  if s.stopping (half16 n) then s.dropWakes n else s.dropExits n

/-- A change of a half that stops ends at its step boundary, with the ranks in self-refresh (R248, R339). Its queued writes were taken and answered, and
are in DRAM first (R257, R428); after PFW_N the subchannel stays as it is (R248). -/
def State.stopChange (s : State) (n : Nat) : State :=
  let s := if s.on F.PS_STATUS.PFW || s.gone n then s else s.drainSub n
  let s := s.modSub n fun u => { u with change := none, want := none }
  if s.gone n then s else s.wr (F.DC_n_STATUS.STATE n) 4

/-- The subchannels of a half. -/
def halfSubs (h : Half) : List Nat := (List.range 8).map (8 * h.idx + ·)

/-- Every subchannel of a half drains and enters self-refresh (R255, R257, Table CK-4); one not yet trained stays there when the device
stops. A change under way ends at its next step boundary, and only then shows STATE 4 (R248, R339). -/
def State.selfRefreshHalf (s : State) (h : Half) : State :=
  (halfSubs h).foldl (fun s n =>
    if s.gone n || (s.rd (F.DC_n_STATUS.STATE n) == 0 && !s.stopping h) then s
    else
      let s := s.restSub n
      if !s.stopping h then s
      else if (s.sub n).change.isSome then s.modSub n fun u => { u with want := none }
      else (s.wr (F.DC_n_STATUS.STATE n) 4).modSub n fun u => { u with want := none }) s

/-- `q_code` of R333. -/
def qCode (mt : Nat) : Nat := (2 * 1258291200 / mt + 1) / 2

/-! The ramp generator and the dither (R334, R337) -/

/-- Steps of 8 ns that a profile takes for a change of `d` Q units. -/
def rampSteps (segs : List (Nat × Nat)) (slew d : Nat) : Nat :=
  (segs.foldl (fun (acc : Nat × Nat) seg =>
    let q := d * seg.1 / 256
    let step := max 1 (min seg.2 slew)
    (acc.1 + (q - acc.2 + step - 1) / step, q)) (0, 0)).1

/-- How far the ramp counter has moved after `k` steps of 8 ns, of a change of `d` Q units. -/
def rampMoved (segs : List (Nat × Nat)) (slew d k : Nat) : Nat :=
  (segs.foldl (fun (acc : Nat × Nat) seg =>
    let q := d * seg.1 / 256
    let step := max 1 (min seg.2 slew)
    let n := (q - acc.1 + step - 1) / step
    if n ≤ acc.2 then (max acc.1 q, acc.2 - n) else (acc.1 + acc.2 * step, 0)) (0, k)).1

/-- The ramp profile of a half (CK_h_RAMP, CK_h_SEG_i). -/
def State.rampSegs (s : State) (h : Half) : List (Nat × Nat) :=
  (List.range (s.rd (F.CK_h_RAMP.N_SEG h.idx))).map fun i => (s.rd (F.CK_h_SEG_i.P h.idx i), s.rd (F.CK_h_SEG_i.S h.idx i))

/-- Q at the end of the ramp of a change. -/
def State.rampTarget (s : State) (n : Nat) (c : Change) : Nat :=
  let m := if c.phase = 0 then c.target else s.rd (F.DC_n_STATUS.TS_ACTIVE n)
  qCode (6400 + 800 * s.rd (F.DC_n_TS_m_A.RATE m n))

/-- Steps of 8 ns of the ramp of a change. -/
def State.rampLength (s : State) (n : Nat) (c : Change) : Nat :=
  let h := subHalf n
  rampSteps (s.rampSegs h) (s.rd (F.CK_h_RAMP.SLEW_MAX h.idx)) ((c.rampQ : Int) - (s.rampTarget n c : Int)).natAbs

/-- Q_n in force: the ramp counter while the channel ramps, a step every 8 ns (R337). -/
def State.channelQ (s : State) (n : Nat) : Nat :=
  match (s.sub n).change with
  | some c =>
    if s.on (F.CK_CH_n.RAMPING n) then
      let h := subHalf n
      let q := s.rampTarget n c
      let d := ((c.rampQ : Int) - (q : Int)).natAbs
      let moved := rampMoved (s.rampSegs h) (s.rd (F.CK_h_RAMP.SLEW_MAX h.idx)) d ((s.now - c.rampAt) * 5 / 48)
      if c.rampQ ≤ q then c.rampQ + moved else c.rampQ - moved
    else s.rd (F.CK_CH_n.Q n)
  | none => s.rd (F.CK_CH_n.Q n)

/-- One step of the 16-bit dither LFSR, x^16 + x^14 + x^13 + x^11 + 1 (R334). -/
def ditherStep (x : BitVec 16) : BitVec 16 :=
  let b := xor (xor (x.getLsbD 0) (x.getLsbD 2)) (xor (x.getLsbD 3) (x.getLsbD 5))
  (x >>> 1) ||| (if b then 0x8000#16 else 0#16)

/-- The dither LFSR at a start: SD_SEED, or 0xACE1 in place of 0 (R334). -/
def ditherSeed (seed : BitVec 16) : BitVec 16 := if seed = 0 then 0xACE1 else seed

/-- The dither LFSR of a half takes steps while SD_DITHER is set. Its clock is not stated: DESIGN CHOICE (log 170), it takes one step with each step
of a ramp counter. -/
def State.shakeDither (s : State) (h : Half) (k : Nat) : State :=
  s.modCk h fun c => if c.cfg.getLsbD 15 then { c with dither := (List.range k).foldl (fun x _ => ditherStep x) c.dither } else c

/-! Settings (R261) -/

/-- The rate code in force on a subchannel (CK_CH_n). -/
def State.rateOf (s : State) (n : Nat) : Nat := s.rd (F.CK_CH_n.RATE n)

/-- The settings of a subchannel at a rate. -/
def State.rateSet (s : State) (n rate : Nat) : RateSet := ((s.sub n).sets.find? (·.rate == rate)).getD { rate := rate }

/-- The settings of a device at a rate. -/
def State.devSet (s : State) (n rate m : Nat) : DevSet := ((s.rateSet n rate).devs[m]?).getD {}

/-- Replaces the settings of a device at a rate. -/
def State.setDev (s : State) (n rate m : Nat) (d : DevSet) : State :=
  let r := s.rateSet n rate
  let r := { r with devs := r.devs.set m d }
  s.modSub n fun u =>
    { u with sets := if u.sets.any (·.rate == rate) then u.sets.map fun p => if p.rate == rate then r else p else u.sets ++ [r] }

/-- Shows the settings of the rate in force in DI_n_DEV_m_A and B. -/
def State.showDev (s : State) (n m : Nat) : State :=
  let d := s.devSet n (s.rateOf n) m
  let s := (((s.wr (F.DI_n_DEV_m_A.EYE_W m n) d.eyeW).wr (F.DI_n_DEV_m_A.WR_DLY m n) d.wr).wr (F.DI_n_DEV_m_A.RD_DLY m n) d.rd).flag
    (F.DI_n_DEV_m_A.FAILED m n) ((s.sub n).marks.contains m)
  (((s.wrS (F.DI_n_DEV_m_B.TRACK_ADJ m n) d.adj).wr (F.DI_n_DEV_m_B.EYE_H m n) d.eyeH).wr (F.DI_n_DEV_m_B.PHY_VREF m n) d.phyVref).wr
    (F.DI_n_DEV_m_B.DRAM_VREF m n) d.dramVref

/-- Shows every setting of a subchannel at the rate in force (R261). -/
def State.showSub (s : State) (n : Nat) : State :=
  let r := s.rateSet n (s.rateOf n)
  let s := ((s.wr (F.DI_n_CA.CA_VREF n) r.caVref).wr (F.DI_n_CA.CS_DLY n) r.csDly).wr (F.DI_n_CA.CA_DLY n) r.caDly
  (List.range (10 * s.dm.ranks)).foldl (fun s m => s.showDev n m) s

/-! Marks and retirement (R276 to R284) -/

/-- Empties the queues of a subchannel: reads are answered with poison, host writes with Cmp (R34, R256). -/
def State.flushReads (s : State) (n : Nat) : State :=
  let u := s.sub n
  let s := (s.modSub n fun u => u.wrWait.foldl Sub.enterWrite { u with wrWait := [] }).answerWrites n
  let s := s.modWrites n fun u =>
    { u with frameQ := [], bulkQ := [], rdWait := [], flight := [], writeQ := [], retry := [], run := 0, alerting := false, replaying := false
             replayNo := 0, replayAt := 0 }
  let go := fun (s : State) (dpa : Option Nat) (rs : List Reader) => rs.foldl (fun s r => s.deliver r (dpaLine dpa) .poison true) s
  let s := (u.frameQ ++ u.bulkQ).foldl (fun s e => e.lines.foldl (fun s l => go s l.dpa l.readers) s) s
  let s := u.rdWait.foldl (fun s w => go s w.dpa [w.reader]) s
  u.flight.foldl (fun s f => go s f.dpa f.readers) s

/-- Stores flash bytes as they are. -/
def State.flashPut (s : State) (a : Nat) (bs : List Byte) : State :=
  { s with flash := ((List.range bs.length).zip bs).foldl (fun f b => Sparse.put (fun _ => 0xFF) f (a + b.1) b.2) s.flash }

/-- What of a range of flash bytes lies outside n bytes from a. -/
def outside (r : Nat × Nat) (a n : Nat) : List (Nat × Nat) :=
  [(r.1, min (r.1 + r.2) a - r.1), (max r.1 (a + n), r.1 + r.2 - max r.1 (a + n))].filter fun x => x.2 != 0

/-- n flash bytes from a hold bytes of an operation that failed or was cut off (R461, R470). -/
def State.tornAt (s : State) (a n : Nat) : Bool := s.mg.torn.any fun r => decide (r.1 < a + n ∧ a < r.1 + r.2)

/-- Erases n flash bytes. -/
def State.flashErase (s : State) (a n : Nat) : State :=
  { s with flash := Sparse.delRange s.flash a n
           mg := { s.mg with torn := (s.mg.torn.map fun r => outside r a n).flatten } }

/-- A cut or failed operation leaves bytes that the spec does not state, and what they hold fails its check (R442, R461, R470). -/
def State.flashCut (s : State) (a n : Nat) : State :=
  { (s.flashPut a ((List.range n).map fun i => Config.cutFlashByte s.free (a + i))) with
    free := s.free + 1, mg := { s.mg with torn := (a, n) :: s.mg.torn } }

/-- The copy of a record of two 4-KiB copies that takes sequence number `seq`: an update writes the other one (R441). -/
def copyAt (base seq : Nat) : Nat := base + 4096 * (seq % 2)

/-- Writes a copy of a record: its sector is erased first. -/
def State.putCopy (s : State) (base seq : Nat) (bs : List Byte) : State := (s.flashErase (copyAt base seq) 4096).flashPut (copyAt base seq) (bs.take 4096)

/-- A change of the device-health record of a subchannel is written to the copy that is not in force; when the write fails, the record in force stays
as it was and source 0x006 is raised, with the copy's address (R278, R441, Table FC-1a). -/
def State.recordHealth (s : State) (n : Nat) (f : HealthRec → HealthRec) : State :=
  let s' := { s with free := s.free + 1 }
  let seq := s.mg.health.nextSeq
  if Config.healthWriteFails s.free then
    ((s'.flashCut (copyAt 0x1002000 seq) 4096).modMg fun m => { m with health := m.health.set seq none }).raiseL 0x006 0x16
      (unitForm 0 (copyAt 0x1002000 seq)) 3
  else
    let subs := (List.range 16).map fun k => if k = n then f (s.health k) else s.health k
    let s' := s'.modMg fun m => { m with health := m.health.put subs, recordAt := some (true, s.now) }
    s'.putCopy 0x1002000 seq (Config.healthCopy seq (subs.map fun h => (h.marks, h.retired, h.hppr)))

/-- A poisoned line that a retired subchannel serves is listed no more (R172). -/
def State.unlistRetired (s : State) (n : Nat) : State :=
  let there := fun (p : Nat × Bool) => match s.locate (subHalf n) (p.1 * 64) with | some (_, _, k, sa) => (s.route k sa).1 == n | none => false
  if s.dm.poison.any there then s.modDm fun d => { d with poison := d.poison.filter fun p => !there p, poisonOver := none } else s

/-- Retires a subchannel (R277): 1 second device, 2 maker, 3 DLL relock, 4 rebuild loss, 5 record at start. A running rebuild of it ends
with loss (R284), for a maker RETIRE too, with cause 4 (DESIGN CHOICE, log 181: Table DI-7 has no row for it). -/
def State.retireSub (s : State) (n cause : Nat) : State :=
  if (s.sub n).retired then s
  else
    let h := subHalf n
    let marked := (s.sub n).marks.length
    let lossy := match (s.mh h).rebuild with | some r => r.sub == n | none => false
    let s := s.modSub n fun u => { u with retired := true, retireDue := false, verify := false, sr := s.rankMask
                                          change := if u.ramping then u.change else none }
    let s := s.recordHealth n fun u => { u with retired := true }
    let s := (s.dropWakes n).modDm fun d => { d with freqPend := d.freqPend.filter (·.sub != n), steps := d.steps.filter (·.sub != n) }
    let s := (((s.wr (F.DC_n_STATUS.STATE n) 5).wr (F.DC_n_STATUS.VERIFY n) 0).wr (F.DC_n_STATUS.TS_PENDING n) 0).wr (F.DI_n_STATUS.STATE n) 4
    let s := s.wr (F.DI_n_STATUS.ERASURE n) 0
    let s := (s.flushReads n).unlistRetired n
    if lossy then
      let s := s.modMh h fun m => { m with rebuild := m.rebuild.map fun r => { r with loss := true } }
      (s.wr (F.DI_n_REBUILD.STATE n) 1).subMsg n 5 7 n marked 4
    else s.subMsg n 5 7 n marked cause

/-- Rank 1 holds storage of Archive regions only, and no reserve that holds remapped data (R249, R279). -/
def State.archiveOnly (s : State) (n : Nat) : Bool :=
  let half := s.fullUnits / 2
  (s.schedOf (subHalf n)).map.regions.all (fun r => r.cls == 2 || !r.onHalf (subHalf n) || r.subBase + r.units ≤ half)
    && !s.on (F.DI_SPARE.IN_USE (subHalf n).idx)

/-- A rank 1 that sleeps and may sleep no longer asks for its wake (R249). -/
def State.endSleep (s : State) (n : Nat) : State :=
  if s.on (F.DC_n_STATUS.RANK1_ASLEEP n) && !(s.archiveOnly n && s.on (F.DC_n_CFG.ARCH_SLEEP_EN n)) then s.askWake (.archive n) else s

/-- Starts a rebuild of a marked subchannel when its half's spare is free (R282); a sleeping rank whose reserve is to hold its data wakes (R279). -/
def State.startRebuild (s : State) (n : Nat) : State :=
  let h := subHalf n
  if s.on (F.DI_SPARE.ACTIVE h.idx) && !s.on (F.DI_SPARE.IN_USE h.idx) && !s.gone n then
    let s := s.modMh h fun m => { m with spare := some n, rebuild := some ⟨n, 0, false, [], false⟩ }
    let s := (s.wr (F.DI_SPARE.IN_USE h.idx) 1).wr (F.DI_SPARE.SUBCH h.idx) n
    let s := (s.wr (F.DI_n_STATUS.REBUILDING n) 1).wr (F.DI_n_REBUILD.STATE n) 1
    ((halfSubs h).filter (· != n)).foldl State.endSleep s
  else s

/-- Marks a device failed (R276): 1 start-up training, 2 retraining, 3 quick tracking, 4 record at start. -/
def State.markOne (s : State) (n m cause : Nat) : State :=
  if (s.sub n).marks.contains m then s
  else
    let s := s.modSub n fun u => { u with marks := u.marks ++ [m], crcOff := u.crcOff ++ [m] }
    let s := if (s.health n).marks.contains m then s else s.recordHealth n fun u => { u with marks := u.marks ++ [m] }
    let s := s.wr (F.DI_n_DEV_m_A.FAILED m n) 1
    let s := if s.on (F.DI_n_STATUS.FAIL_V n) then s else (s.wr (F.DI_n_STATUS.FAIL_V n) 1).wr (F.DI_n_STATUS.FAIL_DEV n) m
    (s.wr (F.DI_n_STATUS.ERASURE n) 1).subMsg n 4 6 m n cause

/-- Marks devices at run time (R276, R277, R282): a second mark retires, a first one starts a rebuild in spare-subchannel mode. Two marked by one step
retire at once and start no rebuild, the spare free or not (DESIGN CHOICE, log 179: Table DI-7 states only the second mark during a rebuild). -/
def State.markDevices (s : State) (n : Nat) (ms : List Nat) (cause : Nat) : State :=
  let ms := ms.filter fun m => !(s.sub n).marks.contains m
  if ms.isEmpty || (s.sub n).retired then s
  else
    let s := ms.foldl (fun s m => s.markOne n m cause) s
    if 2 ≤ (s.sub n).marks.length then s.retireSub n 1 else s.startRebuild n

/-! Timing sets (R243) -/

/-- A request takes its place behind earlier ones; requests of one stitch stand in ascending subchannel number (R23, R273). -/
def placeBy (later : α → Bool) (x : α) (l : List α) : List α := l.filter (fun y => !later y) ++ x :: l.filter later

/-- The stitch of a request of a subchannel; 4,096 while no tick runs, where requests stand in their own order (R23). -/
def State.askStitch (s : State) (n : Nat) : Nat := if (s.schedOf (subHalf n)).running then s.stitchNow (subHalf n) else 4096

/-- Puts a subchannel among those pending for a frequency change; one that is there keeps its place (R23). -/
def State.pendFreq (s : State) (n : Nat) : State :=
  if s.dm.freqPend.any (·.sub == n) then s
  else
    let r : FreqReq := ⟨n, s.frameCount (subHalf n), s.askStitch n⟩
    s.modDm fun d => { d with freqPend := placeBy (fun x => x.frame == r.frame && x.stitch == r.stitch && r.stitch < 4096 && n < x.sub) r d.freqPend }

/-- Requests a timing set for a subchannel (R243); TS_REQ shows the request pending. During a change the request waits for its end
(R409). -/
def State.requestTs (s : State) (n m : Nat) : State :=
  if s.gone n then s
  else if (s.sub n).change.isSome then (s.modSub n fun u => { u with want := some m }).wr (F.DC_n_CFG.TS_REQ n) (m + 1)
  else if s.rd (F.DC_n_STATUS.TS_ACTIVE n) = m then
    let s := s.modDm fun d => { d with freqPend := d.freqPend.filter (·.sub != n) }
    ((s.modSub n fun u => { u with want := none }).wr (F.DC_n_STATUS.TS_PENDING n) 0).wr (F.DC_n_CFG.TS_REQ n) 0
  else
    let s := ((s.modSub n fun u => { u with want := some m }).wr (F.DC_n_STATUS.TS_PENDING n) 1).wr (F.DC_n_CFG.TS_REQ n) (m + 1)
    if s.rd (F.DC_n_TS_m_A.RATE 0 n) = s.rd (F.DC_n_TS_m_A.RATE 1 n) then s else s.pendFreq n

/-- The set in force changes on a subchannel, and FS_STATUS.TS_ACTIVE follows when all run the new one. -/
def State.switchTs (s : State) (n m : Nat) : State :=
  let s := (((s.modSub n fun u => { u with want := none }).wr (F.DC_n_STATUS.TS_ACTIVE n) m).wr (F.DC_n_STATUS.TS_PENDING n) 0).wr (F.DC_n_CFG.TS_REQ n) 0
  let s := s.wr (F.CK_CH_n.RATE n) (s.rd (F.DC_n_TS_m_A.RATE m n))
  s.showSub n

/-- `rdiv` of R268. -/
def rdiv (a : Int) (b : Nat) : Int := (2 * a + b) / (2 * b : Nat)

/-- Drift of a device in fine steps (R268). -/
def driftOf (base n : Nat) : Int :=
  if n = 0 || base = 0 then Config.openDrift base else rdiv (64 * 2048 * ((base : Int) - n)) (n * base)

/-- A write delay after a drift. -/
def movedDelay (wr : Nat) (d : Int) : Nat :=
  let x := (wr : Int) + d
  if 0 ≤ x && x ≤ 2047 then x.toNat else (Config.openDelay x).toNat

/-- Fitted devices of a rank that are not marked failed. -/
def State.rankDevs (s : State) (n rank : Nat) : List Nat :=
  ((List.range 10).map (10 * rank + ·)).filter fun m => !(s.sub n).marks.contains m

/-- Ranks of a subchannel that are awake. -/
def State.awake (s : State) (n : Nat) : List Nat := (List.range s.dm.ranks).filter fun r => !(s.sub n).sr.getLsbD r

/-! Steps in the maintenance window (R272, R273) -/

/-- PENDING of a subchannel's steps. -/
def State.notePending (s : State) (n : Nat) : State :=
  s.wr (F.DI_n_RETRAIN.PENDING n) (min 15 (s.dm.steps.filter (·.sub == n)).length)

/-- A step takes its place in the order of request (R273). -/
def State.putStep (s : State) (kind n rank : Nat) : State :=
  let t : TrainStep := ⟨kind, n, rank, s.frameCount (subHalf n), s.askStitch n⟩
  (s.modDm fun d =>
    { d with steps := placeBy (fun x => x.frame == t.frame && x.stitch == t.stitch && t.stitch < 4096 && n < x.sub) t d.steps }).notePending n

/-- A step of a kind waits for a rank. -/
def State.stepWaits (s : State) (kind n rank : Nat) : Bool := s.dm.steps.any fun t => t.kind == kind && t.sub == n && t.rank == rank

/-- Queues a step unless the same one waits already (R273). -/
def State.askStep (s : State) (kind n rank : Nat) : State := if s.gone n || s.stepWaits kind n rank then s else s.putStep kind n rank

/-- Requests a retraining of a rank: a read step, then a write step (R272). One whose read step still waits stands for the new request too; one whose
read step has run does not. -/
def State.askRetrain (s : State) (n rank : Nat) : State :=
  if s.gone n || s.stepWaits 1 n rank then s else (s.putStep 1 n rank).putStep 2 n rank

/-! Test patterns (R264) -/

/-- State of the LFSR of R92 after k steps. -/
def lfsrAfter : Nat → Nat → Nat
  | 0, x => x
  | k + 1, x => lfsrAfter k (lfsrStep x)

/-- The low bits of the next k states, the first one lowest. -/
def lfsrBits : Nat → Nat → Nat
  | 0, _ => 0
  | k + 1, x => let y := lfsrStep x; y % 2 + 2 * lfsrBits k y

/-- Burst i of the write test of device m: 64 bits of the LFSR of R92 with key 0x5A5A_0000 + m, one bit a step and the bursts one after the other
(DESIGN CHOICE, log 231: R264 gives the key, not how a burst takes its bits). -/
def writePattern (m i : Nat) : BitVec 64 := BitVec.ofNat 64 (lfsrBits 64 (lfsrAfter (64 * i) (0x5A5A0000 + m)))

/-- Bursts of a test of `bursts` that match the expected pattern. -/
def hitsOf (pattern : Nat → BitVec 64) (bursts : Nat) (r : Received) : Nat :=
  ((List.range bursts).filter fun b => r.all fun x => x.1.val != b || x.2 == pattern b).length

/-- The lane of a device fails the 8-burst read test of quick tracking (R271). -/
def quickFails (q : QuickTrack) (m : Nat) : Bool := q.reads.any fun x => x.1.val == m && hitsOf (Config.readPattern m) 8 x.2 < 8

/-! Quick tracking (R271) -/

/-- A device's drift at the settings of a rate is applied unless it exceeds TRACK_JUMP (R268, R269): the state after, whether it was a jump, and whether
the rank needs a retraining. -/
def State.applyDrift (s : State) (n rate m count : Nat) : State × Bool × Bool :=
  let d := s.devSet n rate m
  let drift := driftOf d.base count
  if s.rd (F.DI_n_LIMITS.TRACK_JUMP n) < drift.natAbs then (s.bump (F.DI_n_TRACK.JUMPS n), true, true)
  else
    let adj := d.adj + drift
    (s.setDev n rate m { d with wr := movedDelay d.wr drift, adj := adj }, false, decide (s.rd (F.DI_n_LIMITS.TRACK_LIMIT n) < adj.natAbs))

/-- Tracking asks for a retraining of a rank (R269). -/
def State.trackAsks (s : State) (n rank : Nat) : State := (s.bump (F.DI_n_TRACK.RETRAIN_REQ n)).askRetrain n rank

/-- Quick tracking of a rank at the settings of a rate: the drifts of its devices are applied, and those of a lane that fails the read test or shows a
drift above TRACK_JUMP are named. -/
def State.quickRank (s : State) (n rate rank : Nat) (q : QuickTrack) : State × List Nat :=
  let go := (s.rankDevs n rank).foldl (fun (a : State × List Nat × Bool) m =>
    match q.counts.find? (·.1.val == m) with
    | some c =>
      let r := a.1.applyDrift n rate m c.2
      (r.1, if r.2.1 || quickFails q m then a.2.1 ++ [m] else a.2.1, a.2.2 || r.2.2)
    | none => (a.1, if quickFails q m then a.2.1 ++ [m] else a.2.1, a.2.2)) (s, [], false)
  (if go.2.2 then go.1.trackAsks n rank else go.1, go.2.1)

/-- Quick tracking of ranks at the settings of a rate (R271): the state after, and the devices that fail. -/
def State.quickTrack (s : State) (n rate : Nat) (ranks : List Nat) (q : QuickTrack) : State × List Nat :=
  ranks.foldl (fun a r => let x := a.1.quickRank n rate r q; (x.1, a.2 ++ x.2)) (s.bump (F.DI_n_TRACK.RUNS n) ranks.length, [])

/-- A subchannel runs: neither gone nor initialising nor stopped. -/
def State.runs (s : State) (n : Nat) : Bool := s.rd (F.DC_n_STATUS.STATE n) == 1 && !s.gone n

/-- The halves whose schedule a half runs: both while joined, itself in split mode. -/
def State.halvesOf (s : State) (h : Half) : List Half := if s.split then [h] else [.a, .b]

/-- A change is under way on the subchannels of a half's window. -/
def State.changing (s : State) (h : Half) : Bool :=
  ((List.range 16).filter fun n => (s.halvesOf h).contains (subHalf n)).any fun n => (s.sub n).change.isSome

/-- The heads withhold credits for this window's steps (R245). -/
def State.beginHold (s : State) (h : Half) : State :=
  (List.range 4).foldl State.noteCredits ((s.halvesOf h).foldl (fun s k => s.modMh k fun m => { m with hold := true }) s)

/-- Subchannels taken offline in the window of a half. -/
def State.offlineOf (s : State) (h : Half) : List Nat := ((s.halvesOf h).map fun k => (s.mh k).offline).flatten

/-- A subchannel may be taken offline now: in the maintenance window under the hold, with no other step in this window, at most 4 together
(R22, R245, R273), its reads all served and its visits finished. -/
def State.mayGoOffline (s : State) (n : Nat) : Bool :=
  let u := s.sub n
  let h := subHalf n
  s.maintenance h && s.heldFor h && s.runs n && !s.on (F.CK_h_STATUS.MEM_HOLD h.idx) && !(s.offlineOf h).contains n && (s.offlineOf h).length < 4 &&
    u.frameQ.isEmpty && u.bulkQ.isEmpty && u.rdWait.isEmpty && u.flight.isEmpty && !u.alerting && !u.replaying

/-- Takes a subchannel offline for a step. -/
def State.takeOffline (s : State) (n : Nat) : State := s.modMh (subHalf n) fun m => { m with offline := m.offline ++ [n] }

/-- Work that a window of a half would do: changes, steps. -/
def State.windowWork (s : State) (h : Half) : Bool :=
  s.dm.freqPend.any (fun r => (s.halvesOf h).contains (subHalf r.sub)) || s.dm.steps.any fun t => (s.halvesOf h).contains (subHalf t.sub)

/-- A rebuild of a half stops where it stands (Table DI-7); REBUILDING clears, and DI_n_REBUILD.STATE and IN_USE stay as they are (DESIGN
CHOICE, log 182: the spec says nothing of them). -/
def State.stopRebuild (s : State) (h : Half) : State :=
  match (s.mh h).rebuild with
  | some r => (s.modMh h fun m => { m with rebuild := some { r with stopped := true } }).wr (F.DI_n_STATUS.REBUILDING r.sub) 0
  | none => s

/-- The end of a half's memory services: rebuild, steps and pending changes stop (Table DI-7, R248, R274). -/
def State.stopServices (s : State) (h : Half) : State :=
  (s.stopRebuild h).modDm fun d =>
    { d with freqPend := d.freqPend.filter (fun r => subHalf r.sub != h), steps := d.steps.filter fun t => subHalf t.sub != h }

/-- Ends a running scrub pass with a result (R302). -/
def State.endScrub (s : State) (result : Nat) : State :=
  if s.rd F.MI_SCRUB_STATUS.STATE == 1 then
    ((s.wr F.MI_SCRUB_STATUS.STATE 3).wr F.MI_SCRUB_STATUS.RESULT result).modDm fun d =>
      { d with scrubOut := 0, a := { d.a with scrubLeft := 0 }, b := { d.b with scrubLeft := 0 } }
  else s

end Sys2Proof.Machine
end

