-- ==== Sys2Proof/Machine/StopOps.lean ====
section
/-! DEFINITION. How parts of the device stop and come back: the fatal state (15 R426 to R428), link-down (05 Table HP-11), split mode
(10 R321 to R325), power-limit steps (14 Table TH-3), lost rails (13 Table PS-1) and PFW_N. -/
namespace Sys2Proof.Machine

/-! The frame schedule and the lamp engines stop -/

/-- The frame schedule of a half goes IDLE; the region table stays in force, and TICK_OUT is low (R372). -/
def State.fsIdle (s : State) (h : Half) : State :=
  let s := s.modWl fun w => { w with mending := false }
  let s := if s.split && h != s.leader then s else s.modTb fun t => { t with tickOut := false }
  s.modSched h fun c => { c with running := false, idleWindow := false, cutDone := false, prodDone := false, last := none, cmds := [], armed := none, actAt := none }

/-- Lamp work of a half stops and its undelivered chunks are lost (R426, Table PS-4). -/
def State.stopLamps (s : State) (h : Half) : State :=
  let s := (List.range 8).foldl (fun s i =>
    let e := 8 * h.idx + i
    let s := s.modEng e fun g =>
      { g with plan := [], cur := none, opened := [], lines := [], blocks := [], asked := [], panicAt := none, waiting := false, cold := true }
    let s := (s.wr (F.LE_n_STATUS.PANIC e) 0).wr (F.LE_n_STATUS.OPEN e) 0
    if (s.eng e).fenced then s else s.wr (F.LE_n_STATUS.STATE e) 0) s
  let s := s.modMh h fun m => { m with waiting := m.waiting.filter fun w => w.row != 3 }
  (s.le.rings.map (·.1)).foldl (fun s r => s.modRing r fun x => { x with queue := x.queue.filter fun q => engHalf q.engine != h }) s

/-! Heads -/

/-- Sends the answer of the fatal state to a request that has none yet: poison to a read, Cmp to a write (R428). -/
def State.fatalAnswer (s : State) (h id kind : Nat) : State :=
  if kind = 0 then ({ s with free := s.free + 1 }).sendResp h id (.data (Config.poisonData s.free) true) else s.sendResp h id .cmp

/-- Requests of a head that wait when the fatal state is entered (Table FC-6, step 2). -/
def State.fatalHead (s : State) (h : Nat) : State :=
  let x := s.head h
  if !s.linkUp h then s
  else
    let s := x.flight.foldl (fun s q =>
      (match q.resp with
       | some r => s.sendResp h q.id r
       | none => s.fatalAnswer h q.id q.kind).modHead h fun y => { y with flight := y.flight.filter (·.id != q.id) }) s
    let go := x.held.foldl (fun (a : State × Nat) q => (a.1.fatalAnswer h a.2 q.kind, a.2 + 1)) (s, x.nextId)
    (go.1.modHead h fun y => { y with flight := [], held := [], nextId := go.2 }).noteFlight h

/-- What a head loses when its function is reset (R190). -/
def State.resetHead (s : State) (h : Nat) : State :=
  let s := s.modHead h fun x =>
    { x with hdm := Vector.replicate 4 {}, bme := false, mps := 128, bars := Vector.replicate 3 0, msixOn := false, msixTab := Vector.replicate 4 {}
             mbox := none, tickEn := false, frameHi := 0, flight := [], held := [], tsoff := 0, copyDst := 0, fences := [], io := []
             poisonAt := none, win := none, winAsked := [], winLines := [], winBlocks := [], training := false }
  let s := ((s.wr (F.HP_n_LINK.RATE h) 0).wr (F.HP_n_LINK.WIDTH h) 0).wr (F.HP_n_LINK.FLIT256 h) 0
  ((((s.noteFlight h).wr (F.HP_n_MEDIA.HDM_COMMITTED h) 0).wr (F.HP_n_MW.PAGE h) 0).wr (F.HP_n_LINK.UP h) 0).wr (F.HP_n_LINK.RECOVERY h) 0

/-- Marks a slot incomplete (R56). -/
def SrcRt.markIncomplete (r : SrcRt) (slot : Nat) : SrcRt :=
  if r.incomplete.contains slot then r else { r with incomplete := r.incomplete ++ [slot] }

/-- The open pass of a source is closed and its slot marked incomplete (R56); a block row that was received whole is encoded first (R28). -/
def SrcRt.closePass (r : SrcRt) : SrcRt :=
  let r := match r.wslot with | some w => if r.pass = 1 || r.encoding then r.markIncomplete w else r | none => r
  if r.encoding then { r with closing := true } else if r.pass = 1 then { r with pass := 0, asm := [] } else r

/-- Sources that a head publishes. -/
def State.sourcesOf (s : State) (h : Nat) : List Nat :=
  (List.range 16).filter fun n => match (s.schedOf (half4 h)).src n with | some k => k.head == h | none => false

/-- A MemWrPtl received whole whose old data is still to come (Table HP-11). -/
def HostReq.pending (q : HostReq) : Bool := q.kind == 2 && q.resp.isNone && !q.stale

/-- Work in flight at a head ends (Table HP-11), and its function is reset. -/
def State.dropHead (s : State) (h : Nat) : State :=
  let s := s.modHead h fun x => { x with orphans := x.orphans ++ x.flight.filter HostReq.pending }
  let s := s.disarmHead h true
  let s := (s.sourcesOf h).foldl (fun s n => s.modRt n SrcRt.closePass) s
  let p := Path.head (Fin.ofNat 4 h)
  let s := (s.dropRole p 3).modRole p fun r => { r with chal := none }
  s.resetHead h

/-- A head's link goes down (R159, R190). -/
def State.downHead (s : State) (h partialWrites partialLines : Nat) : State :=
  if s.linkUp h then
    let kept := ((s.head h).flight.filter fun q => q.kind != 0).length
    let s := ((s.wr (F.HP_n_LOSS.MEM_KEPT h) (min kept 1023)).wr (F.HP_n_LOSS.MEM_DROPPED h) (min partialWrites 1023)).wr (F.HP_n_LOSS.IO_DROPPED h)
      (min partialLines 4095)
    ((s.dropHead h).bump (F.HP_n_LINK.DOWN_COUNT h)).raise (half4 h) (0x050 + 8 * h) 0x12 (unitForm h 0) 0
  else s.modHead h fun x => { x with training := false }

/-- Heads of a half. -/
def halfHeads (h : Half) : List Nat := [2 * h.idx, 2 * h.idx + 1]

/-- The heads of a half turn off and hold electrical idle: their links go down (R158, Table PS-4). -/
def State.headsOff (s : State) (h : Half) : State := (halfHeads h).foldl (fun s n => s.downHead n 0 0) s

/-- The heads of a half that has lost its core rail: nothing of the half is left to count or report. -/
def State.headsLost (s : State) (h : Half) : State :=
  (halfHeads h).foldl (fun s n => if s.linkUp n then s.dropHead n else s.modHead n fun x => { x with training := false }) s

/-- Links of a half leave L0 (Table CK-4). -/
def State.recoverHeads (s : State) (h : Half) : State :=
  (halfHeads h).foldl (fun s n => if s.linkUp n then s.wr (F.HP_n_LINK.RECOVERY n) 1 else s) s

/-! The fatal state -/

/-- Answers the reads of a kind that wait at a subchannel with poison; its writes stay, and visits in progress still finish (R257). -/
def State.poisonReads (s : State) (n : Nat) (which : Reader → Bool) : State :=
  let u := s.sub n
  let keepLine := fun (l : RdLine) => { l with readers := l.readers.filter fun r => !which r }
  let keep := fun (q : List RdEntry) =>
    (q.map fun e => { e with lines := (e.lines.map keepLine).filter fun l => !l.readers.isEmpty }).filter fun e => !e.lines.isEmpty
  let s := s.modSub n fun u =>
    { u with frameQ := keep u.frameQ, bulkQ := keep u.bulkQ, rdWait := u.rdWait.filter fun w => !which w.reader
             flight := u.flight.map fun f => { f with readers := f.readers.filter fun r => !which r } }
  let go := fun (s : State) (dpa : Option Nat) (rs : List Reader) =>
    (rs.filter which).foldl (fun s r => s.deliver r (dpaLine dpa) .poison true) s
  let s := (u.frameQ ++ u.bulkQ).foldl (fun s e => e.lines.foldl (fun s l => go s l.dpa l.readers) s) s
  let s := u.rdWait.foldl (fun s w => go s w.dpa [w.reader]) s
  u.flight.foldl (fun s f => go s f.dpa f.readers) s

/-- The slot copies of a half's heads move no further. -/
def State.freezeCopies (s : State) (h : Half) : State :=
  (halfHeads h).foldl (fun s n => s.modHead n fun x => { x with copy := x.copy.map fun c => { c with asked := [] } }) s

/-- A half enters the fatal state (Table FC-6). A write that had no place yet had no Cmp either: the heads answer it, and it is discarded (R428). -/
def State.fatalHalf (s : State) (h : Half) : State :=
  let s := s.modFc h fun f => { f with fatal := true }
  let s := (s.stopLamps h).fsIdle h
  let s := (((halfHeads h).foldl State.fatalHead s).freezeCopies h).endScrub 4
  let s := (halfSubs h).foldl (fun s n => (s.poisonReads n fun _ => true).modSub n fun u => { u with wrWait := [] }) s
  let s := (s.stopServices h).modMh h fun m => { m with hold := false }
  (((halfHeads h).foldl State.noteCredits s).selfRefreshHalf h).mediaError h

/-! Eyelets that cannot complete (R386) -/

/-- The rails that an eyelet enables, or in E0 waits for. -/
def eyeletRails (e : Nat) : List Nat := [[0, 1, 2], [5], [3, 4], [6], [7], [11], [10], [8, 9]].getD e []

/-- Every rail that a rail depends on is good; VSD needs one of its two (Table PS-1). -/
def State.depsGood (s : State) (r : Nat) : Bool :=
  match r with
  | 5 => s.railGood 2
  | 3 => s.railGood 5
  | 4 => s.railGood 5
  | 6 => s.railGood 3 || s.railGood 4
  | 7 => s.railGood 6
  | 11 => s.railGood 2
  | 10 => s.railGood 11
  | 8 => s.railGood 3 && s.railGood 10
  | 9 => s.railGood 4 && s.railGood 10
  | _ => true

/-- The present eyelet cannot complete: a fatal condition, which stops a start that it was kept into at E9 (R429), or each rail it enables is latched or
cannot be enabled (R386). -/
def State.eyeletLost (s : State) : Bool :=
  let e := s.rd F.PS_STATUS.EYELET
  ((s.fc s.leader).fatal && (!s.pwr.fatalKept || 9 ≤ e)) ||
    (1 ≤ e && !(eyeletRails e).isEmpty && (eyeletRails e).all fun r => !s.railGood r && (s.rd (F.PS_RAIL_n_STATUS.STATE r) == 4 || !s.depsGood r))

/-- EYELET_FAIL (R386): the module releases LACE, stops with its rails as they stand and ignores LACE until its next start. -/
def State.eyeletFail (s : State) : State :=
  ((s.wr F.PS_STATUS.HOLDING 0).wr F.PS_STATUS.STATE 3).modPwr fun p =>
    { p with acting := false, entryDue := false, ignoreLace := true }

/-- The sequence stops when its eyelet cannot complete. -/
def State.checkEyelet (s : State) : State :=
  if s.rd F.PS_STATUS.STATE < 2 && s.pwr.acting && s.eyeletLost then s.eyeletFail else s

/-- The fatal state is entered on a half; an eyelet under way stays incomplete (R386). The other half follows over the Welt and logs source 0x13A (R313, R426). -/
def State.enterFatal (s : State) (h : Half) : State :=
  if (s.fc h).fatal then s
  else
    let s := s.fatalHalf h
    (if s.joined && !(s.fc h.other).fatal then (s.fatalHalf h.other).raise h.other 0x13A 0x1C (unitForm h.idx 0) 0 else s).checkEyelet

/-! Clock holds end -/

/-- A half's memory PLL is locked again (Table CK-4): every rank asks to leave self-refresh in row 5 of Table DC-5; a subchannel whose
quick tracking fails is retrained. -/
def State.resumeHalf (s : State) (h : Half) (quick : List (Fin 16 × QuickTrack)) : State :=
  (halfSubs h).foldl (fun s n =>
    if s.gone n || s.rd (F.DC_n_STATUS.STATE n) != 1 then s
    else
      let ranks := (List.range s.dm.ranks).filter fun r => !(r == 1 && s.on (F.DC_n_STATUS.RANK1_ASLEEP n))
      let s := ranks.foldl (fun s r => s.askWake (.exit n r)) s
      let q := ((quick.find? (·.1.val == n)).map (·.2)).getD ⟨[], []⟩
      let r := s.quickTrack n (s.rateOf n) ranks q
      let s := r.1.showSub n
      if r.2.isEmpty then s else ranks.foldl (fun s r => s.askRetrain n r) s) s

/-! Lasts in the image flash (R489) -/

/-- Last n is active on a schedule. -/
def State.lastActive (s : State) (n : Nat) : Bool :=
  (s.sched.last.map (·.1)) == some n || (s.split && ((s.sched2.bind (·.last)).map (·.1)) == some n)

/-- Last n is active or armed on a schedule. -/
def Sched.holds (c : Sched) (n : Nat) : Bool := (c.last.map (·.1)) == some n || c.armed == some n

/-- Last n is active or armed: its areas in the flash are held (Table MG-5). -/
def State.lastHeld (s : State) (n : Nat) : Bool :=
  s.sched.holds n || (s.split && (match s.sched2 with | some c => c.holds n | none => false))

/-- A program or erase touches Last n: it becomes unavailable, and is dropped when armed. -/
def State.lastTouched (s : State) (n : Nat) : State :=
  let s := { s with lasts := s.lasts.setIfInBounds n none, admTouched := s.admTouched || s.admitting == some n }
  s.modScheds fun c => if c.armed == some n then { c with armed := none, actAt := none } else c

/-! Split mode (R321 to R325) -/

/-- Half of the reader of a line. -/
def Reader.half : Reader → Half
  | .host h _ => half4 h
  | .engine e _ => engHalf e
  | .window h => half4 h
  | .copy h _ => half4 h
  | .scrub _ n _ _ _ => subHalf n

/-- Half at which a write began: a host write carries 101 + its head, a slot copy's 201 + its head, an encoder write 1 + its source. -/
def State.writeOrigin (s : State) (n tag : Nat) : Half :=
  if 201 ≤ tag then half4 (tag - 201)
  else if 101 ≤ tag then half4 (tag - 101)
  else if 1 ≤ tag then match s.sched.src (tag - 1) with | some k => half4 k.head | none => subHalf n
  else subHalf n

/-- Writes that wait on the near half for a place at the far half are committed; they go to the near half's hold buffer (R322, Table WL-3). -/
def State.holdWrites (s : State) (n : Nat) : State :=
  let far := fun (w : WrWait) => s.writeOrigin n w.line.tag != subHalf n
  let moved := (s.sub n).wrWait.filter far
  let s := s.modSub n fun u => { u with wrWait := u.wrWait.filter fun w => !far w }
  let s := s.modWh (subHalf n).other fun w =>
    { w with hold := (w.hold ++ moved.map fun (m : WrWait) => (n * 2 ^ 32 + m.g * 4 + m.line.idx, m.line.data, m.line.poison)).take 2048 }
  moved.foldl (fun s m => m.line.reqs.foldl (fun s r => s.answer r.1 r.2 .cmp) s) s

/-- The first records of a ring that must cross to the far half are skipped (Table WL-3). -/
def State.skipCrossing (s : State) (r : Nat) : State :=
  (s.ring r).queue.foldl (fun s _ =>
    match (s.ring r).queue.head?, s.ringHead r with
    | some q, some h => if engHalf q.engine != half4 h then s.skipFirst r else s
    | _, _ => s) s

/-- Both halves enter split mode (R311, R322, R323). -/
def State.enterSplit (s : State) : State :=
  if s.split then s
  else
    let s := (List.range 16).foldl (fun s n => s.poisonReads n fun r => r.half != subHalf n) s
    let s := (List.range 16).foldl State.holdWrites s
    let s := (s.le.rings.map (·.1)).foldl State.skipCrossing s
    let s := s.wr F.WL_SPLIT.HOLD (s.wl.a.hold.length + s.wl.b.hold.length)
    ({ s with sched2 := some s.sched, tb2 := some (s.tb, s.baseValues) }).wr F.WL_STATUS.STATE 2

/-- The Welt is lost (R311): counted, and reported by the halves named. -/
def State.weltDown (s : State) (cause : Nat) (by' : List Half) : State :=
  if s.wl.up then
    let s := (s.modWl fun w => { w with up := false, rejoinWanted := false }).bump F.WL_LINK_CNT.LOSSES
    (by'.foldl (fun s h => s.raise h 0x100 0x12 (unitForm 0x3FF 0) cause) s).enterSplit
  else s.enterSplit

/-! Power-limit steps (Table TH-3, R409) -/

/-- The step of a half, or of both while joined, goes from old to new. -/
def State.stepChanged (s : State) (h : Half) (old new : Nat) : State :=
  if old = new then s
  else
    let subs := if s.split then halfSubs h else List.range 16
    let s := subs.foldl (fun s n => s.flag (F.DC_n_STATUS.BULK_CAPPED n) (1 ≤ new)) s
    if old < 3 && 3 ≤ new then subs.foldl (fun s n => s.requestTs n 1) s
    else if 3 ≤ old && new < 3 then subs.foldl (fun s n => s.requestTs n 0) s
    else s

/-! Lost rails (Table PS-1) -/

/-- A half loses its core rail: it is off, the Welt is lost, and the other half runs in split mode. -/
def State.halfLost (s : State) (h : Half) : State :=
  let s := s.modWh h fun w => { w with coreGood := false }
  let s := s.weltDown 1 [h.other]
  let s := (s.headsLost h).freezeCopies h
  let s := (List.range 8).foldl (fun s i => s.fenceEngine (8 * h.idx + i) 3) s
  let s := (halfSubs h).foldl (fun s n => s.poisonReads n fun _ => true) s
  ((s.stopServices h).stopLamps h).fsIdle h

/-- A subchannel loses VDDQ: it is retired for the run and reported. Table FC-5 has no cause for a lost rail: DESIGN CHOICE (log 232), cause 0, and 5 where the
record retires it. The health record keeps no trace. -/
def State.vddqGone (s : State) (n : Nat) : State :=
  let was := (s.sub n).retired
  let s := s.modSub n fun u => { u with retired := true, retireDue := false, verify := false, want := none
                                        change := if u.ramping then u.change else none }
  let s := ((s.wr (F.DC_n_STATUS.STATE n) 5).wr (F.DC_n_STATUS.VERIFY n) 0).wr (F.DC_n_STATUS.TS_PENDING n) 0
  let s := (((s.wr (F.DI_n_STATUS.STATE n) 4).wr (F.DI_n_STATUS.ERASURE n) 0).flushReads n).unlistRetired n
  if was then s else s.subMsg n 5 7 n (s.sub n).marks.length (if (s.health n).retired then 5 else 0)

/-- VDDQ of a half is lost: its subchannels are retired for the run and their contents lost. -/
def State.vddqLost (s : State) (h : Half) : State := (halfSubs h).foldl State.vddqGone (s.stopServices h)

/-! PFW_N -/

/-- What PFW_N stops at its assertion: rebuilds and the scrub pass (Table DI-7, R302). -/
def State.pfwStops (s : State) : State := ((s.stopRebuild .a).stopRebuild .b).endScrub 4

end Sys2Proof.Machine
end

