-- ==== Sys2Proof/Machine/MemOps.lean ====
section
/-! DEFINITION. How a head serves a CXL.mem request (05 R173 to R178; 06 R202 to R207, R486): HDM decode, refusals in their order, reads,
writes and credits. -/
namespace Sys2Proof.Machine

/-- DPA of a host address through one committed decoder (CXL 3.1 interleave arithmetic; R155). -/
def Hdm.dpa (d : Hdm) (hpa : Nat) : Option Nat :=
  let p := d.prog
  let off := hpa - p.base
  let g := max 1 p.granularity
  let w := max 1 p.ways
  if d.committed && p.base ≤ hpa && off < p.size && off / g % w == p.position then some (d.dpaBase + off / (g * w) * g + off % g) else none

/-- DPA of a host address on a head, of its 64-byte line (R173). -/
def State.hdmDecode (s : State) (h hpa : Nat) : Option Nat :=
  ((s.head h).hdm.toList.findSome? fun d => d.dpa hpa).map fun a => a / 64 * 64

/-- Media is ready on a head (Table HP-10). -/
def State.mediaReady (s : State) (h : Nat) : Bool := s.rd (F.HP_n_MEDIA.MEDIA_STATUS h) == 1

/-- The schedule is ACTIVE and the stitch lies in the production window (R202). -/
def State.inProduction (s : State) (h : Half) : Bool :=
  let c := s.schedOf h
  c.active && !c.prodDone

/-- The production window for tracking is open: that of a tick, or the part of an idle cycle before its maintenance window (R45, R268). -/
def State.tracks (s : State) (h : Half) : Bool :=
  let c := s.schedOf h
  s.inProduction h || (!c.running && !c.idleWindow && 12 ≤ s.rd F.PS_STATUS.EYELET && s.rd F.PS_STATUS.STATE ≤ 2)

/-- Takes a request in flight: kind 0 read, 1 write, 2 MemWrPtl, 3 MemInv. -/
def State.takeRequest (s : State) (h kind dpa : Nat) (strict : Option Nat) (data : LineData) (mask : BitVec 64) (poison : Bool := false) :
    Nat × State :=
  let id := (s.head h).nextId
  let q : HostReq := { id := id, kind := kind, dpa := dpa, strict := strict, data := data, mask := mask, resp := none, poison := poison }
  (id, (s.modHead h fun x => { x with nextId := id + 1, flight := x.flight ++ [q] }).noteFlight h)

/-- The answer of a refused request: poison to a read, Cmp to a write (R174, R204, R486). -/
def State.refusedAnswer (s : State) (h kind : Nat) (strict : Option Nat) : State :=
  let (id, s) := s.takeRequest h kind 0 strict 0 0
  if kind = 0 then s.poisonResp h id else s.answer h id .cmp

/-- A write of a whole line supersedes the MemWrPtl of every head that still wait for that line's old data (R206). -/
def State.stalePtl (s : State) (dpa : Nat) : State :=
  (List.range 4).foldl (fun s h => s.modHead h fun x =>
    { x with flight := x.flight.map fun q => if q.kind == 2 && q.dpa == dpa && q.resp.isNone then { q with stale := true } else q }) s

/-- A request that reaches its line: a queue place for a read or a MemWrPtl, the write queue for a write (R175, R176, R200). -/
def State.serveLine (s : State) (h kind dpa i : Nat) (r : Region) (n sa : Nat) (data : LineData) (poison : Bool) (mask : BitVec 64) : State :=
  let strict := if r.strict then some i else none
  if kind = 1 then
    let (id, s) := (s.stalePtl dpa).takeRequest h 1 dpa strict data mask
    s.hostWrite h id dpa r n sa data poison
  else
    let (id, s) := s.takeRequest h kind dpa strict data mask poison
    s.readAt n sa dpa r.frameRead (.host h id)

/-- Serves a request by the order of R486. -/
def State.serve (s : State) (h kind hpa : Nat) (data : LineData) (poison : Bool) (mask : BitVec 64) : State :=
  let half := half4 h
  let w := kind != 0
  let head := 0x051 + 8 * h
  if (s.fc half).fatal then (s.refusedMsg h head 9 w ((s.hdmDecode h hpa).getD 0) h).refusedAnswer h kind none
  else if !s.mediaReady h then
    let s := if w then s.bump (F.HP_n_REQ_ERR.NOT_READY h) else s
    let s := if (s.head h).notReady then s
      else (s.refusedMsg h head 8 w ((s.hdmDecode h hpa).getD 0) h).modHead h fun x => { x with notReady := true }
    s.refusedAnswer h kind none
  else
    match s.hdmDecode h hpa with
    | none => ((s.bump (F.HP_n_REQ_ERR.UNMAPPED h)).refusedMsg h head 1 w 0 h).refusedAnswer h kind none
    | some dpa =>
      match s.locate half dpa with
      | none => ((s.bump (F.HP_n_REQ_ERR.UNMAPPED h)).refusedMsg h head 1 w dpa h).refusedAnswer h kind none
      | some (i, r, n, sa) =>
        let strict := if r.strict then some i else none
        let t := s.route n sa
        if !w && !r.rdHeads.testBit h then
          ((s.bump (F.AM_HEAD_n_ERR.RD_DENIED h)).refusedMsg h (0x070 + h) 2 w dpa h).refusedAnswer h kind strict
        else if w && !r.wrHeads.testBit h then
          ((s.bump (F.AM_HEAD_n_ERR.WR_DENIED h)).refusedMsg h (0x070 + h) 2 w dpa h).refusedAnswer h kind strict
        else if w && r.guard && s.inProduction half then
          let s := s.bump (F.AM_HEAD_n_ERR.GUARD_DROP h)
          let s := if (s.head h).guarded then s else (s.refusedMsg h (0x074 + h) 3 w dpa h).modHead h fun x => { x with guarded := true }
          s.refusedAnswer h kind strict
        else if w && r.twill ≠ 0 then (s.refusedMsg h head 4 w dpa h).refusedAnswer h kind strict
        else if ((s.schedOf half).fillingOf i).isSome then
          ((s.bump (F.HP_n_REQ_ERR.NOT_READY h)).fillingNoted half i 5 w dpa h).refusedAnswer h kind strict
        else if !s.reaches half r || s.heldAt n sa then
          ((s.bump (F.AM_HEAD_n_ERR.UNREACH h)).refusedMsg h 0x078 6 w dpa h).refusedAnswer h kind strict
        else if (if w then s.writeLost n sa else (s.sub t.1).retired) then
          (s.retiredMsg t.1 t.2.1 dpa t.2.2).refusedAnswer h kind strict
        else s.serveLine h kind dpa i r n sa data poison mask

/-- A request of kind 3 (MemInv) answers Cmp and accesses no memory (R175). -/
def State.serveAny (s : State) (h : Nat) (q : HeldReq) : State :=
  if q.kind = 3 then
    let (id, s) := s.takeRequest h 3 0 none 0 0
    s.answer h id .cmp
  else s.serve h q.kind q.hpa q.data q.poison q.mask

/-- A request reaches a head, or waits at the host for a credit (R31, R34). -/
def State.receive (s : State) (h : Nat) (q : HeldReq) : State :=
  if !s.inL0 h then s
  else if s.noCredit h || !(s.head h).held.isEmpty then s.modHead h fun x => { x with held := x.held ++ [q] }
  else s.serveAny h q

/-- Requests that waited are served in order while credits last. -/
def State.serveHeld (s : State) (h : Nat) : State :=
  (s.head h).held.foldl (fun s q =>
    if s.noCredit h || !s.inL0 h || (s.head h).held.head? != some q then s
    else (s.modHead h fun x => { x with held := x.held.drop 1 }).serveAny h q) s

/-- Every head serves what waited. -/
def State.serveAllHeld (s : State) : State := (List.range 4).foldl State.serveHeld s

/-- What a fence read waits for when its head receives it: the requests and the posted writes received before it (R208). -/
def State.fenceMark (s : State) (h : Nat) : Nat × List (Nat × Nat) :=
  ((s.head h).nextId, (s.sourcesOf h).map fun n => (n, (s.rt n).taken + (s.rt n).wait.length))

/-- Fence reads that waited for credits are received (R245). -/
def State.takeFences (s : State) (h : Nat) : State :=
  if s.heldFor (half4 h) then s
  else s.modHead h fun x => { x with fences := x.fences.map fun f => if f.before.isNone then ⟨some (s.fenceMark h)⟩ else f }

/-- The heads of a half's window return credits (R245): what waited is served, and slot copies go on. -/
def State.returnCredits (s : State) (h : Half) : State :=
  let s := (s.halvesOf h).foldl (fun s k => s.modMh k fun m => { m with hold := false }) s
  (((List.range 4).foldl State.noteCredits s).serveAllHeld |> (List.range 4).foldl State.takeFences).copiesOn

end Sys2Proof.Machine
end

