-- ==== Sys2Proof/Machine/Dram.lean ====
section
/-! DEFINITION. The commands of the DRAM controllers: visits, refresh, write CRC, timing sets, Archive ranks and wake events
(07_dram_controller.md). -/
namespace Sys2Proof.Machine

/-! Visits (R217 to R227) -/

/-- The controller of a subchannel may issue commands: it runs, its clock is not held, no alert stops it. -/
def State.issues (s : State) (n : Nat) : Bool :=
  s.runs n && !s.on (F.CK_h_STATUS.MEM_HOLD (subHalf n).idx) && !(s.sub n).alerting && !s.stopping (subHalf n)

/-- The rank of a granule is awake. -/
def State.granuleAwake (s : State) (n g : Nat) : Bool := !(s.sub n).sr.getLsbD (s.rankOf (g * 256))

/-- A read entry waits for an engine in panic. -/
def State.panicEntry (s : State) (e : RdEntry) : Bool :=
  e.lines.any fun l => l.readers.any fun r => match r with | .engine k _ => (s.eng k).panicAt.isSome | _ => false

/-- An issued visit: a read of a queue or a write. -/
inductive VisitPick where
  | frame (i : Nat)
  | bulk (i : Nat)
  | write (i : Nat)
  deriving DecidableEq, Repr

/-- Bank of a granule: rank, bank group, bank. -/
def State.bankOfGranule (s : State) (g : Nat) : Nat × Nat × Nat := (s.rankOf (g * 256), (s.bankOf (g * 256)).2)

/-- The oldest write whose rank is awake and for which the retry buffer has room (R238); none passes an older one of its bank (R219). -/
def State.writeIndex (s : State) (n : Nat) : Option Nat :=
  let u := s.sub n
  let ok := fun (e : WrEntry) => s.granuleAwake n e.g && u.retry.length + e.lines.length ≤ 32
  u.writeQ.findIdx? fun e => ok e && !u.writeQ.any fun o => o.seq < e.seq && s.bankOfGranule o.g == s.bankOfGranule e.g && !ok o

/-- The oldest read for an engine in panic, in either queue (Table DC-2, rank 3). -/
def State.panicIndex (s : State) (n : Nat) : Option VisitPick :=
  let u := s.sub n
  let ok := fun (e : RdEntry) => s.granuleAwake n e.g && s.panicEntry e
  match u.frameQ.findIdx? ok, u.bulkQ.findIdx? ok with
  | some i, some j =>
    if ((u.frameQ[i]?.map (·.seq)).getD 0) ≤ ((u.bulkQ[j]?.map (·.seq)).getD 0) then some (.frame i) else some (.bulk j)
  | some i, none => some (.frame i)
  | none, some j => some (.bulk j)
  | none, none => none

/-- The visit of highest rank (Table DC-2, ranks 3 to 7); within a rank the oldest eligible entry (R222). In a run of rank-7 writes the read
queues are not looked at (R227). -/
def State.pickVisit (s : State) (n : Nat) : Option VisitPick :=
  let u := s.sub n
  let ok := fun (e : RdEntry) => s.granuleAwake n e.g
  let w := (s.writeIndex n).map VisitPick.write
  let frame := (u.frameQ.findIdx? ok).map VisitPick.frame
  let bulk := (u.bulkQ.findIdx? ok).map VisitPick.bulk
  if s.on (F.DC_n_STATUS.DRAIN n) then [s.panicIndex n, w, frame, bulk].findSome? id
  else if 0 < u.run && w.isSome then w
  else [s.panicIndex n, frame, bulk, if u.frameQ.isEmpty && u.bulkQ.isEmpty then w else none].findSome? id

/-- A read of Bulk priority outside the queues may issue in a granule now (R217, R222, R226): no replay, no read for an engine in panic, no draining
write, no Frame read and no run of writes comes before it, its rank is awake and the Bulk cap leaves room. -/
def State.bulkTurn (s : State) (n g : Nat) : Bool :=
  let u := s.sub n
  s.issues n && !u.replaying && s.granuleAwake n g && u.bulkRoom s.now (bulkCap (s.stepFor (subHalf n))) && (s.panicIndex n).isNone &&
    (match s.pickVisit n with
     | none => true
     | some (.bulk _) => true
     | some (.frame _) => false
     | some (.write _) => !s.on (F.DC_n_STATUS.DRAIN n) && u.run = 0)

/-- A visit of Bulk priority outside the queues: its ACTIVATE, and its share of the Bulk cap. -/
def State.bulkVisit (s : State) (n g : Nat) : State :=
  (s.activate n g).modSub n fun u => u.bookBulk s.now (bulkCap (s.stepFor (subHalf n))) true

/-- Insertion of a line in ascending column order (R218). -/
def insertLine (l : RdLine) : List RdLine → List RdLine
  | [] => [l]
  | x :: t => if l.idx ≤ x.idx then l :: x :: t else x :: insertLine l t

/-- A read visit: its bursts are on their way in ascending column order, and its wait shows in DC_n_AGE. -/
def State.readVisit (s : State) (n : Nat) (e : RdEntry) (bulk : Bool) : State :=
  let s := s.activate n e.g
  let w := s.now - e.born
  let s := if bulk || e.aged then s.peak (F.DC_n_AGE.BULK_MAX n) (w / 60) else s.peak (F.DC_n_AGE.FRAME_MAX n) (w / 12)
  let ls := e.lines.foldr insertLine []
  s.modSub n fun u => { u with run := 0, flight := u.flight ++ ls.map fun l => ⟨e.g * 4 + l.idx, l.dpa, l.readers⟩ }

/-- A visit of a replay: the next burst of the retry buffer, in the original order; the last one ends it (R239). -/
def State.replayVisit (s : State) (n : Nat) : State :=
  let u := s.sub n
  match u.retry[u.replayAt]? with
  | some b =>
    let s := (s.activate n (b.line / 4)).storeLine n b.line b.data b.poison
    if u.replayAt + 1 < u.retry.length then s.modSub n fun u => { u with replayAt := u.replayAt + 1 }
    else s.modSub n fun u => { u with replaying := false, replayNo := 0, replayAt := 0 }
  | none => s.modSub n fun u => { u with replaying := false, replayNo := 0, replayAt := 0 }

/-- The visit picked takes its entry from its queue. -/
def State.issueVisit (s : State) (n : Nat) : VisitPick → State
  | .frame i =>
    match (s.sub n).frameQ[i]? with
    | some e => (s.modSub n fun u => { u with frameQ := u.frameQ.eraseIdx i }).readVisit n e false
    | none => s
  | .bulk i =>
    match (s.sub n).bulkQ[i]? with
    | some e => (s.modSub n fun u => { u with bulkQ := u.bulkQ.eraseIdx i }).readVisit n e true
    | none => s
  | .write i =>
    match (s.sub n).writeQ[i]? with
    | some e =>
      let drain := s.on (F.DC_n_STATUS.DRAIN n)
      (s.modWrites n fun u =>
        { u with writeQ := u.writeQ.eraseIdx i, run := if drain then 0 else if u.run = 0 then 7 else u.run - 1 }).writeVisit n e
    | none => s

/-- VISIT (R217, R222): a replay in progress comes first, one burst a visit; then the ranks of Table DC-2. What waits takes the places that are
free. -/
def visit (n : Fin 16) (s : State) : State :=
  let s := s.settle n.val
  let s := if !s.issues n.val then s
    else if (s.sub n.val).replaying then s.replayVisit n.val
    else
      match s.pickVisit n.val with
      | none => s.modSub n.val fun u => { u with run := 0 }
      | some v => (s.issueVisit n.val v).settle n.val
  s.serveAllHeld.copiesOn

/-- The read gate of a lane follows its strobe by at most one fine step per microsecond, later or earlier (R270). -/
def DevSet.moveGate (d : DevSet) (now : Nat) (later : Bool) : DevSet :=
  if d.gateAt.all fun t => t + 1200 ≤ now then { d with gate := if later then d.gate + 1 else d.gate - 1, gateAt := some now } else d

/-- A reader is a scrub pass: what its reads find is counted by the pass (R300). -/
def Reader.isScrub : Reader → Bool
  | .scrub _ _ _ _ _ => true
  | _ => false

/-- DRAM_READ_RETURN (R290, Table MI-2): the oldest burst comes back with the errors given, and every reader takes its outcome, or the newest data
queued for the line meanwhile (R206, R220). The gates of the lanes named move (R270). -/
def dramReadReturn (n : Fin 16) (err : SymErr) (gates : List (Fin 10 × Bool)) (s : State) : State :=
  match (s.sub n.val).flight with
  | [] => s
  | f :: t =>
    let s := (s.modSub n.val fun u => { u with flight := t }).disturb n.val f.line err
    let rate := s.rateOf n.val
    let s := gates.foldl (fun s g =>
      let m := 10 * s.rankOf (f.line * 64) + g.1.val
      s.setDev n.val rate m ((s.devSet n.val rate m).moveGate s.now g.2)) s
    let inReserve := s.units (subHalf n.val) * 2 ^ 24 ≤ f.line * 64
    let s := if f.readers.all (·.isScrub) then s
      else s.demandOutcome n.val f.line (if inReserve then none else f.dpa) (s.decodeLine n.val f.line)
    let deg := s.degradedSub n.val
    (f.readers.foldl (fun s r => s.deliver r (dpaLine f.dpa) (s.newest n.val f.line) deg) s).serveAllHeld.copiesOn

/-- BULK_AGE_PROMOTION (R223): the oldest Bulk read has waited BULK_AGE; it takes its place by age in the Frame queue. -/
def bulkAgePromotion (n : Fin 16) (s : State) : State :=
  match (s.sub n.val).bulkQ with
  | [] => s
  | e :: t =>
    if s.runs n.val && (s.sub n.val).frameQ.length < 64 then
      (s.modSub n.val fun u => { u with bulkQ := t, frameQ := placeBy (fun x => e.seq < x.seq) { e with aged := true } u.frameQ }).bump
        (F.DC_n_AGE.PROMOTED n.val)
    else s

/-! Refresh (R228 to R233) -/

/-- A refresh of a rank: one bank address in same-bank mode, all in all-bank mode; the interval ends with the last of them, and the hot
state takes effect there (R229, R230). -/
def State.refreshRank (s : State) (n r : Nat) : State :=
  let u := s.sub n
  let pos := u.refPos.toList.getD r 0
  let less := (Config.refreshManagement n r).byRef
  let banks := if u.refAb then [0, 1, 2, 3] else [pos]
  let next := if u.refAb then 0 else (pos + 1) % 4
  let s := s.modSub n fun u => banks.foldl (fun u b => u.raaLess r b less) { u with refPos := u.refPos.setIfInBounds r next }
  if next = 0 then
    let s := if u.hotWant && !s.on (F.DC_n_STATUS.HOT n) then s.bump (F.DC_n_REF.HOT_ENTRIES n) else s
    s.flag (F.DC_n_STATUS.HOT n) u.hotWant
  else s

/-- A rank is fitted, initialised and awake, so it needs refresh (R231, R256). -/
def State.refreshes (s : State) (n r : Nat) : Bool :=
  r < s.dm.ranks && !(s.sub n).sr.getLsbD r && !(s.sub n).retired && s.rd (F.DC_n_STATUS.STATE n) != 0

/-- REFRESH (R229): issued by the scheduler at rank 2 of Table DC-2. -/
def refresh (n : Fin 16) (rank : Fin 2) (s : State) : State :=
  if s.refreshes n.val rank.val && !(s.sub n.val).alerting && !(s.sub n.val).replaying then s.refreshRank n.val rank.val else s

/-- REFRESH_KEEPER (R232): the keeper issues what the scheduler has not. In the fatal state it goes on for a rank whose command path has failed,
which could then not be put into self-refresh (R257). -/
def refreshKeeper (n : Fin 16) (rank : Fin 2) (pathFailed : Bool) (s : State) : State :=
  let s := if pathFailed && (s.fc (subHalf n.val)).fatal then
      s.modSub n.val fun u => { u with sr := u.sr &&& ~~~(1#2 <<< rank.val) } else s
  if s.refreshes n.val rank.val then (s.refreshRank n.val rank.val).bump (F.DC_n_REF.KEEPER n.val) else s

/-- MR4_POLL (R230): refresh-rate codes of the devices of the awake ranks. A code of 3 or more calls for the doubled rate (PRESUMED:
the DDR5 coding of mode register 4). -/
def mr4Poll (n : Fin 16) (codes : List (Fin 8)) (aboveRated : Bool) (s : State) : State :=
  if !s.runs n.val || (s.awake n.val).isEmpty then s
  else
    let top := codes.foldl (fun m c => max m c.val) 0
    let s := s.wr (F.DC_n_REF.MR4_MAX n.val) top
    let s := s.modSub n.val fun u =>
      if 3 ≤ top then { u with hotWant := true, calm := 0, woke := false }
      else { u with hotWant := u.hotWant && u.calm + 1 < 2, calm := u.calm + 1, woke := false }
    if aboveRated then s.subMsg n.val 4 0x14 ((codes.findIdx? (·.val == top)).getD 0) top 0 else s

/-! Write CRC (R238 to R241) -/

/-- ALERT_WINDOW_EXPIRY (R238): the oldest burst leaves the retry buffer. -/
def alertWindowExpiry (n : Fin 16) (s : State) : State :=
  let u := s.sub n.val
  if u.alerting || u.replaying || u.verify then s else s.modSub n.val fun u => { u with retry := u.retry.drop 1 }

/-- A third replay in a row failed: the verify state, which a training check ends (R240, R241). -/
def State.enterVerify (s : State) (n : Nat) : State :=
  let s := (s.modSub n fun u => { u with verify := true, alerting := false, replaying := false, replayNo := 0, replayAt := 0 }).wr (F.DC_n_STATUS.VERIFY n) 1
  (s.subMsg n 2 5 n 0 1).askStep 4 n 0

/-- A device fitted to a subchannel still has its write CRC enabled and can alert (R238, R241). -/
def State.canAlert (s : State) (n : Nat) : Bool := (List.range (10 * s.dm.ranks)).any fun m => !(s.sub n).crcOff.contains m

/-- WRITE_CRC_ALERT (R239, R240): each alert is reported; the controller stops until ALERT_n is released, and during a replay the replay has failed.
During the drain of R255 an alert is only counted; in the verify state writes go on without replay. -/
def writeCrcAlert (n : Fin 16) (s : State) : State :=
  let u := s.sub n.val
  if !s.canAlert n.val then s
  else if s.pwr.shed.isSome && !u.retired then s.bump (F.DC_n_CRC.VERIFY_UNCOR n.val)
  else if !s.runs n.val || u.alerting then s
  else
    let line := (u.retry.head?.map (·.line)).getD 0
    let no := if u.replaying then u.replayNo else 0
    let s := s.lineMsg n.val 2 4 31 none (line * 64) (min 3 (no + 1))
    if u.verify then s
    else
      let s := if u.replaying then s.bump (F.DC_n_CRC.REPLAY_FAIL n.val) else s
      if u.replaying && 3 ≤ u.replayNo then s.enterVerify n.val
      else s.modSub n.val fun x => { x with alerting := true, replaying := false, replayNo := no, replayAt := 0 }

/-- ALERT_N_RELEASE (R239): mode register 50 is cleared and the retry buffer replays. -/
def alertNRelease (n : Fin 16) (s : State) : State :=
  if (s.sub n.val).alerting then
    (s.modSub n.val fun u => { u with alerting := false, replaying := true, replayNo := u.replayNo + 1, replayAt := 0 }).bump
      (F.DC_n_CRC.ALERTS n.val)
  else s

/-- VERIFY_READBACK (R240): the oldest burst is read back by a visit with the errors given. A burst whose line was written again since is retired:
the later burst is read back in its turn. A rewrite is a visit of its own. -/
def verifyReadback (n : Fin 16) (err : SymErr) (s : State) : State :=
  match (s.sub n.val).retry with
  | b :: t =>
    if !(s.sub n.val).verify || !s.bulkTurn n.val (b.line / 4) then s
    else
      let s := (s.bulkVisit n.val (b.line / 4)).disturb n.val b.line err
      let done := s.modSub n.val fun u => { u with retry := t }
      let again := fun (s : State) (b : Burst) => (s.activate n.val (b.line / 4)).burst n.val b
      if t.any (·.line == b.line) then done
      else
        match s.decodeLine n.val b.line with
        | .clean _ => done
        | .poison => done
        | .corrected d _ _ => if b.tries = 0 then again done { b with data := d, poison := false, tries := 1 } else done
        | .uncorrectable =>
          match b.tries with
          | 0 => again done { b with tries := 1 }
          | 1 =>
            let s := (again done { b with data := 0, poison := true, tries := 2 }).bump (F.DC_n_CRC.VERIFY_UNCOR n.val)
            s.lineMsg n.val 1 3 31 none (b.line * 64) 2
          | _ => done
  | [] => s

/-! Timing sets (R243 to R248) -/

/-- What else a write of DC_n_CFG does: a rank that sleeps wakes when ARCH_SLEEP_EN is cleared (R249); TS_REQ 1 or 2 requests a set, a request for
TS_0 at P3 or above waits (R409), and 0 and 3 leave the pending request as it is. -/
def State.dcCfgWrite (s : State) (n oldReq : Nat) : State :=
  let s := s.endSleep n
  let req := s.rd (F.DC_n_CFG.TS_REQ n)
  if req = 1 && 3 ≤ s.stepFor (subHalf n) then s
  else if req = 1 || req = 2 then
    let s := s.wr (F.DC_n_CFG.TS_REQ n) 0
    s.requestTs n (req - 1)
  else s.wr (F.DC_n_CFG.TS_REQ n) oldReq

/-- TS_REQ_WRITE (R243): a maker write of DC_n_CFG. -/
def tsReqWrite (p : Path) (n : Fin 16) (v : Word) (s : State) : State :=
  let old := s.rd (F.DC_n_CFG.TS_REQ n.val)
  s.gatedWrite p (0x100000 + 0x1000 * n.val) v.toNat false fun s => s.dcCfgWrite n.val old

/-- TS_SWITCH (R243): a requested set of the same rate becomes active. -/
def tsSwitch (n : Fin 16) (s : State) : State :=
  match (s.sub n.val).want with
  | some m =>
    if s.runs n.val && s.rd (F.DC_n_TS_m_A.RATE 0 n.val) = s.rd (F.DC_n_TS_m_A.RATE 1 n.val) then s.switchTs n.val m else s
  | none => s

/-- At least that many microseconds remain before the next tick, or before the idle cycle ends (R22, R45, R244). -/
def State.roomFor (s : State) (h : Half) (us : Nat) : Bool :=
  let c := s.schedOf h
  s.now + us * 1200 ≤ c.tickAt + (if c.running then c.len else 307200)

/-- Puts the awake ranks of a subchannel into self-refresh with its writes left queued, and its ramp begins (Table DC-4, steps 1 and 2). -/
def State.rampFrom (s : State) (n : Nat) : State :=
  let q := s.rd (F.CK_CH_n.Q n)
  ((s.modSub n fun u => { u with sr := s.rankMask, change := u.change.map fun c => { c with rampQ := q, rampAt := s.now } }).wr
    (F.DC_n_STATUS.STATE n) 2).wr (F.CK_CH_n.RAMPING n) 1

/-- The awake ranks leave self-refresh, which counts in the wake budget and never waits (Table DC-4, step 4; Table DC-5, row 1). An
Archive rank stays asleep (R246). -/
def State.wakeSub (s : State) (n : Nat) : State :=
  let asleep := s.on (F.DC_n_STATUS.RANK1_ASLEEP n)
  let ranks := if asleep then 1 else s.dm.ranks
  let s := (List.range ranks).foldl (fun s _ => s.countWake (subHalf n)) s
  let s := s.modSub n fun u => { u with sr := if asleep then 2 else 0, refPos := Vector.replicate 2 0 }
  if asleep then s.dropExits n else s.dropWakes n

/-- A subchannel is among the next that may change in a window of its half: at most 4 go offline, in order of request (R23, R243). -/
def State.changeDue (s : State) (n : Nat) : Bool :=
  let h := subHalf n
  let mine := (s.dm.freqPend.map (·.sub)).filter fun k => (s.halvesOf h).contains (subHalf k)
  (mine.take (4 - (s.offlineOf h).length)).contains n

/-- FREQUENCY_CHANGE (R245, Table DC-4, steps 1 and 2): a pending subchannel goes offline and its clock ramps. The operand says how long the
change takes. -/
def frequencyChange (n : Fin 16) (us : Nat) (s : State) : State :=
  match (s.sub n.val).want with
  | some m =>
    if s.changeDue n.val && s.mayGoOffline n.val && s.roomFor (subHalf n.val) 33 then
      let s := (s.takeOffline n.val).modDm fun d => { d with freqPend := d.freqPend.filter (·.sub != n.val) }
      (s.modSub n.val fun u => { u with want := none, change := some { target := m, phase := 0, failNew := [], us := us } }).rampFrom n.val
    else s
  | none => s

/-- Advances the phase of a change. -/
def State.setPhase (s : State) (n k : Nat) : State := s.modSub n fun u => { u with change := u.change.map fun c => { c with phase := k } }

/-- RAMP_END (R337, R339): the counter has made its last step, the ramp ends at Q_end and the DLL relocks; when the device stops, or the
subchannel was retired meanwhile, the change ends here and its ranks stay in self-refresh (R248). While the memory PLL holds, the ramp stands (R347). -/
def rampEnd (n : Fin 16) (s : State) : State :=
  match (s.sub n.val).change with
  | some c =>
    if s.on (F.CK_h_STATUS.MEM_HOLD (subHalf n.val).idx) then s
    else if c.phase = 0 || c.phase = 2 then
      let m := if c.phase = 0 then c.target else s.rd (F.DC_n_STATUS.TS_ACTIVE n.val)
      let code := s.rd (F.DC_n_TS_m_A.RATE m n.val)
      let steps := s.rampLength n.val c
      let s := (s.jumpTo (c.rampAt + (steps * 48 + 4) / 5)).shakeDither (subHalf n.val) steps
      let s := (((s.wr (F.CK_CH_n.RAMPING n.val) 0).wr (F.CK_CH_n.Q n.val) (qCode (6400 + 800 * code))).bump (F.CK_h_EVENTS.RAMPS (subHalf n.val).idx))
      if s.stopping (subHalf n.val) || s.gone n.val then s.stopChange n.val
      else (s.wr (F.CK_DLL_n.STATE n.val) 1).setPhase n.val (c.phase + 1)
    else s
  | none => s

/-- A change ends at a set (Table DC-4, steps 4 to 6): DURATION shows and issue resumes; a request made meanwhile is taken up (R409). -/
def State.endChange (s : State) (n m us : Nat) : State :=
  let later := (s.sub n).want
  let s := (s.modSub n fun u => { u with change := none }).switchTs n m
  let s := (s.wr (F.DC_n_STATUS.STATE n) 1).wr (F.DC_n_FCHG.LAST_US n) (min us 255)
  match later with
  | some w => s.requestTs n w
  | none => s

/-- The DLL has locked at the new rate: the ranks leave self-refresh and quick tracking decides (R247, R271). -/
def State.lockedNew (s : State) (n : Nat) (c : Change) (quick : QuickTrack) : State :=
  let s := s.wakeSub n
  let r := s.quickTrack n (s.rd (F.DC_n_TS_m_A.RATE c.target n)) (s.awake n) quick
  if r.2.isEmpty then (r.1.endChange n c.target c.us).bump (F.DC_n_FCHG.CHANGES n)
  else
    let s := (r.1.bump (F.DC_n_FCHG.FAILED n)).subMsg n 4 5 n 0 2
    (s.modSub n fun u => { u with change := some { c with phase := 2, failNew := r.2 } }).rampFrom n

/-- The DLL has locked at the old rate again: what fails at both rates is marked (R247). -/
def State.lockedOld (s : State) (n : Nat) (c : Change) (quick : QuickTrack) : State :=
  let m := s.rd (F.DC_n_STATUS.TS_ACTIVE n)
  let s := s.wakeSub n
  let r := s.quickTrack n (s.rd (F.DC_n_TS_m_A.RATE m n)) (s.awake n) quick
  (r.1.endChange n m c.us).markDevices n (r.2.filter c.failNew.contains) 3

/-- DLL_LOCK (R341): a locking DLL is locked, and a change goes on. When the device stops, the change ends here and its ranks stay in self-refresh
(R248). -/
def dllLock (n : Fin 16) (quick : QuickTrack) (s : State) : State :=
  if s.rd (F.CK_DLL_n.STATE n.val) ≠ 1 then s
  else
    let s := s.wr (F.CK_DLL_n.STATE n.val) 2
    match (s.sub n.val).change with
    | none => s
    | some c =>
      if s.stopping (subHalf n.val) then s.stopChange n.val
      else if c.phase = 1 then s.lockedNew n.val c quick
      else if c.phase = 3 then s.lockedOld n.val c quick
      else s

/-- FREQUENCY_CHANGE_DONE (R245): the last change or step of a window has ended and its heads return credits. -/
def frequencyChangeDone (s : State) : State :=
  (if s.split then [Half.a, Half.b] else [s.leader]).foldl (fun s h => if s.heldFor h && !s.changing h then s.returnCredits h else s) s

/-! Archive ranks (R249 to R252) -/

/-- The controller holds something for rank 1: entries, what waits for a place, bursts to replay, reads on their way. -/
def State.rank1Waits (s : State) (n : Nat) : Bool :=
  let u := s.sub n
  let at1 := fun (g : Nat) => s.rankOf (g * 256) == 1
  (u.frameQ ++ u.bulkQ).any (fun e => at1 e.g) || u.writeQ.any (fun e => at1 e.g) || u.rdWait.any (fun w => at1 w.g) ||
    u.wrWait.any (fun w => at1 w.g) || u.retry.any (fun b => at1 (b.line / 4)) || u.flight.any fun f => at1 (f.line / 4)

/-- A reader whose wakes are background wakes: a slot copy or the scrubber (R251). -/
def Reader.background : Reader → Bool
  | .host _ _ => false
  | .window _ => false
  | .engine _ _ => false
  | .copy _ _ => true
  | .scrub _ _ _ _ _ => true

/-- A request that wakes its rank waits for rank 1: any but a background one (R250, R251). -/
def State.rank1Asked (s : State) (n : Nat) : Bool :=
  let u := s.sub n
  let at1 := fun (g : Nat) => s.rankOf (g * 256) == 1
  let asks := fun (l : WrLine) => 1 ≤ l.tag && l.tag < 201
  (u.frameQ ++ u.bulkQ).any (fun e => at1 e.g && e.lines.any fun l => l.readers.any fun r => !r.background) ||
    u.writeQ.any (fun e => at1 e.g && e.lines.any asks) || u.rdWait.any (fun w => at1 w.g && !w.reader.background) ||
    u.wrWait.any fun w => at1 w.g && asks w.line

/-- ARCHIVE_SLEEP (R249): rank 1 has had no entry for ARCH_IDLE. -/
def archiveSleep (n : Fin 16) (s : State) : State :=
  if s.dm.ranks = 2 && s.on (F.DC_n_CFG.ARCH_SLEEP_EN n.val) && s.issues n.val && !(s.sub n.val).sr.getLsbD 1 && s.archiveOnly n.val
      && !s.rank1Waits n.val then
    (s.modSub n.val fun u => { u with sr := u.sr ||| 2 }).wr (F.DC_n_STATUS.RANK1_ASLEEP n.val) 1
  else s

/-- A request wakes a rank that sleeps, in row 2 of Table DC-5, which never waits; a background wake of it that waited is needed no more. -/
def State.wakeArchive (s : State) (n : Nat) : State :=
  ((s.countWake (subHalf n)).wakeEffect (.archive n)).modMh (subHalf n) fun m => { m with waiting := m.waiting.filter (· != .archive n) }

/-- ARCHIVE_WAKE (R250): a request wakes the rank. -/
def archiveWake (n : Fin 16) (s : State) : State :=
  if s.on (F.DC_n_STATUS.RANK1_ASLEEP n.val) && s.rank1Asked n.val && s.issues n.val then s.wakeArchive n.val else s

/-- WAKE_EVENT_START (R254): the next waiting event starts when fewer than N started in the preceding 10 µs. -/
def wakeEventStart (h : Half) (s : State) : State := s.startWake h none

end Sys2Proof.Machine
end

