-- ==== Sys2Proof/Machine/Clocks.lean ====
section
/-! DEFINITION. Clock synthesis: reference and PLL losses, lock detection, LOCKMON, the ramp profile and the auxiliary outputs
(11_clocking.md). The DLL commands stand with the PHY. -/
namespace Sys2Proof.Machine

/-- The VCORE rail of a half. -/
def coreRail (h : Half) : Nat := match h with | .a => 3 | .b => 4

/-- A half runs: its core rail is good. -/
def State.coreUp (s : State) (h : Half) : Bool := s.railGood (coreRail h)

/-- LOCKMON judges this PLL of the half (R344, R345). -/
def State.lockmonJudges (s : State) (h : Half) (pll : Pll) : Bool :=
  let c := s.ck h
  c.cfg.getLsbD 12 && !c.fallback && (match pll with | .core => !c.cfg.getLsbD 11 | .memory => c.cfg.getLsbD 11)

/-- The ball voltage that showed lock, below 0.10 V, or the loss of it, above 0.25 V: a free value in that range (R344, CK_h_STATUS). -/
def State.lockmonMv (s : State) (h : Half) (lost : Bool) : State :=
  (s.draw).2.wr (F.CK_h_STATUS.LOCKMON_MV h.idx) (if lost then 251 + s.draw.1.toNat % 3845 else s.draw.1.toNat % 100)

/-- A PLL that LOCKMON judges is enabled: until it locks, the voltage last seen is a free value (R344, log 160). -/
def State.lockmonStart (s : State) (h : Half) (pll : Pll) : State :=
  if s.lockmonJudges h pll then (s.draw).2.wr (F.CK_h_STATUS.LOCKMON_MV h.idx) (s.draw.1.toNat % 4096) else s

/-- Enables the core PLL of a half (Table CK-3, step 2): CK_h_CFG is read here for the run (R450), and the dither LFSR starts from SD_SEED (R334). -/
def State.enableCorePll (s : State) (h : Half) : State :=
  let cfg := s.word (F.CK_h_CFG.SD_SEED h.idx).a
  (s.modCk h fun c =>
    { c with coreEnabled := true, cfg := cfg, coreGoodRun := 0, dither := ditherSeed (BitVec.ofNat 16 (bits cfg.toNat 31 16)) }).lockmonStart h .core

/-- Spread in force when the memory PLL runs (R335, R336); `top` says that the half trains its grade's highest rate. -/
def State.spreadMode (s : State) (h : Half) (top : Bool) : Nat :=
  match bits (s.ck h).cfg.toNat 14 13 with
  | 1 => 1
  | 2 => if top then 1 else 2
  | _ => 0

/-- The highest rate code trained on a half is that of the ordering code's grade (R336): code 4 (9600) for grade 0, 3 for 1. -/
def State.topRate (s : State) (h : Half) : Bool :=
  let top := if s.mg.otp.grade = 0 then 4 else 3
  (List.range 16).any fun n => half16 n == h && (s.rd (F.DI_n_STATUS.RATE0 n) == top || s.rd (F.DI_n_STATUS.RATE1 n) == top)

/-- DLLs of a half lose their reference and coast, locked or locking (R342). -/
def State.coastDlls (s : State) (h : Half) : State :=
  (List.range 16).foldl (fun s n =>
    if half16 n == h && (s.rd (F.CK_DLL_n.STATE n) == 1 || s.rd (F.CK_DLL_n.STATE n) == 2) then
      (s.wr (F.CK_DLL_n.STATE n) 3).bump (F.CK_DLL_n.COASTS n) else s) s

/-- A change waits for the DLL of a subchannel. -/
def State.relocking (s : State) (n : Nat) : Bool := match (s.sub n).change with | some c => c.phase == 1 || c.phase == 3 | none => false

/-- DLLs of a half lock again after a hold; one that a change or start-up training waits for begins to lock. -/
def State.relockDlls (s : State) (h : Half) : State :=
  (List.range 16).foldl (fun s n =>
    if half16 n == h && s.rd (F.CK_DLL_n.STATE n) == 3 then
      s.wr (F.CK_DLL_n.STATE n) (if s.relocking n || s.rd (F.DI_n_STATUS.STATE n) == 1 then 1 else 2) else s) s

/-- A half holds its memory PLL: spread pauses, subchannels enter self-refresh, channel clocks stop (R347). -/
def State.holdMemory (s : State) (h : Half) : State :=
  let s := ((s.wr (F.CK_h_STATUS.MEM_LOCK h.idx) 0).wr (F.CK_h_STATUS.MEM_HOLD h.idx) 1).wr (F.CK_h_STATUS.SSC_ACTIVE h.idx) 0
  (s.selfRefreshHalf h).coastDlls h

/-- The memory PLL of a half is locked again after a hold (Table CK-4); the operand says what quick tracking finds. -/
def State.resumeMemory (s : State) (h : Half) (quick : List (Fin 16 × QuickTrack)) : State :=
  let s := ((s.wr (F.CK_h_STATUS.MEM_LOCK h.idx) 1).wr (F.CK_h_STATUS.MEM_HOLD h.idx) 0).wr (F.CK_h_STATUS.SSC_ACTIVE h.idx) (s.spreadMode h (s.topRate h))
  (s.relockDlls h).resumeHalf h quick

/-- REFCLK_LOSS (R330, Table CK-4). -/
def refclkLoss (s : State) : State :=
  [Half.a, Half.b].foldl (fun s h =>
    if s.on (F.CK_h_STATUS.REF_OK h.idx) then
      let s := ((s.wr (F.CK_h_STATUS.REF_OK h.idx) 0).wr (F.CK_h_STATUS.CORE_LOCK h.idx) 0).bump (F.CK_h_EVENTS.REF_LOSS h.idx)
      ((s.holdMemory h).recoverHeads h).raise h (0x112 + 4 * h.idx) 0x0A (unitForm (20 + h.idx) 0) 0
    else s) s

/-- REFCLK_RETURN (Table CK-4): within 1 ms; the PLLs lock again; a core PLL that was still to lock for the first time goes on to lock, and one that
waited for REFCLK is enabled (Table CK-3). -/
def refclkReturn (quick : List (Fin 16 × QuickTrack)) (s : State) : State :=
  [Half.a, Half.b].foldl (fun s h =>
    if s.on (F.CK_h_STATUS.REF_OK h.idx) then s
    else
      let s := s.wr (F.CK_h_STATUS.REF_OK h.idx) 1
      if (s.ck h).memEnabled then (s.wr (F.CK_h_STATUS.CORE_LOCK h.idx) 1).resumeMemory h quick
      else
        let s := s.wr (F.CK_h_STATUS.MEM_HOLD h.idx) 0
        if !(s.ck h).coreEnabled && s.coreUp h then s.enableCorePll h else s) s

/-- REFCLK_LOSS_TIMEOUT (Table CK-4). -/
def refclkLossTimeout (s : State) : State :=
  [Half.a, Half.b].foldl (fun s h =>
    if s.on (F.CK_h_STATUS.REF_OK h.idx) then s
    else (s.raise h (0x113 + 4 * h.idx) 0x1C (unitForm h.idx 0) 0).enterFatal h) s

/-- A core PLL loses lock (Table CK-4). -/
def State.corePllLost (s : State) (h : Half) : State :=
  if s.on (F.CK_h_STATUS.CORE_LOCK h.idx) then
    ((s.wr (F.CK_h_STATUS.CORE_LOCK h.idx) 0).raise h (0x110 + 4 * h.idx) 0x0A (unitForm (16 + 2 * h.idx) 0) 0).enterFatal h
  else s

/-- A memory PLL loses lock (Table CK-4): the second loss of the run is fatal. -/
def State.memoryPllLost (s : State) (h : Half) : State :=
  if s.on (F.CK_h_STATUS.MEM_LOCK h.idx) then
    let again := (s.ck h).memLost
    let s := (s.holdMemory h).bump (F.CK_h_EVENTS.MEM_LOSS h.idx)
    let s := s.modCk h fun c => { c with memLost := true, memGoodRun := 0 }
    if again then (s.raise h (0x113 + 4 * h.idx) 0x1C (unitForm h.idx 0) 0).enterFatal h
    else s.raise h (0x111 + 4 * h.idx) 0x0A (unitForm (17 + 2 * h.idx) 0) 0
  else s

/-- LOCKMON, where it judges a PLL, shows the voltage at which lock was lost. -/
def State.noteLoss (s : State) (h : Half) (pll : Pll) : State := if s.lockmonJudges h pll then s.lockmonMv h true else s

/-- CORE_PLL_LOCK_LOST (R347). -/
def corePllLockLost (h : Half) (s : State) : State := (s.noteLoss h .core).corePllLost h

/-- MEMORY_PLL_LOCK_LOST (R347). -/
def memoryPllLockLost (h : Half) (s : State) : State := (s.noteLoss h .memory).memoryPllLost h

/-- MEMORY_PLL_RELOCK_TIMEOUT (Table CK-4): no lock within 1 ms of a loss. -/
def memoryPllRelockTimeout (h : Half) (s : State) : State :=
  if s.on (F.CK_h_STATUS.MEM_HOLD h.idx) && s.on (F.CK_h_STATUS.REF_OK h.idx) then
    (s.raise h (0x113 + 4 * h.idx) 0x1C (unitForm h.idx 0) 0).enterFatal h
  else s

/-- Lock of a PLL is declared: the core PLL lets the memory PLL start, the memory PLL starts spread or ends a hold
(Table CK-3, Table CK-4). -/
def State.declareLock (s : State) (h : Half) (pll : Pll) (quick : List (Fin 16 × QuickTrack)) : State :=
  match pll with
  | .core =>
    if (s.ck h).coreEnabled && !s.on (F.CK_h_STATUS.CORE_LOCK h.idx) then
      ((s.wr (F.CK_h_STATUS.CORE_LOCK h.idx) 1).modCk h fun c => { c with memEnabled := true, memGoodRun := 0 }).lockmonStart h .memory
    else s
  | .memory =>
    if (s.ck h).memEnabled && !s.on (F.CK_h_STATUS.MEM_LOCK h.idx) then
      if s.on (F.CK_h_STATUS.MEM_HOLD h.idx) then s.resumeMemory h quick
      else (s.wr (F.CK_h_STATUS.MEM_LOCK h.idx) 1).wr (F.CK_h_STATUS.SSC_ACTIVE h.idx) (s.spreadMode h (s.topRate h))
    else s

/-- A PLL is locked. -/
def State.locked (s : State) (h : Half) (pll : Pll) : Bool :=
  match pll with | .core => s.on (F.CK_h_STATUS.CORE_LOCK h.idx) | .memory => s.on (F.CK_h_STATUS.MEM_LOCK h.idx)

/-- Good windows in a row of a PLL. -/
def ClockHalf.goodRun (c : ClockHalf) (pll : Pll) : Nat := match pll with | .core => c.coreGoodRun | .memory => c.memGoodRun

/-- Sets the good windows in a row. -/
def ClockHalf.setRun (c : ClockHalf) (pll : Pll) (n : Nat) : ClockHalf :=
  match pll with | .core => { c with coreGoodRun := n } | .memory => { c with memGoodRun := n }

/-- LOCK_WINDOW (R343): two windows within 1 declare lock; a difference of 3 or more loses it. -/
def lockWindow (h : Half) (pll : Pll) (count : Nat) (quick : List (Fin 16 × QuickTrack)) (s : State) : State :=
  if s.lockmonJudges h pll || !s.on (F.CK_h_STATUS.REF_OK h.idx) then s
  else
    let d := ((count : Int) - 4096).natAbs
    let run := if d ≤ 1 then (s.ck h).goodRun pll + 1 else 0
    let s := s.modCk h fun c => c.setRun pll run
    if s.locked h pll then
      if 3 ≤ d then (match pll with | .core => s.corePllLost h | .memory => s.memoryPllLost h) else s
    else if 2 ≤ run then s.declareLock h pll quick else s

/-- LOCKMON_LOCK (R344). -/
def lockmonLock (h : Half) (quick : List (Fin 16 × QuickTrack)) (s : State) : State :=
  if s.lockmonJudges h .core then (s.lockmonMv h false).declareLock h .core quick
  else if s.lockmonJudges h .memory then (s.lockmonMv h false).declareLock h .memory quick
  else s

/-- LOCKMON_FALLBACK (R345). -/
def lockmonFallback (h : Half) (s : State) : State :=
  let pll : Pll := if (s.ck h).cfg.getLsbD 11 then .memory else .core
  if s.lockmonJudges h pll && !s.locked h pll && (match pll with | .core => (s.ck h).coreEnabled | .memory => (s.ck h).memEnabled) then
    let s := (s.modCk h fun c => { c with fallback := true }).wr (F.CK_h_STATUS.LOCKMON_FALLBACK h.idx) 1
    let s := s.wr (F.CK_h_STATUS.LOCKMON_MV h.idx) 0
    s.raise h (0x111 + 4 * h.idx) 0x1B (unitForm ((match pll with | .core => 16 | .memory => 17) + 2 * h.idx) 0) 4
  else s

/-! The ramp profile (R338) -/

/-- A profile is acceptable (R338): 1 to 8 segments, P rising to 256, at most 2 µs for the change. -/
def rampOk (segs : List (Nat × Nat)) (slew d : Nat) : Bool :=
  1 ≤ segs.length && segs.length ≤ 8 && (segs.zip (segs.drop 1)).all (fun p => p.1.1 < p.2.1)
    && (segs.getLast?.map (·.1)) == some 256 && 1 ≤ (segs.headD (0, 0)).1 && segs.all (fun g => 0 < g.2)
    && rampSteps segs slew d ≤ 250

/-- Loads the ramp profile of a half for the change of `d` Q units between its trained rates; a refused one is replaced by one
segment at SLEW_MAX (R338). -/
def State.loadRamp (s : State) (h : Half) (d : Nat) : State :=
  let prof := Config.rampProfile (s.flashBytes (s.bankBase + 0x149000) 4096)
  let slew := min prof.2 512
  let ok := rampOk prof.1 slew d
  let slew := if ok then slew else 512
  let segs := if ok then prof.1 else [(256, slew)]
  let s := ((s.flag (F.CK_h_RAMP.DEFAULT h.idx) (!ok)).wr (F.CK_h_RAMP.N_SEG h.idx) segs.length).wr (F.CK_h_RAMP.SLEW_MAX h.idx) slew
  let s := (List.range 8).foldl (fun s i =>
    (s.wr (F.CK_h_SEG_i.P h.idx i) (segs.getD i (0, 0)).1).wr (F.CK_h_SEG_i.S h.idx i) (segs.getD i (0, 0)).2) s
  if ok then s else s.raise h (0x111 + 4 * h.idx) 0x16 (unitForm (17 + 2 * h.idx) 0) 2

/-! Auxiliary outputs -/

/-- A setting of an AUXCK output is refused (R351, R352): a reserved source, an output above 200 MHz, or a second tick-locked
output. -/
def State.auxRefused (s : State) (n v : Nat) : Bool :=
  let div := bits v 11 0 + 1
  match bits v 30 28 with
  | 0 => false
  | 1 => div < 6
  | 2 => div < 12
  | 3 => (List.range 4).any fun m => m != n && s.rd (F.CK_AUX_n_CFG.SRC m) == 3
  | _ => true

/-- A setting of an AUXCK output gives way to another: the edges that the old one has given by now stay, and its high phase is completed (R353). -/
def State.auxChange (s : State) (n : Nat) (cfg tick : Word) : State :=
  let h : Half := if n < 2 then .a else .b
  s.modCk h fun c => { c with aux := c.aux.filter (fun w => (s.schedOf h).tickAt ≤ w.till) ++ [⟨n, cfg, tick, s.now⟩] }

/-- After a write of CK_AUX_n_CFG: a refused setting leaves the old word and sets REFUSED (R351). -/
def State.auxWrite (s : State) (n : Nat) (old : Word) (v : Nat) : State :=
  let r := s.rd F.CK_AUX_STATUS.REFUSED
  if s.auxRefused n v then (s.setWord (F.CK_AUX_n_CFG.EN n).a old).wr F.CK_AUX_STATUS.REFUSED (r ||| 2 ^ n)
  else (s.wr F.CK_AUX_STATUS.REFUSED (r &&& (15 - 2 ^ n))).auxChange n old (s.word (F.CK_AUX_n_TICK.K_M1 n).a)

/-- AUXCK_CONFIG_WRITE (R350 to R353): a write of CK_AUX_n_CFG or, with `tick`, of CK_AUX_n_TICK. -/
def auxckConfigWrite (p : Path) (n : Fin 4) (tick : Bool) (v : Word) (s : State) : State :=
  let a := 0x40080 + 2 * n.val + b2n tick
  let old := s.word a
  s.gatedWrite p a v.toNat false fun s =>
    if tick then
      (s.wr F.CK_AUX_STATUS.REFUSED (s.rd F.CK_AUX_STATUS.REFUSED &&& (15 - 2 ^ n.val))).auxChange n.val (s.word (F.CK_AUX_n_CFG.EN n.val).a) old
    else s.auxWrite n.val old v.toNat

/-- An AUXCK output toggles (R350, R352); `ticking` says that its half's frame schedule runs. -/
def State.auxRunning (s : State) (n : Nat) (ticking : Bool) : Bool :=
  let h : Half := if n < 2 then .a else .b
  s.on (F.CK_AUX_n_CFG.EN n) && s.coreUp h && s.on (F.CK_h_STATUS.CORE_LOCK h.idx) &&
    (match s.rd (F.CK_AUX_n_CFG.SRC n) with
     | 0 => s.on (F.CK_h_STATUS.REF_OK h.idx)
     | 2 => s.on (F.CK_h_STATUS.MEM_LOCK h.idx)
     | 3 => ticking
     | _ => true)

/-- Rising and falling edge e of a tick-locked output with K edges in a tick of l core cycles, in core cycles from stitch 0 (R352). -/
def auxEdge (k l e : Nat) : Nat × Nat := (e * l / k, (2 * e + 1) * l / (2 * k))

/-- Edges of a tick-locked setting, given by its words, whose rising edge falls from core cycle `t0` of the tick up to `t1` (R352). -/
def auxGives (cfg tick : Word) (l t0 t1 : Nat) : List (Nat × Nat) :=
  let k := bits tick.toNat 15 0 + 1
  if cfg.getLsbD 31 && bits cfg.toNat 30 28 = 3 then ((List.range k).map (auxEdge k l)).filter fun e => t0 ≤ e.1 && e.1 < t1 else []

/-- The edges that AUXCK output n gives in the present tick of its half's schedule, under the settings in force in turn (R352, R353): each takes over
when the one before has completed its high phase, with its own next rising edge. -/
def State.auxEdges (s : State) (n : Nat) : List (Nat × Nat) :=
  let h : Half := if n < 2 then .a else .b
  let c := s.schedOf h
  let was := (s.ck h).aux.filter fun w => w.n == n && c.tickAt ≤ w.till
  let go := was.foldl (fun (a : List (Nat × Nat) × Nat) w =>
    let e := a.1 ++ auxGives w.cfg w.tick c.tickLen a.2 (w.till - c.tickAt)
    (e, max (w.till - c.tickAt) ((e.getLast?.map (·.2)).getD 0))) ([], 0)
  if s.auxRunning n c.running || !go.1.isEmpty then
    go.1 ++ auxGives (s.word (F.CK_AUX_n_CFG.EN n).a) (s.word (F.CK_AUX_n_TICK.K_M1 n).a) c.tickLen go.2 c.tickLen
  else []

/-- The output period of a divided AUXCK, in ps, and its high time in source cycles (Table CK-5, R351): sources of 100 MHz, 1.2 GHz and 2.4 GHz. -/
def auxDivided (src div : Nat) : Option (Nat × Nat) := ([100, 1200, 2400][src]?).map fun mhz => (div * 1000000 / mhz, (div + 1) / 2)

end Sys2Proof.Machine
end

