-- ==== Sys2Proof/Machine/ManageOps.lean ====
section
/-! DEFINITION. Management's shared operations: roles and challenges, the audit ring, the flash engine, the passport and OTP, the
boot of a bank and the warm reset (16_management_configuration.md R436 to R459). -/
namespace Sys2Proof.Machine

/-! Roles (R455, R456) -/

/-- The key of a role, or none while the role is unavailable (R457). -/
def State.keyOf (s : State) (role : Nat) : Option (BitVec 256) :=
  match role with
  | 1 => s.mg.keyOperator
  | 2 => s.mg.keyInstaller
  | 3 => some s.mg.otp.kMaker
  | _ => none

/-- 32 bytes of a 256-bit value, little-endian. -/
def bytes32 (v : BitVec 256) : List Byte := leBytes 32 v.toNat

/-- The response that R456 asks for. -/
def State.wantedResponse (s : State) (p : Path) (key chal : BitVec 256) (role : Nat) : List Byte :=
  hmac256 (bytes32 key) (bytes32 chal ++ leBytes 8 s.mg.serial.toNat ++ [BitVec.ofNat 8 role, BitVec.ofNat 8 p.idx])

/-- Records a role refusal at source 0x004 (Table FC-1a). -/
def State.roleRefused (s : State) (p : Path) (role result : Nat) : State :=
  s.raiseL 0x004 0x0B (unitForm p.idx role) result

/-- A role change that finds the audit queue full: nothing changes and no entry is made; it is counted (R458). -/
def State.roleFull (s : State) : State := s.bump F.MG_AUDIT_STAT.FULL

/-- Loads a new challenge for a role (R456): result 3 while locked, 4 for an unavailable role, otherwise the challenge. -/
def State.challenge (s : State) (p : Path) (role : Nat) : (Nat ⊕ BitVec 256) × State :=
  if (s.role p).locked then (.inl 3, s.roleRefused p role 3)
  else if (s.keyOf role).isNone then (.inl 4, s.roleRefused p role 4)
  else
    let (c, s) := s.draw
    (.inr c, s.modRole p fun r => { r with chal := some (c, role, s.now) })

/-- Checks a response (R456): 0 role set, 1 wrong, 2 expired or without a challenge. -/
def State.respond (s : State) (p : Path) (resp : List Byte) : Nat × State :=
  match (s.role p).chal with
  | none => (2, ((s.modRole p fun r => { r with role := 0 }).audit 0 p.idx 9 0 (s.role p).fails 0).roleRefused p 0 2)
  | some (c, role, t) =>
    if t + 12000000000 < s.now then
      (2, ((s.modRole p fun r => { r with role := 0, chal := none }).audit 0 p.idx 9 role (s.role p).fails 0).roleRefused p role 2)
    else if (s.keyOf role).any fun k => s.wantedResponse p k c role == resp then
      (0, (s.modRole p fun _ => { role := role }).audit role p.idx 7 role 0 0)
    else
      let n := (s.role p).fails + 1
      (1, ((s.modRole p fun _ => { fails := n, locked := 5 ≤ n }).audit 0 p.idx 9 role n 0).roleRefused p role 1)

/-! Flash bytes -/

/-- Programs flash bytes: a program clears bits (SPI NOR). -/
def State.flashProgramBytes (s : State) (a : Nat) (bs : List Byte) : State :=
  s.flashPut a (List.zipWith (· &&& ·) (s.flashBytes a bs.length) bs)

/-- Passport bytes. -/
def State.ppBytes (s : State) (a n : Nat) : List Byte := (List.range n).map fun i => Sparse.get (fun _ => 0) s.mg.passport (a + i)

/-- Writes passport bytes at once. -/
def State.ppPut (s : State) (a : Nat) (bs : List Byte) : State :=
  s.modMg fun m => { m with passport := ((List.range bs.length).zip bs).foldl (fun f b => Sparse.put (fun _ => 0) f (a + b.1) b.2) m.passport }

/-- A passport write waits on FIELD_N (Table FC-1a). -/
def State.ppDeferred (s : State) : State := s.raiseL 0x003 0x0C (unitForm 0 (s.rd F.MG_PP_STAT.DROPPED)) 1

/-- The passport bus is left released: the leader is in the fatal state, or wedged with its core rail lost (R431; DEDUCED, log 234: its own writes are
dropped then, and management's wait for their time-out). -/
def State.ppReleased (s : State) : Bool :=
  (s.fc s.leader).fatal || s.rd (F.PS_RAIL_n_STATUS.STATE (match s.leader with | .a => 3 | .b => 4)) == 4

/-- A write of the device's own to the passport tails: it waits while FIELD_N is asserted (R447), and is none once the bus is left released (R431). -/
def State.ppTail (s : State) (a : Nat) (bs : List Byte) : State :=
  if s.ppReleased then s
  else if s.mg.fieldN then
    (s.modMg fun m => { m with ppWaiting := m.ppWaiting ++ [(a, bs)] }).ppDeferred
  else s.ppPut a bs

/-- The passport's fault tail takes a message of DEGR or above (Table MG-7). -/
def State.faultTailWrite (s : State) (m : Msg) (bytes : List Byte) : State :=
  if m.sev < 2 then s
  else
    let a := 0x1400 + 16 * (s.mg.faultTail % 64)
    (s.modMg fun g => { g with faultTail := g.faultTail + 1 }).ppTail a bytes

/-- Writes of bytes 0x0040 to 0x0FFF by management: GEN increments and BODY_CRC is formed anew (Table MG-7). -/
def State.ppBodyPut (s : State) (a : Nat) (bs : List Byte) : State :=
  let s := s.ppPut a bs
  let s := s.ppPut 8 (leBytes 4 (field (s.ppBytes 8 4) 0 4 + 1))
  s.ppPut 12 (leBytes 4 (crc32 (s.ppBytes 0x40 0x4C0)))

/-! The audit ring (R458, R459) -/

/-- The 32 bytes of an audit entry (Table MG-10). -/
def AuditEntry.bytes (e : AuditEntry) : List Byte :=
  let b := leBytes 8 e.time ++ leBytes 4 e.seq ++ leBytes 2 e.epoch ++ [BitVec.ofNat 8 (e.role % 4 + e.path % 8 * 4),
    BitVec.ofNat 8 (e.kind % 128 + b2n e.split * 128)] ++ leBytes 4 e.target ++ leBytes 4 e.old ++ leBytes 4 e.new
  b ++ leBytes 4 (crc32 b)

/-- The SEQ of a valid entry in a ring slot. -/
def State.ringSeq (s : State) (slot : Nat) : Option Nat :=
  let b := s.flashBytes (0x1010000 + 32 * slot) 32
  if crc32 (b.take 28) == field b 28 4 && !s.tornAt (0x1010000 + 32 * slot) 32 then some (field b 8 4) else none

/-- The highest valid SEQ in the ring (R459). -/
def State.lastSeq (s : State) : Option Nat :=
  (List.range 4096).foldl (fun m i =>
    match s.ringSeq i, m with
    | some a, some b => some (max a b)
    | some a, none => some a
    | none, m => m) none

/-- Rewrites the passport's audit tail from the last 32 entries of the ring (R447). -/
def State.rewriteTail (s : State) : State :=
  match s.lastSeq with
  | none => s.modMg fun m => { m with tailDue := false }
  | some q =>
    (List.range 32).foldl (fun s k =>
      if q < k then s
      else
        let slot := (q - k) % 4096
        if s.ringSeq slot == some (q - k) then s.ppPut (0x1000 + 32 * ((q - k) % 32)) (s.flashBytes (0x1010000 + 32 * slot) 32) else s)
      (s.modMg fun m => { m with tailDue := false })

/-- FIELD_N is released: an RF reader may have written the install zone, which changes GEN (R444, R461); then the writes that waited go to the
passport in order, and a start's audit tail is rewritten (R447). -/
def State.fieldFree (s : State) : State :=
  let w := s.mg.ppWaiting
  let s := match Config.rfZone s.free with
    | some z => ((s.ppPut 0x800 ((z ++ List.replicate 0x800 0xFF).take 0x800)).ppPut 8 (leBytes 4 (field (s.ppBytes 8 4) 0 4 + 1)))
    | none => s
  let s := ({ s with free := s.free + 1 }).modMg fun m => { m with fieldN := false, ppWaiting := [], ppAhead := 0 }
  let s := w.foldl (fun s x => s.ppPut x.1 x.2) s
  if s.mg.tailDue then s.rewriteTail else s

/-- The level of FIELD_N as a command finds it. -/
def State.fieldLevel (s : State) (asserted : Bool) : State :=
  if asserted then s.modMg fun m => { m with fieldN := true } else if s.mg.fieldN then s.fieldFree else s

/-! Image-flash areas (Tables MG-3, MG-4, MG-5) -/

/-- The areas of Table MG-5, with the number of a Last where there is one. -/
inductive Area where
  | lastSlot (n : Nat)
  | regionSlot (n : Nat)
  | booted (part : Nat)
  | otherBank
  | deviceOnly (part : Nat)
  | none
  deriving DecidableEq, Repr

/-- The area of a byte of the image flash, given the bank that booted (0 or 1). -/
def areaOf (booted a : Nat) : Area :=
  if a < 0x1000000 then
    if a / 0x800000 ≠ booted then .otherBank
    else
      let o := a % 0x800000
      if 0x100000 ≤ o ∧ o < 0x140000 then .lastSlot ((o - 0x100000) / 0x10000)
      else if 0x140000 ≤ o ∧ o < 0x148000 then .regionSlot ((o - 0x140000) / 0x2000)
      else .booted (if o < 0x1000 then 0 else if o < 0x100000 then 1 else if o < 0x149000 then 2 else if o < 0x14A000 then 3
        else if o < 0x14B000 then 4 else if o < 0x14C000 then 5 else if o < 0x154000 then 6 else 7)
  else if a < 0x1130000 then
    .deviceOnly (if a < 0x1002000 then 0 else if a < 0x1004000 then 1 else if a < 0x1006000 then 2 else if a < 0x1010000 then 3
      else if a < 0x1030000 then 4 else 5)
  else .none

/-- Who may do an operation: role 1 to 3, 0 for any, or none for refused (Table MG-5). -/
def State.flashRole (s : State) (op space addr n : Nat) : Option Nat :=
  let last := addr + max n 1 - 1
  match space with
  | 0 =>
    let b := s.rd F.MG_STATUS.BANK
    if 0x2000000 ≤ last || areaOf b addr ≠ areaOf b last then none
    else
      match areaOf b addr with
      | .lastSlot k => if op = 0 then some 2 else if s.lastHeld k then none else some 2
      | .regionSlot k => if op = 0 then some 2 else if s.lastHeld k then none else some 2
      | .booted _ => if op = 0 then some 3 else none
      | .otherBank => some 3
      | .deviceOnly _ => if op = 0 then some 2 else none
      | .none => none
  | 1 =>
    let zone (a : Nat) : Nat := if a < 0x40 then 0 else if a < 0x200 then 1 else if a < 0x400 then 2 else if a < 0x500 then 3
      else if a < 0x800 then 4 else if a < 0x1000 then 5 else if a < 0x1400 then 6 else if a < 0x1800 then 7 else 8
    if 0x2000 ≤ last || zone addr ≠ zone last || op = 2 then none
    else if zone addr = 5 then some 2
    else if op = 0 then some 0
    else if zone addr = 1 || zone addr = 2 then some 3
    else none
  | 2 =>
    let f := (Config.otpWordOf addr).1
    if op = 2 || f = 2 || f = 3 || 8 < f || (Config.otpWordOf last).1 ≠ f then none else some 3
  | _ => if op = 1 && (addr = 1 || addr = 2) then some (addr + 1) else none

/-! OTP words (Table MG-6) -/

/-- Number of 32-bit words of an OTP field. -/
def otpWords (f : Nat) : Nat := [12, 2, 8, 8, 12, 24, 1, 1, 1].getD f 0

/-- One word of an OTP field other than the keys. -/
def Otp.read (o : Otp) (f w : Nat) : Nat :=
  match f with
  | 0 => bits o.makerKeyHash.toNat (32 * w + 31) (32 * w)
  | 1 => bits o.minSec.toNat (32 * w + 31) (32 * w)
  | 4 => o.loBound[w]!.toNat * 65536 + o.hiBound[w]!.toNat
  | 5 => bits o.defRail[w / 2]!.toNat (32 * (w % 2) + 31) (32 * (w % 2))
  | 6 => o.grade.toNat
  | 7 => b2n o.laceSolo
  | 8 => o.lock.toNat
  | _ => 0

/-- A word of an OTP field may be programmed: each once, until its LOCK is set (Table MG-5). -/
def Otp.open (o : Otp) (f w : Nat) : Bool :=
  w < otpWords f && !o.lock.getLsbD f && !(f == 4 && o.lock.getLsbD (9 + w)) && !o.done.contains (f, w)

/-- Programs one word of an OTP field. -/
def Otp.program (o : Otp) (f w v : Nat) : Otp :=
  let o := { o with done := (f, w) :: o.done }
  match f with
  | 0 => { o with makerKeyHash := o.makerKeyHash ||| BitVec.ofNat 384 (v * 2 ^ (32 * w)) }
  | 1 => { o with minSec := o.minSec ||| BitVec.ofNat 64 (v * 2 ^ (32 * w)) }
  | 4 => { o with loBound := o.loBound.setIfInBounds w (BitVec.ofNat 16 (v / 65536)), hiBound := o.hiBound.setIfInBounds w (BitVec.ofNat 16 v) }
  | 5 => { o with defRail := o.defRail.setIfInBounds (w / 2) (o.defRail[w / 2]! ||| BitVec.ofNat 64 (v * 2 ^ (32 * (w % 2)))) }
  | 6 => { o with grade := o.grade ||| BitVec.ofNat 2 v }
  | 7 => { o with laceSolo := o.laceSolo || v % 2 = 1 }
  | 8 => { o with lock := o.lock ||| BitVec.ofNat 21 v }
  | _ => o

/-! The flash engine (R442) -/

/-- Words of a path's buffer. -/
def State.bufWords (s : State) (p : Path) (n : Nat) : List Word := (List.range n).map fun i => s.word ((F.MG_FL_DATA_i.DATA i).on p).a

/-- Puts words into a path's buffer. -/
def State.bufPut (s : State) (p : Path) (ws : List Word) : State :=
  ((List.range ws.length).zip ws).foldl (fun s w => s.setWord ((F.MG_FL_DATA_i.DATA w.1).on p).a w.2) s

/-- An operation ends with a result: RESULT, BUSY, and the audit entry of kind 6. -/
def State.flashEnd (s : State) (p : Path) (op space addr result : Nat) : State :=
  let s := (s.wr (F.MG_FL_CTRL.RESULT.on p) result).wr (F.MG_FL_CTRL.BUSY.on p) 0
  s.audit (s.role p).role p.idx 6 (space * 2 ^ 30 + addr % 2 ^ 25) op result

/-- An operation that GO starts is refused (R442): its entry of kind 6 merges with one for the same path and target within 1 s (R458). -/
def State.flashRefuse (s : State) (p : Path) (op space addr result : Nat) : State :=
  ((s.wr (F.MG_FL_CTRL.RESULT.on p) result).wr (F.MG_FL_CTRL.BUSY.on p) 0).auditRefusal p (space * 2 ^ 30 + addr % 2 ^ 25) op result 6

/-- The words that a read returns. -/
def State.flashFetch (s : State) (space addr n : Nat) : List Word :=
  let bytes := if space = 0 then s.flashBytes addr (4 * n) else s.ppBytes addr (4 * n)
  (List.range n).map fun i =>
    if space = 2 then BitVec.ofNat 32 (let w := Config.otpWordOf (addr + 4 * i); s.mg.otp.read w.1 w.2)
    else BitVec.ofNat 32 (field bytes (4 * i) 4)

/-- An OTP program meets a word already programmed or locked. -/
def State.otpClosed (s : State) (addr n : Nat) : Bool :=
  (List.range n).any fun i => let w := Config.otpWordOf (addr + 4 * i); !s.mg.otp.open w.1 w.2

/-- GO of MG_FL_CTRL (R442): role and area are checked; a read completes at once, a program or erase starts the engine, which
makes a Last or region table it touches unavailable from this moment (R489). While the device sheds, the image flash belongs to the supervisor (R394):
the engine counts as busy (DESIGN CHOICE, log 229). -/
def State.flashGo (s : State) (p : Path) (op lenM1 : Nat) : State :=
  let space := s.rd (F.MG_FL_ADDR.SPACE.on p)
  let addr := s.rd (F.MG_FL_ADDR.ADDR.on p) / 4 * 4
  let addr := if space = 3 then s.rd (F.MG_FL_ADDR.ADDR.on p) else addr
  let addr := if op = 2 then addr / 4096 * 4096 else addr
  let n := lenM1 + 1
  if s.auditFull then s.bump F.MG_AUDIT_STAT.FULL
  else
    match if op = 3 then none else s.flashRole op space addr (if space = 3 then 1 else if op = 2 then 4096 else 4 * n) with
    | none => s.flashRefuse p op space addr 2
    | some r =>
      if (s.role p).role < r then s.flashRefuse p op space addr 1
      else if space = 0 && s.rd F.PS_STATUS.STATE = 4 then s.flashRefuse p op space addr 3
      else if op = 0 then (s.bufPut p (s.flashFetch space addr n)).flashEnd p op space addr 0
      else if s.mg.op.isSome then s.flashRefuse p op space addr 3
      else if space = 2 && s.otpClosed addr n then s.flashRefuse p op space addr 5
      else
        let s := (s.modMg fun m => { m with op := some ⟨p, op, space, addr, s.bufWords p (if space = 3 then 8 else n)⟩ }).wr (F.MG_FL_CTRL.BUSY.on p) 1
        if space = 0 then
          match areaOf (s.rd F.MG_STATUS.BANK) addr with
          | .lastSlot k => s.lastTouched k
          | .regionSlot k => s.lastTouched k
          | _ => s
        else if s.mg.fieldN && space != 2 then (s.modMg fun m => { m with ppAhead := m.ppWaiting.length }).ppDeferred
        else s

/-- The effect of an operation that completed. -/
def State.flashApply (s : State) (o : FlashOp) : State :=
  let bytes := (o.words.map fun w => leBytes 4 w.toNat).flatten
  match o.space, o.op with
  | 0, 1 => s.flashProgramBytes o.addr bytes
  | 0, _ => s.flashErase o.addr 4096
  | 1, _ => s.ppBodyPut o.addr bytes
  | 2, _ =>
    s.modMg fun m => { m with otp := ((List.range o.words.length).zip o.words).foldl (fun t w =>
      let k := Config.otpWordOf (o.addr + 4 * w.1)
      t.program k.1 k.2 w.2.toNat) m.otp }
  | _, _ =>
    s.ppBodyPut (0x400 + 40 * (o.addr - 1)) (keyWrap (bytes32 s.mg.otp.kWrap) bytes)

/-- The operation under way ends, done or not: the engine is free, and the buffer words that carried a key read 0 (R442). -/
def State.flashFree (s : State) (o : FlashOp) : State :=
  let s := s.modMg fun m => { m with op := none }
  if o.space = 3 then s.bufPut o.path (List.replicate 8 0) else s

/-- The operation under way is a passport write, and FIELD_N holds it back (R447), or the bus is left released (R431). -/
def State.ppHeld (s : State) : Bool := (s.mg.fieldN || s.ppReleased) && s.mg.op.any fun o => o.space == 1 || o.space == 3

/-- The write of a record's copy that was under way is cut off: the earlier copy is in force (R441). -/
def State.recordCut (s : State) : State :=
  match s.mg.recordAt with
  | some (health, t) =>
    if s.now < t + Config.recordCycles t then
      if health then s.modMg fun m => { m with health := m.health.cut, recordAt := none }
      else s.modMg fun m => { m with boot := m.boot.cut, recordAt := none }
    else s
  | none => s

/-- The operation under way is cut off and never resumed, and so is the write of a record (R441, R461). -/
def State.flashCutOff (s : State) : State :=
  let s := s.recordCut
  match s.mg.op with
  | none => s
  | some o =>
    let s := (s.flashFree o).wr (F.MG_FL_CTRL.BUSY.on o.path) 0
    if o.space = 0 then s.flashCut o.addr (if o.op = 2 then 4096 else 4 * o.words.length) else s

/-! Boot (R436, R441) -/

/-- A bank passes the four tests of R436. -/
def State.bankGood (s : State) (b : Nat) : Bool :=
  let base := 0x800000 * b
  let h := s.flashBytes base 0x200
  let pub := slice h 0x130 97
  let whole := !s.tornAt base 0x100000 && !s.tornAt (base + 0x148000) 0xC000
  let area (o n hash : Nat) := sha384 (s.flashBytes (base + o) n) == slice h hash 48
  whole && beNat (sha384 pub) == s.mg.otp.makerKeyHash.toNat
    && ecdsaVerify (beNat (slice pub 1 48), beNat (slice pub 49 48)) (beNat (slice h 0x1A0 48)) (beNat (slice h 0x1D0 48)) (h.take 0x1A0)
    && pub.headD 0 == 4
    && (List.range 64).foldl (fun n i => n + b2n (s.mg.otp.minSec.getLsbD i)) 0 ≤ field h 6 2
    && area 0x1000 (min (field h 8 4) 0xFF000) 0x10 && area 0x148000 4096 0x40 && area 0x149000 4096 0x70 && area 0x14A000 4096 0xA0
    && area 0x14B000 4096 0xD0 && area 0x14C000 0x8000 0x100

/-- The bank that boots (R436): the one the boot record names, or A; otherwise the other one. -/
def State.bootBank (s : State) : Option (Nat × Bool) :=
  let want := b2n (s.nextBank.getD false)
  if s.bankGood want then some (want, false) else if s.bankGood (1 - want) then some (1 - want, true) else none

/-- SEC_VER of a bank's firmware (R436). -/
def State.bankSecVer (s : State) (b : Nat) : Nat := field (s.flashBytes (0x800000 * b + 6) 2) 0 2

/-- The mailboxes of the four heads are served, or not (Table HP-10). -/
def State.serveMailboxes (s : State) (on : Bool) : State := (List.range 4).foldl (fun s n => s.flag (F.HP_n_MEDIA.MB_READY n) on) s

/-- The core of a half. -/
def Manage.core (m : Manage) (h : Half) : MgCore := match h with | .a => m.coreA | .b => m.coreB

/-- Updates the core of a half. -/
def Manage.modCore (m : Manage) (h : Half) (f : MgCore → MgCore) : Manage :=
  match h with | .a => { m with coreA := f m.coreA } | .b => { m with coreB := f m.coreB }

/-- The firmware image of a bank: FW_LEN bytes of its firmware area (Table MG-1), which the cores' 256 KiB of SRAM hold. -/
def State.firmware (s : State) (b : Nat) : List Byte :=
  s.flashBytes (0x800000 * b + 0x1000) (min (field (s.flashBytes (0x800000 * b + 8) 4) 0 4) 0x40000)

/-- A half's core loads the firmware of a bank and runs it (R434, R436, R437). -/
def State.loadCore (s : State) (b : Nat) (h : Half) : State :=
  s.modMg fun m => m.modCore h fun _ => { fw := some b, sram := s.firmware b }

/-- A half's core cannot run verified firmware (R437). -/
def State.coreFails (s : State) (h : Half) : State :=
  (s.modWh h fun w => { w with selftest := false }).modMg fun m => m.modCore h fun _ => {}

/-- Both cores load firmware from a bank, told whether it is the fallback; without a valid bank there is none (R436, R437). -/
def State.bootFrom (s : State) (bank : Option (Nat × Bool)) : State :=
  match bank with
  | none => (((s.wr F.MG_STATUS.FW_OK 0).modMg fun m => { m with coreA := {}, coreB := {} }).serveMailboxes false).raiseL 0x001 0x1C (unitForm s.leader.idx 0) 0
  | some (b, fb) =>
    let sv := s.bankSecVer b
    let s := (((s.wr F.MG_STATUS.FW_OK 1).wr F.MG_STATUS.BANK b).flag F.MG_STATUS.FALLBACK fb).wr F.MG_STATUS.SEC_VER sv
    let s := ((s.serveMailboxes true).loadCore b .a).loadCore b .b
    let s := (s.modWh .a fun w => { w with selftest := true }).modWh .b fun w => { w with selftest := true }
    if fb then s.raiseL 0x000 0x16 (unitForm b sv) 2 else s

/-! The passport read and what follows from it (R444 to R448, R457) -/

/-- The boot ROM verifies and loads firmware on both halves (R436, R437). -/
def State.boot (s : State) : State := s.bootFrom s.bootBank

/-- MAGIC and BODY_CRC of 4,096 bytes are right. -/
def bodyCrcOk (b : List Byte) : Bool := field b 0 4 == 0x4B505031 && crc32 (slice b 0x40 0x4C0) == field b 12 4

/-- ID_HMAC of 4,096 bytes verifies under K_MAKER. -/
def State.idHmacOk (s : State) (b : List Byte) : Bool := hmac256 (bytes32 s.mg.otp.kMaker) (slice b 0x40 0x3A0) == slice b 0x3E0 32

/-- The newer valid copy of the passport mirror and its number (R445, R446). -/
def State.mirror (s : State) : Option (Nat × List Byte) :=
  let c (k : Nat) := s.flashBytes (0x1004000 + 4096 * k) 4096
  let ok (k : Nat) := bodyCrcOk (c k) && s.idHmacOk (c k)
  if ok 0 && (!ok 1 || field (c 1) 8 4 ≤ field (c 0) 8 4) then some (0, c 0) else if ok 1 then some (1, c 1) else none

/-- Unwraps a role key from the body; a failure sets KEY_FAIL and raises source 0x002 (R457). -/
def State.unwrapKey (s : State) (n : Nat) : Option (BitVec 256) × State :=
  match keyUnwrap (bytes32 s.mg.otp.kWrap) (slice s.mg.body (0x400 + 40 * (n - 1)) 40) with
  | some k => (some (BitVec.ofNat 256 (leNat k)), s)
  | none => (none, (s.wr F.MG_PP_STAT.KEY_FAIL 1).raiseL 0x002 0x16 (unitForm n 0) 3)

/-- Keys of the run: none at all under OTP defaults (R445, R457). -/
def State.unwrapKeys (s : State) : State :=
  let s := s.wr F.MG_PP_STAT.KEY_FAIL 0
  if s.mg.body.isEmpty then s.modMg fun m => { m with keyOperator := none, keyInstaller := none }
  else
    let (o, s) := s.unwrapKey 1
    let (i, s) := s.unwrapKey 2
    s.modMg fun m => { m with keyOperator := o, keyInstaller := i }

/-- The verdict on the passport's install zone (R448): 0 accepted, 1 HMAC, 2 generation. -/
def State.zoneVerdict (s : State) (zone : List Byte) (last : Option (List Byte)) : Nat :=
  match s.mg.keyInstaller with
  | none => 1
  | some k =>
    if hmac256 (bytes32 k) (zone.take 0x7E0) != slice zone 0x7E0 32 then 1
    else
      match last with
      | none => 0
      | some z => if field z 0 4 < field zone 0 4 || zone == z then 0 else 2

/-- An install zone of 2,048 bytes, or none where the bytes are blank: none was ever accepted. -/
def zoneOf (z : List Byte) : Option (List Byte) := if z.all (· == 0xFF) then none else some z

/-- The install zone last accepted: that of the newer mirror copy, where one was accepted (R446, R448). -/
def State.lastZone (s : State) : Option (List Byte) := (s.mirror.map (·.2)).bind fun b => zoneOf (slice b 0x800 0x800)

/-- Writes the bytes in use, with the zone in use, to the older mirror copy (R446); with no zone in use its bytes stay erased (DESIGN CHOICE, log 224). -/
def State.mirrorWrite (s : State) : State :=
  let k := match s.mirror with
    | some (0, _) => 1
    | _ => 0
  let b := s.mg.body.take 0x800 ++ (if s.mg.zone.isEmpty then List.replicate 0x800 0xFF else s.mg.zone)
  (s.flashErase (0x1004000 + 4096 * k) 4096).flashPut (0x1004000 + 4096 * k) b

/-- The install-zone decision after a good passport read (R446, R448). -/
def State.decideZone (s : State) : State :=
  let zone := slice s.mg.body 0x800 0x800
  let mir := s.mirror.map (·.2)
  let last := s.lastZone
  let v := s.zoneVerdict zone last
  let s := s.flag F.MG_PP_STAT.INSTALL_OK (v == 0)
  let s := s.audit 0 6 11 (field zone 0 4) v 0
  let s := s.modMg fun m => { m with zone := if v = 0 then zone else last.getD [] }
  let s := if v = 0 then s else s.raiseL 0x008 0x16 (unitForm 0 (field zone 0 4)) 2
  if mir == some s.mg.body then s else s.mirrorWrite

/-- The end of the passport read with a source: 0 passport, 1 mirror, 2 OTP (R445). -/
def State.passportDone (s : State) (src : Nat) (body : List Byte) : State :=
  let s := (s.wr F.MG_PP_STAT.SOURCE src).modMg fun m =>
    { m with ppPending := false, body := body, serial := BitVec.ofNat 64 (field body 0x40 8), zone := [] }
  let s := if src = 0 then s else s.raiseL 0x002 0x16 (unitForm 0 0) src
  let s := s.unwrapKeys
  let z := Config.identityZone (slice body 0x40 448)
  let s := s.wr F.PS_HOLDUP.C_HOLD (if src = 2 then 0 else z.cHold.toNat)
  let s := s.modMg fun m =>
    { m with subsystem := if src = 2 then (0, 0) else (z.vendor.toNat, z.subsystem.toNat), imon := if src = 2 then [] else z.imon }
  if src = 0 then s.decideZone
  else (s.wr F.MG_PP_STAT.INSTALL_OK 0).modMg fun m => { m with zone := (zoneOf (slice body 0x800 0x800)).getD [] }

/-- No good read results: the mirror, otherwise OTP defaults (R445). -/
def State.passportFallback (s : State) : State :=
  match s.mirror with
  | some (_, b) => s.passportDone 1 b
  | none => s.passportDone 2 []

/-- A retry is due in 10 ms (R445). -/
def State.ppRetry (s : State) (nack : Bool) : State :=
  (s.modMg fun m => { m with ppPending := true, ppRetries := m.ppRetries + (if nack then 0 else 1)
                             ppNackRetries := m.ppNackRetries + (if nack then 1 else 0) }).bump F.MG_PP_STAT.RETRIES

/-- One read of the passport (R445). -/
def State.passportRead (s : State) (r : PpRead) : State :=
  let again := s.mg.ppRetries < 50
  let s := s.fieldLevel (r == .nackField)
  match r with
  | .answered =>
    let b := s.ppBytes 0 4096
    if !bodyCrcOk b then (if again then s.ppRetry false else s.passportFallback)
    else if s.idHmacOk b then s.passportDone 0 b
    else s.passportFallback
  | .genMismatch => if again then s.ppRetry false else s.passportFallback
  | .nackField => if again then s.ppRetry false else s.passportFallback
  | .nackFree => if s.mg.ppNackRetries < 2 then s.ppRetry true else s.passportFallback

/-! Settings lists (R449) -/

/-- The entries of a list: (role, word address, value), up to the first erased one. -/
def settingsEntries (bytes : List Byte) (n : Nat) : List (Nat × Nat × Nat) :=
  ((chunksOf 8 n bytes).takeWhile fun e => field e 0 4 != 0xFFFFFFFF).map fun e => (field e 3 1, field e 0 3, field e 4 4)

/-- The maker settings list of the booted bank. -/
def State.makerList (s : State) : List (Nat × Nat × Nat) := settingsEntries (s.flashBytes (s.bankBase + 0x14B000) 4096) 512

/-- The entries of the install zone in use: N of them after a header of 32 bytes. -/
def State.zoneList (s : State) : List (Nat × Nat × Nat) :=
  if s.mg.zone.isEmpty then []
  else (settingsEntries (s.mg.zone.drop 32) 240).take (field s.mg.zone 4 2)

/-- An entry is applied: within its list's authority, and naming an RWL field of its role. -/
def entryApplies (maxRole : Nat) (e : Nat × Nat × Nat) : Bool :=
  1 ≤ e.1 && e.1 ≤ maxRole && ((regAt e.2.1).any fun t => t.role ≤ e.1 && t.fields.any fun f => f.acc == .rwl)

/-! Warm reset (R438) -/

/-- A management warm reset: roles drop, per-path staging takes its warm-reset values, both cores reload from the bank in use;
everything else stays (R12, R438). -/
def State.warmReset (s : State) : State :=
  let s := [Path.spi, .head 0, .head 1, .head 2, .head 3].foldl (fun s p => (s.dropRole p 2).clearRole p) s
  let s := { s with regs := s.regs.foldl (fun (r : Sparse Word) (e : Nat × Word) => Sparse.put regPowerOn r e.1 (regWarm e.1 e.2)) s.regs }
  let s := s.modMg fun m => { m with fetchBuf := [], fetching := none, fwAt := some (s.now + Config.firmwareCycles s.free) }
  [Half.a, Half.b].foldl (fun s h => if (s.mg.core h).fw.isSome then s.loadCore (s.rd F.MG_STATUS.BANK) h else s) { s with free := s.free + 1 }

end Sys2Proof.Machine
end

