-- ==== Sys2Proof/Machine/Admission.lean ====
section
/-! DEFINITION. Admission of a Last: the Last image, the checks of Table FS-5 in the order of R71 with the reason codes of Table FS-7, the
charges, the sampling footprint and the budgets (02_frame_schedule.md R64 to R71, R77, R78, R490; 03 R79; 04 R122, R125, R139; 06 R213;
07 R242; 08 R260, R262, R281). -/
namespace Sys2Proof.Machine

/-! The image (R77, R78, R79) -/

/-- A Last image as read: header fields and the raw entries of its two tables. -/
structure LastImg where
  rateN : Nat
  rateD : Nat
  cutoff : Nat
  wend : Nat
  ts0 : Nat
  ts1 : Nat
  nbrK : Nat
  frameBase : Nat
  exp0 : Nat
  exp1 : Nat
  srcs : List (List Byte)
  streams : List (List Byte)
  deriving DecidableEq, Repr

/-- Reads a Last image; none for an image fault (reason 0x0A of R77). -/
def parseLast (img : List Byte) : Option LastImg :=
  let len := field img 8 4
  let body := img.take len
  let ns := field img 0x28 2
  let nt := field img 0x2A 2
  let so := field img 0x2C 4
  let st := field img 0x30 4
  if field img 0 4 ≠ 0x4B4C3031 || field img 4 2 ≠ 0x100 || field img 6 2 ≠ 64 || len < 64 || img.length < len ||
      crc32 (body.take 12 ++ List.replicate 4 0 ++ body.drop 16) ≠ field img 12 4 || ns = 0 || 16 < ns || nt = 0 || 512 < nt ||
      len < so + 32 * ns || len < st + 80 * nt || field img 0x1D 3 ≠ 0 || field img 0x38 8 ≠ 0 then none
  else
    some ⟨field img 0x10 4, field img 0x14 2, field img 0x16 2, field img 0x18 2, field img 0x1A 1, field img 0x1B 1, field img 0x1C 1,
      field img 0x20 8, field img 0x34 2, field img 0x36 2, (List.range ns).map fun i => slice img (so + 32 * i) 32,
      (List.range nt).map fun i => slice img (st + 80 * i) 80⟩

/-- Header parameters in range (R39, Table FS-1, NBR_K): reason 0x05 otherwise. -/
def LastImg.headerOk (l : LastImg) : Bool :=
  (l.rateD == 1000 || l.rateD == 1001) && 23976 * l.rateD ≤ l.rateN * 1000 && l.rateN ≤ 240 * l.rateD && 1024 ≤ l.cutoff &&
    l.cutoff ≤ l.wend && 3072 ≤ l.wend && l.wend ≤ 4032 && 6 ≤ l.nbrK && l.nbrK ≤ 12

/-- A source entry (Table FS-11). -/
def parseSrc (b : List Byte) : SrcCfg :=
  let f := field b 1 1
  ⟨field b 0 1, f.testBit 0, f.testBit 2, f.testBit 3, field b 2 1, field b 3 1, field b 4 2, field b 6 2, field b 8 8, field b 0x10 4,
    field b 0x14 2, field b 0x16 2, field b 0x18 2⟩

/-- Fields of a source entry lie within Table FS-11, but for SRC, which has units of its own (R78). -/
def srcFieldsOk (b : List Byte) : Bool :=
  let c := parseSrc b
  let f := field b 1 1
  f < 16 && f.testBit 0 == f.testBit 1 && c.head ≤ 3 && 1 ≤ c.maxSlots && c.maxSlots ≤ 4 && 1 ≤ c.width && c.width ≤ 16384 && 1 ≤ c.height &&
    c.height ≤ 16384 && 2 ≤ c.depth && c.dMax ≤ 4095 && c.delay ≤ c.dMax && field b 0x1A 6 == 0

/-- The unit of the source entry at a position that breaks R78, or none. -/
def srcFault (l : List (List Byte)) (i : Nat) : Option Nat :=
  let b := l.getD i []
  let n := field b 0 1
  if 15 < n || (l.take i).any (fun x => field x 0 1 == n) then some (256 + i) else if srcFieldsOk b then none else some n

/-- A stream descriptor (Table LE-1). -/
def parseStream (b : List Byte) : StreamCfg :=
  let sm := field b 6 1
  let f := field b 7 1
  let alt := field b 3 1
  ⟨field b 0 2, field b 2 1, if alt = 255 then none else some alt, field b 4 1, field b 5 1, sm % 4, sm / 4 % 4 + 2, f.testBit 0, f.testBit 1,
    field b 8 2 + 1, field b 10 2 + 1, (List.range 6).map fun k => toSigned 32 (field b (12 + 4 * k) 4), field b 0x28 8, field b 0x30 8,
    field b 0x38 1, field b 0x39 1, field b 0x3A 2, field b 0x3C 1, field b 0x3D 1, field b 0x40 4,
    (List.range 3).map fun k => field b (0x44 + 2 * k) 2⟩

/-- The descriptor at a position lies within Table LE-1 and refers to units that exist (R79). -/
def streamOk (srcs : List SrcCfg) (l : List (List Byte)) (i : Nat) : Bool :=
  let b := l.getD i []
  let st := parseStream b
  let sm := field b 6 1
  st.stream ≤ 511 && !(l.take i).any (fun x => field x 0 2 == st.stream) && st.engine ≤ 15 &&
    (match st.alt with | none => true | some a => a ≤ 15 && a != st.engine) && srcs.any (·.src == st.src) && st.head ≤ 3 && sm < 16 &&
    st.mode ≤ 2 && st.box ≤ 4 && field b 7 1 < 4 && st.gridW * st.gridH ≤ 65536 && field b 0x24 4 == 0 && st.gauze % 64 == 0 &&
    st.offs % 64 == 0 && (st.offsets || st.offs == 0) && st.format ≤ 2 && st.dither ≤ 2 && 1 ≤ st.chunkLamps && st.chunkLamps ≤ 1024 &&
    (st.format != 1 || st.chunkLamps % 2 == 0) && 8 ≤ st.share && st.share ≤ 64 && st.share % 2 == 0 && st.lut ≤ 63 && field b 0x3E 2 == 0 &&
    field b 0x4A 6 == 0

/-! Rates (0x09) -/

/-- Data rate of a code, MT/s (Table DI-2). -/
def rateMts (code : Nat) : Nat := 6400 + 800 * code

/-- Ranges of the 15 timing parameters, in the order of Table DC-3. -/
def timingRanges : List (Nat × Nat) :=
  [(22, 255), (16, 255), (16, 255), (32, 255), (48, 511), (24, 255), (8, 127), (32, 255), (16, 255), (4, 15), (8, 255), (8, 15), (8, 255),
    (256, 4095), (128, 4095)]

/-- The timing table of the booted bank for a rate (07, Table MG-4). -/
def State.timings (s : State) (rate : Nat) : List Nat :=
  Config.timingTable (s.flashBytes (s.bankBase + 0x148000) 4096) rate s.dm.density

/-- Every parameter of a rate lies within Table DC-3. -/
def State.timingsOk (s : State) (rate : Nat) : Bool :=
  (List.zip timingRanges ((s.timings rate) ++ List.replicate 15 0)).all fun r => r.1.1 ≤ r.2 && r.2 ≤ r.1.2

/-- Highest rate code of the ordering code's grade (R260). -/
def State.gradeTop (s : State) : Nat := if s.mg.otp.grade = 0 then 4 else 3

/-- The rates that a Last must name: those of the Last in force (R242), at start those of Last 0 once admitted, otherwise the trained
rates, of which there are none when no half trained (R262). -/
def State.wantedRates (s : State) : Option (Nat × Nat) :=
  match s.sched.cfg with
  | some l => some (l.ts0, l.ts1)
  | none =>
    match s.admStart, (s.lasts[0]?).join with
    | true, some l => some (l.ts0, l.ts1)
    | _, _ => s.dm.rates

/-- The timing sets that a Last names are available: reason 0x09 otherwise. -/
def State.ratesOk (s : State) (l : LastImg) : Bool :=
  l.ts0 ≤ 4 && l.ts1 ≤ 4 && l.ts1 ≤ l.ts0 && l.ts0 ≤ s.gradeTop && some (l.ts0, l.ts1) == s.wantedRates && s.timingsOk l.ts0 && s.timingsOk l.ts1

/-! Rings, assembly buffers, kept regions (0x06) -/

/-- The whole DPA range lies in the region. -/
def Region.covers (r : Region) (a n : Nat) : Bool := r.base * 2 ^ 28 ≤ a && a + n ≤ (r.base + r.size) * 2 ^ 28

/-- A ring's region and Twill mode (R122, R125), when its place, stride and depth pass (R55, R68, Table FS-5). -/
def State.ringOk (s : State) (t : RegionTable) (c : SrcCfg) : Bool :=
  match t.find c.ringBase with
  | none => false
  | some (_, r) =>
    match TwMode.ofTwill r.twill with
    | none => false
    | some m =>
      let g := 256 * r.nsub
      r.cls == 0 && s.twUsed.getLsbD m.code && c.ringBase % g == 0 && c.stride % g == 0 && c.slotBytes m ≤ c.stride &&
        c.dMax + 2 + b2n c.retain ≤ c.depth && r.covers c.ringBase ((c.depth - 1) * c.stride + c.slotBytes m)

/-- Assembly buffer bytes of a source (R139). -/
def SrcCfg.asmBytes (c : SrcCfg) : Nat := c.bw * 48 * c.depthBits

/-- Assembly buffer bytes of a half's sources up to and with source n. -/
def asmUsed (l : List SrcCfg) (h : Half) (n : Nat) : Nat :=
  l.foldl (fun a c => if half4 c.head = h && c.src ≤ n then a + c.asmBytes else a) 0

/-- Region i of the old table is kept in the new one (R212). -/
def keptIn (old new : RegionTable) (r : Region) : Bool :=
  new.regions.any fun q => q.base == r.base && q.size == r.size && q.il == r.il && q.hset == r.hset && q.twill == r.twill &&
    q.subBase == r.subBase && new.hash.getD q.hset [] == old.hash.getD r.hset []

/-- The region of table 0 that holds a source's ring is kept in the table (R213). -/
def ringKept (t0 t : RegionTable) (c : SrcCfg) : Bool := match t0.find c.ringBase with | some (_, r) => keptIn t0 t r | none => true

/-- Region table 0: that of Last 0 as admitted, else of its image. -/
def State.table0 (s : State) : Option RegionTable :=
  match (s.lasts[0]?).join with
  | some l => some l.map
  | none =>
    match s.parseRegions (s.flashBytes (s.bankBase + 0x140000) 0x2000) with
    | .inr t => some t
    | .inl _ => none

/-- Source entries of Last 0's image, when it can be read (R65). Where the image is absent or unreadable there is nothing to compare with: check
0x0B is passed over and R213 does not bind (DESIGN CHOICE, log 172). -/
def State.srcs0 (s : State) : Option (List (List Byte)) := (parseLast (s.flashBytes (s.bankBase + 0x100000) 0x10000)).map (·.srcs)

/-- A Last carries a source table of its own (R66): another than that of the Last in force, or of Last 0 while none is in force. -/
def State.newSources (s : State) (raw : List (List Byte)) : Bool :=
  match s.sched.cfg with
  | some l => decide (l.srcs ≠ raw.map parseSrc)
  | none => match s.srcs0 with | some z => decide (z ≠ raw) | none => true

/-- The source's ring region is kept in every other region table that R213 binds: those of table `n` against table 0, and for table 0 those of the
other available Lasts with the same source table. -/
def State.regionsKept (s : State) (n : Nat) (srcs : List SrcCfg) (t : RegionTable) (c : SrcCfg) : Bool :=
  if n = 0 then [1, 2, 3].all fun k => match (s.lasts[k]?).join with | some l => l.srcs != srcs || ringKept t l.map c | none => true
  else match s.table0 with | some t0 => ringKept t0 t c | none => true

/-- Units of source faults (0x06): entries, rings, assembly buffers and R213 as one check. -/
def State.srcFaults (s : State) (n : Nat) (raw : List (List Byte)) (t : RegionTable) : List Nat :=
  let ids := List.range raw.length
  let bad := ids.filterMap (srcFault raw)
  let good := ((ids.filter fun i => (srcFault raw i).isNone).map fun i => parseSrc (raw.getD i []))
  let kept := fun c => (!s.admStart && s.newSources raw) || s.regionsKept n (raw.map parseSrc) t c
  bad ++ (good.filter fun c => !s.ringOk t c || 1310720 < asmUsed good (half4 c.head) c.src || !kept c).map (·.src)

/-! Charges (R67 to R69, R490, Table FS-5) -/

/-- `groups` of 02. -/
def groups (base bytes nsub : Nat) : Nat := (base + bytes - 1) / (256 * nsub) - base / (256 * nsub) + 1

/-- `charge` of 02: sectors per subchannel. -/
def charge (base bytes nsub : Nat) : Nat := 4 * groups base bytes nsub

/-- Range of coordinates, in pixels before clamping, that a sample can fetch on one axis for positions from lo to hi (R90). -/
def StreamCfg.reach (st : StreamCfg) (lo hi : Int) : Int × Int :=
  if st.mode = 0 then (rnd lo 16, rnd hi 16)
  else if st.mode = 1 then (lo / 65536, hi / 65536 + 1)
  else
    let o := ((st.box : Int) - 2) * 32768
    ((lo - o) / 65536, (hi - o) / 65536 + st.box - 1)

/-- Block columns and block rows that lamp n can fetch (R490): with offsets every s8.8 value counts. -/
def StreamCfg.lampReach (st : StreamCfg) (c : SrcCfg) (n : Nat) : (Nat × Nat) × (Nat × Nat) :=
  let lo := st.pos n (if st.offsets then -32768 else 0) (if st.offsets then -32768 else 0)
  let hi := st.pos n (if st.offsets then 32767 else 0) (if st.offsets then 32767 else 0)
  let x := st.reach lo.1 hi.1
  let y := st.reach lo.2 hi.2
  let a := c.clamp (x.1, y.1)
  let b := c.clamp (x.2, y.2)
  ((a.1 / 32, b.1 / 32), (a.2 / 4, b.2 / 4))

/-- Adds block columns to the row segment of a block row. -/
def addSeg (m : Sparse (Nat × Nat)) (by' : Nat) (x : Nat × Nat) : Sparse (Nat × Nat) :=
  match Sparse.find m by' with
  | none => Sparse.ins m by' x
  | some y => Sparse.ins m by' (min x.1 y.1, max x.2 y.2)

/-- Row segments of a stream's sampling footprint: block row to lowest and highest block column (R490). -/
def StreamCfg.segments (st : StreamCfg) (c : SrcCfg) : Sparse (Nat × Nat) :=
  (List.range st.lamps).foldl (fun m n =>
    let r := st.lampReach c n
    (List.range (r.2.2 - r.2.1 + 1)).foldl (fun m k => addSeg m (r.2.1 + k) r.1) m) []

/-- Sampling charge of a stream (R490). -/
def StreamCfg.sampling (st : StreamCfg) (c : SrcCfg) (m : TwMode) (nsub : Nat) : Nat :=
  (st.segments c).foldl (fun a seg =>
    let lo := seg.1 * c.bw + seg.2.1
    let hi := seg.1 * c.bw + seg.2.2
    let place := 64 * m.place
    let map := match m with
      | .tl => charge (c.ringBase + 576 * (c.bw * c.bh) + lo / 2) (hi / 2 - lo / 2 + 1) nsub
      | _ => 0
    a + charge (c.ringBase + place * lo) (place * (hi - lo + 1)) nsub + map) 0

/-- One charge: the region it lands on, sectors per subchannel, the half near its origin, and whether it is a write. -/
structure Load where
  il : Nat
  n : Nat
  near : Half
  inbound : Bool
  deriving DecidableEq, Repr

/-- The charge lands on a half. -/
def Load.on (l : Load) (h : Half) : Bool := l.il == 0 || l.il == h.idx + 1

/-- Charges of the sources and streams of a Last: the four demand rows of Table FS-5. -/
def loads (t : RegionTable) (srcs : List SrcCfg) (sts : List StreamCfg) : List Load :=
  let at' := fun a => (t.find a).map (·.2)
  let ingest := srcs.filterMap fun c => (at' c.ringBase).bind fun r => (TwMode.ofTwill r.twill).map fun m =>
    (⟨r.il, c.maxSlots * charge c.ringBase (c.slotBytes m) r.nsub, half4 c.head, true⟩ : Load)
  let stream := sts.map fun st =>
    let near := engHalf st.engine
    let g := (at' st.gauze).map fun r => (⟨r.il, charge st.gauze (24 * st.lamps) r.nsub, near, false⟩ : Load)
    let o := if st.offsets then (at' st.offs).map fun r => (⟨r.il, charge st.offs (4 * st.lamps) r.nsub, near, false⟩ : Load) else none
    let p := (srcs.find? (·.src == st.src)).bind fun c => (at' c.ringBase).bind fun r => (TwMode.ofTwill r.twill).map fun m =>
      (⟨r.il, st.sampling c m r.nsub, near, false⟩ : Load)
    g.toList ++ o.toList ++ p.toList
  ingest ++ stream.flatten

/-- Demand charges of a subchannel of a half (every subchannel of a half alike, R68). -/
def demandOn (ls : List Load) (h : Half) : Nat := ls.foldl (fun a l => if l.on h then a + l.n else a) 0

/-- Charges that cross the Welt into (writes) or out of (reads) the far half, in one direction (Table FS-5, Welt). -/
def weltLoad (ls : List Load) (fr : Half) : Nat :=
  ls.foldl (fun a l =>
    let far := l.near.other
    if !l.on far then a else if (if l.inbound then l.near else far) = fr then a + 8 * l.n else a) 0

/-- R_ts (Table FS-6, R69) of a density code, ranks and data rate. -/
def refreshCharge (density ranks mt : Nat) : Nat := (([48, 64, 96].getD density 96) * ranks * mt + 9599) / 9600

/-- n_ref of Table FS-5: intervals of 1.95 µs in the production window. -/
def LastImg.nref (l : LastImg) : Nat := (l.wend * l.rateD * 100000000 + 4096 * l.rateN * 195 - 1) / (4096 * l.rateN * 195)

/-- Tracking charge of Table FS-5. -/
def LastImg.tracking (l : LastImg) : Nat := 64 * ((l.rateD * 1000 + 32 * l.rateN - 1) / (32 * l.rateN))

/-- budget_sub of R70. -/
def LastImg.budgetSub (l : LastImg) (mt : Nat) : Nat := 7 * mt * 1000000 * 4 * l.wend * l.rateD / (10 * 4096 * l.rateN * 64)

/-- budget_welt of R70. -/
def LastImg.budgetWelt (l : LastImg) : Nat := 7 * 200000000000 * l.wend * l.rateD / (10 * 4096 * l.rateN * 64)

/-- lps of R70. -/
def LastImg.lps (l : LastImg) : Nat := 1200000000 * l.rateD / (l.rateN * 4096)

/-- max_chunk_bytes of R70: 32 and the payload of the largest chunk. -/
def StreamCfg.maxChunk (st : StreamCfg) : Nat := 32 + payloadBytes st.format (min st.chunkLamps st.lamps)

/-- cost of R70. -/
def StreamCfg.cost (st : StreamCfg) (lps : Nat) : Nat := (st.lamps + lps - 1) / lps * (if st.share * 1024 < 2 * st.maxChunk then 2 else 1)

/-- All charges of one subchannel of a half at a data rate. -/
def State.subTotal (s : State) (l : LastImg) (ls : List Load) (mt : Nat) (h : Half) : Nat :=
  let d := demandOn ls h
  d + 2 * ((d + 2 ^ l.nbrK - 1) / 2 ^ l.nbrK) + l.nref * refreshCharge s.dm.density s.dm.ranks mt + l.tracking

/-- What a subchannel of a half may carry: 7/8 of the budget in spare-subchannel mode (R281). -/
def State.subLimit (s : State) (l : LastImg) (mt : Nat) (h : Half) : Nat :=
  if s.on (F.DI_SPARE.ACTIVE h.idx) then 7 * l.budgetSub mt / 8 else l.budgetSub mt

/-- Worst utilisation at a rate: subchannel and ‰ (R71). -/
def State.worst (s : State) (l : LastImg) (ls : List Load) (mt : Nat) : Nat × Nat :=
  let u := fun h => s.subTotal l ls mt h * 1000 / max 1 (l.budgetSub mt)
  if u .a < u .b then (8, u .b) else (0, u .a)

/-- Sum of the n largest of a list. -/
def sumLargest : Nat → List Nat → Nat
  | 0, _ => 0
  | n + 1, l => match l.foldl max 0 with | 0 => 0 | m => m + sumLargest n (l.erase m)

/-- The budget checks, in the order of R71: 0x01 to 0x04; none when all pass. -/
def State.budgetFault (s : State) (l : LastImg) (ls : List Load) (sts : List StreamCfg) : Option (Nat × Nat) :=
  let mts := [rateMts l.ts0, rateMts l.ts1]
  let exceeded := fun h => mts.any fun mt => s.subLimit l mt h < s.subTotal l ls mt h
  let of := fun e => sts.filter fun st => st.engine == e
  if exceeded .a then some (1, 0)
  else if exceeded .b then some (1, 8)
  else if l.budgetWelt < weltLoad ls .a then some (2, 0)
  else if l.budgetWelt < weltLoad ls .b then some (2, 1)
  else
    match (List.range 16).find? fun e => l.wend < (of e).foldl (fun a st => a + st.cost l.lps) 0 with
    | some e => some (3, e)
    | none => ((List.range 16).find? fun e => 64 < sumLargest 8 ((of e).map (·.share))).map fun e => (4, e)

/-! The verdict -/

/-- What admission finds: reason and unit (reason 0 for admitted), worst subchannel and ‰ at both timing sets when worked out, the Last,
and the figures of its header. -/
structure Verdict where
  reason : Nat
  unit : Nat := 0
  util : Option ((Nat × Nat) × (Nat × Nat)) := none
  cfg : Option LastCfg := none
  exp : Nat × Nat := (0, 0)
  map : Option RegionTable := none
  deriving DecidableEq, Repr

/-- A Gauze or offset table lies in a Frame region with TWILL 0 (R79). -/
def tableOk (t : RegionTable) (a n : Nat) : Bool := match t.find a with | some (_, r) => r.cls == 0 && r.twill == 0 && r.covers a n | none => false

/-- Units of sources whose entries differ from Last 0's, position by position (R65). -/
def srcDiffs (a b : List (List Byte)) : List Nat :=
  ((List.range (max a.length b.length)).filter fun i => a[i]? != b[i]?).map fun i => field ((a[i]?).getD (b.getD i [])) 0 1

/-- The smallest of a list. -/
def least (l : List Nat) : Option Nat := l.foldl (fun m x => some (match m with | none => x | some y => min x y)) none

/-- n flash bytes from a; none of them where an operation on them was cut off, which fails their check (R461). -/
def State.wholeBytes (s : State) (a n : Nat) : List Byte := if s.tornAt a n then [] else s.flashBytes a n

/-- Admission of Last n (R71): the checks in their order, stopping at the first that fails. -/
def State.verdict (s : State) (n : Nat) : Verdict :=
  let img := s.wholeBytes (s.bankBase + 0x100000 + 0x10000 * n) 0x10000
  let rgn := s.parseRegions (s.wholeBytes (s.bankBase + 0x140000 + 0x2000 * n) 0x2000)
  if s.lastActive n then { reason := 0x0C }
  else
    match parseLast img, rgn with
    | none, .inr t => { reason := 0x0A, map := some t }
    | none, .inl _ => { reason := 0x0A }
    | some _, .inl (0x0A, _) => { reason := 0x0A }
    | some l, .inl (_, u) =>
      if !l.headerOk then { reason := 5 } else if !s.ratesOk l then { reason := 9 } else { reason := 7, unit := u }
    | some l, .inr t =>
      if !l.headerOk then { reason := 5, map := some t }
      else if !s.ratesOk l then { reason := 9, map := some t }
      else
        match (if s.admStart && n ≠ 0 then s.srcs0.bind (fun z => least (srcDiffs l.srcs z)) else none), least (s.srcFaults n l.srcs t) with
        | some u, _ => { reason := 0x0B, unit := u, map := some t }
        | none, some u => { reason := 6, unit := u, map := some t }
        | none, none =>
          let srcs := l.srcs.map parseSrc
          let sts := l.streams.map parseStream
          let bad := (List.range sts.length).filter fun i => !streamOk srcs l.streams i
          let off := sts.filter fun st => !(tableOk t st.gauze (24 * st.lamps) && (!st.offsets || tableOk t st.offs (4 * st.lamps)))
          match least (bad.map fun i => field (l.streams.getD i []) 0 2), least (off.map (·.stream)) with
          | some u, _ => { reason := 8, unit := u, map := some t }
          | none, some u => { reason := 7, unit := u, map := some t }
          | none, none =>
            let ls := loads t srcs sts
            let util := (s.worst l ls (rateMts l.ts0), s.worst l ls (rateMts l.ts1))
            match s.budgetFault l ls sts with
            | some (r, u) => { reason := r, unit := u, util := some util, exp := (l.exp0, l.exp1), map := some t }
            | none =>
              { reason := 0, util := some util, exp := (l.exp0, l.exp1), map := some t
                cfg := some ⟨l.rateN, l.rateD, l.cutoff, l.wend, l.ts0, l.ts1, l.nbrK, l.frameBase, srcs, sts, t⟩ }

/-- The registers of a verdict (R71). What FS_ADMIT_UTIL shows after a refusal that comes before the budget checks is left open: DESIGN CHOICE (log 237),
0 in every field. -/
def State.showVerdict (s : State) (n : Nat) (v : Verdict) : State :=
  let s := ((((s.wr F.FS_ADMIT_RESULT.DONE 1).flag F.FS_ADMIT_RESULT.OK (v.reason == 0)).wr F.FS_ADMIT_RESULT.LAST n).wr F.FS_ADMIT_RESULT.UNIT v.unit).wr
    F.FS_ADMIT_RESULT.REASON v.reason
  let u := v.util.getD ((0, 0), (0, 0))
  (((s.wr F.FS_ADMIT_UTIL.SUB_TS0 u.1.1).wr F.FS_ADMIT_UTIL.UTIL_TS0 (min u.1.2 1023)).wr F.FS_ADMIT_UTIL.SUB_TS1 u.2.1).wr F.FS_ADMIT_UTIL.UTIL_TS1
    (min u.2.2 1023)

/-- Messages of a verdict (R64, R71). -/
def State.verdictMsgs (s : State) (n : Nat) (v : Verdict) : State :=
  let s := if v.reason = 0 then s else s.raiseL 0x010 0x16 (unitForm n v.reason) 2
  let s := if v.reason ≠ 0 && s.admStart && n = 0 then s.raiseL 0x011 0x16 (unitForm 0 v.reason) 2 else s
  match v.util with
  | some u =>
    let got := (min u.1.2 1023, min u.2.2 1023)
    if got = v.exp then s else s.raiseL 0x012 0x16 (unitForm n (got.1 + 1024 * got.2)) 0
  | none => s

/-- Admission of the Last under way ends (R64, R66, R489): it becomes available, and is armed, or at start Last 0 is activated at the first
tick target; an ADMIT makes its audit entry (R458); region table 0 comes into force at start when it passes its own rules, even when Last 0 is refused. -/
def State.admissionEnd (s : State) (n : Nat) : State :=
  let v := s.verdict n
  let s := (s.showVerdict n v).verdictMsgs n v
  let s := match s.admBy with | some q => s.audit q.1 q.2 4 n (s.word F.FS_ADMIT_RESULT.DONE.a).toNat 0 s.split | none => s
  let ok := v.reason = 0 && !s.admTouched
  let s := if v.reason = 0x0C then s else { s with lasts := s.lasts.setIfInBounds n (if ok then v.cfg else none) }
  let s := { s with admitting := none, admTouched := false, admBy := none }
  if s.admStart then
    let s := if n = 0 then (match v.map with | some t => s.modScheds fun c => { c with map := t } | none => s) else s
    let s := if n = 0 && ok then s.modScheds fun c => { c with armed := some 0, actAt := some (0, 0, 0) } else s
    match s.admQueue with
    | [] => { s with admStart := false }
    | k :: t => { s with admQueue := t, admitting := some k }
  else if v.reason = 0x0C then s
  else if ok then s.modSched s.leader fun c => { c with armed := some n, actAt := none }
  else s.modSched s.leader fun c => if c.armed == some n then { c with armed := none, actAt := none } else c

/-- ADMISSION_DONE: the admission under way ends. -/
def admissionDone (s : State) : State := match s.admitting with | some n => s.admissionEnd n | none => s

/-- ADMIT of FS_LAST_CTRL starts admission of a Last; one already under way goes on and the new one is not started (DESIGN CHOICE). -/
def State.admitStart (s : State) (n : Nat) : State :=
  if s.admitting.isSome then s else { s with admitting := some n, admStart := false, admTouched := false }

end Sys2Proof.Machine
end

