-- ==== Sys2Proof/Machine/Phy.lean ====
section
/-! DEFINITION. The commands of the DRAM interface: start-up training, tracking, retraining steps, marks and retirement, rebuilds, DLL
relocks (08_dram_interface_training.md; 11 R341, Table CK-4). -/
namespace Sys2Proof.Machine

/-! Sweeps (R265) -/

/-- Best start, best length and present run of a sweep. -/
structure SweepRun where
  best : Nat
  blen : Nat
  run : Nat
  deriving DecidableEq, Repr

/-- One setting of a sweep. -/
def SweepRun.next (a : SweepRun) (i : Nat) (pass : Bool) : SweepRun :=
  if pass then
    let run := a.run + 1
    if a.blen < run then ⟨i + 1 - run, run, run⟩ else { a with run := run }
  else { a with run := 0 }

/-- `centre` of R265: centre and width, or none. -/
def centre (pass : List Bool) : Option (Nat × Nat) :=
  let r := (List.zip (List.range pass.length) pass).foldl (fun a p => a.next p.1 p.2) (⟨0, 0, 0⟩ : SweepRun)
  if r.blen = 0 then none else some (r.best + (r.blen - 1) / 2, r.blen)

/-- Passing settings of a sweep of n settings whose first one is `first`: every burst of the test matched, and the setting exists (R264). -/
def sweepIn (hits : List Nat) (need n : Nat) (first : Int) (top : Nat) : List Bool :=
  (List.range n).map fun i => decide (need ≤ hits.getD i 0) && decide (0 ≤ first + i) && decide (first + (i : Int) ≤ top)

/-- Centre of a sweep as a setting, and its width. -/
def sweepCentre (hits : List Nat) (need n : Nat) (first : Int) (top : Nat) : Option (Nat × Nat) :=
  (centre (sweepIn hits need n first top)).map fun c => ((first + c.1).toNat, c.2)

/-- What a Vref sweep chooses: the code and its height, the delay at that code and its width. -/
structure VrefPick where
  code : Nat
  height : Nat
  delay : Nat
  width : Nat
  deriving DecidableEq, Repr

/-- The Vref sweep of R265: a code passes when the delay sweep at it is at least `minW` wide; the code is the centre of the passing ones and the
delay the centre of the sweep there. -/
def vrefSweep (rows : List (List Nat)) (need codes : Nat) (vfirst : Int) (settings : Nat) (dfirst : Int) (minW : Nat) : Option VrefPick :=
  let at' := fun i => sweepCentre (rows.getD i []) need settings dfirst 2047
  let hits := (List.range codes).map fun i => match at' i with | some c => if minW ≤ c.2 then need else 0 | none => 0
  (sweepCentre hits (max need 1) codes vfirst 127).bind fun v =>
    (at' ((v.1 : Int) - vfirst).toNat).map fun d => ⟨v.1, v.2, d.1, d.2⟩

/-! Start-up training (R262 to R267) -/

/-- Bursts of a test at start, and in tracking and retraining (R264). -/
def startBursts : Nat := 64
def stepBursts : Nat := 8

/-- Bursts that matched in the tests of a lane: the read sweeps, the write sweeps, the training check (R264). -/
def rdHits (l : LaneSweep) (bursts : Nat) : List (List Nat) := l.rd.map fun row => row.map (hitsOf (Config.readPattern l.dev.val) bursts)
def wrHits (l : LaneSweep) (bursts : Nat) : List (List Nat) := l.wr.map fun row => row.map (hitsOf (writePattern l.dev.val) bursts)
def checkHits (l : LaneSweep) (bursts : Nat) : List Nat := l.check.map (hitsOf (writePattern l.dev.val) bursts)

/-- The eye of two Vref sweeps is wide and high enough (R265, R266). -/
def eyeOk (r w : VrefPick) (minW minH : Nat) : Bool := minW ≤ min r.width w.width && minH ≤ min r.height w.height

/-- Settings of one lane from its start-up sweeps, or none without a working setting (R265, R266). -/
def laneSettings (l : LaneSweep) (minW minH : Nat) : Option DevSet :=
  match vrefSweep (rdHits l startBursts) startBursts 128 0 128 0 minW, vrefSweep (wrHits l startBursts) startBursts 128 0 128 0 minW with
  | some r, some w =>
    if eyeOk r w minW minH then
      some { rd := r.delay, wr := w.delay, phyVref := r.code, dramVref := w.code, eyeW := min (min r.width w.width) 511
             eyeH := min (min r.height w.height) 255, base := l.oscCount, gate := l.gate }
    else none
  | _, _ => none

/-- Settings that every lane passes, as hits of a sweep (R264). -/
def allHits (need : Nat) (lanes : List (List Nat)) : List Nat :=
  (List.range (lanes.foldl (fun n l => min n l.length) 2048)).map fun i => if lanes.all fun l => need ≤ l.getD i 0 then need else 0

/-- CS_DLY, and CA_VREF with CA_DLY, of a subchannel at one rate from the sweeps of its unmarked lanes; none when CS or CA training fails
(Table DI-4, step 3). -/
def caSettings (lanes : List CaSweep) (minW : Nat) : Option (Nat × VrefPick) :=
  let rows := (List.range 128).map fun v => allHits startBursts (lanes.map fun l => l.ca.getD v [])
  (sweepCentre (allHits startBursts (lanes.map (·.cs))) startBursts 2048 0 2047).bind fun cs =>
    (vrefSweep rows startBursts 128 0 2048 0 minW).map fun ca => (cs.1, ca)

/-- The i-th result of a device in a list: the first listed is at RATE0, the second at RATE1. -/
def nthOf (f : α → Bool) (l : List α) (i : Nat) : Option α := (l.filter f)[i]?

/-- Trained rates of a subchannel. -/
def State.trainedRates (s : State) (n : Nat) : List Nat :=
  let a := s.rd (F.DI_n_STATUS.RATE0 n)
  let b := s.rd (F.DI_n_STATUS.RATE1 n)
  if a = b then [a] else [a, b]

/-- Settings of a device at every trained rate; none when one is missing: a lane that fails at any trained rate counts as without a working
setting (DESIGN CHOICE, log 178: "not trained at either rate" of R266 can also be read as trained at neither). -/
def State.trainDevice (s : State) (n : Nat) (lanes : List LaneSweep) (m : Nat) : Option (List DevSet) :=
  let minW := s.rd (F.DI_n_LIMITS.MIN_EYE_W n)
  let minH := s.rd (F.DI_n_LIMITS.MIN_EYE_H n)
  (List.range (s.trainedRates n).length).mapM fun i => (nthOf (·.dev.val == m) lanes i).bind fun l => laneSettings l minW minH

/-- CS and CA settings of a subchannel at its i-th trained rate; none when a lane without a mark gave no result or training fails. -/
def State.trainCa (s : State) (n : Nat) (ca : List CaSweep) (devs : List Nat) (i : Nat) : Option (Nat × VrefPick) :=
  (devs.mapM fun m => nthOf (fun (l : CaSweep) => l.dev.val == m) ca i).bind fun ls => caSettings ls (s.rd (F.DI_n_LIMITS.MIN_EYE_W n))

/-- Retirement at start (Table DI-5): quiet in the controller, reported with its cause. -/
def State.retireStart (s : State) (n cause : Nat) : State :=
  if (s.sub n).retired then s
  else
    let s := s.modSub n fun u => { u with retired := true, sr := s.rankMask }
    let s := if (s.health n).retired then s else s.recordHealth n fun u => { u with retired := true }
    let s := s.dropWakes n
    (((s.wr (F.DC_n_STATUS.STATE n) 5).wr (F.DI_n_STATUS.STATE n) 4).wr (F.DI_n_STATUS.ERASURE n) 0).subMsg n 5 7 n (s.sub n).marks.length cause

/-- A remapped subchannel: its storage is served from the reserve (R280, R283). -/
def State.setRemapped (s : State) (n : Nat) : State :=
  let h := subHalf n
  let s := ((s.modSub n fun u => { u with retired := false, sr := s.rankMask }).dropWakes n).modMh h fun m => { m with spare := some n }
  let s := (s.wr (F.DI_SPARE.IN_USE h.idx) 1).wr (F.DI_SPARE.SUBCH h.idx) n
  (s.wr (F.DI_n_STATUS.STATE n) 5).wr (F.DC_n_STATUS.STATE n) 5

/-- All subchannels of a half are trained: the lowest-numbered one with a mark or a retirement takes the spare (R283). -/
def State.assignSpare (s : State) (h : Half) : State :=
  if (halfSubs h).any (fun n => s.rd (F.DI_n_STATUS.STATE n) == 1) || !s.on (F.DI_SPARE.ACTIVE h.idx) || s.on (F.DI_SPARE.IN_USE h.idx) then s
  else
    match (halfSubs h).find? fun n => (s.sub n).retired || !(s.sub n).marks.isEmpty with
    | some n => s.setRemapped n
    | none => s

/-- Every recorded mark of a subchannel raises its fault again at start (R278). -/
def State.recordedMarks (s : State) (n : Nat) : State := (s.health n).marks.foldl (fun s m => s.markOne n m 4) s

/-- The ZQ calibration of a half's PHY fails: all its subchannels are retired, the recorded marks and retirements reported (R278, Table DI-5). Table FC-5
has no cause for it: DESIGN CHOICE (log 232), cause 0 where the record names none. -/
def State.zqFails (s : State) (h : Half) : State :=
  (halfSubs h).foldl (fun s k => let s := s.recordedMarks k; s.retireStart k (if (s.health k).retired then 5 else 0)) s

/-- What start-up training found for a subchannel: its settings at every trained rate, and its ranks ask to leave self-refresh in row 5 of Table
DC-5 (R254, R261). -/
def State.applyTraining (s : State) (n : Nat) (found : List (Nat × Option (List DevSet))) (cas : List (Option (Nat × VrefPick))) : State :=
  let rates := s.trainedRates n
  let sets := (List.range rates.length).map fun i =>
    let devs := (List.range 20).map fun m => (((found.find? (·.1 == m)).bind (·.2)).bind fun l => l[i]?).getD {}
    match (cas[i]?).join with
    | some c => (⟨rates.getD i 0, c.1, c.2.delay, c.2.code, devs⟩ : RateSet)
    | none => ⟨rates.getD i 0, 0, 0, 0, devs⟩
  let s := s.modSub n fun u => { u with sets := sets, trained := true, sr := s.rankMask, refPos := Vector.replicate 2 0 }
  let s := (s.wr (F.CK_CH_n.RATE n) (rates.getD 0 0)).wr (F.CK_CH_n.Q n) (qCode (6400 + 800 * rates.getD 0 0))
  let s := (s.flag (F.DC_n_STATUS.RFM_REQ n) ((List.range s.dm.ranks).any fun r => (Config.refreshManagement n r).asks)).wr (F.CK_DLL_n.STATE n) 2
  let s := ((s.wr (F.DI_n_STATUS.STATE n) 2).wr (F.DC_n_STATUS.STATE n) 1).showSub n
  (List.range s.dm.ranks).foldl (fun s r => s.askWake (.exit n r)) s

/-- TRAINING_DONE (R267, Table DI-5): a retirement because CS or CA training fails has no cause in Table FC-5; DESIGN CHOICE (log 232): it shows 1, as
for a second device. The sweeps of the lanes at each trained rate, those of CS and CA, and ZQ calibration decide the subchannel's
state. -/
def trainingDone (n : Fin 16) (lanes : List LaneSweep) (ca : List CaSweep) (zqOk : Bool) (s : State) : State :=
  let n := n.val
  let h := subHalf n
  if s.rd (F.DI_n_STATUS.STATE n) ≠ 1 then s
  else if !zqOk then s.zqFails h
  else
    let rec0 := (s.health n).marks
    let s := s.recordedMarks n
    let devs := (List.range (10 * s.dm.ranks)).filter fun m => !rec0.contains m
    let cas := (List.range (s.trainedRates n).length).map fun i => s.trainCa n ca devs i
    let found := devs.map fun m => (m, s.trainDevice n lanes m)
    let s := (found.filter fun p => p.2.isNone).foldl (fun s p => s.markOne n p.1 1) s
    let s := s.applyTraining n found cas
    let s := if (s.health n).retired then s.retireStart n 5
      else if 2 ≤ (s.sub n).marks.length || cas.any (·.isNone) then s.retireStart n (if 2 ≤ rec0.length then 5 else 1)
      else s
    s.assignSpare h

/-! Tracking (R268, R269) -/

/-- One device's measurement: the state after, and whether the rank needs a retraining. -/
def State.trackDevice (s : State) (n m count : Nat) : State × Bool :=
  let r := s.applyDrift n (s.rateOf n) m count
  (if r.2.1 then r.1 else r.1.showDev n m, r.2.2)

/-- A subchannel is online: it runs, and its half's memory clock is not held. -/
def State.online (s : State) (n : Nat) : Bool :=
  s.runs n && !s.on (F.CK_h_STATUS.MEM_HOLD (subHalf n).idx) && !s.stopping (subHalf n)

/-- TRACKING_MEASUREMENT (R45, R268, R269, Table AR-7), in the production window: counts of the rank's devices by lane; skipped while the rank is
offline or asleep. -/
def trackingMeasurement (n : Fin 16) (rank : Fin 2) (counts : List (Fin 10 × Nat)) (s : State) : State :=
  let n := n.val
  if !s.tracks (subHalf n) || !s.online n || !(s.awake n).contains rank.val then s
  else
    let s := s.bump (F.DI_n_TRACK.RUNS n)
    let go := (counts.filter fun c => !(s.sub n).marks.contains (10 * rank.val + c.1.val)).foldl
      (fun (a : State × Bool) c => let r := a.1.trackDevice n (10 * rank.val + c.1.val) c.2; (r.1, a.2 || r.2)) (s, false)
    if go.2 then go.1.trackAsks n rank.val else go.1

/-! Retraining steps (R272 to R276) -/

/-- Nothing but the window keeps a pending step: its subchannel has had no step or change in this window and its rank is awake (R247, R273). -/
def State.stepOpen (s : State) (t : TrainStep) : Bool :=
  s.runs t.sub && !(s.offlineOf (subHalf t.sub)).contains t.sub && (s.awake t.sub).contains t.rank

/-- The step that comes next in the window of a half: the first pending one that may run, after all frequency changes (R273). -/
def State.nextStep (s : State) (h : Half) : Option TrainStep :=
  let mine := fun k => (s.halvesOf h).contains (subHalf k)
  if s.dm.freqPend.any fun r => mine r.sub then none else s.dm.steps.find? fun t => mine t.sub && s.stepOpen t

/-- A step of a kind may run on a subchannel now. -/
def State.stepReady (s : State) (kind n : Nat) : Option TrainStep :=
  match s.nextStep (subHalf n) with
  | some t => if t.kind = kind && t.sub = n && s.mayGoOffline n && s.roomFor (subHalf n) 25 then some t else none
  | none => none

/-- The granule of a rank that a step borrows: the one named, among those of the rank (R274). -/
def State.borrowed (s : State) (rank granule : Nat) : Nat :=
  let per := 2 ^ (rankBits s.dm.density - 8)
  rank * per + granule % per

/-- A step reads the four lines of a borrowed granule, decoded and corrected, and writes them back when its tests are done (R274). A line that does
not decode goes back as its symbols stand (DESIGN CHOICE, log 185: the spec states no data for it). -/
def State.borrow (s : State) (n g : Nat) : State :=
  (List.range 4).foldl (fun s i =>
    let line := g * 4 + i
    match s.decodeLine n line with
    | .clean d => s.storeLine n line d false
    | .corrected d _ _ => s.storeLine n line d false
    | .poison => s.storeLine n line 0 true
    | .uncorrectable => s) ((s.activateOnly n g).activateOnly n g)

/-- Books a step that has run (DI_n_RETRAIN). -/
def State.bookStep (s : State) (t : TrainStep) (us : Nat) : State :=
  let s := (s.takeOffline t.sub).modDm fun d => { d with steps := d.steps.filter (· != t) }
  let s := (s.bump (F.DI_n_RETRAIN.STEPS t.sub)).wr (F.DI_n_RETRAIN.LAST_KIND t.sub) t.kind
  (s.wr (F.DI_n_RETRAIN.LAST_US t.sub) (min us 255)).notePending t.sub

/-- Replaces the settings of the rate in force when every device found one; else marks those that did not (R275, R276). -/
def State.applySweep (s : State) (n : Nat) (found : List (Nat × Option DevSet)) : State :=
  let bad := (found.filter fun p => p.2.isNone).map (·.1)
  if bad.isEmpty then
    found.foldl (fun s p => match p.2 with | some d => (s.setDev n (s.rateOf n) p.1 d).showDev n p.1 | none => s) s
  else s.markDevices n bad 2

/-- Widths that ask for a Vref step (R272). -/
def State.askVref (s : State) (n rank : Nat) (widths : List (Option Nat)) : State :=
  if widths.any fun w => match w with | some x => x < s.rd (F.DI_n_LIMITS.MIN_EYE_W n) | none => false then s.askStep 3 n rank else s

/-- The sweep of a device, or one with no passing setting. -/
def sweepFor (lanes : List LaneSweep) (m : Nat) : LaneSweep :=
  (lanes.find? (·.dev.val == m)).getD ⟨Fin.ofNat 20 m, 0, [], [], [], 0⟩

/-- The read sweep of a device around its setting (code 1): its new settings and the width. -/
def State.readSweep (s : State) (n : Nat) (lanes : List LaneSweep) (m : Nat) : Option (DevSet × Nat) :=
  let d := s.devSet n (s.rateOf n) m
  (sweepCentre ((rdHits (sweepFor lanes m) stepBursts).getD 0 []) stepBursts 65 ((d.rd : Int) - 32) 2047).map fun c => ({ d with rd := c.1 }, c.2)

/-- The write sweep of a device around its setting (code 2); TRACK_ADJ becomes 0. -/
def State.writeSweep (s : State) (n : Nat) (lanes : List LaneSweep) (m : Nat) : Option (DevSet × Nat) :=
  let d := s.devSet n (s.rateOf n) m
  (sweepCentre ((wrHits (sweepFor lanes m) stepBursts).getD 0 []) stepBursts 65 ((d.wr : Int) - 32) 2047).map fun c => ({ d with wr := c.1, adj := 0 }, c.2)

/-- The Vref sweeps of a device (code 3): codes ±8, with the delays ±16 at each; the lane has to be trained as R266 says, and its eye is the one found
(DEDUCED, log 186). -/
def State.codeSweep (s : State) (n : Nat) (lanes : List LaneSweep) (m : Nat) : Option DevSet :=
  let d := s.devSet n (s.rateOf n) m
  let l := sweepFor lanes m
  let minW := s.rd (F.DI_n_LIMITS.MIN_EYE_W n)
  match vrefSweep (rdHits l stepBursts) stepBursts 17 ((d.phyVref : Int) - 8) 33 ((d.rd : Int) - 16) minW,
        vrefSweep (wrHits l stepBursts) stepBursts 17 ((d.dramVref : Int) - 8) 33 ((d.wr : Int) - 16) minW with
  | some r, some w =>
    if eyeOk r w minW (s.rd (F.DI_n_LIMITS.MIN_EYE_H n)) then
      some { d with rd := r.delay, wr := w.delay, phyVref := r.code, dramVref := w.code, eyeW := min r.width w.width, eyeH := min r.height w.height }
    else none
  | _, _ => none

/-- A read or write step of a rank: the lanes' sweeps are applied, and a narrow one asks for a Vref step (R272, R275, R276). -/
def State.delayStep (s : State) (t : TrainStep) (sweep : State → Nat → Option (DevSet × Nat)) : State :=
  let res := (s.rankDevs t.sub t.rank).map fun m => (m, sweep s m)
  (s.applySweep t.sub (res.map fun r => (r.1, r.2.map (·.1)))).askVref t.sub t.rank (res.map fun r => r.2.map (·.2))

/-- READ_STEP (R272, code 1). A step that is cut off counts as not done (R274). -/
def readStep (n : Fin 16) (lanes : List LaneSweep) (us : Nat) (cut : Bool) (s : State) : State :=
  match s.stepReady 1 n.val with
  | none => s
  | some t => if cut then s.takeOffline n.val else (s.bookStep t us).delayStep t fun s m => s.readSweep n.val lanes m

/-- WRITE_STEP (R272, R274, code 2): with a borrowed granule of the rank; cut off, it writes the granule back and counts as not done. -/
def writeStep (n : Fin 16) (lanes : List LaneSweep) (us granule : Nat) (cut : Bool) (s : State) : State :=
  match s.stepReady 2 n.val with
  | none => s
  | some t =>
    let s := s.borrow n.val (s.borrowed t.rank granule)
    if cut then s.takeOffline n.val else (s.bookStep t us).delayStep t fun s m => s.writeSweep n.val lanes m

/-- VREF_STEP (R272, code 3). -/
def vrefStep (n : Fin 16) (lanes : List LaneSweep) (us : Nat) (cut : Bool) (s : State) : State :=
  match s.stepReady 3 n.val with
  | none => s
  | some t =>
    if cut then s.takeOffline n.val
    else
      let s := s.bookStep t us
      s.applySweep n.val ((s.rankDevs n.val t.rank).map fun m => (m, s.codeSweep n.val lanes m))

/-- A lane passes the training check: at WR_DLY and at ±MIN_EYE_W/2 (Table DI-6, code 4). -/
def State.checkPasses (s : State) (n : Nat) (lanes : List LaneSweep) (m : Nat) : Bool :=
  let half : Nat := s.rd (F.DI_n_LIMITS.MIN_EYE_W n) / 2
  let wr := (s.devSet n (s.rateOf n) m).wr
  let c := checkHits (sweepFor lanes m) stepBursts
  half ≤ wr && wr + half ≤ 2047 && (List.range 3).all fun i => stepBursts ≤ c.getD i 0

/-- CHECK_STEP (R241, code 4): every lane of the awake ranks is tested with a borrowed granule of each, a lane that fails is swept again, and the
verify state ends. -/
def checkStep (n : Fin 16) (lanes : List LaneSweep) (us granule : Nat) (cut : Bool) (s : State) : State :=
  let n := n.val
  match s.stepReady 4 n with
  | none => s
  | some t =>
    let s := (s.awake n).foldl (fun s r => s.borrow n (s.borrowed r granule)) s
    if cut then s.takeOffline n
    else
      let s := s.bookStep t us
      let devs := (((s.awake n).map fun r => s.rankDevs n r).flatten).filter fun m => !s.checkPasses n lanes m
      let res := devs.map fun m => (m, (s.writeSweep n lanes m).map (·.1))
      let ok := res.all fun r => r.2.isSome
      let s := (s.applySweep n res).modSub n fun u => { u with verify := false }
      let s := s.wr (F.DC_n_STATUS.VERIFY n) 0
      if ok then s.subMsg n 4 9 n 0 1 else s

/-! Maker writes of DI_n_CTRL -/

/-- What a write of DI_n_CTRL does: RETRAIN, RETIRE, CLEAR_MARKS (R272, R277, R278). -/
def State.diCtrlWrite (s : State) (n v : Nat) : State :=
  let s := if v.testBit 0 && s.runs n then (s.awake n).foldl (fun s r => s.askRetrain n r) s else s
  let s := if v.testBit 1 && !s.gone n then s.modSub n fun u => { u with retireDue := true } else s
  if v.testBit 2 then s.wr (F.DI_n_CTRL.CLEAR_MARKS n) 1 else s

/-- RETIRE (R277). -/
def retire (p : Path) (n : Fin 16) (s : State) : State :=
  s.gatedWrite p (0x200000 + 0x1000 * n.val) 2 false fun s => s.diCtrlWrite n.val 2

/-- RETRAIN (R272). -/
def retrain (p : Path) (n : Fin 16) (s : State) : State :=
  s.gatedWrite p (0x200000 + 0x1000 * n.val) 1 false fun s => s.diCtrlWrite n.val 1

/-- CLEAR_MARKS (R278). -/
def clearMarks (p : Path) (n : Fin 16) (s : State) : State :=
  s.gatedWrite p (0x200000 + 0x1000 * n.val) 4 false fun s => s.diCtrlWrite n.val 4

/-- A maintenance window opens on a half: retirements that are due, then the hold of R245 when a change or step waits (R22, R277). -/
def State.windowOpens (s : State) (h : Half) : State :=
  let hs := s.halvesOf h
  let s := ((hs.map halfSubs).flatten).foldl (fun s n => if (s.sub n).retireDue then s.retireSub n 2 else s) s
  let s := hs.foldl (fun s k => s.modMh k fun m => { m with offline := [], stepped := false }) s
  if s.windowWork h && !s.on F.PS_STATUS.PFW then s.beginHold h else s

/-- A maintenance window closes: credits return if they are still withheld. -/
def State.windowCloses (s : State) (h : Half) : State := if s.changing h then s else s.returnCredits h

/-! Rebuilds (R282, R284) -/

/-- Granules of a subchannel of a half. -/
def State.granules (s : State) (h : Half) : Nat := s.units h * 2 ^ 16

/-- Copies one line of the granule at the cursor into the reserve. A line that decodes as poison already is copied as poison and not counted in
POISONED (DESIGN CHOICE, log 180: R282 counts the uncorrectable ones, the register text lines written as poison). -/
def State.copyLine (s : State) (n g i : Nat) : State :=
  let t := s.remap n (g * 256 + 64 * i)
  match s.newest n (g * 4 + i) with
  | .clean d => s.queueWrite t.1 t.2 (ownWrite d false) true
  | .corrected d _ _ => s.queueWrite t.1 t.2 (ownWrite d false) true
  | .poison => s.queueWrite t.1 t.2 (ownWrite 0 true) true
  | .uncorrectable =>
    ((s.queueWrite t.1 t.2 (ownWrite 0 true) true).bump (F.DI_n_REBUILD.POISONED n)).lineMsg n 1 3 31 none ((g * 4 + i) * 64) 3

/-- Copies the granule at the cursor: one visit reads it, and writes to it that wait go to the target behind the copy (R217, R282). -/
def State.copyGranule (s : State) (n g : Nat) : State :=
  let held := (s.sub n).wrWait.filter (·.g == g)
  let s := s.bulkVisit n g
  let s := (List.range 4).foldl (fun s i => s.copyLine n g i) s
  let s := s.modWrites n fun u =>
    { u with writeQ := u.writeQ.filter (·.g != g), wrWait := u.wrWait.filter (·.g != g), retry := u.retry.filter fun b => b.line / 4 != g }
  held.foldl (fun s w => let t := s.remap n (g * 256 + 64 * w.line.idx); (s.queueWrite t.1 t.2 w.line w.bulk).answerWrites t.1) s

/-- Writes poison to the target of a line (Table DI-7). -/
def State.poisonLine (s : State) (n g i : Nat) : State :=
  let t := s.remap n (g * 256 + 64 * i)
  (s.queueWrite t.1 t.2 (ownWrite 0 true) true).bump (F.DI_n_REBUILD.POISONED n)

/-- The granule at the cursor of a rebuild is treated: copied, or written as poison after a loss; one moved to the front was treated already. -/
def State.treatGranule (s : State) (r : Rebuild) : State :=
  if r.front.contains r.cursor then s
  else if r.loss then (List.range 4).foldl (fun s i => s.poisonLine r.sub r.cursor i) s
  else s.copyGranule r.sub r.cursor

/-- A rebuild ends: the subchannel is remapped (R282). -/
def State.endRebuild (s : State) (h : Half) (r : Rebuild) : State :=
  let s := (s.modMh h fun m => { m with rebuild := none }).setRemapped r.sub
  let s := (s.wr (F.DI_n_STATUS.REBUILDING r.sub) 0).wr (F.DI_n_REBUILD.STATE r.sub) (if r.loss then 3 else 2)
  let s := s.modWrites r.sub fun u =>
    { u with writeQ := [], wrWait := [], retry := [], run := 0, verify := false, alerting := false, replaying := false, want := none, change := none }
  let s := (s.dropWakes r.sub).modDm fun d => { d with freqPend := d.freqPend.filter (·.sub != r.sub), steps := d.steps.filter (·.sub != r.sub) }
  if r.loss then s else s.subMsg r.sub 4 9 r.sub 0 2

/-- A rebuild may treat its next granule: it was not stopped and its subchannel has a turn for a Bulk read of the granule
(R226, R282); the last granule waits until the subchannel's own reads are done. -/
def State.rebuildReady (s : State) (h : Half) (r : Rebuild) : Bool :=
  let u := s.sub r.sub
  !r.stopped && !s.stopping h &&
    (r.loss || s.bulkTurn r.sub r.cursor) &&
    (r.cursor + 1 < s.granules h || (u.frameQ.isEmpty && u.bulkQ.isEmpty && u.rdWait.isEmpty && u.flight.isEmpty))

/-- REBUILD_GRANULE (R282, R284): the granule at the cursor is treated; when its rank sleeps under the Archive rules, a wake is asked for (R251). -/
def rebuildGranule (h : Half) (s : State) : State :=
  match (s.mh h).rebuild with
  | none => s
  | some r =>
    if s.rebuildReady h r then
      let n := r.sub
      let s := s.treatGranule r
      let q := { r with cursor := r.cursor + 1, front := r.front.filter (· != r.cursor) }
      let s := (s.modMh h fun m => { m with rebuild := some q }).wr (F.DI_n_REBUILD.CURSOR n) (q.cursor / 65536)
      if s.granules h ≤ q.cursor then s.endRebuild h q else s
    else if !r.stopped && !r.loss && s.issues r.sub && !s.granuleAwake r.sub r.cursor && s.on (F.DC_n_STATUS.RANK1_ASLEEP r.sub) then
      s.askWake (.archive r.sub)
    else s

/-! DLLs (R342, Table CK-4) -/

/-- DLL_LOCK_LOST (R342). -/
def dllLockLost (n : Fin 16) (s : State) : State :=
  if s.rd (F.CK_DLL_n.STATE n.val) = 2 then
    let s := (s.wr (F.CK_DLL_n.STATE n.val) 3).bump (F.CK_DLL_n.COASTS n.val)
    (s.subMsg n.val 3 10 n.val 0 0).askStep 5 n.val 0
  else s

/-- DLL_RELOCK_STEP (Table CK-4): self-refresh, relock, exit and quick tracking; a relock that fails retires the subchannel. When its quick tracking
fails the ranks are retrained (DESIGN CHOICE, log 184: the spec states it for a hold only). -/
def dllRelockStep (n : Fin 16) (locked : Bool) (quick : QuickTrack) (s : State) : State :=
  let n := n.val
  match s.stepReady 5 n with
  | none => s
  | some t =>
    let s := ((s.takeOffline n).modDm fun d => { d with steps := d.steps.filter (· != t) }).notePending n
    if locked then
      let s := ((s.wakeSub n).wr (F.CK_DLL_n.STATE n) 2).bump (F.CK_DLL_n.RELOCKS n)
      let r := s.quickTrack n (s.rateOf n) (s.awake n) quick
      let s := r.1.showSub n
      if r.2.isEmpty then s else (s.awake n).foldl (fun s k => s.askRetrain n k) s
    else s.retireSub n 3

end Sys2Proof.Machine
end

