-- ==== Sys2Proof/Machine/Integrity.lean ====
section
/-! DEFINITION. The commands of memory integrity: fills, fast start and the triggered scrubber (09_memory_integrity.md R295 to R303). -/
namespace Sys2Proof.Machine

/-! Fills -/

/-- Lines of a subchannel's whole storage. -/
def State.fullLines (s : State) : Nat := s.fullUnits * 2 ^ 18

/-- Queued writes to an extent are dropped, those that still wait answered: the fill comes after them. -/
def State.dropLines (s : State) (n line cnt : Nat) : State :=
  let keep := fun (l : Nat) => l < line || line + cnt ≤ l
  let lost := (s.sub n).wrWait.filter fun w => !keep (w.g * 4 + w.line.idx)
  let s := s.modWrites n fun u =>
    { u with writeQ := (u.writeQ.map fun e => { e with lines := e.lines.filter fun l => keep (e.g * 4 + l.idx) }).filter fun e => !e.lines.isEmpty
             wrWait := u.wrWait.filter fun w => keep (w.g * 4 + w.line.idx)
             retry := u.retry.filter fun b => keep b.line }
  lost.foldl (fun s w => w.line.reqs.foldl (fun s r => s.answer r.1 r.2 .cmp) s) s

/-- The visits of the fill engine: one ACTIVATE for each granule in turn (R217, R234 to R236). -/
def State.fillVisits (s : State) (n line cnt : Nat) : State := (List.range (cnt / 4)).foldl (fun s i => s.activate n (line / 4 + i)) s

/-- Fills an extent in place; a retired subchannel is not written (R295). The visits of a fill are taken as one run in ascending order, behind which
nothing of the extent is left to write (DESIGN CHOICE, log 221). -/
def State.fillExtent (s : State) (n line cnt : Nat) : State :=
  if (s.sub n).retired || cnt = 0 then s else ((s.dropLines n line cnt).fillVisits n line cnt).fill n line cnt

/-- Fills the reserve that granules g0 to g1 - 1 of a remapped subchannel use (R280): on each survivor one extent. -/
def State.fillThrough (s : State) (n g0 g1 : Nat) : State :=
  let h := subHalf n
  let others := (halfSubs h).filter (· ≠ n)
  (List.zip (List.range 7) others).foldl (fun s k =>
    let lo := (g0 + 6 - k.1) / 7
    let hi := (g1 + 6 - k.1) / 7
    s.fillExtent k.2 (s.units h * 2 ^ 18 + lo * 4) ((hi - lo) * 4)) s

/-- Fills an extent of a subchannel as accesses reach it: in place, through its remap, or both during a rebuild. -/
def State.fillRouted (s : State) (n line cnt : Nat) : State :=
  let building := match (s.mh (subHalf n)).rebuild with | some r => r.sub == n | none => false
  let s := if s.remapped n then s else s.fillExtent n line cnt
  if s.remapped n || building then s.fillThrough n (line / 4) ((line + cnt) / 4) else s

/-- Fills the row of a row-map entry (R296). -/
def State.fillRow (s : State) (n : Nat) (e : RowEntry) : State :=
  let base := e.rank * 2 ^ rankBits s.dm.density + e.row * 2 ^ 18 + e.ba * 2 ^ 11 + e.bg * 2 ^ 8
  (List.range 32).foldl (fun s c => s.fillExtent n ((base + c * 2 ^ 13) / 64) 4) s

/-- A subchannel is fast-started (R296). -/
def State.fastStarts (s : State) (n : Nat) : Bool :=
  s.on F.MI_CFG.FAST_START && !(s.sub n).retired && (s.sub n).marks.isEmpty && !s.remapped n

/-- The start-up fill of one subchannel (R295, R296). -/
def State.fillSub (s : State) (n : Nat) : State :=
  if (s.sub n).skipFill then
    (s.sub n).rowMap.foldl (fun s e => s.fillRow n e) s
  else if s.remapped n then s.fillThrough n 0 (s.granules (subHalf n))
  else s.fillExtent n 0 s.fullLines

/-- The field that shows the fill of a half. -/
def fillFld (h : Half) : Fld := match h with | .a => F.MI_STATUS.FILL_A | .b => F.MI_STATUS.FILL_B

/-- FILL_DONE (R295): the fills under way end, and media becomes ready (R186). -/
def fillDone (s : State) : State :=
  let halves := [Half.a, Half.b].filter fun h => s.rd (fillFld h) == 1 && !s.stopping h
  if halves.isEmpty then s
  else
    let s := halves.foldl (fun s h =>
      let fast := (halfSubs h).any fun n => (s.sub n).skipFill
      ((halfSubs h).foldl State.fillSub s).wr (fillFld h) (if fast then 3 else 2)) s
    let s := s.wr F.MI_STATUS.FILL_PCT 16
    halves.foldl (fun s h => (halfHeads h).foldl (fun s n => (s.wr (F.HP_n_MEDIA.MEDIA_STATUS n) 1).wr (F.HP_n_MEDIA.MEM_ACTIVE n) 1) s) s

/-- A half is still to fill a region. -/
def Filling.on (f : Filling) (h : Half) : Bool := match h with | .a => f.a | .b => f.b

/-- The lines of a region on a half hold valid data now and leave the poison list (R172). -/
def State.unlistRegion (s : State) (h : Half) (i : Nat) : State :=
  let there := fun (p : Nat × Bool) => match s.locate h (p.1 * 64) with | some (k, _, n, _) => k == i && subHalf n == h | none => false
  if s.dm.poison.any there then s.modDm fun d => { d with poison := d.poison.filter fun p => !there p, poisonOver := none } else s

/-- Ranks that a region's storage on a half reaches, the reserve among them while a subchannel of the half is remapped or rebuilt. -/
def State.regionRanks (s : State) (h : Half) (r : Region) : List Nat :=
  let last := if s.on (F.DI_SPARE.IN_USE h.idx) then s.dm.ranks - 1 else s.rankOf ((r.subBase + r.units) * 2 ^ 24 - 1)
  (List.range s.dm.ranks).filter fun k => s.rankOf (r.subBase * 2 ^ 24) ≤ k && k ≤ last

/-- The fill engine waits for a subchannel of the half: it is offline or stopped, or a rank that the region reaches sleeps (R34, R348). -/
def State.fillWaits (s : State) (h : Half) (r : Region) : Bool :=
  ((halfSubs h).filter fun n => !s.gone n).any fun n => !s.issues n || (s.regionRanks h r).any fun k => (s.sub n).sr.getLsbD k

/-- The fill's requests wake the ranks that sleep under the Archive rules (R250). -/
def State.fillWakes (s : State) (h : Half) (r : Region) : State :=
  ((halfSubs h).filter fun n => s.on (F.DC_n_STATUS.RANK1_ASLEEP n) && (s.regionRanks h r).contains 1 && s.issues n).foldl
    State.wakeArchive s

/-- REGION_FILL_DONE (R212): a half has filled its lowest new region; FILLING clears when every half that holds it is done. The fill waits for a
subchannel that is offline, and wakes a rank that sleeps. -/
def regionFillDone (h : Half) (s : State) : State :=
  let c := s.schedOf h
  match c.filling.find? (·.on h) with
  | none => s
  | some f =>
    if s.stopping h then s
    else
      match c.map.regions[f.region]? with
      | none => s
      | some r =>
        let s := s.fillWakes h r
        if s.fillWaits h r then s
        else
          let s := ((halfSubs h).foldl (fun s n => s.fillRouted n (r.subBase * 2 ^ 18) (r.units * 2 ^ 18)) s).unlistRegion h f.region
          s.modSched h fun c =>
            { c with filling := (c.filling.map fun g => if g.region == f.region then { g with a := g.a && h != .a, b := g.b && h != .b } else g).filter
                       fun g => g.a || g.b }

/-- What FAST_CLOSE does (R297). -/
def State.fastCloseAct (s : State) : State :=
  (s.modDm fun d => { d with subs := d.subs.map fun u => { u with fast := false } }).wr F.MI_STATUS.FAST_OPEN 0

/-- FAST_CLOSE (R297): FAST_START keeps its value. -/
def fastClose (p : Path) (s : State) : State :=
  s.gatedWrite p 0xA0001 (2 + s.rd F.MI_CFG.FAST_START) false State.fastCloseAct

/-! The scrubber (R298 to R303) -/

/-- First line of the staged range, and its length in lines. -/
def State.scrubRange (s : State) : Nat × Nat :=
  (s.rd F.MI_SCRUB_BASE_HI.BASE_HI * 2 ^ 26 + s.rd F.MI_SCRUB_BASE_LO.BASE_LO, s.rd F.MI_SCRUB_LEN_HI.LEN_HI * 2 ^ 32 + s.rd F.MI_SCRUB_LEN_LO.LEN_LO)

/-- START (R298). -/
def State.scrubStartAct (s : State) : State :=
  let st := s.rd F.MI_SCRUB_STATUS.STATE
  let r := s.scrubRange
  if st = 1 then s.wr F.MI_SCRUB_STATUS.RESULT 1
  else if s.capacity * 2 ^ 22 < r.1 + r.2 then s.wr F.MI_SCRUB_STATUS.RESULT 2
  else
    let s := ((s.wr F.MI_SCRUB_CORR.CORRECTED 0).wr F.MI_SCRUB_UNCOR.UNCOR 0).wr F.MI_SCRUB_POISON.POISON 0
    let s := (s.wr F.MI_SCRUB_SKIP.SKIPPED 0).wr F.MI_SCRUB_LINES_HI.LINES_HI 0
    let s := (s.wr F.MI_SCRUB_FIRST_HI.FIRST_HI 0).wr F.MI_SCRUB_LAST_HI.LAST_HI 0
    let s := s.modDm fun d =>
      { d with scrubPass := d.scrubPass + 1, scrubOut := 0, hist := [], scrubLines := 0, scrubFirst := none, scrubLast := none
               a := { d.a with scrubAt := r.1, scrubLeft := r.2 }, b := { d.b with scrubAt := r.1, scrubLeft := r.2 } }
    (s.wr F.MI_SCRUB_STATUS.RESULT 0).wr F.MI_SCRUB_STATUS.STATE (if r.2 = 0 then 3 else 1)

/-- What a write of MI_SCRUB_CTRL does: START, then ABORT. -/
def State.scrubWrite (s : State) (v : Nat) : State :=
  let s := if v.testBit 0 then s.scrubStartAct else s
  if v.testBit 1 then s.endScrub 3 else s

/-- SCRUB_START (R298): STEP_LINES keeps its value. -/
def scrubStart (p : Path) (s : State) : State :=
  s.gatedWrite p 0xA0014 (s.rd F.MI_SCRUB_CTRL.STEP_LINES * 65536 + 1) false fun s => s.scrubWrite 1

/-- SCRUB_ABORT (R302). -/
def scrubAbort (p : Path) (s : State) : State :=
  s.gatedWrite p 0xA0014 (s.rd F.MI_SCRUB_CTRL.STEP_LINES * 65536 + 2) false fun s => s.scrubWrite 2

/-- What the scrubber of a half does with the next line: `none` to wait for a subchannel or a sleeping rank, else the state after and whether the
line was one of its own reads, which takes its place in the Bulk queue (R200, R226, R299). A line in no region is counted by the leader's scrubber; in split mode each scrubber counts the lines of the
other half (R302). -/
def State.scrubOne (s : State) (h : Half) (line : Nat) : Option (State × Bool) :=
  let skip := fun (mine : Bool) => some (if mine then s.bump F.MI_SCRUB_SKIP.SKIPPED else s, false)
  match s.locate h (line * 64) with
  | none => skip (h == s.leader)
  | some (i, _, n, sa) =>
    let t := s.route n sa
    if subHalf n != h then skip s.split
    else if ((s.schedOf h).fillingOf i).isSome || (s.sub t.1).retired then skip true
    else if !s.issues t.1 || (s.sub t.1).sr.getLsbD (s.rankOf t.2.1) then none
    else
      let s := s.modDm fun d => { d with scrubOut := d.scrubOut + 1 }
      some (s.queueRead t.1 t.2.1 (if t.2.2 then none else some (line * 64)) false (.scrub s.dm.scrubPass t.1 t.2.1 line t.2.2), true)

/-- A step of at most `own` visits within `fuel` lines of the range. -/
def State.scrubLoop (s : State) (h : Half) : (fuel own : Nat) → State
  | 0, _ => s
  | _, 0 => s
  | fuel + 1, own + 1 =>
    let m := s.mh h
    if m.scrubLeft = 0 then s
    else
      match s.scrubOne h m.scrubAt with
      | none =>
        match s.locate h (m.scrubAt * 64) with
        | some (_, _, n, sa) =>
          let k := (s.route n sa).1
          if s.on (F.DC_n_STATUS.RANK1_ASLEEP k) then s.askWake (.archive k) else s
        | none => s
      | some (s, visited) =>
        let s := s.modMh h fun m => { m with scrubAt := m.scrubAt + 1, scrubLeft := m.scrubLeft - 1 }
        s.scrubLoop h fuel (if visited then own else own + 1)

/-- SCRUB_STEP (R22, R299): one step of a half's scrubber in a maintenance window, when the time it takes is left in the window. -/
def scrubStep (h : Half) (us : Nat) (s : State) : State :=
  if s.rd F.MI_SCRUB_STATUS.STATE ≠ 1 || !s.maintenance h || (s.mh h).stepped || 2 ≤ s.stepFor h || s.stopping h || s.on F.PS_STATUS.PFW
      || !s.roomFor h us then s
  else
    let lines := max 1 (s.rd F.MI_SCRUB_CTRL.STEP_LINES)
    ((s.modMh h fun m => { m with stepped := true }).scrubLoop h (2 * lines) lines).scrubOver

end Sys2Proof.Machine
end

