-- ==== Sys2Proof/Machine/ScheduleOps.lean ====
section
/-! DEFINITION. Shared operations of the frame schedule: production slots, operator commands, activation of a Last, LUT banks, the work of
stitch 0 and of stitch W_end (02_frame_schedule.md R40 to R66, R72, R484, R487; 03 R85, R86, R99 to R104, R116 to R120; 12 R367 to R372;
06 R212; 10 R317, R323 to R325). -/
namespace Sys2Proof.Machine

/-- The half whose schedule an action of a path concerns (R19, R325). -/
def State.actHalf (s : State) (p : Path) : Half := if s.split then s.pathHalf p else s.leader

/-- A half runs a schedule of its own: the leader, or either half in split mode (R20, R323). -/
def State.schedules (s : State) (h : Half) : Bool := s.split || h == s.leader

/-- Engines whose work the schedule of a half drives. -/
def State.enginesOf (s : State) (h : Half) : List Nat := (List.range 16).filter fun e => !s.split || engHalf e == h

/-- Subchannels that belong with the schedule of a half. -/
def State.subsOf (s : State) (h : Half) : List Nat := if s.split then halfSubs h else List.range 16

/-! Production slots (R49 to R54) -/

/-- The latest slot counted at or before a tick. -/
def SrcRt.latest (r : SrcRt) (t : Int) : Option Counted := (r.counted.filter fun c => (c.tick : Int) ≤ t).getLast?

/-- Production slot and previous slot of tick k by R50 and R54. -/
def SrcRt.slotsAt (r : SrcRt) (k : SrcCfg) (t : Nat) : Option Nat × Option Nat :=
  match r.latest ((t : Int) - 1 - r.delay) with
  | none => (none, none)
  | some c => (some c.slot, if k.retain then c.prev else none)

/-- Slots that stay busy through counted publications and the slots in production (R52). -/
def SrcRt.busySlots (r : SrcRt) (k : SrcCfg) (t : Nat) : List Nat :=
  let first := (r.latest ((t : Int) - 1 - k.dMax)).map (·.tick)
  let kept := r.counted.filter fun c => match first with | some f => f ≤ c.tick | none => true
  let held := match r.held with | some (a, b) => a.toList ++ b.toList | none => []
  kept.map (·.slot) ++ r.prod.toList ++ r.prev.toList ++ held

/-- Fixes the production slot of tick t (R50, R51), and forgets counted publications that no rule can reach any more. -/
def SrcRt.fix (r : SrcRt) (k : SrcCfg) (t : Nat) : SrcRt :=
  let now := match r.frozen, r.held with | true, some x => x | _, _ => r.slotsAt k t
  let first := (r.latest ((t : Int) - 1 - k.dMax)).map (·.tick)
  { r with prod := now.1, prev := now.2, begun := 0, bulk := false, noted := false
           counted := r.counted.filter fun c => match first with | some f => f ≤ c.tick | none => true }

/-- Before the commands of effective tick e are applied: the slots of tick e − 1, which the last tick run, f, was; when tick e − 1 was skipped, the
slots that it would have had (R51, R484). -/
def SrcRt.lookBack (r : SrcRt) (k : SrcCfg) (e f : Nat) : SrcRt :=
  { r with before := if e ≤ f + 1 then (r.prod, r.prev) else match r.frozen, r.held with | true, some x => x | _, _ => r.slotsAt k (e - 1) }

/-- A source freezes (R51): it holds the slots of the tick before. -/
def SrcRt.freeze (r : SrcRt) : SrcRt := if r.frozen then r else { r with frozen := true, held := some r.before }

/-- A source at the activation of a new source table (R66): rings reset, freeze and delay from its entry. Lines, doorbells and publications that
still wait then are dropped with no result: the spec is silent on them (DESIGN CHOICE, log 174). -/
def freshRt (old : SrcRt) (k : SrcCfg) : SrcRt :=
  { frozen := k.frozen, held := if k.frozen then some (none, none) else none, delay := k.delay, pubStatus := old.pubStatus }

/-! Operator commands (R57 to R63) -/

/-- Why a command may not stand (R60, R65, R489): 0 it may, 3 target, 5 value or Last unavailable. -/
def State.cmdFault (s : State) (c : Sched) (op target value : Nat) : Nat :=
  match c.cfg with
  | none => 3
  | some l =>
    if op = 1 || op = 2 || op = 3 then
      match l.srcs.find? (·.src == target) with
      | none => 3
      | some k => if op = 3 && k.dMax < value then 5 else 0
    else if op = 5 || op = 6 then (if l.streams.any (·.stream == target) then 0 else 3)
    else if op = 7 then
      (if 3 < target then 3
       else match (s.lasts[target]?).join with | some m => (if m.srcs = l.srcs then 0 else 5) | none => 5)
    else 0

/-- The first tick whose commands are still open at this moment: F of R58. -/
def Sched.firstOpen (c : Sched) : Nat := if c.prodDone then c.frame + 2 else c.frame + 1

/-- The staged effective tick of a path (R63). -/
def State.staged (s : State) (p : Path) : Nat := s.rd (F.FS_TICK_LO.TICK_LO.on p) + 2 ^ 32 * s.rd (F.FS_TICK_HI.TICK_HI.on p)

/-- RESULT of a submission (R58 to R61). Where several refusals apply at once the spec gives no order: DESIGN CHOICE (log 236), an invalid opcode (7)
first, then no Last (6), target or value (3, 5), horizon (4), queue full (2). -/
def State.submitResult (s : State) (c : Sched) (op target value e : Nat) : Nat :=
  if op = 0 || 8 ≤ op then 7
  else if c.last.isNone then 6
  else if s.cmdFault c op target value ≠ 0 then s.cmdFault c op target value
  else if c.frame + 16777215 < e then 4
  else if 64 ≤ c.cmds.length then 2
  else if e < c.firstOpen then 1
  else 0

/-- A write of FS_CMD_OP by a path (R57 to R63): result, late count, message and audit entry (kind 3). -/
def State.submit (s : State) (p : Path) (op : Nat) : State :=
  let h := s.actHalf p
  let c := s.schedOf h
  let e := s.staged p
  let target := s.rd (F.FS_CMD_ARG.TARGET.on p)
  let value := s.rd (F.FS_CMD_ARG.VALUE.on p)
  let r := s.submitResult c op target value e
  let eff := if r ≤ 1 then max e (c.firstOpen) else 0
  let defer := if r = 1 then min (eff - e) 0xFFFF else 0
  let s := ((s.wr (F.FS_CMD_RESULT.DEFER.on p) defer).wrap (F.FS_CMD_RESULT.SEQ.on p)).wr (F.FS_CMD_RESULT.RESULT.on p) r
  let s := if r = 1 then (s.bump F.FS_EVENT_CNT.LATE_CMD).raise h 0x014 0x0D (unitForm target e) 0 else s
  let s := s.audit (s.role p).role p.idx 3 (op * 65536 + target) e eff s.split
  if r ≤ 1 then s.modSched h fun c => { c with cmds := c.cmds ++ [⟨op, target, value, eff, e, p.idx, (s.role p).role, s.split⟩] } else s

/-! Activation of a Last (R64 to R66, R212) -/

/-- A request for a timing set that waits is taken up at the rates now loaded, and at P3 or above TS_1 is asked for (R243, R407). -/
def State.askTs (n : Nat) (s : State) : State :=
  match (s.sub n).want with
  | some m => s.requestTs n m
  | none => if 3 ≤ s.stepFor (subHalf n) then s.requestTs n 1 else s

/-- The timing sets of a Last are loaded on the controllers of a schedule (07, Table DC-3), and the neighbour-refresh exponent (R234). -/
def State.loadTimings (s : State) (h : Half) (l : LastCfg) : State :=
  (s.subsOf h).foldl (fun s n => State.askTs n <|
    let s := s.wr (F.DC_n_NBR.K n) l.nbrK
    [(0, l.ts0), (1, l.ts1)].foldl (fun s m =>
      let t := s.timings m.2
      let g := fun i => t.getD i 0
      let s := (((s.wr (F.DC_n_TS_m_A.CL m.1 n) (g 0)).wr (F.DC_n_TS_m_A.TRCD m.1 n) (g 1)).wr (F.DC_n_TS_m_A.TRP m.1 n) (g 2)).wr (F.DC_n_TS_m_A.RATE m.1 n) m.2
      let s := (((s.wr (F.DC_n_TS_m_B.TRAS m.1 n) (g 3)).wr (F.DC_n_TS_m_B.TRC m.1 n) (g 4)).wr (F.DC_n_TS_m_B.TWR m.1 n) (g 5)).wr (F.DC_n_TS_m_B.TRTP m.1 n) (g 6)
      let s := (((s.wr (F.DC_n_TS_m_C.TFAW m.1 n) (g 7)).wr (F.DC_n_TS_m_C.TWTR_L m.1 n) (g 8)).wr (F.DC_n_TS_m_D.TWTR_S m.1 n) (g 9)).wr (F.DC_n_TS_m_C.TRRD_L m.1 n) (g 10)
      (((s.wr (F.DC_n_TS_m_D.TRRD_S m.1 n) (g 11)).wr (F.DC_n_TS_m_C.TCCD_L m.1 n) (g 12)).wr (F.DC_n_TS_m_D.TRFC1 m.1 n) (g 13)).wr (F.DC_n_TS_m_D.TRFCSB m.1 n)
        (g 14)) s) s

/-- Fill states at a change of region table (R212): kept regions keep theirs, others are new. -/
def newFilling (old new : RegionTable) (was : List Filling) : List Filling :=
  (List.zip (List.range new.regions.length) new.regions).filterMap fun r =>
    match (List.zip (List.range old.regions.length) old.regions).find? fun q =>
        keptIn old ⟨[r.2], new.hash⟩ q.2 with
    | some q => (was.find? (·.region == q.1)).map fun f => { f with region := r.1 }
    | none => some ⟨r.1, r.2.onHalf .a, r.2.onHalf .b, false⟩

/-- Message and vector of a CDAT change on the heads of a schedule (R180). -/
def State.cdatChanged (s : State) (h : Half) : State :=
  (if s.split then halfHeads h else [0, 1, 2, 3]).foldl (fun s n => (s.raise (half4 n) (0x053 + 8 * n) 0x16 (unitForm n 0) 4).msix n 1) s

/-- Last n comes into force on the schedule of a half (R65, R66): stream enables and region table anew, rings reset when the source table
is another, timing sets loaded, streams home. When the Last that a SWITCH_LAST names is itself armed, its armed state and a pending ACTIVATE are
dropped, on which the spec is silent (DESIGN CHOICE, log 173). -/
def State.activateLast (s : State) (h : Half) (n : Nat) (l : LastCfg) : State :=
  let c := s.schedOf h
  let keep := match c.cfg with | some o => decide (o.srcs = l.srcs) | none => false
  let regions := decide (c.map.regions ≠ l.map.regions)
  let s := s.modSched h fun c =>
    { c with last := some (n, l), everActive := true, running := true, map := l.map, mapOf := n, filling := newFilling c.map l.map c.filling
             armed := if c.armed = some n then none else c.armed
             actAt := if c.armed = some n then none else c.actAt
             enabled := l.streams.foldl (fun b st => if st.enabled then b ||| (1#512 <<< st.stream) else b) 0
             srcs := if keep then c.srcs
               else Vector.ofFn fun i => match l.srcs.find? (·.src == i.val) with | some k => freshRt (c.rt i.val) k | none => {} }
  let s := s.modLe fun x => { x with away := x.away.filter fun p => match s.stream p.1 with | some st => s.split && !s.runsStream h st | none => false }
  let s := ((s.halvesOf h).map halfSubs).flatten.foldl State.endSleep (s.loadTimings h l)
  if regions then s.cdatChanged h else s

/-- A command takes effect at tick k, or is dropped (R51, R60, R62, R484). -/
def State.applyCmd (s : State) (h : Half) (k : Nat) (q : Cmd) : State :=
  let c := s.schedOf h
  let why := s.cmdFault c q.op q.target q.value
  if why ≠ 0 then
    (s.audit q.role q.path 3 (q.op * 65536 + q.target) q.asked 0 q.split).raise h 0x014 0x0B (unitForm q.target q.op) why
  else
    let s := if q.eff < k then s.audit q.role q.path 3 (q.op * 65536 + q.target) q.asked k q.split else s
    match q.op with
    | 1 => s.modSched h fun c => c.modRt q.target SrcRt.freeze
    | 2 => s.modSched h fun c => c.modRt q.target fun r => { r with frozen := false, held := none }
    | 3 => s.modSched h fun c => c.modRt q.target fun r => { r with delay := q.value }
    | 4 => s.modSched h fun c => { c with gain := q.value }
    | 5 => s.modSched h fun c => { c with enabled := c.enabled ||| (1#512 <<< q.target) }
    | 6 => s.modSched h fun c => { c with enabled := c.enabled &&& ~~~(1#512 <<< q.target) }
    | 7 => match (s.lasts[q.target]?).join with | some l => s.activateLast h q.target l | none => s
    | _ => s

/-- The activation that is due at tick k, if its effective tick is e (R66, R484). -/
def State.applyActivation (s : State) (h : Half) (k e : Nat) : State :=
  let c := s.schedOf h
  match c.actAt, c.armed with
  | some (eff, by_, path), some n =>
    if eff ≠ e then s
    else
      match (s.lasts[n]?).join with
      | some l =>
        let s := if eff < k && c.running then s.audit by_ path 4 n (s.word F.FS_ADMIT_RESULT.DONE.a).toNat k s.split else s
        s.activateLast h n l
      | none => s.modSched h fun c => { c with armed := none, actAt := none }
  | _, _ => s

/-- Effective ticks due at tick k, in ascending order (R484). -/
def dueTicks (c : Sched) (k : Nat) : List Nat :=
  let l := (c.cmds.map (·.eff)) ++ (match c.actAt with | some a => [a.1] | none => [])
  ((l.filter (· ≤ k)).eraseDups).mergeSort (· ≤ ·)

/-- Applies everything due at stitch 0 of tick k, group by group; in each the activation, then a SWITCH_LAST, then the other commands in the
order of acceptance (R62, R484). -/
def State.applyDue (s : State) (h : Half) (k : Nat) : State :=
  let s := (dueTicks (s.schedOf h) k).foldl (fun s e =>
    let s := s.modSched h fun c =>
      { c with srcs := Vector.ofFn fun i => match c.src i.val with | some x => (c.rt i.val).lookBack x e c.frame | none => c.rt i.val }
    let s := s.applyActivation h k e
    let l := (s.schedOf h).cmds.filter (·.eff == e)
    (l.filter (·.op == 7) ++ l.filter (·.op != 7)).foldl (fun s q => s.applyCmd h k q) s) s
  s.modSched h fun c => { c with cmds := c.cmds.filter (k < ·.eff) }

/-! FS_LAST_CTRL (R66, R487, R488) -/

/-- CANCEL drops the armed Last. -/
def State.cancelLast (s : State) (p : Path) : State :=
  let h := s.actHalf p
  let s := s.audit (s.role p).role p.idx 4 ((s.schedOf h).armed.getD 0) (s.word F.FS_ADMIT_RESULT.DONE.a).toNat 0 s.split
  s.modSched h fun c => { c with armed := none, actAt := none }

/-- ACTIVATE acts on the armed Last (R58, R66, R487); with none armed it is refused with an audit entry (R488). A late one takes effect at tick F
of R58 and its audit entry shows that tick; whether it also reports F − E in FS_CMD_RESULT, counts in LATE_CMD or raises 0x014 is open, and here it
does none of these (DESIGN CHOICE, log 171). -/
def State.activateArmed (s : State) (p : Path) : State :=
  let h := s.actHalf p
  let c := s.schedOf h
  let word := (s.word F.FS_ADMIT_RESULT.DONE.a).toNat
  match c.armed with
  | none => s.audit (s.role p).role p.idx 4 0 word 0 s.split
  | some n =>
    let e := s.staged p
    let eff := if c.running then max e (c.firstOpen) else 0
    (s.audit (s.role p).role p.idx 4 n word eff s.split).modSched h fun c => { c with actAt := some (eff, (s.role p).role, p.idx) }

/-- ADMIT with SEL of the same write: its audit entry follows with the result, or at once when it starts nothing (R458). -/
def State.admitWrite (s : State) (p : Path) : State :=
  let n := s.rd F.FS_LAST_CTRL.SEL
  if s.admitting.isSome then s.audit (s.role p).role p.idx 4 n (s.word F.FS_ADMIT_RESULT.DONE.a).toNat 0 s.split
  else { s.admitStart n with admBy := some ((s.role p).role, p.idx) }

/-- What the bits of a write of FS_LAST_CTRL start, in the order of R488. -/
def State.lastCtrl (s : State) (p : Path) (v : Nat) : State :=
  let s := if v.testBit 2 then s.cancelLast p else s
  let s := if v.testBit 1 then s.activateArmed p else s
  if v.testBit 0 then s.admitWrite p else s

/-! LUT banks (R85 to R88, R491) -/

/-- The bank in use. -/
def State.lutBank (s : State) : Nat := s.rd F.LE_LUT_CTRL.ACTIVE_BANK

/-- A LUT entry. -/
def State.lutAt (s : State) (k : Nat) : Nat := Sparse.get lutIdentity s.le.lut k

/-- The banks swap, and the copy of the new active bank begins (R85, R86). -/
def State.lutSwap (s : State) : State :=
  (((s.modLe fun l => { l with commit := none }).wr F.LE_LUT_CTRL.ACTIVE_BANK (1 - s.lutBank)).wr F.LE_LUT_CTRL.COPYING 1).wr F.LE_LUT_CTRL.COMMIT 0

/-- A COMMIT whose tick has come swaps the banks at stitch 0 of tick k; one whose tick no tick carried is audited again with the tick at which it took
effect (R85, R484). -/
def State.lutDue (s : State) (h : Half) (k : Nat) : State :=
  match s.le.commit with
  | some q =>
    if q.eff ≤ k && s.schedules h && h = s.leader then
      (if q.eff < k then s.audit q.role q.path 5 q.table 0 k q.split else s).lutSwap
    else s
  | none => s

/-- COMMIT of LE_LUT_CTRL (R85, R86). A late COMMIT takes effect at tick F of R58. The spec leaves open whether it also reports F − E in FS_CMD_RESULT,
counts in LATE_CMD or raises 0x014: DESIGN CHOICE (log 238), it does none of these. -/
def State.lutCommit (s : State) (p : Path) : State :=
  let c := s.schedOf (s.actHalf p)
  let t := s.rd F.LE_LUT_CTRL.TABLE
  if s.on F.LE_LUT_CTRL.COPYING then s.audit (s.role p).role p.idx 5 t 0 0 s.split
  else if c.running then
    let eff := max (s.staged p) (c.firstOpen)
    (((s.audit (s.role p).role p.idx 5 t 0 eff s.split).modLe fun l => { l with commit := some ⟨eff, t, p.idx, (s.role p).role, s.split⟩ })).wr F.LE_LUT_CTRL.COMMIT 1
  else (s.audit (s.role p).role p.idx 5 t 0 0 s.split).lutSwap

/-- After a write of LE_LUT_CTRL whose old word was given: TABLE above 79 is refused and stays; COMMIT acts. -/
def State.lutCtrl (s : State) (p : Path) (old : Word) (v : Nat) : State :=
  let s := if 79 < bits v 22 16 then s.wr F.LE_LUT_CTRL.TABLE (bits old.toNat 22 16) else s
  if v.testBit 31 then s.lutCommit p else s

/-- Key of the shadow-bank entry that TABLE and ENTRY name; none above 4,096 (R491). -/
def State.lutShadow (s : State) : Option Nat :=
  let e := s.rd F.LE_LUT_CTRL.ENTRY
  if 4096 < e then none else some (lutKey (1 - s.lutBank) (s.rd F.LE_LUT_CTRL.TABLE) e)

/-- A read of LE_LUT_DATA: the entry, and the state with ENTRY incremented (R491). -/
def State.lutRead (s : State) : Nat × State :=
  ((match s.lutShadow with | some k => s.lutAt k | none => 0), s.wrap F.LE_LUT_CTRL.ENTRY)

/-- A write of LE_LUT_DATA that passed its role check: refused while COPYING (kind 5) or above 4,096 (kind 2), else stored (kind 1). ENTRY
increments after every access (R491). -/
def State.lutWrite (s : State) (p : Path) (v : Nat) : State :=
  let s := s.setWord F.LE_LUT_DATA.DATA.a 0
  let role := (s.role p).role
  let s :=
    if s.on F.LE_LUT_CTRL.COPYING then s.audit role p.idx 5 (s.rd F.LE_LUT_CTRL.TABLE) 0 0 s.split
    else
      match s.lutShadow with
      | none => s.auditRefusal p F.LE_LUT_DATA.DATA.a 0 v
      | some k =>
        let x := if s.rd F.LE_LUT_CTRL.TABLE < 16 then v % 2 ^ 20 else v % 2 ^ 16
        (s.audit role p.idx 1 F.LE_LUT_DATA.DATA.a (s.lutAt k) x s.split).modLe fun l => { l with lut := Sparse.put lutIdentity l.lut k x }
  s.wrap F.LE_LUT_CTRL.ENTRY

/-- The copy of the active bank into the shadow bank ends (R86). -/
def State.lutCopied (s : State) : State :=
  let b := s.lutBank
  let act := s.le.lut.filter fun e => e.1 / 2 ^ 20 == b
  let other := act.map fun e => (lutKey (1 - b) 0 0 + e.1 % 2 ^ 20, e.2)
  (s.modLe fun l => { l with lut := if b = 0 then act ++ other else other ++ act }).wr F.LE_LUT_CTRL.COPYING 0

/-! Half fences (R317) -/

/-- A half fence takes effect: its engines are fenced with CAUSE 1, its heads hold electrical idle, and it gives its claim up; the other half takes
over by R318. -/
def State.fenceHalf (s : State) (h : Half) : State :=
  if (s.wh h).fencePending then
    let s := s.modWh h fun w => { w with fencePending := false, fenced := true, claim := false }
    ((List.range 8).foldl (fun s i =>
      let e := 8 * h.idx + i
      if (s.eng e).fenced then s.wr (F.LE_n_STATUS.CAUSE e) 1 else s.fenceEngine e 1) s).headsOff h
  else s

/-! Engines at stitch 0 (R99, R104, R116, R117, R120) -/

/-- A fenced engine with ENABLE pending is enabled again and takes its streams back; on a fenced half it stays fenced until the next start (R317). -/
def State.enableEngine (s : State) (e : Nat) : State :=
  let g := s.eng e
  if (s.wh (engHalf e)).fenced then (s.modEng e fun g => { g with enable := false }).wr (F.LE_n_CTRL.ENABLE e) 0
  else if g.fenced && g.enable then
    let home := (s.le.away.map (·.1)).filter fun st => match s.stream st with | some x => x.engine == e | none => true
    let s := s.modLe fun l => { l with away := l.away.filter fun p => !home.contains p.1 }
    let s := s.modEng e fun g => { g with fenced := false, enable := false, cold := true }
    (s.wr (F.LE_n_CTRL.ENABLE e) 0).wr (F.LE_n_STATUS.STATE e) 0
  else if g.enable then (s.modEng e fun g => { g with enable := false }).wr (F.LE_n_CTRL.ENABLE e) 0
  else s

/-- Streams whose engine is fenced look for a target again (R117); those without one are orphans of the tick. -/
def State.retarget (s : State) (h : Half) : State :=
  match (s.schedOf h).cfg with
  | none => s
  | some l =>
    let mine := l.streams.filter fun st => (s.schedOf h).enabled.getLsbD st.stream && (!s.split || s.runsStream h st)
    let s := s.modLe fun x => { x with orphans := x.orphans.filter fun o => s.split && !(mine.any (·.stream == o)) }
    mine.foldl (fun s st =>
      if !(s.eng (s.engineOf st)).fenced then s
      else
        match s.migrationTarget st.engine st with
        | some t => s.modLe fun x => { x with away := Sparse.ins x.away st.stream t }
        | none => s.modLe fun x => { x with away := Sparse.del x.away st.stream, orphans := x.orphans ++ [st.stream] }) s

/-- An engine takes its streams of the tick (R99) and starts, waiting for the wake budget when it was idle (R104). -/
def State.beginEngine (s : State) (e : Nat) : State :=
  let g := s.eng e
  let s := s.wr (F.LE_n_LAMPS.LAMPS e) g.lamps
  let sts := s.streamsOf e
  let ids := sts.map (·.stream)
  let s := s.modEng e fun g =>
    { g with plan := if g.fenced then [] else ids, moved := if g.fenced then [] else (sts.filter fun st => st.engine != e).map (·.stream)
             cur := none, lines := [], blocks := [], asked := [], panicAt := none, panicUsed := 0, panicBar := false, lamps := 0
             cold := true, waiting := false }
  let s := s.wr (F.LE_n_STATUS.PANIC e) 0
  if g.fenced then s
  else if ids.isEmpty then (s.wr (F.LE_n_STATUS.STATE e) 0).noteEngine e
  else if g.cold then
    let s := (s.wr (F.LE_n_STATUS.STATE e) 4).modEng e fun g => { g with waiting := true }
    (s.askWake (.engine e)).noteEngine e
  else (s.wr (F.LE_n_STATUS.STATE e) 1).noteEngine e

/-! Tick timing (R367 to R372) -/

/-- TICK_SRC in force from this stitch 0 on (3 is taken as 0), on the time base in front. -/
def State.takeTickSrc (s : State) : State :=
  let v := s.rd F.TB_CFG.TICK_SRC
  s.modTb fun t => { t with tickSrc := if v = 3 then 0 else v }

/-- Before the target of the last accepted FTICK_IN edge: core cycles to the next target of it or of the earlier edges (Table TB-3). -/
def ftNext (mul : Nat) (late : Int) : List Nat → Nat
  | [] => (-late).toNat
  | v :: t =>
    let ahead := ((List.range mul).map fun j => (j * v / mul : Nat) - (late + (v : Int))).filter (0 ≤ ·)
    min (-late).toNat (ahead.foldl (fun b x => min b x.toNat) (if late + v < 0 then ftNext mul (late + v) t else (-late).toNat))

/-- Core cycles from now to the first tick target of an activation (R371, R487); none while no target exists. -/
def State.toTarget (s : State) (n d : Nat) : Option Nat :=
  if s.tb.tickSrc = 1 then
    let per : Nat := d * 10 ^ 9 * 2 ^ 32
    let x := (((s.tb.time : Int) - ((s.rd F.TB_PHASE_OFS.PHASE_OFS * 2 ^ 32 : Nat) : Int)) * (n : Int) % (per : Int)).toNat
    let q := n * 2 ^ 48 * 10 ^ 9
    some (if x = 0 then 0 else ((per - x) * s.tb.rate + q - 1) / q)
  else if s.tb.tickSrc = 2 then
    s.tb.ftLast.map fun e =>
      let l := (lnom s.tb.rate n d 0).1
      let per : Nat := max 1 ((meanOf s.tb.ftIntervals).getD (l * s.ftickMul) / s.ftickMul)
      let late : Int := (s.now : Int) - ((e + 16 * s.rd F.TB_TICKIO.FTICK_DLY : Nat) : Int)
      let x := (late % (per : Int)).toNat
      if late < 0 then ftNext s.ftickMul late s.tb.ftIntervals else if x = 0 then 0 else per - x
  else some 0

/-- What a half does with the time base that its schedule runs by: the leader's, or its own in split mode (R323). -/
def State.onBase (s : State) (h : Half) (f : State → State) : State := if s.split && h != s.leader then (f s.flip).flip else f s

/-- L_k and the phase of the tick that starts now, by the time base in front (R368, R369). -/
def State.setLength (s : State) (h : Half) : State :=
  let c := s.schedOf h
  match c.cfg with
  | none => s
  | some l =>
    let (len, frac) := lnom s.tb.rate l.rateN l.rateD c.frac
    let e := s.phaseError l.rateN l.rateD len
    let snap := s.on F.TB_CFG.PHASE_SNAP
    let (corr, missed) := corrOf snap len e
    let s := s.flag F.TB_STATUS.PHASE_SLEW (corr != 0)
    let s := if snap && e.isSome then s.bump F.TB_TICK_CNT.SNAPS else s
    let s := if missed then s.bump F.TB_TICK_CNT.MISSED else s
    s.modSched h fun c => { c with tickAt := s.now, tickLen := ((len : Int) - corr).toNat, frac := frac, jump := b2n missed }

/-! Stitch W_end (R72, R101, R102) -/

/-- Repeat chunks of a stream from a chunk on, handed to delivery after its staged chunks. -/
def State.repeatFrom (s : State) (st : StreamCfg) (e frame c : Nat) : State :=
  let n := st.chunks - c
  let recs := (List.range n).map fun i =>
    ({ engine := e, head := st.head, frame := frame, chunk := c + i, bytes := repeatRecord st frame (c + i) (s.asSeen (engHalf e)).stamp, rep := true
       isLast := c + i + 1 == st.chunks } : Rec)
  (s.modRing st.stream fun r => { r with queue := r.queue ++ recs }).bump F.FS_EVENT_CNT.REPEAT n

/-- An engine stops computing: every chunk of the tick not fully staged becomes a repeat chunk. -/
def State.endEngine (s : State) (h : Half) (e : Nat) : State :=
  let g := s.eng e
  let frame := (s.schedOf h).frame
  let s := match g.cur with
    | some (r, c) => (match s.stream r with | some st => s.repeatFrom st e frame c | none => s)
    | none => s
  let s := g.plan.foldl (fun s r => match s.stream r with | some st => s.repeatFrom st e frame (s.startChunk r frame) | none => s) s
  let c := s.schedOf h
  let used := match g.panicAt with | some t => c.stitches (g.panicUsed + (s.now - t)) - c.stitches g.panicUsed | none => 0
  let s := s.bump (F.LE_n_COUNT.PANIC_STITCH e) used
  let s := s.modEng e fun g => { g with plan := [], cur := none, lines := [], blocks := [], asked := [], panicAt := none, waiting := false }
  let s := s.modMh (engHalf e) fun m => { m with waiting := m.waiting.filter (· != .engine e) }
  let s := (s.wr (F.LE_n_STATUS.PANIC e) 0).noteEngine e
  if g.fenced || s.rd (F.LE_n_STATUS.STATE e) = 0 then s else s.wr (F.LE_n_STATUS.STATE e) 2

/-- The set of publications of the tick closes at stitch C (R44). -/
def State.closeSet (s : State) (h : Half) : State :=
  let c := s.schedOf h
  if !c.running || c.cutDone then s
  else
    let s := s.jumpTo (c.tickAt + (match c.cfg with | some l => l.cutoff | none => 0) * c.len / 4096)
    s.modSched h fun c => { c with cutDone := true }

/-- Production ends at stitch W_end and the maintenance window opens (R72, R102). -/
def State.endProduction (s : State) (h : Half) : State :=
  let s := s.closeSet h
  let c := s.schedOf h
  if !c.running || c.prodDone then s
  else
    let s := s.jumpTo (c.tickAt + (match c.cfg with | some l => l.wend | none => 0) * c.len / 4096)
    let s := (s.enginesOf h).foldl (fun s e => s.endEngine h e) s
    let s := (s.le.orphans.filter fun r => match s.stream r with | some st => !s.split || s.runsStream h st | none => false).foldl
      (fun s r => match s.stream r with | some st => s.repeatFrom st (if s.split && engHalf st.engine != h then 8 * h.idx else st.engine) c.frame (s.startChunk r c.frame) | none => s) s
    let s := s.modSched h fun c => { c with prodDone := true }
    s.windowOpens h

/-! Stitch 0 (Table FS-2) -/

/-- The frame count of the tick that begins (R41, R43). -/
def nextFrame (c : Sched) (base : Nat) : Nat := if c.everActive then (c.frame + 1 + c.jump) % 2 ^ 64 else base

/-- Fixes every source's slots for tick k, and clears what a tick limits (R50, R133, R202). -/
def State.fixSlots (s : State) (h : Half) (k : Nat) : State :=
  let s := s.modSched h fun c => { c with srcs := Vector.ofFn fun i => match c.src i.val with | some e => (c.rt i.val).fix e k | none => c.rt i.val }
  (if s.split then halfHeads h else [0, 1, 2, 3]).foldl (fun s n => s.modHead n fun x => { x with guarded := false }) s

/-- The shared outputs and entries of stitch 0 (R372, R373, Table HP-8). -/
def State.tickOutputs (s : State) (h : Half) (k : Nat) : State :=
  let s := if h = s.leader then s.modTb fun t => { t with tickOut := true } else s
  let s := if h = s.leader && s.on F.TB_CFG.TSQ_TICK then s.tsqPush 3 (k % 65536) else s
  let s := if s.split && h = s.leader then s.bump F.WL_SPLIT.TICKS else s
  (if s.split then halfHeads h else [0, 1, 2, 3]).foldl (fun s n => if (s.head n).tickEn then s.msix n 3 else s) s

/-- Stitch 0 of a tick on the schedule of a half. The first tick of a first activation carries FRAME_BASE (R41); a jump of the count raises
source 0x013 (R43). -/
def State.stitchZero (s : State) (h : Half) (base : Nat) : State :=
  let c := s.schedOf h
  let k := nextFrame c base
  let s := (s.windowCloses h).modWl fun w => { w with mending := false }
  let s := if c.everActive && 0 < c.jump then s.raise h 0x013 0x1A (unitForm 0 k) (min c.jump 127) else s
  let s := if c.everActive then s else s.modSched h fun c => { c with frac := 0 }
  let s := s.applyDue h k
  let s := s.modSched h fun c => { c with frame := k, running := true, cutDone := false, prodDone := false, idleWindow := false }
  let s := if s.split then s.fenceHalf h else (s.fenceHalf .a).fenceHalf .b
  let s := ((s.onBase h fun s => s.setLength h).fixSlots h k).lutDue h k
  let s := (s.enginesOf h).foldl State.enableEngine s
  let s := s.retarget h
  let s := if s.pwr.shed.isSome then s else (s.enginesOf h).foldl State.beginEngine s
  s.tickOutputs h k

/-- The Welt's payload use in the tick that ends, ‰ of 1.6 Tbit/s in each direction: the spec gives it no rule in terms of what crosses, and it is a
free value (WL_LOAD). -/
def State.noteWelt (s : State) (h : Half) : State :=
  if s.joined && h == s.leader then
    (((s.draw).2.peak F.WL_LOAD.PEAK_AB (s.draw.1.toNat % 1001)).peak F.WL_LOAD.PEAK_BA (s.draw.1.toNat / 1024 % 1001))
  else s

/-- The next tick of a half begins: at the end of the tick that runs, or at the first target of an activation (R367, R371, R487). -/
def State.tick (s : State) (h : Half) : State :=
  let c := s.schedOf h
  if !s.schedules h || (s.fc h).fatal || 4 ≤ s.rd F.PS_STATUS.STATE then s
  else if c.running then
    let s := s.endProduction h
    let c := s.schedOf h
    (((s.jumpTo (c.tickAt + c.tickLen)).noteWelt h).onBase h State.takeTickSrc).stitchZero h 0
  else
    match c.actAt, c.armed.bind (fun n => (s.lasts[n]?).join) with
    | some _, some l =>
      let s := s.onBase h State.takeTickSrc
      match (s.asSeen h).toTarget l.rateN l.rateD with
      | some d => (s.advance d).stitchZero h l.frameBase
      | none => s
    | _, _ => s

end Sys2Proof.Machine
end

