-- ==== Sys2Proof/Machine/IngestOps.lean ====
section
/-! DEFINITION. Shared operations of ingest: busy slots, the checks of doorbells and lines, line assembly, block encoding, the size map and
publication (02_frame_schedule.md R46 to R56; 04_twill_codec.md R126 to R141, R153; 06 R209, R210, R214). -/
namespace Sys2Proof.Machine

/-! What a source's messages and counters say -/

/-- The entry of a source in the Last in force on the half of a head. -/
def State.srcAt (s : State) (h n : Nat) : Option SrcCfg := (s.schedOf (half4 h)).src n

/-- The frame schedule that serves a head is ACTIVE. -/
def State.activeAt (s : State) (h : Nat) : Bool := (s.schedOf (half4 h)).active

/-- A REFUSED message of source 0x020 + n (Table FC-1a). -/
def State.srcRefused (s : State) (h n slot why : Nat) : State := s.raise (half4 h) (0x020 + n) 0x0B (unitForm n slot) why

/-- A DROPPED message of source 0x020 + n for a number of lines. -/
def State.srcDropped (s : State) (h n lines field : Nat) : State :=
  if lines = 0 then s else s.raise (half4 h) (0x020 + n) 0x0C (unitForm n lines) field

/-- Counts lines in RANGE (field 1). -/
def State.dropRange (s : State) (h n k : Nat) : State := (s.bump (F.TW_SRC_DROP_n.RANGE n) k).srcDropped h n k 1

/-- Counts a line in ORDER (field 2). -/
def State.dropOrder (s : State) (h n : Nat) : State := (s.bump (F.TW_SRC_DROP_n.ORDER n)).srcDropped h n 1 2

/-- A line or read met a source without a write slot: RANGE, and one event per tick (R133, R153). -/
def State.dropNoSlot (s : State) (h n k : Nat) : State :=
  let s := s.bump (F.TW_SRC_DROP_n.RANGE n) k
  if (s.rt n).noted then s else (s.srcDropped h n k 1).modRt n fun r => { r with noted := true }

/-! Slots -/

/-- A slot copy uses a slot of a source: read by a copy to the Archive, or written by one from it (R214). -/
def State.copying (s : State) (n slot : Nat) (fromArchive : Bool) : Bool :=
  s.heads.toList.any fun x => match x.copy with | some c => c.src == n && c.slot == slot && c.fromArchive == fromArchive | none => false

/-- A copy from the Archive into a slot of a source runs (R214). -/
def State.copyingIn (s : State) (n : Nat) : Bool :=
  s.heads.toList.any fun x => match x.copy with | some c => c.src == n && c.fromArchive | none => false

/-- A slot is busy (R52, R138, R214): also from the acceptance of its publication on. -/
def State.slotBusy (s : State) (n slot : Nat) : Bool :=
  let c := s.schedOf (s.srcHalf n)
  (match c.src n with | some k => ((s.rt n).busySlots k c.frame).contains slot | none => false) || s.copying n slot false ||
    (s.rt n).pubs.any (·.slot == slot)

/-- The slot that the next publication must name, if any slot was published since the rings were reset (R48). -/
def SrcRt.nextSlot (r : SrcRt) (depth : Nat) : Option Nat :=
  let last := match r.pubs.getLast? with | some p => some p.slot | none => Option.map Counted.slot r.counted.getLast?
  last.map fun x => (x + 1) % depth

/-! Lines (R126 to R137, R141) -/

/-- Pixels per line (R126). -/
def SrcCfg.ppl (k : SrcCfg) : Nat := if k.d12 then 10 else 16

/-- Lines per row. -/
def SrcCfg.lines (k : SrcCfg) : Nat := (k.width + k.ppl - 1) / k.ppl

/-- Component c of pixel p of a line (R127, R128). -/
def SrcCfg.unpack (k : SrcCfg) (d : LineData) (p c : Nat) : Nat :=
  if k.d12 then d.toNat / 2 ^ (48 * p + 12 * c) % 2 ^ 12 else d.toNat / 2 ^ (32 * p + 10 * c) % 2 ^ 10

/-- Packs the pixels of a line, component lists per pixel (R127, R128, R153). -/
def SrcCfg.pack (k : SrcCfg) (px : List (List Nat)) : LineData :=
  let w := if k.d12 then 48 else 32
  let b := if k.d12 then 12 else 10
  BitVec.ofNat 512 (px.foldr (fun p acc => p.getD 0 0 + p.getD 1 0 * 2 ^ b + p.getD 2 0 * 2 ^ (2 * b) + acc * 2 ^ w) 0)

/-- Rows of a block row. -/
def SrcCfg.rowsOf (k : SrcCfg) (brow : Nat) : List Nat := (List.range (min 4 (k.height - 4 * brow))).map (4 * brow + ·)

/-- Key of a line in the assembly buffer. -/
def asmKey (row line : Nat) : Nat := row * 2048 + line

/-- Every line of the open block row has been written (R136). -/
def SrcRt.rowComplete (r : SrcRt) (k : SrcCfg) : Bool :=
  (k.rowsOf r.brow).all fun y => (List.range k.lines).all fun l => (Sparse.find r.asm (asmKey y l)).isSome

/-- A line of a source is taken into its write slot (R49, R53, R133 to R137, R214). -/
def State.takeLine (s : State) (h n : Nat) (k : SrcCfg) (row line : Nat) (d : LineData) : State :=
  let r := s.rt n
  if s.copyingIn n then s.dropOrder h n
  else
  match r.wslot with
  | none => s.dropNoSlot h n 1
  | some w =>
    if s.slotBusy n w then (s.bump (F.FS_SRC_CNT_n.REFUSED n)).srcDropped h n 1 4
    else
      let s :=
        if row = 0 && line = 0 then
          s.modRt n fun r =>
            { r with pass := 1, brow := 0, asm := [(asmKey 0 0, d)], incomplete := r.incomplete.filter (· != w), begun := r.begun + 1
                     bulk := k.maxSlots < r.begun + 1, lossy := 0, maxQ := 0, sectors := 0 }
        else if r.pass ≠ 1 then s
        else if row / 4 ≠ r.brow then (s.dropOrder h n).modRt n fun r => r.markIncomplete w
        else s.modRt n fun r => { r with asm := Sparse.ins r.asm (asmKey row line) d }
      if (s.rt n).pass = 1 && (s.rt n).rowComplete k then s.modRt n fun r => { r with encoding := true } else s

/-! SLOT_SELECT (R132 to R134) -/

/-- A SLOT_SELECT of the publishing head takes effect in order: it is refused beyond DEPTH, else abandons any pass. -/
def State.takeSelect (s : State) (h n : Nat) (k : SrcCfg) (slot : Nat) : State :=
  if k.depth ≤ slot then s.srcRefused h n slot 6
  else
    s.modRt n fun r =>
      let r := match r.wslot with | some w => if r.pass = 1 then r.markIncomplete w else r | none => r
      { r with wslot := some slot, pass := 0, brow := 0, asm := [] }

/-! Publication (R47, R48, R138, R210) -/

/-- DB_PUB_STATUS_s (Table AM-7). -/
def pubWord (tag result tick : Nat) : Nat := tag % 2 ^ 16 * 2 ^ 16 + result * 2 ^ 12 + (if result ≤ 1 then tick % 4096 else 0)

/-- A doorbell of the publishing head is refused with a result of Table AM-8. -/
def State.refusePub (s : State) (h n slot tag result : Nat) : State :=
  ((s.bump (F.FS_SRC_CNT_n.REFUSED n)).modRt n fun r => { r with pubStatus := pubWord tag result 0 }).srcRefused h n slot result

/-- RESULT of the checks of a doorbell after code 5 (R210): 2 ring order, 4 incomplete, 3 write slot and pass, 0 accepted. -/
def State.pubResult (s : State) (n : Nat) (k : SrcCfg) (slot : Nat) : Nat :=
  let r := s.rt n
  if (r.nextSlot k.depth).any (· != slot) then 2
  else if r.incomplete.contains slot then 4
  else if r.wslot != some slot || r.pass != 2 then 3
  else 0

/-- The checks of a publish doorbell once the head's earlier lines are taken (Table AM-9, step 2); an accepted one waits for its blocks. A source
absent from the active Last has no publishing head: a doorbell of any head sets DB_PUB_STATUS_s to RESULT 5 (DESIGN CHOICE, log 176). -/
def State.takePublish (s : State) (h n slot tag tick : Nat) (late : Bool) : State :=
  match s.srcAt h n with
  | some k =>
    if k.head ≠ h then (s.bump (F.FS_SRC_CNT_n.REFUSED n)).srcRefused h n slot 7
    else if !s.activeAt h then s.refusePub h n slot tag 5
    else
      let v := s.pubResult n k slot
      if v ≠ 0 then s.refusePub h n slot tag v
      else s.modRt n fun r => { r with wslot := none, pass := 0, pubs := r.pubs ++ [⟨slot, tag, tick, late⟩] }
  | none => s.refusePub h n slot tag 5

/-! Waiting behind the encoder (R132, R140, R210) -/

/-- One waiting item is taken. The checks of R133 were made when it came: it is not held to an ACTIVE schedule again, and is dropped with no count when its
source has left the Last (DESIGN CHOICE, log 242). -/
def State.takeIngest (s : State) (n : Nat) (i : Ingest) : State :=
  match (s.schedOf (s.srcHalf n)).src n with
  | none => s
  | some k =>
    match i with
    | .line row line d => s.takeLine k.head n k row line d
    | .select slot => s.takeSelect k.head n k slot
    | .publish slot tag tick late => s.takePublish k.head n slot tag tick late

/-- Takes waiting items in order until the assembly buffer is full again. -/
def State.takeWaiting (s : State) (n : Nat) : State :=
  (s.rt n).wait.foldl (fun s i =>
    if (s.rt n).encoding then s else (s.modRt n fun r => { r with wait := r.wait.drop 1, taken := r.taken + 1 }).takeIngest n i) s

/-- An item of the publishing head: taken at once, or behind the encoder. -/
def State.offer (s : State) (n : Nat) (i : Ingest) : State :=
  if (s.rt n).encoding || !(s.rt n).wait.isEmpty then s.modRt n fun r => { r with wait := r.wait ++ [i] } else s.takeIngest n i

/-! Encoding (R121 to R124, R136, R140, R141, R149) -/

/-- Pixel component of the open block row with the padding of R141. -/
def SrcRt.pixel (r : SrcRt) (k : SrcCfg) (x y c : Nat) : Nat :=
  let x := min x (k.width - 1)
  let y := min y (k.height - 1)
  match Sparse.find r.asm (asmKey y (x / k.ppl)) with
  | some d => k.unpack d (x % k.ppl) c
  | none => 0

/-- The encoded block of column bx of the open block row. -/
def SrcRt.encodeAt (r : SrcRt) (k : SrcCfg) (m : TwMode) (bx : Nat) : Encoded :=
  encodeBlock m k.depthBits (k.width < 32 * bx + 32) (k.height < 4 * r.brow + 4)
    ((List.range 3).map fun c => (List.range 128).map fun i => r.pixel k (32 * bx + i % 32) (4 * r.brow + i / 32) c)

/-- Writes the sectors of a block, of Bulk class beyond MAX_SLOTS (R140); a discarded write marks the slot incomplete (R212, R216). -/
def State.writeBlock (s : State) (n : Nat) (k : SrcCfg) (m : TwMode) (slot b : Nat) (e : Encoded) : State :=
  (List.range e.sectors).foldl (fun s i =>
    let w := s.writeDpa (half4 k.head) (k.blockAt m slot b + 64 * i) (BitVec.ofNat 512 (e.v / 2 ^ (512 * i))) false (1 + n) (s.rt n).bulk
    if w.1 then w.2 else w.2.modRt n fun r => r.markIncomplete slot) s

/-- A map line with one entry replaced. -/
def withEntry (d : LineData) (b e : Nat) : LineData :=
  let i := b / 2 % 64
  let old := (lineByte d i).toNat
  let new := if b % 2 = 0 then old / 16 * 16 + e else old % 16 + 16 * e
  lineOfBytes ((List.range 64).map fun j => if j = i then BitVec.ofNat 8 new else lineByte d j)

/-- Writes a map line; a discarded write marks the slot incomplete. An entry that is written after its source began a slot beyond MAX_SLOTS takes the
class of the slot now begun, on which R140 is silent (DESIGN CHOICE, log 241). -/
def State.writeMap (s : State) (n : Nat) (k : SrcCfg) (slot b : Nat) (d : LineData) : State :=
  let w := s.writeDpa (half4 k.head) (k.mapLine slot b) d false (1 + n) (s.rt n).bulk
  if w.1 then w.2 else w.2.modRt n fun r => r.markIncomplete slot

/-- Entries that begin a map line are written without reading it, once no earlier entry of that line waits (R124). -/
def State.firstEntries (s : State) (n : Nat) (k : SrcCfg) : State :=
  (s.rt n).mapWait.foldl (fun s e =>
    let wait := (s.rt n).mapWait
    if e.2.1 % 128 = 0 && wait.find? (fun x => x.1 == e.1 && x.2.1 / 128 == e.2.1 / 128) == some e then
      (s.modRt n fun r => { r with mapWait := r.mapWait.erase e }).writeMap n k e.1 e.2.1 (withEntry 0 e.2.1 e.2.2)
    else s) s

/-- The block row in the assembly buffer is encoded: blocks written, map entries queued, the next block row opened or the pass done. -/
def State.encodeRow (s : State) (n : Nat) (k : SrcCfg) (m : TwMode) (slot : Nat) : State :=
  let r := s.rt n
  let out := (List.range k.bw).map fun bx => (r.brow * k.bw + bx, r.encodeAt k m bx)
  let s := out.foldl (fun s o => s.writeBlock n k m slot o.1 o.2) s
  let s := s.modRt n fun r =>
    { r with asm := [], brow := r.brow + 1, pass := if r.brow + 1 = k.bh then 2 else 1
             lossy := r.lossy + (out.filter fun o => 0 < o.2.qexp).length, maxQ := out.foldl (fun a o => max a o.2.qexp) r.maxQ
             sectors := r.sectors + out.foldl (fun a o => a + o.2.sectors) 0
             mapWait := if m = .tl then r.mapWait ++ out.map fun o => (slot, o.1, o.2.entry) else r.mapWait }
  let s := s.firstEntries n k
  let r := s.rt n
  if r.pass = 2 then
    ((s.wr (F.TW_SRC_STAT_n.LOSSY n) (min r.lossy (2 ^ 22 - 1))).wr (F.TW_SRC_STAT_n.MAX_QEXP n) r.maxQ).wr (F.TW_SRC_SIZE_n.SECTORS n) r.sectors
  else s

/-- Every block and map entry of a slot of the source has its place in the write queue of its subchannel: none waits (Table AM-9, step 3). -/
def State.blocksAccepted (s : State) (n slot : Nat) : Bool :=
  !((s.rt n).mapWait.any (·.1 == slot)) && s.dm.subs.toList.all fun u => u.wrWait.all fun w => w.line.tag != 1 + n

/-- Counts a publication (R49, R50, R54): a slot counted earlier in the same tick leaves the counted sequence. -/
def SrcRt.count (r : SrcRt) (p : PubReq) : SrcRt :=
  let new := fun (prev : Option Nat) => (⟨p.slot, p.tick, prev⟩ : Counted)
  match r.counted.getLast? with
  | some c =>
    if c.tick = p.tick then { r with counted := r.counted.dropLast ++ [new c.prev] } else { r with counted := r.counted ++ [new (some c.slot)] }
  | none => { r with counted := [new none] }

/-! Pixel-window reads (R153) -/

/-- Blocks of a window read: those its lines touch, within the image. -/
def WinRead.blocks (w : WinRead) (k : SrcCfg) : List Nat :=
  let first := w.line * k.ppl
  let last := min ((w.line + w.lines) * k.ppl) k.width
  if last ≤ first || k.height ≤ w.row then [] else (List.range ((last - 1) / 32 - first / 32 + 1)).map fun i => w.row / 4 * k.bw + first / 32 + i

/-- Answers every line of a window read with 0 (R153). -/
def State.windowZero (s : State) (h lines : Nat) : State := s.emit (.window h (List.replicate lines (some 0)))

/-- Asks for the lines that the blocks of a window read still need. -/
def State.askWindow (s : State) (h : Nat) (k : SrcCfg) (m : TwMode) (w : WinRead) : State :=
  let x := s.head h
  let todo := (w.blocks k).filter fun b => (blockIn x.winBlocks w.src w.slot b).isNone
  let need := ((todo.map fun b => blockNeeds k m x.winLines w.slot b).flatten.eraseDups).filter fun a => !x.winAsked.contains (a / 64)
  need.foldl (fun s a => (s.modHead h fun y => { y with winAsked := y.winAsked ++ [a / 64] }).readDpa (half4 h) a false (.window h)) s

/-- One line of a window read, none when it touches a poisoned block (R127 to R129, R153). Of a read of several lines only those that touch the block
complete as poison: R153 leaves open whether the others do (DESIGN CHOICE, log 240). -/
def winLine (k : SrcCfg) (w : WinRead) (bs : List InBlock) (line : Nat) : Option LineData :=
  let at' := fun p => blockIn bs w.src w.slot (w.row / 4 * k.bw + (line * k.ppl + p) / 32)
  let inside := (List.range k.ppl).filter fun p => line * k.ppl + p < k.width
  if line < k.lines && inside.any (fun p => ((at' p).bind (·.pix)).isNone) then none
  else
    some (k.pack ((List.range k.ppl).map fun p =>
      if line * k.ppl + p < k.width && line < k.lines then
        (List.range 3).map fun c => match (at' p).bind (·.pix) with | some px => pixelOf px c (line * k.ppl + p) w.row | none => 0
      else [0, 0, 0]))

/-- Answers a window read whose blocks are all decoded. -/
def State.finishWindow (s : State) (h : Nat) (k : SrcCfg) (m : TwMode) (w : WinRead) : State :=
  let x := s.head h
  if (w.blocks k).all fun b => (blockIn x.winBlocks w.src w.slot b).isSome then
    let out := (List.range w.lines).map fun i => winLine k w x.winBlocks (w.line + i)
    let bad := (w.blocks k).find? fun b => ((blockIn x.winBlocks w.src w.slot b).bind (·.pix)).isNone
    let s := (s.modHead h fun y => { y with win := none, winAsked := [], winLines := [], winBlocks := [] }).emit (.window h out)
    match bad with
    | some b => s.raise (half4 h) (0x020 + w.src) 2 (lineForm 31 (k.blockAt m w.slot b)) 0
    | none => s
  else s

/-! Decoding (R143, R148) -/

/-- Counts and reports a block that failed its tests (R143). -/
def State.blockBad (s : State) (h : Half) (k : SrcCfg) (m : TwMode) (slot b : Nat) (bad : Option TwBad) : State :=
  match bad with
  | none => s
  | some w =>
    let s := match w with
      | .sizeMap => s.bump F.TW_DEC_ERR.MAP_ERR
      | .header => s.bump F.TW_DEC_ERR.HDR_ERR
      | .bitstream => s.bump F.TW_DEC_ERR.HDR_ERR
    s.raise h 0x042 2 (lineForm 31 (k.blockAt m slot b)) (match w with | .header => 1 | .sizeMap => 2 | .bitstream => 3)

/-! Slot copies (R214, R215) -/

/-- Subchannels of a region. -/
def Region.subs (r : Region) : List Nat := (List.range 16).filter fun n => r.onHalf (subHalf n)

/-- RESULT of a copy command's checks (R214, R215): 0 for a copy that starts. `slot` is none for a copy into the write slot. Where several conditions
fail the spec gives no order: DESIGN CHOICE (log 243), the head or an absent source (2), a copy that runs (1), the schedule not ACTIVE (2), the
area (3), the slot (4). -/
def State.copyCheck (s : State) (h n : Nat) (slot : Option Nat) : Nat :=
  match s.srcAt h n with
  | none => 2
  | some k =>
    let c := s.schedOf (half4 h)
    let r := s.rt n
    let dst := (s.head h).copyDst
    if k.head ≠ h then 2
    else if (s.head h).copy.isSome then 1
    else if !s.activeAt h then 2
    else
      match c.modeOf k, c.map.find dst with
      | some m, some (_, g) =>
        if g.cls ≠ 2 || TwMode.ofTwill g.twill ≠ some m || !g.covers dst (k.slotBytes m) || dst % (256 * g.nsub) ≠ 0 ||
            !(if slot.isSome then g.wrHeads else g.rdHeads).testBit h then 3
        else
          match slot with
          | some x => if k.depth ≤ x || (r.wslot == some x && r.pass == 1) then 4 else 0
          | none =>
            match r.wslot with
            | some w => if s.slotBusy n w || r.pass == 1 || r.encoding then 4 else 0
            | none => 4
      | _, _ => 3

/-- DB_COPY_CMD: the copy starts, or its refusal shows in RESULT. What else DB_COPY_STATUS shows then is left open: DESIGN CHOICE (log 245), BUSY and the
sector count stay, and the next line of a running copy takes the refusal away again. -/
def State.copyStart (s : State) (h n : Nat) (slot : Option Nat) : State :=
  let v := s.copyCheck h n slot
  if v ≠ 0 then s.modHead h fun x => { x with copyStatus := x.copyStatus / 2 ^ 31 * 2 ^ 31 + v * 2 ^ 28 + x.copyStatus % 2 ^ 25 }
  else
    match s.srcAt h n with
    | none => s
    | some k =>
      match (s.schedOf (half4 h)).modeOf k with
      | none => s
      | some m =>
        let x := slot.getD ((s.rt n).wslot.getD 0)
        let ring := k.slotBase x
        let s := s.modHead h fun y =>
          { y with copies := y.copies + 1, copyStatus := 2 ^ 31
                   copy := some { id := y.copies, fromArchive := slot.isNone, src := n, slot := x, lines := k.slotBytes m / 64
                                  base := if slot.isNone then y.copyDst else ring, dest := if slot.isNone then ring else y.copyDst } }
        let s := if slot.isNone then s.modRt n fun r => { r with pass := 0, asm := [] } else s
        s.copyOn h

/-- A copy ends (R214, R215): with the lines copied and RESULT 0, 5 after poisoned lines, or 6. When SLOT_SELECT has moved the write slot away from a
copy into it, the spec does not say which slot a success makes done: DESIGN CHOICE (log 244), none, and the copied slot is marked incomplete. -/
def State.copyEnd (s : State) (h : Nat) (c : Copy) : State :=
  let v := if c.early then 6 else if c.bad = 0 then 0 else 5
  let s := s.modHead h fun x => { x with copy := none, copyStatus := v * 2 ^ 28 + c.done % 2 ^ 25 }
  let s := if v = 0 then s else s.raise (half4 h) 0x07A 0x0C (unitForm h c.done) v
  if !c.fromArchive then s
  else
    s.modRt c.src fun r =>
      if !c.early && r.wslot == some c.slot then { r with pass := 2, incomplete := r.incomplete.filter (· != c.slot) }
      else r.markIncomplete c.slot

/-- The subchannels whose sleeping Archive ranks a copy needs. -/
def State.copySleeps (s : State) (h : Nat) (c : Copy) : List Nat :=
  ((c.later ++ (if c.next < c.granules then [c.next] else [])).filterMap fun g => s.copyWaits h c g).eraseDups

end Sys2Proof.Machine
end

