-- ==== Sys2Proof/Machine/Selvedge.lean ====
section
/-! DEFINITION. Selvedge: collection, sticky bits, the log ring, ERR_N, force bits and the merge of the stores at a rejoin
(15_fault_collection.md R417 to R433), with the registers that show the store. -/
namespace Sys2Proof.Machine

/-- A message packed as Table FC-4 states. -/
def Msg.pack (m : Msg) : Nat :=
  m.src % 512 * 2 ^ 55 + m.kind % 32 * 2 ^ 50 + m.sev % 8 * 2 ^ 47 + m.detail % 2 ^ 40 * 2 ^ 7 + m.extra % 128

/-- PIN_THR in force (R423): 0 is taken as 1, above 4 as 4. -/
def State.pinThr (s : State) : Nat := min (max (s.rd F.FC_CFG.PIN_THR) 1) 4

/-- The sources of a store that drive ERR_N (R423). -/
def State.pinSources (s : State) (h : Half) : List Nat :=
  (List.range 0x140).filter fun i => (s.fc h).isSticky i && !s.masked i && s.pinThr ≤ s.sevOf i

/-- The last heel flags taken from a half (WL_HEEL_x.FLAGS, bits 15 to 9 of its frame). -/
def State.heelFlags (s : State) (h : Half) : Nat :=
  s.rd (match h with | .a => F.WL_HEEL_A.FLAGS | .b => F.WL_HEEL_B.FLAGS)

/-- ERR_N is held low (R423); while the Welt does not join the halves, and after a takeover until a rejoin, the far half's STICKY_PIN and FATAL count too (R313,
R432). -/
def State.errN (s : State) : Bool :=
  !(s.pinSources s.leader).isEmpty ||
    ((s.split || !s.wl.up || s.wl.tookOver) && ((s.heelFlags s.leader.other).testBit 2 || (s.heelFlags s.leader.other).testBit 1))

/-- Enters a message in the log ring; the newest 256 stay (R420). -/
def FcStore.enter (f : FcStore) (m : Msg) (split inSplit : Bool) : FcStore :=
  let full := 256 ≤ f.log.length
  { f with log := (if full then f.log.drop 1 else f.log) ++ [⟨m, split, inSplit⟩]
           wr := (f.wr + 1) % 2 ^ 32
           overwritten := if full then satAdd 16 f.overwritten 1 else f.overwritten
           first := if m.sev == 4 then some (f.first.getD m) else f.first }

/-- The first message for a source: its sticky bit is set and it is logged (R418). -/
def FcStore.push (f : FcStore) (m : Msg) (split inSplit : Bool) : FcStore :=
  { f.enter m split inSplit with sticky := f.sticky ||| BitVec.ofNat 320 (2 ^ m.src) }

/-- The next entry of a source is the first overwrite of the ring since source 0x138 was last clear in the store (R420). -/
def FcStore.exceeds (f : FcStore) (src : Nat) : Bool :=
  256 ≤ f.log.length && src != 0x138 && !f.isSticky 0x138 && !f.pend.any (·.src == 0x138)

/-- The 16 bytes of a message in the passport's fault tail (Table MG-7). -/
def Msg.tailBytes (m : Msg) (split : Bool) : List Byte :=
  leBytes 8 m.pack ++ leBytes 4 m.ts ++ leBytes 2 m.epoch ++ leBytes 2 (2 ^ 15 + m.half.idx * 2 ^ 14 + b2n split * 2 ^ 13)

/-- The heads that receive the event record of a message logged in the store of h: all while the halves are joined (by the
leader's store), the half's own in split mode (R422, R432). -/
def State.recordHeads (s : State) (h : Half) : List Nat :=
  if s.split then (List.range 4).filter fun n => half4 n == h
  else if h == s.leader then List.range 4 else []

/-- A message reaches a store (R418): logged when its sticky bit is clear, otherwise merged. A FATAL message that is logged
starts the fatal state (R426). -/
def State.storeTake (s : State) (h : Half) (m : Msg) : State :=
  if (s.fc h).isSticky m.src then s.modFc h fun f => f.merge m.src
  else
    let exceeded := (s.fc h).exceeds m.src
    let s' := s.modFc h fun f => f.push m (s.split && h != s.leader) s.split
    let s' := if exceeded then s'.raise h 0x138 0x0F (unitForm h.idx 0) 5 else s'
    let s' := s'.eventRecord m (s.recordHeads h)
    let s' := if h == s.leader then s'.faultTailWrite m (m.tailBytes s.split) else s'
    if m.sev == 4 && !(s.fc h).fatal then s'.enterFatal h else s'

/-- MESSAGE_COLLECT (R417, R418): the collector of a half takes the pending message of a source; the follower forwards it to
the leader while the Welt is up. A parity error found in the store raises source 0x139. -/
def messageCollect (h : Half) (src : Nat) (parity : Bool) (s : State) : State :=
  let s := if parity then s.raise h 0x139 0x10 (unitForm h.idx 0) 2 else s
  match (s.fc h).pend.find? (fun m => m.src == src) with
  | none => s
  | some m =>
    let s := s.modFc h fun f => { f with pend := f.pend.filter fun x => x.src != src }
    let s := s.storeTake h m
    if h != s.leader && s.joined then s.storeTake s.leader m else s

/-- Clears sticky bits and their MERGED counts in a store (R419). -/
def FcStore.clear (f : FcStore) (l : List Nat) : FcStore :=
  { f with sticky := f.sticky &&& ~~~ BitVec.ofNat 320 (l.foldl (fun n i => n ||| 2 ^ i) 0)
           merged := l.foldl (fun m i => Sparse.put (fun _ => 0) m i 0) f.merged }

/-- One sticky word. -/
def FcStore.stickyWord (f : FcStore) (w : Nat) : Nat := f.sticky.toNat / 2 ^ (32 * w) % 2 ^ 32

/-- The sources that the bits of word w name. -/
def wordSources (w v : Nat) : List Nat := ((List.range 32).filter fun b => v.testBit b).map (32 * w + ·)

/-- What a write of FC_STICKY_w does (R419): bits of fatal-class and reserved sources ignore it, the former with an audit
record. -/
def State.stickyWrite (s : State) (p : Path) (w v : Nat) : State :=
  let l := wordSources w v
  let ok := l.filter fun i => !fatalClass i && !reservedSource i
  let h := s.storeHalf p
  let old := (s.fc h).stickyWord w
  let s := s.modFc h fun f => f.clear ok
  let s := if s.joined && h == s.leader then s.modFc h.other fun f => f.clear ok else s
  let s := if ok.isEmpty && l.any fatalClass then s else s.audit (s.role p).role p.idx 1 (0x10010 + w) old ((s.fc h).stickyWord w)
  if l.any fatalClass then s.auditRefusal p (0x10010 + w) old v else s

/-- STICKY_CLEAR (R419). -/
def stickyClear (p : Path) (w : Fin 10) (v : Word) (s : State) : State :=
  s.gatedWrite p (0x10010 + w.val) v.toNat true fun s => s.stickyWrite p w.val v.toNat

/-- One force bit (R425). -/
def State.forceOne (s : State) (p : Path) (i : Nat) : State :=
  if fatalClass i && !s.on F.FC_CFG.FORCE_FATAL_EN then s.auditRefusal p (0x10030 + i / 32) 0 (2 ^ (i % 32))
  else s.raise (s.storeHalf p) i 0 0 0

/-- What a write of FC_FORCE_w does (R425). -/
def State.forceWrite (s : State) (p : Path) (w v : Nat) : State :=
  (wordSources w v).foldl (fun s i => s.forceOne p i) s

/-- FORCE (R425). -/
def force (p : Path) (w : Fin 10) (v : Word) (s : State) : State :=
  s.gatedWrite p (0x10030 + w.val) v.toNat false fun s => s.forceWrite p w.val v.toNat

/-- What a write leaves in FC_MASK_w and FC_SRC_s (R413, R424): mask bits of fatal-class and reserved sources stay 0; SEV of the
fatal class stays 4 and of a reserved source 0; 4 to 7 is taken as 3. -/
def State.fcFix (s : State) (a : Nat) : State :=
  if 0x10020 ≤ a ∧ a < 0x1002A then
    (List.range 32).foldl (fun s b =>
      let i := 32 * (a - 0x10020) + b
      if fatalClass i || reservedSource i then s.setWord a (s.word a &&& ~~~ (BitVec.ofNat 32 (2 ^ b))) else s) s
  else if 0x10100 ≤ a ∧ a < 0x10240 then
    let i := a - 0x10100
    if fatalClass i then s.wr (F.FC_SRC_s.SEV i) 4
    else if reservedSource i then s.wr (F.FC_SRC_s.SEV i) 0
    else s.wr (F.FC_SRC_s.SEV i) (min (s.rd (F.FC_SRC_s.SEV i)) 3)
  else s

/-! The merge of the stores at a rejoin (R432, Table WL-5) -/

/-- Appends one entry that the follower logged in split mode: merged when its source is sticky in `before`, otherwise logged,
with a record on the leader's heads; sticky bits are ORed apart from it. -/
def State.appendEntry (s : State) (before : FcStore) (m : Msg) : State :=
  let l := s.leader
  if before.isSticky m.src then s.modFc l fun f => f.merge m.src
  else
    let exceeded := (s.fc l).exceeds m.src
    let s := s.modFc l fun f => f.enter m true false
    (if exceeded then s.raise l 0x138 0x0F (unitForm l.idx 0) 5 else s).eventRecord m ((List.range 4).filter fun n => half4 n == l)

/-- Sticky bits ORed, MERGED counts added, split-mode entries appended, and the event records of R432 made. -/
def State.mergeStores (s : State) : State :=
  let l := s.leader
  let before := s.fc l
  let far := s.fc l.other
  let s := (far.log.filter (·.inSplit)).foldl (fun s e => s.appendEntry before e.msg) s
  let s := (before.log.filter (·.inSplit)).foldl
    (fun s e => s.eventRecord e.msg ((List.range 4).filter fun n => half4 n == l.other)) s
  let done (f : FcStore) : FcStore := { f with log := f.log.map fun e => { e with inSplit := false } }
  let s := s.modFc l.other done
  s.modFc l fun f =>
    done { f with sticky := f.sticky ||| far.sticky
                  merged := far.merged.foldl (fun m e => Sparse.put (fun _ => 0) m e.1 (satAdd 16 (Sparse.get (fun _ => 0) m e.1) e.2)) f.merged }

/-! Registers that show the store (15, FC registers) -/

/-- The log entry of index e (R420). -/
def FcStore.entry (f : FcStore) (e : Nat) : Option LogEntry :=
  let k := (f.wr + 255 - e) % 256
  if k < f.log.length then f.log[f.log.length - 1 - k]? else none

/-- The word at an FC register that the store shows, for the store of a half. -/
def State.fcRead (s : State) (h : Half) (a : Nat) : Option Nat :=
  let f := s.fc h
  if a = 0x10000 then
    some (b2n f.fatal * 2 ^ 31 + b2n s.errN * 2 ^ 30 + b2n f.first.isSome * 2 ^ 29 + b2n s.split * 2 ^ 28
      + min (s.pinSources h).length 255 * 2 ^ 16 + ((f.log.getLast?).map (·.msg.src)).getD 0)
  else if a = 0x10002 then some f.wr
  else if a = 0x10003 then some (f.mergedAll * 65536 + f.overwritten)
  else if a = 0x10004 then some ((f.first.map fun m => m.pack % 2 ^ 32).getD 0)
  else if a = 0x10005 then some ((f.first.map fun m => m.pack / 2 ^ 32).getD 0)
  else if a = 0x10006 then some ((f.first.map (·.ts)).getD 0)
  else if 0x10010 ≤ a ∧ a < 0x1001A then some (f.stickyWord (a - 0x10010))
  else if 0x10100 ≤ a ∧ a < 0x10240 then
    some (s.srcWord h (a - 0x10100))
  else if 0x10400 ≤ a ∧ a < 0x10800 then
    some <| match f.entry ((a - 0x10400) / 4) with
      | none => 0
      | some e =>
        match (a - 0x10400) % 4 with
        | 0 => e.msg.pack % 2 ^ 32
        | 1 => e.msg.pack / 2 ^ 32
        | 2 => e.msg.ts
        | _ => 2 ^ 31 + e.msg.half.idx * 2 ^ 30 + b2n e.split * 2 ^ 29 + e.msg.epoch % 65536
  else none

end Sys2Proof.Machine
end

