-- ==== Sys2Proof/Machine/RegView.lean ====
section
/-! DEFINITION. What a register reads as on a path: words that show structured state are formed here, every other register reads its
stored word (00_scope.md R10, R13; the register sections of every chapter). No read here has a side effect. -/
namespace Sys2Proof.Machine

/-! FS and TW -/

/-- FS_STATUS of the schedule of a half. -/
def State.fsStatus (s : State) (h : Half) : Nat :=
  let c := s.schedOf h
  let st := if s.split then 4 else if c.active then 3 else if c.armed.isSome then 2 else if s.admitting.isSome then 1 else 0
  let ts1 := (List.range 16).any fun n => !s.gone n && s.rd (F.DC_n_STATUS.TS_ACTIVE n) == 1
  min c.cmds.length 64 * 2 ^ 16 + b2n ts1 * 2 ^ 8 + c.armed.getD 0 * 2 ^ 6 + ((c.last.map (·.1)).getD 0) * 2 ^ 4 + st

/-- FS_STITCH. -/
def State.fsStitch (s : State) (h : Half) : Nat :=
  let c := s.schedOf h
  (if c.running then c.tickLen / 1200 else 0) % 2 ^ 18 * 2 ^ 14 + c.window * 2 ^ 12 + s.stitchOf c

/-- FS_SRC_STATE_n. -/
def State.srcState (s : State) (h : Half) (n : Nat) : Nat :=
  let r := (s.schedOf h).rt n
  b2n r.prod.isNone * 2 ^ 31 + b2n (!r.incomplete.isEmpty) * 2 ^ 30 + b2n r.prev.isSome * 2 ^ 29 + b2n r.frozen * 2 ^ 28 + r.delay % 4096 * 2 ^ 16 +
    r.prod.getD 0xFFFF

/-- FS_SRC_PUB_n: free slots (R52) and the last slot counted. -/
def State.srcPub (s : State) (h : Half) (n : Nat) : Nat :=
  let c := s.schedOf h
  let r := c.rt n
  let free := match c.src n with
    | some k =>
      let busy := (r.busySlots k c.frame).eraseDups
      ((List.range k.depth).filter fun x => !busy.contains x && !s.copying n x false).length
    | none => 0
  min free 0xFFFF * 2 ^ 16 + (match r.counted.getLast? with | some c => c.slot | none => 0xFFFF)

/-- TW_SRC_SEL_n. -/
def State.srcSel (s : State) (h : Half) (n : Nat) : Nat :=
  let r := (s.schedOf h).rt n
  b2n (r.pass == 1) * 2 ^ 31 + b2n (r.pass == 2) * 2 ^ 30 + (if r.pass = 1 then r.brow else 0) % 4096 * 2 ^ 16 + r.wslot.getD 0xFFFF

/-- FS and TW words that show the schedule. -/
def State.viewFs (s : State) (p : Path) (a : Nat) : Option Nat :=
  let h := s.pathHalf p
  let cfg := (s.schedOf h).cfg
  if a = 0x60000 then some (s.fsStatus h)
  else if a = 0x60001 then some (match cfg with | some l => l.rateD % 2 ^ 11 * 2 ^ 18 + l.rateN % 2 ^ 18 | none => 0)
  else if a = 0x60002 then some (match cfg with | some l => l.cutoff * 2 ^ 16 + l.wend | none => 0)
  else if a = 0x60003 then some (s.fsStitch h)
  else if a = 0x60004 then some (s.frameCount h % 2 ^ 32)
  else if a = 0x60010 then some (s.rd F.FS_LAST_CTRL.SEL * 16 + b2n s.admitting.isSome)
  else if 0x60100 ≤ a && a < 0x60140 then
    match (a - 0x60100) % 4 with
    | 0 => some (s.srcState h ((a - 0x60100) / 4))
    | 1 => some (s.srcPub h ((a - 0x60100) / 4))
    | _ => none
  else if a = 0x80001 || a = 0x80002 then
    some (match cfg with | some l => asmUsed l.srcs (if a = 0x80001 then .a else .b) 15 | none => 0)
  else if 0x80100 ≤ a && a < 0x80140 && a % 4 = 0 then some (s.srcSel h ((a - 0x80100) / 4))
  else none

/-! LE -/

/-- LE_RING_STATE_n. -/
def State.ringState (s : State) (r : Nat) : Nat :=
  let x := s.ring r
  (if !x.armed then 0 else if x.skipping then 2 else 1) * 2 ^ 30 + (s.ringHead r).getD 0 * 2 ^ 28 + (if x.armed then x.used else 0) % 2 ^ 25

/-- LE_n_STATUS: a running engine with nothing to compute shows idle, and one that computes no stream shows CUR_STREAM 0. -/
def State.engineWord (s : State) (e : Nat) : Nat :=
  let w := (if (s.eng e).cur.isSome then s.word (0x71001 + 0x800 * e) else setBits (s.word (0x71001 + 0x800 * e)) 12 4 0).toNat
  if s.rd (F.LE_n_STATUS.STATE e) == 1 && (s.eng e).plan.isEmpty && (s.eng e).cur.isNone then w - 1 else w

/-- LE words that show the engines' structured state. -/
def State.viewLe (s : State) (a : Nat) : Option Nat :=
  if a = 0x70001 then some s.lutRead.1
  else if 0x70400 ≤ a && a < 0x70800 && a % 2 = 0 then some (s.ringState ((a - 0x70400) / 2))
  else if 0x71000 ≤ a && a < 0x79000 && a % 0x800 = 1 then some (s.engineWord ((a - 0x71000) / 0x800))
  else none

/-! HP and AM -/

/-- HP words that show a head's structured state. -/
def State.viewHp (s : State) (a : Nat) : Option Nat :=
  let h := (a - 0x300000) / 0x1000
  if a < 0x300000 || 0x304000 ≤ a then none
  else
    match (a - 0x300000) % 0x1000 with
    | 2 => some (setBits (s.word a) 29 29 (b2n (s.on (F.HP_n_MEDIA.MB_READY h) && s.fwRuns))).toNat
    | 8 => some ((s.role (.head (Fin.ofNat 4 h))).role * 2 ^ 30 + s.rd (F.HP_n_MW.PAGE h))
    | 9 => some (ofSigned 64 (s.head h).tsoff % 2 ^ 32)
    | _ => none

/-- AM_RGN_r_B. -/
def Region.wordB (r : Region) (filling : Bool) : Nat :=
  b2n filling * 2 ^ 18 + b2n r.guard * 2 ^ 17 + b2n r.strict * 2 ^ 16 + r.wrHeads * 2 ^ 12 + r.rdHeads * 2 ^ 8 + r.twill * 2 ^ 6 + r.hset * 2 ^ 4 +
    r.il * 2 ^ 2 + r.cls

/-- AM words: the region table in force (06, AM registers). -/
def State.viewAm (s : State) (p : Path) (a : Nat) : Option Nat :=
  let c := s.schedOf (s.pathHalf p)
  let t := c.map
  if a = 0x90000 then
    some (b2n s.split * 2 ^ 17 + b2n (!c.filling.isEmpty) * 2 ^ 16 + c.mapOf * 2 ^ 8 + (t.regions.length - 1) % 256)
  else if 0x90010 ≤ a && a < 0x90050 && a % 16 < 9 then some (t.mask ((a - 0x90010) / 16) (a % 16))
  else if 0x91000 ≤ a && a < 0x91400 then
    let i := (a - 0x91000) / 4
    match t.regions[i]?, (a - 0x91000) % 4 with
    | none, _ => some 0
    | some r, 0 => some (r.size * 2 ^ 16 + r.base)
    | some r, 1 => some (r.wordB (c.fillingOf i).isSome)
    | some r, 2 => some r.subBase
    | some _, _ => none
  else none

/-! DC, MI, WL -/

/-- DC_n_QUEUE: entries in the queues, at most 64 each. -/
def State.queueWord (s : State) (n : Nat) : Nat :=
  let u := s.sub n
  min u.writeQ.length 64 * 2 ^ 24 + min u.frameQ.length 64 * 2 ^ 16 + min u.bulkQ.length 64 * 2 ^ 8 + s.rd (F.DC_n_QUEUE.WRITE_PEAK n)

/-- Steps of a scrub pass pause (R299): the power-limit step of the half shown stops them, or the next line of its scrubber waits for a sleeping
Archive rank. -/
def State.scrubPaused (s : State) (h : Half) : Bool :=
  2 ≤ s.stepFor h ||
    ((s.mh h).scrubLeft != 0 &&
      (match s.locate h ((s.mh h).scrubAt * 64) with
       | some (_, _, n, sa) => subHalf n == h && (let t := s.route n sa; s.on (F.DC_n_STATUS.RANK1_ASLEEP t.1) && (s.sub t.1).sr.getLsbD (s.rankOf t.2.1))
       | none => false))

/-- MI words: the scrub pass and its histogram (R303). -/
def State.viewMi (s : State) (p : Path) (a : Nat) : Option Nat :=
  let d := s.dm
  if a = F.MI_SCRUB_STATUS.STATE.a then
    some (if s.rd F.MI_SCRUB_STATUS.STATE == 1 && s.scrubPaused (s.pathHalf p) then setBits (s.word a) 31 30 2 else s.word a).toNat
  else if a = 0xA0016 then some (d.scrubLines % 2 ^ 32)
  else if a = 0xA001C then some (d.scrubFirst.getD 0 * 64 % 2 ^ 32)
  else if a = 0xA001D then some (b2n d.scrubFirst.isSome * 2 ^ 31 + s.rd F.MI_SCRUB_FIRST_HI.FIRST_HI)
  else if a = 0xA001E then some (d.scrubLast.getD 0 * 64 % 2 ^ 32)
  else if a = 0xA001F then some (b2n d.scrubLast.isSome * 2 ^ 31 + s.rd F.MI_SCRUB_LAST_HI.LAST_HI)
  else if a = 0xA0021 then
    let n := s.rd (F.MI_HIST_SEL.SUBCH.on p)
    let m := s.rd (F.MI_HIST_SEL.DEV.on p)
    let g := fun e => Sparse.get (fun _ => 0) d.hist ((n * 32 + m) * 2 + e)
    some (if 19 < m then 0 else g 1 * 2 ^ 16 + g 0)
  else none

/-! CK, TB, PS, MG -/

/-- CK, TH, TB and WL words that show structured state. -/
def State.viewClock (s : State) (a : Nat) : Option Nat :=
  if a = 0x40088 then
    some (s.rd F.CK_AUX_STATUS.REFUSED * 16 +
      (List.range 4).foldl (fun w n => w + b2n (s.auxRunning n (s.schedOf (if n < 2 then .a else .b)).running) * 2 ^ n) 0)
  else if 0x40050 ≤ a && a < 0x40060 then some (setBits (s.word a) 17 0 (s.channelQ (a - 0x40050))).toNat
  else if a = 0x50003 then some (setBits (s.word a) 10 10 (b2n (s.tb.slew != 0))).toNat
  else if a = 0x50004 then some (s.time % 2 ^ 32)
  else if a = 0x50010 then
    let d := dateOf (s.utcSeconds / 86400)
    some (d.1.toNat % 2 ^ 16 * 2 ^ 16 + d.2.1.toNat * 2 ^ 8 + d.2.2.toNat)
  else if a = 0x50019 then some (s.rd F.TB_TSQ_STATUS.OVF * 2 ^ 31 + s.rd F.TB_TSQ_STATUS.DROPPED * 2 ^ 8 + s.tb.tsq.length)
  else if a = 0x5001A then some (match s.tb.tsq with | e :: _ => e.id * 65536 + e.kind * 256 + e.epoch | [] => 0)
  else if a = 0x30003 then some (setBits (s.word a) 26 26 (b2n s.split)).toNat
  else if a = 0x380000 then some (setBits (s.word a) 4 4 s.leader.idx).toNat
  else if a = 0x380005 then some (setBits (s.word a) 31 19 (s.wl.a.hold.length + s.wl.b.hold.length)).toNat
  else none

/-- MG_ROLE of the SPI path. -/
def State.roleWord (s : State) : Nat :=
  let r := s.role .spi
  r.role * 2 ^ 30 + s.rd F.MG_ROLE.REQ * 2 ^ 28 + b2n r.locked * 2 ^ 24 + min r.fails 15 * 2 ^ 4 + s.rd F.MG_ROLE.RESULT

/-- PS_ADC_CH_c_DATA. -/
def AdcChan.word (x : AdcChan) : Nat := b2n x.valid * 2 ^ 31 + b2n x.sampleOk * 2 ^ 30 + x.sample % 2 ^ 12 * 2 ^ 16 + x.value % 2 ^ 16

/-- PS_STATUS: the pull of LACE_ABORT ends by itself (R387). -/
def State.statusWord (s : State) : Nat :=
  let w := s.word F.PS_STATUS.STATE.a
  (if s.pwr.abortEnd.any (· ≤ s.now) then setBits (setBits w 22 22 0) 23 23 1 else w).toNat

/-- MG and PS words that show OTP, the passport, the roles and the leader's ADC. -/
def State.viewAux (s : State) (a : Nat) : Option Nat :=
  let o := s.mg.otp
  if a = 0 then some (0x2860 * 2 ^ 16 + Config.dieRev.toNat * 2 ^ 12 + o.grade.toNat * 2 ^ 10)
  else if a = 1 then some (s.mg.serial.toNat % 2 ^ 32)
  else if a = 2 then some (s.mg.serial.toNat / 2 ^ 32)
  else if a = 5 then some s.bootWord
  else if a = 8 then some s.roleWord
  else if a = 0x20000 then some s.statusWord
  else if a = F.PS_LACE_CFG.JOIN.a then some s.laceWord
  else if 0x20200 ≤ a && a < 0x20230 && a % 2 = 1 then some ((s.pwr.adc s.leader).chan ((a - 0x20201) / 2)).word
  else
    match (List.range 12).find? fun n => (F.PS_RAIL_n_BOUND.LO_BOUND n).a == a with
    | some n => some ((o.loBound[n]?.getD 0).toNat * 2 ^ 16 + (o.hiBound[n]?.getD 0).toNat)
    | none => none

/-- A word that shows structured state, on a path. -/
def State.computed (s : State) (p : Path) (a : Nat) : Option Nat :=
  if a < 0x10000 || (0x20000 ≤ a && a < 0x30000) then s.viewAux a
  else if a < 0x20000 then s.fcRead (s.storeHalf p) a
  else if a < 0x60000 || 0x380000 ≤ a then s.viewClock a
  else if a < 0x70000 || (0x80000 ≤ a && a < 0x90000) then s.viewFs p a
  else if a < 0x80000 then s.viewLe a
  else if a < 0xA0000 then s.viewAm p a
  else if a < 0x100000 then s.viewMi p a
  else if 0x100000 ≤ a && a < 0x110000 && a % 0x1000 = 2 then some (s.queueWord ((a - 0x100000) / 0x1000))
  else s.viewHp a

/-- What a register reads as on a path, side effects aside (R10, R13). -/
def State.viewReg (s : State) (p : Path) (a : Nat) : Nat :=
  match regAt a with
  | none => 0
  | some t => if t.kind == .spiOnly && p != .spi then 0 else (s.computed p a).getD (s.word (t.key p a)).toNat

end Sys2Proof.Machine
end

