-- ==== Sys2Proof/Machine/Heads.lean ====
section
/-! DEFINITION. The commands of the host heads: CXL.mem requests, the fence read, the mailbox, links and HDM decoders
(05_host_heads.md R157 to R190; 06 R208; 16 R455, R456). -/
namespace Sys2Proof.Machine

/-! CXL.mem requests (R175, R176) -/

/-- MEMRD (R175). -/
def memRd (h : Fin 4) (hpa : Nat) (s : State) : State := s.receive h.val ⟨0, hpa, 0, false, 0⟩

/-- MEMRDDATA (R175): a read. -/
def memRdData (h : Fin 4) (hpa : Nat) (s : State) : State := s.receive h.val ⟨0, hpa, 0, false, 0⟩

/-- MEMSPECRD (R175): a hint, dropped without response. -/
def memSpecRd (_ : Fin 4) (_ : Nat) (s : State) : State := s

/-- MEMINV (R175): Cmp, no access to memory. -/
def memInv (h : Fin 4) (hpa : Nat) (s : State) : State := s.receive h.val ⟨3, hpa, 0, false, 0⟩

/-- MEMINVNT (R175): Cmp, no access to memory. -/
def memInvNt (h : Fin 4) (hpa : Nat) (s : State) : State := s.receive h.val ⟨3, hpa, 0, false, 0⟩

/-- MEMWR (R175, R176). -/
def memWr (h : Fin 4) (hpa : Nat) (data : LineData) (poison : Bool) (s : State) : State := s.receive h.val ⟨1, hpa, data, poison, 0⟩

/-- MEMWRPTL (R175). -/
def memWrPtl (h : Fin 4) (hpa : Nat) (data : LineData) (enables : BitVec 64) (poison : Bool) (s : State) : State :=
  s.receive h.val ⟨2, hpa, data, poison, enables⟩

/-! The fence read (R208) -/

/-- FENCE_READ: a 4-byte read of DB_FENCE begins to wait for what its head received before it; while the head withholds credits it is not received
yet (R208, R245). -/
def fenceRead (h : Fin 4) (s : State) : State :=
  if s.inL0 h.val then
    s.modHead h.val fun x => { x with fences := x.fences ++ [⟨if s.heldFor (half4 h.val) then none else some (s.fenceMark h.val)⟩] }
  else s

/-- What a fence read waits for has happened: the head's CXL.mem writes received before it are committed, and its posted writes received before it
have taken effect. -/
def State.fenceHolds (s : State) (h : Nat) (f : Fence) : Bool :=
  match f.before with
  | none => false
  | some (mark, lines) =>
    ((s.head h).flight.all fun q => !(q.kind == 1 || q.kind == 2) || mark ≤ q.id || q.resp.isSome) &&
      lines.all fun n => (s.rt n.1).wait.isEmpty || n.2 ≤ (s.rt n.1).taken

/-- FENCE_READ_COMPLETE: the oldest fence read completes, and the count, the window code and the stitch go back (Table AM-7). -/
def fenceReadComplete (h : Fin 4) (waited10ns : Nat) (s : State) : State :=
  match (s.head h.val).fences with
  | [] => s
  | f :: t =>
    if !s.inL0 h.val || !s.fenceHolds h.val f then s
    else
      let s := ((s.modHead h.val fun x => { x with fences := t }).wrap (F.AM_HEAD_n_FENCE.FENCES h.val)).peak (F.AM_HEAD_n_FENCE.MAX_10NS h.val) waited10ns
      let c := s.schedOf (half4 h.val)
      s.emit (.fence h.val (BitVec.ofNat 32 (s.rd (F.AM_HEAD_n_FENCE.FENCES h.val) * 2 ^ 16 + c.window * 2 ^ 12 + s.stitchOf c)))

/-! The mailbox (R168 to R172, R492) -/

/-- Runs a mailbox command of a head whose mailbox is served. -/
def State.mailbox (s : State) (h : Nat) (act : State → State) : State := if s.mailboxServed h then act s else s

/-- A signed 64-bit number in 8 bytes. -/
def le64 (v : Int) : List Byte := leBytes 8 (ofSigned 64 v)

/-- The vendor UUID of event records (R171), bytes in the order of its digits. -/
def eventUuid : List Byte := (leBytes 16 0x6f2c8a4193d74b0ea5c271e84d09b3f6).reverse

/-- One event record of 128 bytes: UUID, length, severity, handle, time-stamp, and the message with its short time-stamp (R171). -/
def EventRec.bytes (r : EventRec) (log : Nat) : List Byte :=
  eventUuid ++ leBytes 1 128 ++ leBytes 3 log ++ leBytes 2 r.handle ++ leBytes 2 0 ++ le64 r.time ++ leBytes 16 0 ++
    leBytes 8 r.msg ++ leBytes 4 r.stamp ++ leBytes 68 0

/-- GET_EVENT_RECORDS (R171): the oldest 31 records of this head's copy, behind a header with the overflow flag and count. -/
def getEventRecords (h : Fin 4) (log : Fin 4) (s : State) : State :=
  s.mailbox h.val fun s =>
    let lg := (s.head h.val).logs[log]
    let l := lg.recs.take 31
    let exceeded := s.rd (F.HP_n_EVT.OVERFLOW h.val) / 2 ^ log.val % 2
    s.complete h.val rcSuccess (leBytes 1 (exceeded + 2 * b2n (31 < lg.recs.length)) ++ leBytes 1 0 ++ leBytes 2 (min lg.lost 0xFFFF) ++
      le64 lg.firstLost ++ le64 lg.lastLost ++ leBytes 2 l.length ++ leBytes 10 0 ++ (l.map fun r => r.bytes log.val).flatten)

/-- CLEAR_EVENT_RECORDS (R171): the oldest `count` records of this head's copy are cleared, and with any the overflow flag and count. -/
def clearEventRecords (h : Fin 4) (log : Fin 4) (count : Nat) (s : State) : State :=
  s.mailbox h.val fun s =>
    let lg := (s.head h.val).logs[log]
    if lg.recs.length < count then s.complete h.val rcInvalidHandle []
    else if count = 0 then s.complete h.val rcSuccess []
    else
      let s := s.modHead h.val fun x => { x with logs := x.logs.set log { recs := lg.recs.drop count, made := lg.made } }
      (s.wr (F.HP_n_EVT.OVERFLOW h.val) (s.rd (F.HP_n_EVT.OVERFLOW h.val) &&& (15 - 2 ^ log.val))).complete h.val rcSuccess []

/-- GET_TIMESTAMP (R170). -/
def getTimestamp (h : Fin 4) (s : State) : State :=
  s.mailbox h.val fun s => s.complete h.val rcSuccess (le64 ((s.asSeen (half4 h.val)).utcNs + (s.head h.val).tsoff))

/-- SET_TIMESTAMP (R170): the offset becomes the value written minus UTC. -/
def setTimestamp (h : Fin 4) (v : BitVec 64) (s : State) : State :=
  s.mailbox h.val fun s =>
    (s.modHead h.val fun x => { x with tsoff := toSigned 64 (ofSigned 64 ((v.toNat : Int) - (s.asSeen (half4 h.val)).utcNs)) }).complete h.val rcSuccess []

/-- Every opcode of Tables HP-6 and HP-7, with its command effects: 0x10 a log changes, 0x08 the policy of the head changes. -/
def opcodes : List (Nat × Nat) :=
  [(0x0100, 0), (0x0101, 0x10), (0x0300, 0), (0x0301, 0x08), (0x0400, 0), (0x0401, 0), (0x4000, 0), (0x4300, 0), (0xC000, 0), (0xC001, 0),
   (0xC002, 0), (0xC003, 0), (0xC010, 0), (0xC011, 0x08), (0xC012, 0x08)]

/-- UUID of the command effects log. PRESUMED: CXL 3.1's. -/
def celUuid : List Byte := (leBytes 16 0x0da9c0b5bf418b788f7996b1623b3f17).reverse

/-- GET_SUPPORTED_LOGS (Table HP-6). -/
def getSupportedLogs (h : Fin 4) (s : State) : State :=
  s.mailbox h.val fun s => s.complete h.val rcSuccess (leBytes 2 1 ++ leBytes 6 0 ++ celUuid ++ leBytes 4 (4 * opcodes.length))

/-- GET_LOG (Table HP-6): opcode and effects of every command. -/
def getLog (h : Fin 4) (s : State) : State :=
  s.mailbox h.val fun s => s.complete h.val rcSuccess ((opcodes.map fun o => leBytes 2 o.1 ++ leBytes 2 o.2).flatten)

/-- IDENTIFY_MEMORY_DEVICE (R169): the firmware revision string and the QoS byte are not stated and stay free. -/
def identifyMemoryDevice (h : Fin 4) (s : State) : State :=
  s.mailbox h.val fun s =>
    let fw := leBytes 8 (Config.openX s.free).toNat ++ leBytes 8 (Config.openX (s.free + 1)).toNat
    let qos := (Config.openX (s.free + 2)).toNat % 256
    let log := leBytes 2 64
    ({ s with free := s.free + 3 }).complete h.val rcSuccess
      (fw ++ leBytes 8 s.capacity ++ leBytes 8 s.capacity ++ leBytes 8 0 ++ leBytes 8 0 ++ log ++ log ++ log ++ log ++ leBytes 4 0 ++
        leBytes 3 256 ++ leBytes 2 0 ++ leBytes 1 0 ++ leBytes 1 qos ++ leBytes 2 0)

/-- GET_POISON_LIST (R172): entries of a DPA range (`length` in 64-byte units), 254 at a time; the same range asked again goes on where
the last answer stopped. -/
def getPoisonList (h : Fin 4) (dpa length : Nat) (s : State) : State :=
  s.mailbox h.val fun s =>
    let all := s.dm.poison.filter fun e => dpa / 64 ≤ e.1 && e.1 < dpa / 64 + length
    let x := s.head h.val
    let skip := match x.poisonAt with | some (a, n, k) => if a = dpa && n = length then k else 0 | none => 0
    let l := (all.drop skip).take 254
    let more := skip + 254 < all.length
    let exceeded := match s.dm.poisonOver with | some t => (t : Int) - s.utcOffset * 10 ^ 9 + x.tsoff | none => 0
    (s.modHead h.val fun y => { y with poisonAt := if more then some (dpa, length, skip + 254) else none }).complete h.val rcSuccess
      (leBytes 1 (b2n more + 2 * b2n s.dm.poisonOver.isSome) ++ leBytes 1 0 ++ le64 exceeded ++ leBytes 2 l.length ++ leBytes 20 0 ++
        (l.map fun e => leBytes 8 (e.1 * 64 + if e.2 then 1 else 2) ++ leBytes 4 1 ++ leBytes 4 0).flatten)

/-- Words of registers in a mailbox payload. -/
def State.regBytes (s : State) (h : Fin 4) (l : List Nat) : List Byte := (l.map fun a => leBytes 4 (s.viewReg (.head h) a)).flatten

/-- GET_HEAD_SUMMARY (Table HP-7). -/
def getHeadSummary (h : Fin 4) (s : State) : State :=
  s.mailbox h.val fun s => s.complete h.val rcSuccess (s.regBytes h ([1, 2, 3, 5, 7].map (0x300000 + 0x1000 * h.val + ·)))

/-- GET_RING_STATUS (R492): seven words per ring, in the order of Table HP-7. -/
def getRingStatus (h : Fin 4) (first count : Nat) (s : State) : State :=
  s.mailbox h.val fun s =>
    if count = 0 || 128 < count || 512 < first + count then s.complete h.val rcInvalidInput []
    else
      s.complete h.val rcSuccess (((List.range count).map fun i =>
        let r := first + i
        let x := s.ring r
        ([b2n x.armed, s.ringState r / 2 ^ 30, x.tail, x.consumed, x.chunks, x.skips, s.rd (F.LE_RING_SKIP_n.SKIPS r)].map (leBytes 4 ·)).flatten).flatten)

/-- GET_ADMISSION_RESULT (Table HP-7). -/
def getAdmissionResult (h : Fin 4) (s : State) : State :=
  s.mailbox h.val fun s => s.complete h.val rcSuccess (s.regBytes h [0x60000, 0x60011, 0x60012])

/-- READ_SELVEDGE_LOG (R422): message words of log entries, indexed modulo 256 as in FC_LOG_e_LO. -/
def readSelvedgeLog (h : Fin 4) (first count : Nat) (s : State) : State :=
  s.mailbox h.val fun s =>
    if count = 0 || 256 < count then s.complete h.val rcInvalidInput []
    else
      let f := s.fc (s.storeHalf (.head h))
      s.complete h.val rcSuccess (((List.range count).map fun i =>
        leBytes 8 (match f.entry ((first + i) % 256) with | some e => e.msg.pack | none => 0)).flatten)

/-- ROLE_CHALLENGE (R456). -/
def roleChallenge (h : Fin 4) (role : Nat) (s : State) : State :=
  s.mailbox h.val fun s =>
    match s.challenge (.head h) role with
    | (.inl _, s) => s.complete h.val rcInvalidInput []
    | (.inr c, s) => s.complete h.val rcSuccess (bytes32 c)

/-- ROLE_RESPONSE (R456): the role in force, or Invalid Input. -/
def roleResponse (h : Fin 4) (resp : BitVec 256) (s : State) : State :=
  s.mailbox h.val fun s =>
    if s.auditFull then s.roleFull.complete h.val rcInvalidInput []
    else
      match s.respond (.head h) (bytes32 resp) with
      | (0, s) => s.complete h.val rcSuccess (leBytes 1 (s.role (.head h)).role)
      | (_, s) => s.complete h.val rcInvalidInput []

/-- DROP_ROLE (R162, R455). -/
def dropRole (h : Fin 4) (s : State) : State :=
  s.mailbox h.val fun s =>
    if s.auditFull then s.roleFull.complete h.val rcInvalidInput [] else (s.dropRole (.head h) 1).complete h.val rcSuccess []

/-- UNSUPPORTED_OPCODE (R168): an opcode of neither table. -/
def unsupportedOpcode (h : Fin 4) (opcode : BitVec 16) (s : State) : State :=
  s.mailbox h.val fun s => if opcodes.any (·.1 == opcode.toNat) then s else s.complete h.val rcUnsupported []

/-! Links (R157 to R160, R189, R190, R474) -/

/-- A head's PHY is on: its half on and not fenced, VSD and VSDH good, the core PLL locked (R158). -/
def State.phyOn (s : State) (h : Nat) : Bool :=
  let x := half4 h
  s.railGood 6 && s.railGood 7 && s.coreUp x && s.on (F.CK_h_STATUS.CORE_LOCK x.idx) && !(s.wh x).fenced &&
    s.pwr.shed.isNone

/-- A head may begin to train: its PHY is on and HP_n_CFG enables it (R158). -/
def State.mayTrain (s : State) (h : Nat) : Bool := s.on (F.HP_n_CFG.ENABLE h) && s.phyOn h

/-- LINK_TRAINING (R157, R158, R253): counts as a head link-up in the wake budget; HEADn_PERST_N is high. -/
def linkTraining (h : Fin 4) (s : State) : State :=
  if s.linkUp h.val || (s.head h.val).training || !s.mayTrain h.val then s
  else (s.modHead h.val fun x => { x with perst := false }).askWake (.link h.val)

/-- A rate, width and flit mode of Table HP-2, within the limits that HP_n_CFG held when the head began to train (R160). -/
def State.operatingPoint (s : State) (h : Nat) (rate width : Nat) (flit68 : Bool) : Bool :=
  let cfg := (s.head h).cfg
  rate ≤ min (bits cfg 7 6) 2 && width ≤ min (bits cfg 5 4) 2 &&
    (if rate = 0 then flit68 else if rate = 2 then !flit68 else !flit68 || cfg.testBit 3)

/-- A message that became pending while the link was out of L0 goes out. -/
def State.sendPending (s : State) (h : Nat) (v : Fin 4) : State :=
  let e := (s.head h).vec v.val
  if e.pending && !e.masked then (s.modHead h fun x => { x with msixTab := x.msixTab.set v { e with pending := false } }).msix h v.val else s

/-- LINK_UP (R157, R189): the link reaches L0, after training or out of Recovery; what was ready goes out and credits are given. A link under training
goes by the HP_n_CFG that it began with (R160), and stays down while HEADn_PERST_N is low (R474). -/
def linkUp (h : Fin 4) (rate width : Fin 3) (flit68 : Bool) (s : State) : State :=
  let n := h.val
  let back := s.linkUp n && s.on (F.HP_n_LINK.RECOVERY n)
  if !((back || ((s.head n).training && s.phyOn n && !(s.head n).perst)) && s.operatingPoint n rate.val width.val flit68) then s
  else
    let s := s.modHead n fun x => { x with training := false }
    let s := ((s.wr (F.HP_n_LINK.UP n) 1).wr (F.HP_n_LINK.RATE n) rate.val).wr (F.HP_n_LINK.WIDTH n) width.val
    let s := (s.flag (F.HP_n_LINK.FLIT256 n) (!flit68)).wr (F.HP_n_LINK.RECOVERY n) 0
    ((List.finRange 4).foldl (fun s v => s.sendPending n v) (s.sendReady n)).serveHeld n

/-- LINK_RECOVERY (R189): the link leaves L0; a correctable link error that the RAS capability shows is reported (Table FC-1a). -/
def linkRecovery (h : Fin 4) (ras : Option (BitVec 30)) (s : State) : State :=
  if s.linkUp h.val then
    let s := s.wr (F.HP_n_LINK.RECOVERY h.val) 1
    match ras with
    | some st => (s.modHead h.val fun x => { x with ras := x.ras ||| st.toNat }).raise (half4 h.val) (0x054 + 8 * h.val) 0x14 (unitForm h.val st.toNat) 0
    | none => s
  else s

/-- LINK_DOWN (R159, R190). -/
def linkDown (h : Fin 4) (partialWrites partialLines : Nat) (s : State) : State := s.downHead h.val partialWrites partialLines

/-- PERST_ASSERT (R474): the link goes down at once and is held from training. -/
def perstAssert (h : Fin 4) (partialWrites partialLines : Nat) (s : State) : State :=
  ((s.downHead h.val partialWrites partialLines).modHead h.val fun x => { x with perst := true }).modMh (half4 h.val) fun m =>
    { m with waiting := m.waiting.filter (· != .link h.val) }

/-- BUS_MASTER_ENABLE_CLEAR (R183): every ring of the head counts as disarmed; its descriptors stay. -/
def busMasterEnableClear (h : Fin 4) (s : State) : State :=
  if (s.head h.val).bme then (s.modHead h.val fun x => { x with bme := false }).disarmHead h.val false else s

/-- BUS_MASTER_ENABLE_SET (R183): the rings stay disarmed. -/
def busMasterEnableSet (h : Fin 4) (s : State) : State := if s.linkUp h.val then s.modHead h.val fun x => { x with bme := true } else s

/-! HDM decoders (R155, R173) -/

/-- DPA space that a committed decoder takes: its skip and its share of the interleave. -/
def hdmSpan (p : HdmProg) : Nat := p.skip + p.size / max 1 p.ways

/-- Where the DPA range of decoder `d` begins: behind the skips and shares of the lower decoders, and its own skip. PRESUMED: CXL 3.1's rule. -/
def Head.dpaBase (x : Head) (d : Nat) (p : HdmProg) : Nat :=
  ((x.hdm.toList.take d).filter (·.committed)).foldl (fun a e => a + hdmSpan e.prog) p.skip

/-- Decoders are committed in ascending order: the lower ones are committed and no higher one is. PRESUMED: CXL 3.1's rule. -/
def Head.inOrder (x : Head) (d : Nat) : Bool := (x.hdm.toList.take d).all (·.committed) && (x.hdm.toList.drop (d + 1)).all (!·.committed)

/-- A decoder's programming is within Table HP-1 and the module capacity. -/
def State.hdmFits (s : State) (base : Nat) (p : HdmProg) : Bool :=
  [1, 2, 4, 8].contains p.ways && [256, 512, 1024, 2048, 4096, 8192, 16384].contains p.granularity && p.position < p.ways &&
    base + p.size / p.ways ≤ s.capacity * 2 ^ 28

/-- HDM_DECODER_COMMIT (R173): committed, or Error Not Committed. -/
def hdmDecoderCommit (h : Fin 4) (d : Fin 4) (prog : HdmProg) (s : State) : State :=
  if !s.linkUp h.val then s
  else
    let x := s.head h.val
    let base := x.dpaBase d.val prog
    let ok := x.inOrder d.val && s.hdmFits base prog
    let s := s.modHead h.val fun x => { x with hdm := x.hdm.set d { committed := ok, error := !ok, dpaBase := base, prog := prog } }
    let m := s.rd (F.HP_n_MEDIA.HDM_COMMITTED h.val)
    s.wr (F.HP_n_MEDIA.HDM_COMMITTED h.val) (if ok then m ||| 2 ^ d.val else m &&& (15 - 2 ^ d.val))

end Sys2Proof.Machine
end

