-- ==== Sys2Proof/Machine/Ingest.lean ====
section
/-! DEFINITION. The commands and events of ingest: doorbells, slot selection, the pixel window, encoding, decoding and slot copies
(02_frame_schedule.md; 04_twill_codec.md; 06_address_map_ordering.md R209 to R215). -/
namespace Sys2Proof.Machine

/-- A head takes posted writes to its doorbell and pixel windows: its link is up and the fatal state does not ignore them (R427). -/
def State.takesPosted (s : State) (h : Nat) : Bool := s.linkUp h && !(s.fc (half4 h)).fatal

/-- PUBLISH_DOORBELL (R47, R210): the tick is fixed at arrival; the checks follow once the head's earlier lines are taken. -/
def publishDoorbell (h : Fin 4) (src : Fin 16) (slot tag : BitVec 16) (s : State) : State :=
  if !s.takesPosted h.val then s
  else
    let c := s.schedOf (half4 h.val)
    let tick := if c.cutDone then c.frame + 1 else c.frame
    match s.srcAt h.val src.val with
    | some k =>
      if k.head = h.val then s.offer src.val (.publish slot.toNat tag.toNat tick c.cutDone)
      else s.takePublish h.val src.val slot.toNat tag.toNat tick c.cutDone
    | none => s.takePublish h.val src.val slot.toNat tag.toNat tick c.cutDone

/-- PUBLICATION_COUNT (Table AM-9, step 4). A slot whose writes failed since its doorbell was accepted is refused as incomplete (R216). -/
def publicationCount (src : Fin 16) (s : State) : State :=
  let n := src.val
  match (s.rt n).pubs with
  | [] => s
  | p :: t =>
    if !s.blocksAccepted n p.slot then s
    else if (s.rt n).incomplete.contains p.slot then
      (s.modRt n fun r => { r with pubs := t }).refusePub ((((s.schedOf (s.srcHalf n)).src n).map (·.head)).getD 0) n p.slot p.tag 4
    else
      let exceeded := (s.rt n).counted.getLast?.any fun c => c.tick == p.tick
      let s := s.modRt n fun r => { (r.count p) with pubs := t, pubStatus := pubWord p.tag (b2n p.late) p.tick }
      let s := if exceeded then s.bump (F.FS_SRC_CNT_n.SUPERSEDED n) else s
      if p.late then s.bump (F.FS_SRC_CNT_n.LATE_PUB n) else s

/-- SLOT_SELECT (R131 to R134, R165). -/
def slotSelect (h : Fin 4) (src : Fin 16) (slot : BitVec 16) (s : State) : State :=
  let n := src.val
  if !s.takesPosted h.val then s
  else
    match s.srcAt h.val n with
    | some k =>
      if !s.activeAt h.val then (s.bump (F.TW_SRC_DROP_n.RANGE n)).srcRefused h.val n slot.toNat 6
      else if k.head ≠ h.val then (s.bump (F.TW_SRC_DROP_n.HEAD n)).srcRefused h.val n slot.toNat 6
      else s.offer n (.select slot.toNat)
    | none => (s.bump (F.TW_SRC_DROP_n.RANGE n)).srcRefused h.val n slot.toNat 6

/-- One line of an accepted window write. -/
def State.windowLine (s : State) (h n : Nat) (k : SrcCfg) (off : Nat) (bs : List Byte) : State :=
  let row := bits off 30 17
  let line := bits off 16 6
  if k.height ≤ row || k.lines ≤ line then s.dropRange h n 1 else s.offer n (.line row line (lineOfBytes bs))

/-- PIXEL_WINDOW_WRITE (R126 to R131). Which rule decides when a write breaks several is left open: DESIGN CHOICE (log 239), whole lines (FORMAT) first,
then the schedule not ACTIVE, the source absent, another head, and last each line's range. -/
def pixelWindowWrite (h : Fin 4) (offset : BitVec 35) (bytes : List Byte) (allEnabled : Bool) (s : State) : State :=
  let off := offset.toNat
  let n := bits off 34 31
  let cnt := bytes.length / 64
  if !s.linkUp h.val || bytes.isEmpty then s
  else if off % 64 ≠ 0 || bytes.length % 64 ≠ 0 || !allEnabled then
    (s.bump (F.TW_SRC_DROP_n.FORMAT n)).srcDropped h.val n ((bytes.length + 63) / 64) 3
  else if !s.activeAt h.val then s.dropRange h.val n cnt
  else
    match s.srcAt h.val n with
    | none => s.dropRange h.val 0 cnt
    | some k =>
      if k.head ≠ h.val then (s.bump (F.TW_SRC_DROP_n.HEAD n)).srcDropped h.val n cnt 0
      else (List.range cnt).foldl (fun s i => s.windowLine h.val n k (off + 64 * i) (slice bytes (64 * i) 64)) s

/-- Encoders may take the block row of a source now: beyond MAX_SLOTS at most 8 blocks per µs and half from P3 on (Table TH-3). -/
def State.mayEncode (s : State) (n : Nat) : Bool :=
  let h := s.srcHalf n
  !((s.rt n).bulk && 3 ≤ s.stepFor h) || (s.mh h).ingestAt ≤ s.now

/-- Books the blocks of a row beyond MAX_SLOTS. -/
def State.bookEncode (s : State) (n blocks : Nat) : State :=
  let h := s.srcHalf n
  if (s.rt n).bulk && 3 ≤ s.stepFor h then s.modMh h fun m => { m with ingestAt := s.now + blocks * 150 } else s

/-- The pass of a source whose head's link went down closes once its block row is encoded (R28). -/
def SrcRt.settleClose (r : SrcRt) : SrcRt := if r.closing && !r.encoding then { r with closing := false, pass := 0, asm := [] } else r

/-- BLOCK_ROW_ENCODED (R136, R140): the encoders finish the block row in the assembly buffer; a pass abandoned meanwhile writes nothing. -/
def blockRowEncoded (src : Fin 16) (s : State) : State :=
  let n := src.val
  let r := s.rt n
  if !r.encoding || !s.mayEncode n then s
  else
    let s' := s.modRt n fun r => { r with encoding := false }
    let c := s.schedOf (s.srcHalf n)
    let s' := match c.src n, r.wslot with
      | some k, some w => if r.pass = 1 then (match c.modeOf k with | some m => (s'.bookEncode n k.bw).encodeRow n k m w | none => s') else s'
      | _, _ => s'
    let s' := s'.modRt n fun x => if r.closing then { (match x.wslot with | some w => x.markIncomplete w | none => x) with pass := 0, asm := [] } else x
    (s'.takeWaiting n).modRt n fun x => if x.closing then x.closePass.settleClose else x

/-- The map line of an entry as a visit of its own reads it, with the errors given (R124, R290); none when poison comes back. -/
def State.readMap (s : State) (h : Half) (a : Nat) (err : SymErr) : Option LineData × State :=
  match s.locate h a with
  | none => (none, s)
  | some (i, g, n, sa) =>
    let t := s.route n sa
    let line := t.2.1 / 64
    if ((s.schedOf h).fillingOf i).isSome || !s.reaches h g || s.heldAt n sa || (s.sub t.1).retired then (none, s)
    else if ((s.sub t.1).queued line).isSome then let r := s.fetchLine t.1 line; (r.1.data?, r.2)
    else
      let s := s.disturb t.1 line err
      let r := (s.demandOutcome t.1 line (if t.2.2 then none else some a) (s.decodeLine t.1 line)).fetchLine t.1 line
      (r.1.data?, r.2)

/-- The merge waits: the subchannel of a map line has no turn for a Bulk read of it (R34, R222). -/
def State.mapWaits (s : State) (h : Half) (a : Nat) : Bool :=
  match s.locate h a with
  | none => false
  | some (_, _, n, sa) =>
    let t := s.route n sa
    !(s.sub t.1).retired && ((s.sub t.1).queued (t.2.1 / 64)).isNone && !s.bulkTurn t.1 (t.2.1 / 256)

/-- SIZE_MAP_MERGE (R124): the oldest waiting entry is merged into its map line as read from DRAM with the errors given; a poisoned line
is written afresh and the slot marked incomplete. -/
def sizeMapMerge (src : Fin 16) (err : SymErr) (s : State) : State :=
  let n := src.val
  let h := s.srcHalf n
  match (s.schedOf h).src n, (s.rt n).mapWait with
  | some k, (slot, b, e) :: t =>
    let a := k.mapLine slot b
    if s.mapWaits h a then s
    else
      let s := s.modRt n fun r => { r with mapWait := t }
      let r := s.readMap h a err
      let s := match r.1 with
        | some d => r.2.writeMap n k slot b (withEntry d b e)
        | none => (r.2.writeMap n k slot b (withEntry 0 b e)).modRt n fun r => r.markIncomplete slot
      s.firstEntries n k
  | _, _ => s

/-- A pixel-window read is received (R131, R153): lines of the write slot as it is now; the spec does not say whether it waits for lines and a
SLOT_SELECT of its head that still wait behind the encoder, and the model does not (DESIGN CHOICE, log 175). -/
def State.takeWindowRead (s : State) (h off lines : Nat) : State :=
  let n := bits off 34 31
  if !s.activeAt h then (s.dropRange h n lines).windowZero h lines
  else
    match s.srcAt h n with
    | none => (s.dropRange h 0 lines).windowZero h lines
    | some k =>
      let w : WinRead := ⟨n, (s.rt n).wslot.getD 0, bits off 30 17, bits off 16 6, lines⟩
      if k.head ≠ h then ((s.bump (F.TW_SRC_DROP_n.HEAD n)).srcDropped h n lines 0).windowZero h lines
      else if (s.rt n).wslot.isNone then (s.dropNoSlot h n lines).windowZero h lines
      else
        let out := if k.height ≤ w.row then lines else lines - min lines (k.lines - w.line)
        let s := if out = 0 then s else s.dropRange h n out
        if out = lines then s.windowZero h lines
        else
          match (s.schedOf (half4 h)).modeOf k with
          | some m => ((s.modHead h fun x => { x with win := some w, winAsked := [], winLines := [], winBlocks := [] }).askWindow h k m w)
          | none => s.windowZero h lines

/-- PIXEL_WINDOW_READ (R153, R245): a read that finds no credit, or another read of its head under way, waits. It does not wait behind lines of its
head that wait behind the encoder: it reads the present write slot (DESIGN CHOICE, log 175). -/
def pixelWindowRead (h : Fin 4) (offset : BitVec 35) (lines : Nat) (s : State) : State :=
  if !s.linkUp h.val || lines = 0 then s
  else if s.heldFor (half4 h.val) || (s.head h.val).win.isSome || !(s.head h.val).io.isEmpty then
    s.modHead h.val fun x => { x with io := x.io ++ [.window offset.toNat lines] }
  else s.takeWindowRead h.val offset.toNat lines

/-- BLOCK_DECODE (R148, R152, R153): a decoder finishes a block whose lines have all arrived; for a window read whose block still lacks
lines they are asked for, and one whose source has left the active Last returns 0. -/
def blockDecode (who : DecodeFor) (src : Fin 16) (slot block : Nat) (s : State) : State :=
  match who with
  | .engine e =>
    let h := engHalf e.val
    let g := s.eng e.val
    match (s.schedOf h).src src.val with
    | none => s
    | some k =>
      match (s.schedOf h).modeOf k with
      | none => s
      | some m =>
        if g.fenced || (blockIn g.blocks src.val slot block).isSome || !(blockNeeds k m g.lines slot block).isEmpty then s
        else
          match blockFrom k m g.lines slot block with
          | .inl w => (s.blockBad h k m slot block w).modEng e.val fun g => { g with blocks := g.blocks ++ [(⟨src.val, slot, block, none⟩ : InBlock)] }
          | .inr p => s.modEng e.val fun g => { g with blocks := g.blocks ++ [(⟨src.val, slot, block, some p⟩ : InBlock)] }
  | .window h =>
    let x := s.head h.val
    match x.win, (s.schedOf (half4 h.val)).src src.val with
    | some w, none =>
      if w.src = src.val then
        ((s.modHead h.val fun y => { y with win := none, winAsked := [], winLines := [], winBlocks := [] }).dropRange h.val 0 w.lines).windowZero h.val w.lines
      else s
    | some w, some k =>
      match (s.schedOf (half4 h.val)).modeOf k with
      | none => s
      | some m =>
        if w.src ≠ src.val || w.slot ≠ slot || !(w.blocks k).contains block || (blockIn x.winBlocks src.val slot block).isSome then s
        else if !(blockNeeds k m x.winLines slot block).isEmpty then s.askWindow h.val k m w
        else
          let s := match blockFrom k m x.winLines slot block with
            | .inl b =>
              (s.blockBad (half4 h.val) k m slot block b).modHead h.val fun y =>
                { y with winBlocks := y.winBlocks ++ [(⟨src.val, slot, block, none⟩ : InBlock)] }
            | .inr p => s.modHead h.val fun y => { y with winBlocks := y.winBlocks ++ [(⟨src.val, slot, block, some p⟩ : InBlock)] }
          s.finishWindow h.val k m w
    | _, _ => s

/-- SLOT_COPY_TO_ARCHIVE (R214): DB_COPY_CMD with DIR 0. -/
def slotCopyToArchive (h : Fin 4) (src : Fin 16) (slot : BitVec 16) (s : State) : State :=
  if s.takesPosted h.val then s.copyStart h.val src.val (some slot.toNat) else s

/-- SLOT_COPY_FROM_ARCHIVE (R214): DB_COPY_CMD with DIR 1. -/
def slotCopyFromArchive (h : Fin 4) (src : Fin 16) (s : State) : State := if s.takesPosted h.val then s.copyStart h.val src.val none else s

/-- SLOT_COPY_DONE (R215; RESULT 6 as in log 177): a copy that has moved all its lines, or cannot go on, ends once its writes have their places; one that waits for
sleeping Archive ranks asks for their wake, below P2 (R251, Table TH-3), and goes on meanwhile with the lines of awake ranks. -/
def slotCopyDone (h : Fin 4) (s : State) : State :=
  match (s.head h.val).copy with
  | none => s
  | some c =>
    if (c.early || c.done = c.lines) && c.asked.isEmpty && !s.copyBacklog h.val then s.copyEnd h.val c
    else
      let s := if 2 ≤ s.stepFor (half4 h.val) then s else (s.copySleeps h.val c).foldl (fun s n => s.askWake (.archive n)) s
      s.copyOn h.val

end Sys2Proof.Machine
end

