-- ==== Sys2Proof/Machine/Lamps.lean ====
section
/-! DEFINITION. The commands of the lamp engines and the host rings (03_lamp_engines.md R95 to R119; 05 R166, R167, R181 to R185). -/
namespace Sys2Proof.Machine

/-! Ring descriptors (R105, R108, R166, R167) -/

/-- A REFUSED message of a ring (Table FC-1a): byte offset of the word, and 1 wrong head or stream absent, 2 write while armed,
3 CONSUMED refused, 4 ARM refused. -/
def State.ringRefused (s : State) (h r off why : Nat) : State := s.raise (half4 h) 0x043 0x0B (unitForm r off) why

/-- The head that describes a ring from now on. A head that takes a ring over from another finds it disarmed and its descriptor clear (DESIGN CHOICE:
the spec says nothing of a stream whose head changes). -/
def Ring.own (x : Ring) (h : Nat) : Ring :=
  if x.owner.isNone || x.owner == some h then { x with owner := some h }
  else { x with owner := some h, desc := {}, consumed := 0, tail := 0, armed := false, wait := none, skipping := false, gap := true }

/-- A write to a ring's descriptor from a head: `act` when the ring is the head's own, else refused (R105). While no Last is in force no
stream is absent from it, and any head describes and arms a ring (R187). -/
def State.ringWrite (s : State) (h r off : Nat) (act : State → State) : State :=
  if !(s.linkUp h && !(s.fc (half4 h)).fatal) then s
  else
    let mine := match s.stream r with | some st => st.head == h | none => !(s.schedOf (half4 h)).cfg.isSome
    if mine then act (s.modRing r fun x => x.own h) else s.ringRefused h r off 1

/-- Byte offset of a descriptor word (Table HP-5). -/
def rdOffset : RdWord → Nat
  | .baseLo => 0x00
  | .baseHi => 0x04
  | .tailaLo => 0x08
  | .tailaHi => 0x0C
  | .start => 0x10

/-- A descriptor with one word replaced. -/
def RingDesc.put (d : RingDesc) (w : RdWord) (v : Nat) : RingDesc :=
  match w with
  | .baseLo => { d with base := d.base / 2 ^ 32 * 2 ^ 32 + v }
  | .baseHi => { d with base := v * 2 ^ 32 + d.base % 2 ^ 32 }
  | .tailaLo => { d with tail := d.tail / 2 ^ 32 * 2 ^ 32 + v }
  | .tailaHi => { d with tail := v * 2 ^ 32 + d.tail % 2 ^ 32 }
  | .start => { d with start := v }

/-- RING_DESCRIPTOR_WRITE (R166). -/
def ringDescriptorWrite (h : Fin 4) (r : Fin 512) (w : RdWord) (v : Word) (s : State) : State :=
  s.ringWrite h.val r.val (rdOffset w) fun s =>
    if (s.ring r.val).armed then s.ringRefused h.val r.val (rdOffset w) 2
    else s.modRing r.val fun x => { x with desc := x.desc.put w v.toNat }

/-- The fields of a descriptor meet every requirement of an ARM (R108, Table LE-5); the size of records counts where the stream is known. -/
def RingDesc.armable (d : RingDesc) (st : Option StreamCfg) : Bool :=
  let size := 2 ^ d.log2
  14 ≤ d.log2 && d.log2 ≤ 24 && d.base % size == 0 && d.tail % 16 == 0 && (d.tail + 16 ≤ d.base || d.base + size ≤ d.tail) &&
    d.start % 64 == 0 && (match st with | some st => 2 * recordBytes st.format (st.count 0) ≤ size | none => true)

/-- The event of RING_LOG2 bits that differ from those in force (R166). -/
def State.log2Event (s : State) (h r log2 : Nat) : State :=
  if (s.ring r).armed && log2 ≠ (s.ring r).inForce.log2 then s.ringRefused h r 0x18 2 else s

/-- ARM (R108, R166, R167): the fields of the moment wait for the next chunk boundary, or the ARM is refused and the ring stays as it
was. While Bus Master Enable is clear the ring counts as disarmed and only RING_LOG2 is taken (R183). -/
def arm (h : Fin 4) (r : Fin 512) (log2 : BitVec 5) (s : State) : State :=
  s.ringWrite h.val r.val 0x18 fun s =>
    let x := s.ring r.val
    let s := s.log2Event h.val r.val log2.toNat
    let d := { x.desc with log2 := if x.armed then x.desc.log2 else log2.toNat, arm := true }
    if !d.armable (s.stream r.val) then s.ringRefused h.val r.val 0x18 4
    else if !(s.head h.val).bme then s.modRing r.val fun x => { x with desc := d }
    else s.modRing r.val fun x => { x with desc := d, wait := some (some d) }

/-- DISARM (R166, R167): an armed ring is disarmed at its next chunk boundary; a disarmed one takes RING_LOG2. -/
def disarm (h : Fin 4) (r : Fin 512) (log2 : BitVec 5) (s : State) : State :=
  s.ringWrite h.val r.val 0x18 fun s =>
    let s := s.log2Event h.val r.val log2.toNat
    if (s.ring r.val).armed then s.modRing r.val fun x => { x with wait := some none, desc := { x.desc with arm := false } }
    else s.modRing r.val fun x => { x with wait := none, desc := { x.desc with log2 := log2.toNat, arm := false } }

/-- ARM_EFFECT (R108, R167): the next chunk boundary of the ring. -/
def armEffect (r : Fin 512) (s : State) : State := s.applyArm r.val

/-- CONSUMED_WRITE (R108). -/
def consumedWrite (h : Fin 4) (r : Fin 512) (v : Word) (s : State) : State :=
  s.ringWrite h.val r.val 0x14 fun s =>
    let x := s.ring r.val
    let used := (x.tail + 2 ^ 32 - v.toNat) % 2 ^ 32
    if x.armed && (2 ^ x.inForce.log2 < used || used % 64 != 0) then s.ringRefused h.val r.val 0x14 3
    else s.modRing r.val fun x => { x with consumed := v.toNat }

/-! Delivery (R106 to R111, R181 to R185) -/

/-- The first record of a ring cannot be delivered at all: the ring is disarmed, or its head lies beyond a lost Welt (R110, R111). -/
def State.undeliverable (s : State) (r h : Nat) (q : Rec) : Bool :=
  !(s.ring r).armed || (s.ring r).owner != some h || !(s.head h).bme || (s.split && engHalf q.engine != half4 h)

/-- CHUNK_RECORD_WRITE (R106, R107, R109, R110, R181): the first record of a ring reaches its chunk boundary and is written, skipped, or
waits. -/
def chunkRecordWrite (r : Fin 512) (s : State) : State :=
  let s := s.applyArm r.val
  match (s.ring r.val).queue.head?, s.ringHead r.val with
  | some q, some h =>
    if s.undeliverable r.val h q then s.skipFirst r.val
    else if s.inL0 h && (s.ring r.val).fits q.bytes.length then s.writeRecord r.val h
    else if (s.ring r.val).skipping then s.skipFirst r.val
    else s.modRing r.val fun x =>
      { x with queue := match x.queue with | [] => [] | q :: t => { q with since := some (q.since.getD s.now) } :: t }
  | _, _ => s

/-- CHUNK_SKIP (R109, R184): the first record of an armed ring has waited RING_WAIT stitches for space, for the link, or for posted credits that the host
withholds. -/
def chunkSkip (r : Fin 512) (noCredits : Bool) (s : State) : State :=
  match (s.ring r.val).queue.head?, s.ringHead r.val with
  | some q, some h =>
    if !s.undeliverable r.val h q && (noCredits || (q.since.isSome && !(s.inL0 h && (s.ring r.val).fits q.bytes.length))) then
      (s.skipFirst r.val).enterSkipping r.val
    else s
  | _, _ => s

/-- RECORD_ABANDON (R185): payload writes of the first record began and have waited RING_WAIT stitches; no tail record is written. -/
def recordAbandon (r : Fin 512) (s : State) : State :=
  match (s.ring r.val).queue.head?, s.ringHead r.val with
  | some q, some h =>
    if !s.undeliverable r.val h q && (s.ring r.val).fits q.bytes.length then (s.skipFirst r.val).enterSkipping r.val else s
  | _, _ => s

/-! Computing (R99, R100, R102, R112 to R114) -/

/-- An engine may compute: running, not fenced, in the production window, below power-limit step P7, and with no change of an idle cycle still
running (R45, R102, Table TH-3). -/
def State.computes (s : State) (e : Nat) : Bool :=
  let h := engHalf e
  !(s.eng e).fenced && s.rd (F.LE_n_STATUS.STATE e) == 1 && s.inProduction h && s.stepFor h < 7 && !s.changing h

/-- STREAM_OPEN (R99, R118): the next stream of the engine's plan is opened; one whose chunks are all done is passed over. -/
def streamOpen (e : Fin 16) (s : State) : State :=
  let g := s.eng e.val
  if !s.computes e.val || g.cur.isSome || 8 ≤ g.opened.length then s
  else
    match g.plan with
    | [] => s
    | r :: t =>
      let c := s.startChunk r (s.frameCount (engHalf e.val))
      let s := s.modEng e.val fun g => { g with plan := t }
      match s.stream r with
      | none => s
      | some st =>
        if st.chunks ≤ c then s
        else (s.modEng e.val fun g => { g with cur := some (r, c), opened := if g.opened.contains r then g.opened else g.opened ++ [r] }).noteEngine e.val

/-- Bytes of a stream's share that an engine's records of it occupy (R100). -/
def State.shareUsed (s : State) (e r : Nat) : Nat :=
  ((s.ring r).queue.filter fun q => q.engine == e && !q.rep).foldl (fun a q => a + q.bytes.length) 0

/-- What the lamps of a stream draw on at an engine (R50, R88, R90, R324). -/
def State.lampIn (s : State) (e : Nat) (st : StreamCfg) (k : SrcCfg) (errs : List LutErr) : LampIn :=
  let h := engHalf e
  let c := s.schedOf h
  let rt := c.rt st.src
  { st := st, sc := k, fc := c.frame, gain := c.gain, bank := s.lutBank, lines := (s.eng e).lines, blocks := (s.eng e).blocks
    slot := rt.prod, prev := rt.prev, hidden := s.split && half4 k.head != h, lutErrs := errs }

/-- Asks for lines that an engine needs, at most 256 of them in flight (Table AR-1, R31), at Frame priority with the engine's number and epoch (R116). -/
def State.askLines (s : State) (e : Nat) (need : List Nat) : State :=
  let h := engHalf e
  let epoch := s.rd (F.LE_n_STATUS.EPOCH e)
  let new := ((need.map fun a => a / 64 * 64).eraseDups.filter fun a => !(s.eng e).asked.contains (a / 64)).take (256 - (s.eng e).asked.length)
  new.foldl (fun s a => (s.modEng e fun g => { g with asked := g.asked ++ [a / 64] }).readDpa h a true (.engine e epoch)) s

/-- Messages of the LUT errors met by the entries that a chunk's lamps read (R88). -/
def State.lutMessages (s : State) (e bank : Nat) (read : List (Nat × Nat)) (errs : List LutErr) : State :=
  let h := engHalf e
  (errs.filter fun x => read.contains (x.table, x.entry)).foldl (fun s x =>
    s.raise h (if x.uncorrectable then 0x041 else 0x040) (if x.uncorrectable then 2 else 1)
      (unitForm x.table (x.entry % 2 ^ 13 + bank * 2 ^ 13 + h.idx * 2 ^ 14)) (if x.uncorrectable then 0 else 1)) s

/-- The chunk record of chunk c of a stream, whose inputs have all arrived, and the lamps counted as substituted (R95 to R98, R114). -/
def State.computeChunk (s : State) (x : LampIn) (c stamp : Nat) : List Byte × Nat :=
  let st := x.st
  let first := c * st.chunkLamps
  let count := st.count c
  let lamps := (List.range count).map fun i => x.lamp s.lutAt (first + i)
  let nsub := (lamps.filter (·.2)).length
  let degraded := x.lines.any (·.degraded) || (x.hidden && (List.range count).any fun i => !(x.gauze (first + i)).1.dis)
  let payload := packLamps st.format (lamps.map (·.1))
  let flags := (if 0 < nsub then 2 else 0) + (if degraded then 4 else 0) + (if c + 1 = st.chunks then 16 else 0)
  (chunkRecord ⟨st.stream, st.format, flags, x.fc, c, first, count, payloadBytes st.format count, stamp, nsub⟩ payload, nsub)

/-- A chunk whose inputs have arrived is computed and staged; the engine goes on to the next chunk or leaves the stream. -/
def State.stageChunk (s : State) (e : Nat) (x : LampIn) (c : Nat) (errs : List LutErr) : State :=
  let st := x.st
  let r := s.computeChunk x c (s.asSeen (engHalf e)).stamp
  let first := c * st.chunkLamps
  let read := if errs.isEmpty then [] else ((List.range (st.count c)).map fun i => x.lutReads s.lutAt (first + i)).flatten
  let s := s.lutMessages e x.bank read errs
  let s := if 0 < r.2 then s.bump (F.LE_n_COUNT.SUBST_CHUNKS e) else s
  let new : Rec := { engine := e, head := st.head, frame := x.fc, chunk := c, bytes := r.1, rep := false, isLast := c + 1 == st.chunks }
  let s := s.modRing st.stream fun y => { y with queue := y.queue ++ [new] }
  (s.modEng e fun g =>
    { g with lamps := g.lamps + st.count c, cold := false, lines := [], blocks := [], asked := []
             cur := if c + 1 < st.chunks then some (st.stream, c + 1) else none }).noteEngine e

/-- CHUNK_STAGED (R88, R95, R99, R100): the engine works on the next chunk of the stream it computes. It asks for the lines the chunk still
needs, waits for them, for its blocks and for room in the stream's share, and else computes and stages the chunk. -/
def chunkStaged (e : Fin 16) (lutErrs : List LutErr) (s : State) : State :=
  let h := engHalf e.val
  match (s.eng e.val).cur with
  | none => s
  | some (r, c) =>
    match s.stream r with
    | none => s
    | some st =>
      match (s.schedOf h).src st.src with
      | none => s
      | some k =>
        match (s.schedOf h).modeOf k with
        | none => s
        | some m =>
          if !s.computes e.val || st.share * 1024 < s.shareUsed e.val r + recordBytes st.format (st.count c) then s
          else
            let x := s.lampIn e.val st k lutErrs
            let need := x.needs m (c * st.chunkLamps) (st.count c)
            if !need.1.isEmpty then s.askLines e.val need.1
            else if !need.2.isEmpty then s
            else s.stageChunk e.val x c lutErrs

/-! Panic (R103) -/

/-- PANIC_ASSERT (R103): the level falls below PANIC_LO in the production window. -/
def panicAssert (e : Fin 16) (level : Nat) (s : State) : State :=
  let g := s.eng e.val
  if g.fenced || g.panicAt.isSome || g.panicBar || s.rd (F.LE_n_STATUS.STATE e.val) ≠ 1 || !s.inProduction (engHalf e.val) ||
      s.rd F.LE_PANIC_CFG.PANIC_MAX = 0 || s.rd F.LE_PANIC_CFG.PANIC_LO ≤ level then s
  else (s.modEng e.val fun g => { g with panicAt := some s.now }).wr (F.LE_n_STATUS.PANIC e.val) 1

/-- The release level in force: PANIC_HI, or PANIC_LO + 1 when it is not above PANIC_LO. -/
def State.panicHi (s : State) : Nat := max (s.rd F.LE_PANIC_CFG.PANIC_HI) (s.rd F.LE_PANIC_CFG.PANIC_LO + 1)

/-- An engine's panic ends after n core cycles more in it. -/
def State.endPanic (s : State) (e n : Nat) (bar : Bool) : State :=
  let c := s.schedOf (engHalf e)
  let used := (s.eng e).panicUsed
  let s := s.bump (F.LE_n_COUNT.PANIC_STITCH e) (c.stitches (used + n) - c.stitches used)
  (s.modEng e fun g => { g with panicAt := none, panicUsed := used + n, panicBar := g.panicBar || bar }).wr (F.LE_n_STATUS.PANIC e) 0

/-- PANIC_RELEASE (R103): the level reaches PANIC_HI. -/
def panicRelease (e : Fin 16) (level : Nat) (s : State) : State :=
  match (s.eng e.val).panicAt with
  | some t => if s.panicHi ≤ level then s.endPanic e.val (s.now - t) false else s
  | none => s

/-- PANIC_MAX_EXPIRY (R103): PANIC_MAX stitches in panic in this tick; none again before stitch 0. -/
def panicMaxExpiry (e : Fin 16) (s : State) : State :=
  match (s.eng e.val).panicAt with
  | some _ =>
    let all := s.rd F.LE_PANIC_CFG.PANIC_MAX * (s.schedOf (engHalf e.val)).len / 4096
    s.endPanic e.val (all - (s.eng e.val).panicUsed) true
  | none => s

/-! Start, fence, enable (R104, R115, R116) -/

/-- ENGINE_START (R104): the engine that waits for the wake budget starts when the budget allows. -/
def engineStart (e : Fin 16) (s : State) : State := s.startWake (engHalf e.val) (some (.engine e.val))

/-- What a write of LE_n_CTRL starts: FENCE first, then ENABLE of a fenced engine at the next stitch 0 (R115, R116); the engines of a fenced
half stay fenced until the next start (R317). -/
def State.leCtrl (s : State) (e v : Nat) : State :=
  let s := if v.testBit 0 then s.fenceEngine e 1 else s
  if v.testBit 1 && (s.eng e).fenced && !(s.wh (engHalf e)).fenced then (s.modEng e fun g => { g with enable := true }).wr (F.LE_n_CTRL.ENABLE e) 1 else s

/-- FENCE (R115): a write of FENCE to LE_n_CTRL. -/
def fence (p : Path) (e : Fin 16) (s : State) : State :=
  s.gatedWrite p (0x71000 + 0x800 * e.val) 1 false fun s => s.leCtrl e.val 1

/-- ENABLE (R116): a write of ENABLE to LE_n_CTRL. -/
def enable (p : Path) (e : Fin 16) (s : State) : State :=
  s.gatedWrite p (0x71000 + 0x800 * e.val) 2 false fun s => s.leCtrl e.val 2

/-- ENGINE_SELF_CHECK_FAIL (R115). -/
def engineSelfCheckFail (e : Fin 16) (s : State) : State := s.fenceEngine e.val 2

end Sys2Proof.Machine
end

