-- ==== Sys2Proof/Machine/Management.lean ====
section
/-! DEFINITION. The commands of management: SPI roles, the flash engine, resets, the audit ring, passport writes, and the TAP
(16_management_configuration.md; 17 R480). -/
namespace Sys2Proof.Machine

/-! MG_ROLE on the SPI path (R456, Table MG-8) -/

/-- CHAL: a new challenge for a role goes to MG_ROLE_CHAL_i, or RESULT says why not. -/
def State.spiChallenge (s : State) (role : Nat) : State :=
  match s.challenge .spi role with
  | (.inl r, s) => s.wr F.MG_ROLE.RESULT r
  | (.inr c, s) => (List.range 8).foldl (fun s i => s.wr (F.MG_ROLE_CHAL_i.CHAL i) (c.toNat / 2 ^ (32 * i))) s

/-- RESP: the staged response is checked. -/
def State.spiRespond (s : State) : State :=
  let resp := ((List.range 8).map fun i => leBytes 4 (s.rd (F.MG_ROLE_RESP_i.RESP i))).flatten
  let (r, s) := s.respond .spi resp
  s.wr F.MG_ROLE.RESULT r

/-- The action bits of MG_ROLE: CHAL, then RESP, then DROP. -/
def State.roleAct (s : State) (v : Nat) : State :=
  let s := if v.testBit 27 then s.spiChallenge (bits v 29 28) else s
  if s.auditFull && (v.testBit 26 || v.testBit 25) then s.roleFull
  else
    let s := if v.testBit 26 then s.spiRespond else s
    if v.testBit 25 then s.dropRole .spi 1 else s

/-- CHAL (R456). -/
def chal (role : Fin 4) (s : State) : State :=
  s.gatedWrite .spi 8 (role.val * 2 ^ 28 + 2 ^ 27) true fun s => s.spiChallenge role.val

/-- RESP (R456): REQ keeps its value. -/
def resp (s : State) : State :=
  s.gatedWrite .spi 8 (s.rd F.MG_ROLE.REQ * 2 ^ 28 + 2 ^ 26) true fun s => if s.auditFull then s.roleFull else s.spiRespond

/-- DROP (R455): REQ keeps its value. -/
def drop (s : State) : State :=
  s.gatedWrite .spi 8 (s.rd F.MG_ROLE.REQ * 2 ^ 28 + 2 ^ 25) true fun s => if s.auditFull then s.roleFull else s.dropRole .spi 1

/-- ROLE_LOCK_END (R456): the path takes challenges again, and its count of wrong responses starts anew. -/
def roleLockEnd (p : Path) (s : State) : State :=
  if (s.role p).locked then s.modRole p fun r => { r with locked := false, fails := 0 } else s

/-! MG_FL_CTRL (R442) -/

/-- FLASH_READ. -/
def flashRead (p : Path) (lenM1 : BitVec 6) (s : State) : State :=
  s.gatedWrite p 0x31 (2 ^ 31 + lenM1.toNat) true fun s => s.flashGo p 0 lenM1.toNat

/-- FLASH_PROGRAM. -/
def flashProgram (p : Path) (lenM1 : BitVec 6) (s : State) : State :=
  s.gatedWrite p 0x31 (2 ^ 31 + 2 ^ 28 + lenM1.toNat) true fun s => s.flashGo p 1 lenM1.toNat

/-- FLASH_ERASE_SECTOR: LEN_M1 keeps its value. -/
def flashEraseSector (p : Path) (s : State) : State :=
  let len := s.rd (F.MG_FL_CTRL.LEN_M1.on p)
  s.gatedWrite p 0x31 (2 ^ 31 + 2 ^ 29 + len) true fun s => s.flashGo p 2 len

/-- FLASH_OP_DONE (R442): RESULT 0, or 4 on a device error, whose bytes the spec does not state. A passport write waits while FIELD_N is asserted
(R447). -/
def flashOpDone (deviceError : Bool) (s : State) : State :=
  match s.mg.op with
  | none => s
  | some o =>
    if s.ppHeld then s
    else if deviceError then
      let s := s.flashFree o
      let s := if o.space = 0 then (s.flashCut o.addr (if o.op = 2 then 4096 else 4 * o.words.length)).raiseL 0x006 0x16 (unitForm 0 o.addr) 3 else s
      s.flashEnd o.path o.op o.space o.addr 4
    else ((s.flashApply o).flashFree o).flashEnd o.path o.op o.space o.addr 0

/-! Boot record and resets -/

/-- What a write of MG_BOOT does: NEXT_BANK goes to the copy of the boot record that is not in force (R441). -/
def State.bootWrite (s : State) (v : Nat) : State :=
  let seq := s.mg.boot.nextSeq
  (s.modMg fun m => { m with boot := m.boot.put (v.testBit 0), recordAt := some (false, s.now) }).putCopy 0x1000000 seq
    (Config.bootCopy seq (v.testBit 0))

/-- NEXT_BANK_WRITE (R441). -/
def nextBankWrite (p : Path) (bank : Bool) (s : State) : State :=
  s.gatedWrite p 5 (b2n bank) false fun s => s.bootWrite (b2n bank)

/-- WARM_RESET (R438). -/
def mgWarmReset (s : State) : State := s.warmReset

/-- WARM_RESET_WRITE (R438): the audit entry is queued before the reset drops the role. -/
def warmResetWrite (p : Path) (s : State) : State :=
  s.gatedWrite p 4 1 true fun s => (s.audit (s.role p).role p.idx 1 4 0 0).warmReset

/-- WATCHDOG_EXPIRY (R438). -/
def watchdogExpiry (h : Half) (s : State) : State :=
  (s.warmReset.bump F.MG_STATUS.WDOG).raise h 0x007 0x07 (unitForm h.idx 0) 1

/-! Audit ring and passport tails (R447, R459) -/

/-- AUDIT_ENTRY_WRITE (R459): the oldest queued entry goes to its ring slot, erasing the sector at its first entry, and then to
the passport audit tail, not while the supervisor has the flash (R394); a failed write leaves bytes that the spec does not state and raises source 0x006. -/
def auditEntryWrite (flashError fieldAsserted : Bool) (s : State) : State :=
  match s.mg.audit with
  | [] => s
  | e :: t =>
    if s.rd F.PS_STATUS.STATE = 4 then s else
    let slot := e.seq % 4096
    let a := 0x1010000 + 32 * slot
    let s := ((s.modMg fun m => { m with audit := t }).refillAudit).fieldLevel fieldAsserted
    let s := if slot % 128 = 0 then s.flashErase a 4096 else s
    let s := if flashError then (s.flashCut a 32).raiseL 0x006 0x16 (unitForm 0 a) 3 else s.flashPut a e.bytes
    s.ppTail (0x1000 + 32 * (e.seq % 32)) e.bytes

/-- A passport write that waited 2 s is dropped and counted (R447). -/
def State.ppDropped (s : State) : State :=
  let s := s.bump F.MG_PP_STAT.DROPPED
  s.raiseL 0x003 0x0C (unitForm 0 (s.rd F.MG_PP_STAT.DROPPED)) 2

/-- PASSPORT_WRITE_TIMEOUT (R447): the oldest waiting write is dropped from the passport; one of management's own ends with device error (DESIGN
CHOICE, log 225: the spec gives it no RESULT). -/
def passportWriteTimeout (s : State) : State :=
  if s.ppHeld && s.mg.ppAhead == 0 then
    match s.mg.op with
    | some o => ((s.flashFree o).ppDropped).flashEnd o.path o.op o.space o.addr 4
    | none => s
  else
    match s.mg.ppWaiting with
    | [] => s
    | _ :: t => (s.modMg fun m => { m with ppWaiting := t, ppAhead := m.ppAhead - 1 }).ppDropped

/-- FIELD_RELEASE (R447). -/
def fieldRelease (s : State) : State := if s.mg.fieldN then s.fieldFree else s

/-! The TAP (17 R480) -/

/-- EXTEST and the IEEE 1149.6 instructions are executed now; at any other time they act as BYPASS. -/
def State.tapTestAllowed (s : State) : Bool := s.rd F.PS_STATUS.STATE == 0 && bits s.pwr.railen.toNat 11 3 == 0

/-- What the TAP executes of the instruction loaded (R480). -/
def State.tapNow (s : State) : TapInstr :=
  match s.pwr.tap with
  | .extest => if s.tapTestAllowed then .extest else .bypass
  | .ac1149_6 => if s.tapTestAllowed then .ac1149_6 else .bypass
  | .bypass => .bypass
  | .idcode => .idcode
  | .samplePreload => .samplePreload

/-- TAP_INSTRUCTION (R480); without VAUX no ball is driven (R471). -/
def tapInstruction (i : TapInstr) (s : State) : State :=
  if !s.pwr.aux then s
  else
    let s := s.modPwr fun p => { p with tap := i }
    match i with
    | .idcode => s.emit (.tdo (BitVec.ofNat 32 (Config.dieRev.toNat * 2 ^ 28 + 0x2860 * 2 ^ 12 + 0x9A7)))
    | .bypass | .samplePreload | .extest | .ac1149_6 => s

end Sys2Proof.Machine
end

