-- ==== Sys2Proof/Machine/PowerOps.lean ====
section
/-! DEFINITION. The power supervisor's shared operations: rails and dependencies, transitions, shedding and the power-fail record
(13_power_supervision.md R378 to R396). -/
namespace Sys2Proof.Machine

/-! Sensors and the monitor ADC -/

/-- The valid readings of a half. -/
def State.validTemps (s : State) (h : Half) : List Int :=
  (List.range 8).filterMap fun i =>
    if s.on (F.TH_SENS_h_s.VALID h.idx i) then some (s.rdS (F.TH_SENS_h_s.TEMP h.idx i)) else none

/-- Full scale of a channel at gain 1, mV (Table PS-7). -/
def adcScale (c : Nat) : Nat := if c = 0 then 16384 else if c = 1 then 4096 else if c < 12 then 2048 else 1024

/-- Samples a filter averages: 16 or 64. -/
def State.filtLen (s : State) (c : Nat) : Nat := if s.on (F.PS_ADC_CH_c_CFG.FILT c) then 64 else 16

/-- A channel is in the sequence now (R399). -/
def State.adcSampled (s : State) (c : Nat) : Bool :=
  if s.on F.PS_STATUS.PFW then c == 0 || c == 12 else s.on (F.PS_ADC_CH_c_CFG.EN c)

/-- Samples of a visit: DWELL, where values below 3 are taken as 3 and 0 as 64 (R399). -/
def State.dwell (s : State) : Nat := let d := s.rd F.PS_ADC_CFG.DWELL; if d = 0 then 64 else max d 3

/-- The filter output of a channel in its unit (Table PS-7). -/
def State.adcValue (s : State) (c : Nat) (samples : List Nat) : Nat :=
  let avg := samples.foldl (· + ·) 0 / max 1 samples.length
  let mv := avg * adcScale c / (4096 * 2 ^ s.rd (F.PS_ADC_CH_c_CFG.GAIN c))
  if c < 12 then mv
  else (Config.imonCurrent mv (s.mg.imon.getD (c - 12) 0)).toNat

/-- A channel after a sample; `pos` is the sample's place in its visit, of which the first two are invalid (R400). -/
def State.sampled (s : State) (c : Nat) (x : AdcChan) (code pos : Nat) : AdcChan :=
  let ok := 2 ≤ pos && x.settle == 0
  let x := { x with sample := code, sampleOk := ok, settle := x.settle - 1 }
  if !ok then x
  else
    let l := (code :: x.filt).take 64
    let n := s.filtLen c
    let v := s.adcValue c (l.take n)
    { x with filt := l, value := v, valid := n ≤ l.length, last := if n ≤ l.length then v else x.last }

/-- The enabled channel that the sequencer visits after channel c: the next in ascending order, or the lowest again (R399). -/
def State.nextChannel (s : State) (c : Option Nat) : Option Nat :=
  let on := (List.range 24).filter s.adcSampled
  match c with
  | some c => ((on.find? (c < ·)).orElse fun _ => on.head?)
  | none => on.head?

/-- The channel of the sequencer's next sample, and the sample's place in its visit: DWELL samples of each enabled channel (R399). -/
def State.nextSample (s : State) (a : Adc) : Option (Nat × Nat) :=
  match a.visit with
  | some (c, n) => if s.adcSampled c && n < s.dwell then some (c, n) else (s.nextChannel (some c)).map (·, 0)
  | none => (s.nextChannel none).map (·, 0)

/-- The half that drives the shared outputs of the supervisor (R389): the leader, but from PFW_N, an abort or a forced off until the record is written
the half that drove them then. -/
def State.driver (s : State) : Half := s.pwr.drive.getD s.leader

/-- The charge estimator takes the VIN current of a sample's 1 µs: the last valid value of channel 12 (R392, R400; DESIGN CHOICE, log 226: R392
states no weight of a sample). -/
def State.addCharge (s : State) (h : Half) : State :=
  if h = s.driver then s.modPwr fun p => { p with charge := p.charge.map (· + ((p.adc h).chan 12).last) } else s

/-- The samples of a half's ADC in the order taken, 1 µs each. -/
def State.adcRun (s : State) (h : Half) : List (BitVec 12) → State
  | [] => s
  | v :: t =>
    match s.nextSample (s.pwr.adc h) with
    | none => s
    | some (c, pos) =>
      ((s.modPwr fun p => p.modAdc h fun a =>
        { a.modChan c (fun x => s.sampled c x v.toNat pos) with visit := some (c, pos + 1) }).addCharge h).adcRun h t

/-! Rails -/

/-- RAILEN_n high or low. -/
def State.setRailen (s : State) (r : Nat) (on : Bool) : State :=
  s.modPwr fun p => { p with railen := if on then p.railen ||| BitVec.ofNat 12 (2 ^ r) else p.railen &&& ~~~ BitVec.ofNat 12 (2 ^ r) }

/-- Enables a rail whose dependencies are good: its soft start begins (R378, R381); a latched rail stays off (R382). -/
def State.enableRail (s : State) (r : Nat) : State :=
  if s.depsGood r && s.rd (F.PS_RAIL_n_STATUS.STATE r) != 4 then (s.setRailen r true).wr (F.PS_RAIL_n_STATUS.STATE r) 1 else s

/-- A rail failed: message with its cause (Table FC-1a). -/
def State.railMessage (s : State) (r mv : Nat) : State :=
  s.raiseL (0x120 + r) 0x17 (unitForm r mv) (s.rd (F.PS_RAIL_n_STATUS.CAUSE r))

/-- What a dropped rail takes with it: a half without its core rail, the memory of VDDQ, the heads of VSD and VSDH (Table PS-1, R158). -/
def State.dropAction (s : State) (r : Nat) : State :=
  match r with
  | 3 => s.halfLost .a
  | 4 => s.halfLost .b
  | 6 => (s.headsOff .a).headsOff .b
  | 7 => (s.headsOff .a).headsOff .b
  | 8 => s.vddqLost .a
  | 9 => s.vddqLost .b
  | _ => s

/-- Rails dropped because a dependency is no longer good, in reverse order of the eyelets (R382). -/
def State.dropDependants (s : State) : State :=
  [9, 8, 10, 11, 7, 6, 4, 3, 5].foldl (fun s r =>
    if s.pwr.railen.getLsbD r && !s.depsGood r then
      let s := (((s.setRailen r false).wr (F.PS_RAIL_n_STATUS.STATE r) 5).wr (F.PS_RAIL_n_STATUS.CAUSE r) 7).wr (F.PS_RAIL_n_STATUS.PG r) 0
      let s := s.wr (F.PS_RAIL_n_STATUS.IN_WIN r) 0
      s.dropAction r
    else s) s

/-- Dependants of dependants too: the graph is four rails deep. -/
def State.dropAllDependants (s : State) : State := s.dropDependants.dropDependants.dropDependants.dropDependants

/-- VIN is asserted failing, or shedding runs: rail faults are recorded only (R384). -/
def State.faultsRecordedOnly (s : State) : Bool := s.on F.PS_STATUS.PFW || 4 ≤ s.rd F.PS_STATUS.STATE

/-! Transitions (R383, R384) -/

/-- The window of a rail. -/
def State.window (s : State) (r : Nat) : Nat × Nat := (s.rd (F.PS_RAIL_n_WIN.UV r), s.rd (F.PS_RAIL_n_WIN.OV r))

/-- Sets the window of a rail. -/
def State.setWindow (s : State) (r : Nat) (w : Nat × Nat) : State := (s.wr (F.PS_RAIL_n_WIN.UV r) w.1).wr (F.PS_RAIL_n_WIN.OV r) w.2

/-- A START is refused (R383). -/
def State.transRefused (s : State) (r : Nat) (w : Nat × Nat) : Bool :=
  let lo := s.mg.otp.loBound[r]!.toNat
  let hi := s.mg.otp.hiBound[r]!.toNat
  s.rd F.PS_STATUS.STATE != 2 || s.on F.PS_TRANS.BUSY || r < 3 || 11 < r || w.1 < lo || hi < w.1 || w.2 < lo || hi < w.2

/-- START of PS_TRANS. -/
def State.transStart (s : State) : State :=
  let r := s.rd F.PS_TRANS.RAIL
  let new := (s.rd F.PS_TRANS_WIN.UV, s.rd F.PS_TRANS_WIN.OV)
  if s.transRefused r new then s.wr F.PS_TRANS.REFUSED 1
  else
    let old := s.window r
    let s := ((s.wr F.PS_TRANS.REFUSED 0).wr F.PS_TRANS.ABANDONED 0).wr F.PS_TRANS.BUSY 1
    let s := s.modPwr fun p => { p with trans := some (r, old, new) }
    let s := if s.rd (F.PS_RAIL_n_STATUS.STATE r) = 3 then s.wr (F.PS_RAIL_n_STATUS.STATE r) 6 else s
    s.setWindow r (min old.1 new.1, max old.2 new.2)

/-- The running transition ends with a window: the new one, or the old one when abandoned. -/
def State.transEnd (s : State) (abandoned : Bool) : State :=
  match s.pwr.trans with
  | none => s
  | some (r, old, new) =>
    let s := (s.modPwr fun p => { p with trans := none }).wr F.PS_TRANS.BUSY 0
    let s := if s.rd (F.PS_RAIL_n_STATUS.STATE r) = 6 then s.wr (F.PS_RAIL_n_STATUS.STATE r) 3 else s
    if abandoned then ((s.setWindow r old).wr F.PS_TRANS.ABANDONED 1).modPwr fun p => { p with transAbandoned := true }
    else s.setWindow r new

/-- LACE_ABORT of PS_CTRL (R387): in E15 the device drives LACE low for 2 ms. -/
def State.laceAbortWrite (s : State) : State :=
  if s.rd F.PS_STATUS.STATE = 2 then
    ((s.wr F.PS_STATUS.HOLDING 1).wr F.PS_STATUS.LACE 0).modPwr fun p => { p with abortEnd := some (s.now + 2400000) }
  else s

/-! Shedding (R391) -/

/-- Rail groups in the order of Table PS-4. -/
def shedGroups : List (List Nat) := [[8, 9], [10], [11], [7], [6], [3, 4], [5], [0]]

/-- Filtered voltage and current of the rails: the last valid values (R400). -/
def State.railV (s : State) : List Nat := (List.range 12).map fun r => ((s.pwr.adc s.driver).chan r).last
/-- The driving half is held from now on (R389). -/
def State.holdDrive (s : State) : State := s.modPwr fun p => { p with drive := some (p.drive.getD s.leader) }

/-- Filtered rail currents. -/
def State.railI (s : State) : List Nat := (List.range 12).map fun r => ((s.pwr.adc s.driver).chan (r + 12)).last

/-- Rails good, one bit each. -/
def State.railGoodBits (s : State) : Nat := (List.range 12).foldl (fun n r => n + b2n (s.railGood r) * 2 ^ r) 0

/-- VIN as the supervisor's filter last gave it, mV (R400): what shedding that PFW_N did not start records as VIN_PFW (DESIGN CHOICE, log 230). -/
def State.vinNow (s : State) : Nat := ((s.pwr.adc s.driver).chan 0).last

/-- Shedding begins (Table PS-4, steps 1 to 3): lamp work stops, every subchannel drains into self-refresh, the heads turn off; the
flash engine is taken over and queued audit entries are lost (R394, R459). -/
def State.startShed (s : State) (reason : Nat) (cut : Bool) : State :=
  let s := s.holdDrive
  let l := s.driver
  let st : ShedStart :=
    { reason := reason, eyelet := s.rd F.PS_STATUS.EYELET, stitch := s.stitchNow l, time := s.time, frame := s.frameCount l
      epoch := s.epoch, vinPfw := if s.pwr.pfwDelay then s.pwr.pfwVin else s.vinNow, railGood := s.railGoodBits, railV := s.railV, railI := s.railI
      delayCut := cut, split := s.split }
  let s := s.modPwr fun p => { p with shed := some st }
  let s := (((s.stopLamps .a).stopLamps .b).fsIdle .a).fsIdle .b
  let s := (s.stopServices .a).stopServices .b
  let s := (s.selfRefreshHalf .a).selfRefreshHalf .b
  let s := (((s.headsOff .a).headsOff .b).freezeCopies .a).freezeCopies .b
  let s := s.flashCutOff.modMg fun m => { m with audit := [], auditWait := [], auditSeq := m.auditSeq + m.auditWait.length }
  let s := (s.transEnd true).wr F.PS_STATUS.STATE 4
  let s := s.modPwr fun p =>
    { p with groups := shedGroups, pfwDelay := false, recording := false, entryDue := false, acting := false }
  s.raiseL 0x12D 0x18 (unitForm 0 st.vinPfw) reason

/-- An abort, an 8 s press or a VAUX failure: while PFW_DLY runs it cuts the delay and the reason stays power fail; while
shedding runs nothing more happens (Table PS-6). -/
def State.shedNow (s : State) (reason : Nat) : State :=
  if 4 ≤ s.rd F.PS_STATUS.STATE then s
  else if s.pwr.pfwDelay then s.startShed 1 true
  else s.startShed reason false

/-- VIN has left its window: RAIL_00 is good no longer. It latches nothing: when VIN returns the rail is good again (DEDUCED, log 227: R390 and R398 let
the device go on). -/
def State.vinLost (s : State) : State :=
  let s := s.wr (F.PS_RAIL_n_STATUS.IN_WIN 0) 0
  if s.railGood 0 then s.wr (F.PS_RAIL_n_STATUS.STATE 0) 0 else s

/-- PFW_N is asserted (R390, R401): event only when the device is off, nothing more while it sheds. -/
def State.assertPfw (s : State) (vin : Nat) : State :=
  let st := s.rd F.PS_STATUS.STATE
  if 5 ≤ st then s.raiseL 0x12D 0x18 (unitForm 0 vin) 0
  else if st = 4 || s.on F.PS_STATUS.PFW then s
  else
    let s := ((s.wr F.PS_STATUS.PFW 1).bump F.PS_PFW_STATUS.ASSERTS).raiseL 0x12D 0x18 (unitForm 0 vin) 0
    let s := (s.modPwr fun p => { p with pfwVin := vin, pfwDelay := true, transAbandoned := false, charge := some 0 }).transEnd true
    let s := s.holdDrive.vinLost
    let s := (List.range 12).foldl (fun s r =>
      if s.rd (F.PS_RAIL_n_STATUS.STATE r) = 2 then s.wr (F.PS_RAIL_n_STATUS.STATE r) 0 else s) s
    s.pfwStops

/-! The record (R392 to R394) -/

/-- The newest record of the ring: a slot with MAGIC and CRC right (R393, R470). -/
def State.recordSeq (s : State) (slot : Nat) : Option Nat :=
  let b := s.flashBytes (0x1030000 + 256 * slot) 256
  if !s.tornAt (0x1030000 + 256 * slot) 256 && field b 0 4 == 0x4B504652 && crc32 (b.take 252) == field b 252 4 then some (field b 8 4) else none

/-- SEQ of the next record: one more than the newest. -/
def State.nextRecord (s : State) : Nat :=
  ((List.range 4096).filterMap fun i => s.recordSeq i).foldl (fun m q => max m (q + 1)) 0

/-- The charge estimate of VIN, mV (R392): Q in units of 10 mA for 1 µs, C_HOLD in µF. -/
def vEst (vpfw charge c : Nat) : Int := if c = 0 then (Config.vEstWithoutHold charge).toNat else (vpfw : Int) - (charge * 10 / c : Nat)

/-- The 256 bytes of the record (Table PS-5). -/
def State.recordBytes (s : State) (st : ShedStart) (flags seq vin est tShed tRec : Nat) : List Byte :=
  let l := s.fc s.driver
  let logs := (l.log.drop (l.log.length - 8)).map fun e => leBytes 8 e.msg.pack
  let temp (h : Half) := leBytes 2 (match hottest (s.validTemps h) with | some t => ofSigned 16 t | none => (Config.noSensorHottest h.idx s.free).toNat)
  let b := leBytes 4 0x4B504652 ++ leBytes 2 0x0100 ++ leBytes 2 flags ++ leBytes 4 seq ++ leBytes 1 st.reason ++ leBytes 1 st.eyelet
    ++ leBytes 2 st.stitch ++ leBytes 8 st.time ++ leBytes 8 st.frame ++ leBytes 2 st.epoch ++ leBytes 2 st.vinPfw ++ leBytes 2 vin
    ++ leBytes 2 est ++ leBytes 2 tShed ++ leBytes 2 tRec ++ leBytes 2 st.railGood ++ leBytes 2 0
    ++ (st.railV.map (leBytes 2)).flatten ++ (st.railI.map (leBytes 2)).flatten ++ leBytes 40 l.sticky.toNat
    ++ (logs.flatten ++ List.replicate (64 - 8 * logs.length) 0) ++ temp .a ++ temp .b ++ List.replicate 48 0
  b ++ leBytes 4 (crc32 b)

end Sys2Proof.Machine
end

