-- ==== Sys2Proof/Machine/Power.lean ====
section
/-! DEFINITION. The commands of the power supervisor after its eyelets: rails, transitions, power fail, shedding, the record, LACE
and the service button (13_power_supervision.md). -/
namespace Sys2Proof.Machine

/-! Rails (R379 to R382) -/

/-- What the loss of a rail brings (Table PS-1, last column). -/
def State.railLossAction (s : State) (r vin : Nat) : State :=
  match r with
  | 0 => s.assertPfw vin
  | 1 => s.shedNow 4
  | 2 => s.shedNow 4
  | 3 => s.halfLost .a
  | 4 => s.halfLost .b
  | 8 => s.vddqLost .a
  | 9 => s.vddqLost .b
  | 6 => ((s.headsOff .a).headsOff .b).enterFatal s.leader
  | 7 => ((s.headsOff .a).headsOff .b).enterFatal s.leader
  | _ => s.enterFatal s.leader

/-- SOFT_START_FAIL (R381): one retry, then the fault latches; from PFW_N on it is recorded only, with no retry (R384, Table PS-6). -/
def softStartFail (r : Fin 12) (overCurrent : Bool) (mv : Nat) (s : State) : State :=
  if s.rd (F.PS_RAIL_n_STATUS.STATE r.val) ≠ 1 then s
  else
    let s := (s.setRailen r.val false).wr (F.PS_RAIL_n_STATUS.CAUSE r.val) (if overCurrent then 1 else 2)
    if s.faultsRecordedOnly then
      if s.rd (F.PS_RAIL_n_STATUS.RETRIES r.val) = 0 then s.wr (F.PS_RAIL_n_STATUS.STATE r.val) 0
      else (s.wr (F.PS_RAIL_n_STATUS.STATE r.val) 4).railMessage r.val mv
    else if s.rd (F.PS_RAIL_n_STATUS.RETRIES r.val) = 0 then s.wr (F.PS_RAIL_n_STATUS.STATE r.val) 2
    else
      let s := (s.wr (F.PS_RAIL_n_STATUS.STATE r.val) 4).railMessage r.val mv
      (s.railLossAction r.val mv).checkEyelet

/-- SOFT_START_RETRY (R381): 100 ms after a failure, once. -/
def softStartRetry (r : Fin 12) (s : State) : State :=
  if s.rd (F.PS_RAIL_n_STATUS.STATE r.val) = 2 && !s.faultsRecordedOnly then
    (s.wr (F.PS_RAIL_n_STATUS.RETRIES r.val) 1).enableRail r.val
  else s

/-- CAUSE of PS_RAIL_n_STATUS for a good rail that fails. -/
def causeCode : RailCause → Nat
  | .underUv => 3
  | .overOv => 4
  | .pgLow => 5
  | .overCurrent => 6

/-- RAIL_FAIL (R382, R384); ILIM is not applied to rails 00 to 02 (R379), and a failure of VAUX or VAUXC acts in PFW_DLY too (Table PS-6). -/
def railFail (r : Fin 12) (cause : RailCause) (mv : Nat) (s : State) : State :=
  if !s.railGood r.val || (r.val < 3 && cause == .overCurrent) then s
  else
    let only := s.faultsRecordedOnly
    let s := (if r.val = 0 && cause == .underUv then s else s.wr (F.PS_RAIL_n_STATUS.STATE r.val) 4).wr (F.PS_RAIL_n_STATUS.CAUSE r.val)
      (causeCode cause)
    let s := if cause == .pgLow then s.wr (F.PS_RAIL_n_STATUS.PG r.val) 0 else s
    let s := if cause == .underUv || cause == .overOv then s.wr (F.PS_RAIL_n_STATUS.IN_WIN r.val) 0 else s
    let s := if r.val = 0 && cause == .underUv then s.vinLost else s
    let s := s.railMessage r.val mv
    if only && r.val ≠ 1 && r.val ≠ 2 then s
    else
      let s := if r.val < 3 then s else s.setRailen r.val false
      ((s.railLossAction r.val mv).dropAllDependants).checkEyelet

/-- TRANSITION_START (R383): a maker write of START to PS_TRANS. -/
def transitionStart (p : Path) (v : Word) (s : State) : State :=
  s.gatedWrite p 0x20007 v.toNat false fun s => if v.getLsbD 31 then s.transStart else s

/-- TRANSITION_BLANK_END (R383). -/
def transitionBlankEnd (s : State) : State := s.transEnd false

/-! Power fail and shedding -/

/-- PFW_ASSERT (R390, R401). -/
def pfwAssert (vin : Nat) (s : State) : State := s.assertPfw vin

/-- PFW_RIDE (R390): VIN stands above V_PFW again. -/
def pfwRide (s : State) : State :=
  if s.pwr.pfwDelay then
    let s := ((s.wr F.PS_STATUS.PFW 0).bump F.PS_PFW_STATUS.RIDES).modPwr fun p =>
      { p with pfwDelay := false, transAbandoned := false, charge := none, drive := none }
    (s.wr (F.PS_RAIL_n_STATUS.STATE 0) (if s.rd (F.PS_RAIL_n_STATUS.STATE 0) = 0 then 3 else s.rd (F.PS_RAIL_n_STATUS.STATE 0))).wr
      (F.PS_RAIL_n_STATUS.IN_WIN 0) 1
  else s

/-- PFW_DELAY_END (R390, R391). -/
def pfwDelayEnd (s : State) : State := if s.pwr.pfwDelay then s.startShed 1 false else s

/-- Shedding drops a rail; a latched fault stays (R382). -/
def State.shedRail (s : State) (r : Nat) : State :=
  (s.setRailen r false).wr (F.PS_RAIL_n_STATUS.STATE r) (if s.rd (F.PS_RAIL_n_STATUS.STATE r) = 4 then 4 else 5)

/-- RAIL_GROUP_DROP (Table PS-4, step 4). -/
def railGroupDrop (s : State) : State :=
  match s.pwr.groups with
  | [] => s
  | g :: t =>
    if s.rd F.PS_STATUS.STATE = 4 then
      g.foldl State.shedRail (s.modPwr fun p => { p with groups := t })
    else s

/-- FLAGS of the record (Table PS-5). -/
def State.recordFlags (s : State) (st : ShedStart) (byVrec : Bool) (vin est : Nat) : Nat :=
  let byPfw := s.on F.PS_STATUS.PFW
  let dis := byPfw && 10 * s.rd F.PS_PFW_CFG.EST_TOL < ((est : Int) - vin).natAbs
  b2n dis + 2 * b2n st.split + 4 * b2n s.pwr.transAbandoned + 8 * b2n byVrec + 16 * b2n st.delayCut + 32 * b2n (s.fc s.driver).fatal

/-- What the charge estimator makes of VIN, mV: nothing while it does not run (R390, R392). -/
def State.chargeEstimate (s : State) : Nat :=
  match s.pwr.charge with
  | some q => (vEst (s.rd (F.PS_RAIL_n_WIN.UV 0)) q (s.rd F.PS_HOLDUP.C_HOLD)).toNat
  | none => 0

/-- POWER_FAIL_RECORD (R392 to R394): with `byVrec` the V_REC comparator starts it, where VIN stands below V_REC in force (R396). The record starts
when the last group has dropped or VIN is below V_REC; a slot that is not blank takes none. `samples` are those of the driving half's ADC since its last
round. -/
def powerFailRecord (byVrec : Bool) (vin : Nat) (samples : List (BitVec 12)) (tShed tRec : Nat) (s : State) : State :=
  match s.pwr.shed with
  | none => s
  | some st =>
    let byVrec := byVrec && vin < s.pwr.vrec
    if s.rd F.PS_STATUS.STATE ≠ 4 || s.pwr.recording || !(byVrec || s.pwr.groups.isEmpty) then s
    else
      let s := s.adcRun s.driver samples
      let est := s.chargeEstimate
      let flags := s.recordFlags st byVrec vin est
      let seq := s.nextRecord
      let slot := seq % 4096
      let blank := (s.flashBytes (0x1030000 + 256 * slot) 256).all (· == 0xFF)
      let s := (s.wr F.PS_PFW_STATUS.LAST_FLAGS flags).flag F.PS_PFW_STATUS.RECORD_FAIL (!blank)
      let s := if blank then s else s.raiseL 0x12D 0x18 (unitForm 0 vin) 8
      let bytes := if blank then s.recordBytes st flags seq vin est tShed tRec else []
      s.modPwr fun p => { p with recording := true, recFlags := flags, recSlot := slot, recBytes := bytes }

/-- The off state that a reason of shedding ends in (PS_STATUS.STATE 5, 6, 7). -/
def offState (reason : Nat) : Nat := if reason = 2 then 6 else if reason = 3 then 7 else 5

/-- Firmware keeps the next slot of the record ring erased (R394; DESIGN CHOICE, log 228: it keeps the other slots of the sector). -/
def State.blankNext (s : State) : State :=
  let a := 0x1030000 + 256 * (s.nextRecord % 4096)
  if (s.flashBytes a 256).all (· == 0xFF) then s else s.flashErase a 256

/-- RECORD_WRITTEN (R394, R395; Table PS-4, step 6): the device stays off; a record that the flash does not complete in 3 ms counts
as failed and leaves bytes that the spec does not state. -/
def recordWritten (ok : Bool) (s : State) : State :=
  match s.pwr.shed with
  | none => s
  | some st =>
    if !s.pwr.recording then s
    else
      let a := 0x1030000 + 256 * s.pwr.recSlot
      let some? := !s.pwr.recBytes.isEmpty
      let s := if some? && ok then s.flashPut a s.pwr.recBytes else if some? then s.flashCut a 256 else s
      let s := if some? && !ok then (s.wr F.PS_PFW_STATUS.RECORD_FAIL 1).raiseL 0x12D 0x18 (unitForm 0 s.pwr.pfwVin) 8 else s
      let s := s.pwr.groups.flatten.foldl State.shedRail s
      let s := (s.wr F.PS_STATUS.STATE (offState st.reason)).wr F.PS_STATUS.EYELET 0
      let s := ((s.wr F.PS_STATUS.HOLDING 0).wr F.PS_STATUS.PFW 0).wr F.PS_STATUS.LACE 1
      (s.modPwr fun p => { p with recording := false, recBytes := [], shed := none, groups := [], drive := none, charge := none, abortEnd := none }).blankNext

/-- VAUX_FAIL (Table PS-1; R382, R391): VAUX or VAUXC is good no longer, and its fault latches; shedding follows, unless it runs or the device is off. -/
def vauxFail (vauxc : Bool) (mv : Nat) (s : State) : State :=
  let r := if vauxc then 2 else 1
  let s := ((s.wr (F.PS_RAIL_n_STATUS.STATE r) 4).wr (F.PS_RAIL_n_STATUS.IN_WIN r) 0).wr (F.PS_RAIL_n_STATUS.CAUSE r) (if (s.window r).2 < mv then 4 else 3)
  (s.railMessage r mv).shedNow 4

/-- VIN_RETURN_OFF (R395). -/
def vinReturnOff (vin : Nat) (s : State) : State :=
  if 5 ≤ s.rd F.PS_STATUS.STATE then s.raiseL 0x12D 0x18 (unitForm 0 vin) 0 else s

/-! LACE -/

/-- EYE_WARN (R386): one event per eyelet. -/
def eyeWarn (s : State) : State :=
  if s.rd F.PS_STATUS.STATE < 2 && !s.pwr.acting && !s.pwr.entryDue && !s.on F.PS_STATUS.LACE && !s.pwr.warned then
    ((s.bump F.PS_LACE_CNT.WARNS).modPwr fun p => { p with warned := true }).raiseL 0x12C 0x14
      (unitForm 0 (s.rd F.PS_STATUS.EYELET)) 1
  else s

/-- The next eyelet begins; E15 is running (Table PS-2). T_RUN is taken at E15. -/
def State.nextEyelet (s : State) : State :=
  let e := s.rd F.PS_STATUS.EYELET + 1
  let s := (s.wr F.PS_STATUS.EYELET e).modPwr fun p => { p with warned := false, entryDue := e < 15 }
  if e = 15 then (s.wr F.PS_STATUS.STATE 2).wr F.MG_START.T_RUN ((s.now - s.pwr.auxAt) / 1200000)
  else s.wr F.PS_STATUS.STATE 1

/-- LACE_RISE (R385): a pull of LACE_ABORT has ended (R387); a module that takes part and has completed its eyelet enters the next one. -/
def laceRise (s : State) : State :=
  let s := if s.pwr.abortEnd.isSome then (s.wr F.PS_STATUS.HOLDING 0).modPwr fun p => { p with abortEnd := none } else s
  let s' := s.wr F.PS_STATUS.LACE 1
  if s.rd F.PS_STATUS.STATE < 2 && !s.on F.PS_STATUS.SOLO && !s.pwr.ignoreLace && !s.pwr.acting && !s.pwr.entryDue
      && !s.on F.PS_STATUS.HOLDING && s.pwr.aux then s'.nextEyelet
  else s'

/-- LACE_ABORT (R387): modules not in E15 ignore it. -/
def laceAbort (s : State) : State :=
  if s.rd F.PS_STATUS.STATE = 2 then
    ((s.bump F.PS_LACE_CNT.ABORTS).raiseL 0x12C 0x14 (unitForm 0 15) 2).shedNow 3
  else s

/-- LACE_GLITCH (R387). -/
def laceGlitch (s : State) : State :=
  if s.rd F.PS_STATUS.STATE = 2 then (s.bump F.PS_LACE_CNT.GLITCH).raiseL 0x12C 0x14 (unitForm 0 15) 3 else s

/-- LACE_ABORT_WRITE (R387). -/
def laceAbortCmd (p : Path) (s : State) : State := s.gatedWrite p 0x20001 1 false State.laceAbortWrite

/-! The service button (R397, R398) -/

/-- A press that is counted and ignored. -/
def State.pressIgnored (s : State) : State := (s.bump F.PS_SVC.IGNORED).raiseL 0x12E 0x18 (unitForm 0 0) 9

/-- SHORT_PRESS (R397, R398, R429): a warm reset in E15, when stopped, and in the fatal state; otherwise ignored. -/
def shortPress (s : State) : State :=
  let st := s.rd F.PS_STATUS.STATE
  if st = 2 || st = 3 || (st < 4 && (s.fc s.leader).fatal) then (s.bump F.PS_SVC.SHORT).warmReset
  else if st < 5 then s.pressIgnored
  else s

/-- FORCED_OFF (R397): a press held at 8 s; during shedding it is ignored, in an off state it changes nothing. -/
def forcedOff (s : State) : State :=
  let st := s.rd F.PS_STATUS.STATE
  if 5 ≤ st then s
  else if st = 4 then s.pressIgnored
  else (((s.wr F.PS_SVC.FORCED 1).wr F.PS_SVC.PRESSED 1).raiseL 0x12E 0x18 (unitForm 0 0) 2).shedNow 2

end Sys2Proof.Machine
end

