-- ==== Sys2Proof/Machine/Time.lean ====
section
/-! DEFINITION. The commands of the time base: ToD sentences, PPS and FTICK edges and losses, calendar sets, capture and queue
(12_time_base.md). -/
namespace Sys2Proof.Machine

/-- PPS_EDGE (R362 to R366): an edge outside the window counts as a glitch. -/
def ppsEdge (s : State) : State := s.onBases fun s => if s.ppsAccepted then s.acceptPps else s.glitch

/-- PPS_GLITCH (R362). -/
def ppsGlitch (s : State) : State := s.onBases State.glitch

/-- The master ceases to be present: the device free-runs (R366). -/
def State.loseMaster (s : State) : State :=
  if s.on F.TB_STATUS.MASTER then
    (((s.wr F.TB_STATUS.MASTER 0).wr F.TB_STATUS.FREE_RUN 1).modTb fun t => { t with masterGone := true }).raiseL 0x11C 0x19 (unitForm 0 s.epoch) 3
  else s

/-- PPS_LOST (R362): no edge accepted for 1.5 s, and with PPS the master is gone (R366). -/
def ppsLost (s : State) : State := s.onBases fun s =>
  if s.on F.TB_STATUS.PPS_OK then
    (((s.wr F.TB_STATUS.PPS_OK 0).bump F.TB_PPS_CNT.PPS_LOSS).raiseL 0x119 0x19 (unitForm 0 s.epoch) 4).loseMaster
  else s

/-- A complete sentence fails a check of R360. -/
def todBad (b : List Byte) : Bool :=
  crc8 (b.take 23) != field b 23 1 || field b 2 1 != 1 || field b 3 1 != 24 || 10 ^ 9 ≤ field b 10 4
    || 2 ^ 64 ≤ field b 4 6 * 10 ^ 9 + field b 10 4

/-- The sentence that 24 good bytes carry (Table TB-1). -/
def todParse (b : List Byte) (now : Nat) : Sentence :=
  { x := field b 4 6 * 10 ^ 9 + field b 10 4, utc := toSigned 16 (field b 14 2), timeValid := (field b 16 2).testBit 0
    utcValid := (field b 16 2).testBit 1, seq := field b 18 2, ended := now }

/-- A good sentence becomes pending (R360, R361). -/
def State.takeSentence (s : State) (p : Sentence) : State :=
  let gap := s.tb.lastSeq.any fun q => p.seq != (q + 1) % 65536
  let s := if gap then s.bump F.TB_TOD_CNT.SEQ_GAP else s
  let s := if s.tb.pend.isSome then s.bump F.TB_TOD_CNT.STALE else s
  s.modTb fun t => { t with pend := some p, lastSeq := some p.seq }

/-- A complete sentence is checked: discarded and counted, or pending (R360, R361). -/
def State.checkSentence (s : State) (b : List Byte) : State :=
  if todBad b then (s.bump F.TB_TOD_CNT.BAD).raiseL 0x118 0x19 (unitForm 0 s.epoch) 6
  else s.takeSentence (todParse b s.now)

/-- The receiver takes one byte: it seeks SYNC, then takes 22 further bytes (R360). -/
def State.rxByte (s : State) (b : Byte) : State :=
  match s.tb.rx with
  | [] => if b == 0xA5 then s.modTb fun t => { t with rx := [b] } else s
  | [x] => s.modTb fun t => { t with rx := if b == 0x5A then [x, b] else if b == 0xA5 then [b] else [] }
  | l => if l.length < 23 then s.modTb fun t => { t with rx := l ++ [b] } else (s.modTb fun t => { t with rx := [] }).checkSentence (l ++ [b])

/-- TOD_SENTENCE (R358 to R361): bytes that the UART receives; with TOD_EN clear the receiver is off. -/
def todSentence (bytes : List Byte) (s : State) : State := s.onBases fun s => if s.on F.TB_CFG.TOD_EN then bytes.foldl State.rxByte s else s

/-- The receiver abandons the sentence under way and seeks SYNC again (R360); an abandoned sentence is not counted. -/
def State.abandonSentence (s : State) : State := s.modTb fun t => { t with rx := [] }

/-- TOD_BYTE_TIMEOUT (R360): more than 32 bit times between two bytes of a sentence. -/
def todByteTimeout (s : State) : State := s.onBases State.abandonSentence

/-- TOD_FRAMING_ERROR (R359, R360): a stop bit that reads 0. -/
def todFramingError (s : State) : State := s.onBases State.abandonSentence

/-- TOD_STALE (R361): no edge followed a pending sentence within 1,000 ms. -/
def todStale (s : State) : State := s.onBases fun s =>
  if s.tb.pend.isSome then
    ((s.modTb fun t => { t with pend := none }).bump F.TB_TOD_CNT.STALE).raiseL 0x118 0x19 (unitForm 0 s.epoch) 7
  else s

/-- MASTER_LOST (R366): the device free-runs. -/
def masterLost (s : State) : State := s.onBases State.loseMaster

/-- FTICK_EDGE (R370); `l` is Lnom of the Last in force, 0 without one. -/
def ftickEdgeAt (l : Nat) (s : State) : State := if s.ftickAccepted l then s.acceptFtick else s.glitch

/-- FTICK_LOST (R370): three expected edges in a row have not come. -/
def ftickLost (s : State) : State := s.onBases fun s =>
  if s.on F.TB_STATUS.FTICK_OK then
    let s := ((s.wr F.TB_STATUS.FTICK_OK 0).bump F.TB_PPS_CNT.FTICK_LOSS).raiseL 0x11D 0x19 (unitForm 0 s.epoch) 5
    if s.tb.tickSrc = 2 then s.wr F.TB_STATUS.FREE_RUN 1 else s
  else s

/-- SET (R377): the write of SET to TB_SET_CTRL. -/
def calSet (p : Path) (s : State) : State := s.gatedWrite p 0x50014 0x80000000 true fun s => s.calendarSet p

/-- STEP_NOW (Table TB-2): releases a held step at the next accepted edge. -/
def stepNow (p : Path) (s : State) : State :=
  s.gatedWrite p 0x50014 0x40000000 false fun s => s.wr F.TB_SET_CTRL.STEP_NOW 1

/-- TB_CAPTURE_WRITE (Table TB-4): queues a kind 0x06 entry. -/
def tbCaptureWrite (p : Path) (v : Word) (s : State) : State :=
  s.gatedWrite p 0x50018 v.toNat false fun s => s.tsqPush 6 (v.toNat % 65536)

/-- Removes the oldest queue entry and latches its time on the path: the word read, and the state after (R373). -/
def State.tsqTake (s : State) (p : Path) : Word × State :=
  match s.tb.tsq with
  | [] => (0, s)
  | e :: t =>
    let s := s.modTb fun b => { b with tsq := t, tsqRaised := false }
    let s := (s.wr (F.TB_TSQ_TIME_LO.TIME_LO.on p) e.time).wr (F.TB_TSQ_TIME_HI.TIME_HI.on p) (e.time / 2 ^ 32)
    (BitVec.ofNat 32 (e.id * 65536 + e.kind * 256 + e.epoch), s)

/-- TSQ_POP (R373): a read of TB_TSQ_POP on a path. -/
def tsqPop (p : Path) (s : State) : State :=
  let (w, s) := s.tsqTake p
  s.emit (.readData p [w])

end Sys2Proof.Machine
end

