-- ==== Sys2Proof/Machine/Schedule.lean ====
section
/-! DEFINITION. The commands and events of the frame schedule: ticks, windows, operator commands, Lasts and LUT banks
(02_frame_schedule.md; 03 R85 to R88, R491; 12 R370). -/
namespace Sys2Proof.Machine

/-- TICK_START (R40, Table FS-2): the tick timer of a half reaches stitch 0. -/
def tickStart (h : Half) (s : State) : State := s.tick h

/-- TICK_OUT_END (R372): TICK_OUT_W stitches after stitch 0 the leader drives TICK_OUT low. -/
def tickOutEnd (s : State) : State :=
  if s.tb.tickOut then
    let c := s.schedOf s.leader
    (s.jumpTo (c.tickAt + max 1 (s.rd F.TB_TICKIO.TICK_OUT_W) * c.len / 4096)).modTb fun t => { t with tickOut := false }
  else s

/-- CUT_OFF (R44): stitch C. -/
def cutOff (h : Half) (s : State) : State := if s.schedules h then s.closeSet h else s

/-- PRODUCTION_END (R72): stitch W_end. -/
def productionEnd (h : Half) (s : State) : State := if s.schedules h then s.endProduction h else s

/-- IDLE_CYCLE_END (R45), while no tick runs from E12 on: the idle cycle first reaches its last 64 µs, which are a maintenance window; when that
window is open already the cycle ends and the next begins (DESIGN CHOICE: one event carries both points of the cycle). -/
def idleCycleEnd (h : Half) (s : State) : State :=
  let c := s.schedOf h
  if !s.schedules h || c.running || s.rd F.PS_STATUS.EYELET < 12 || 2 < s.rd F.PS_STATUS.STATE || s.stopping h then s
  else if c.idleWindow then
    let s := s.jumpTo (c.tickAt + 307200)
    (s.modSched h fun c => { c with idleWindow := false, tickAt := s.now }).windowCloses h
  else
    let s := s.jumpTo (c.tickAt + 230400)
    (s.modSched h fun c => { c with idleWindow := true }).windowOpens h

/-- An operator command of a path: the write of its opcode to FS_CMD_OP (R57, R63). -/
def opCommand (p : Path) (op : Nat) (s : State) : State := s.gatedWrite p F.FS_CMD_OP.OPCODE.a op true fun s => s.submit p op

/-- FREEZE (R51). -/
def freeze (p : Path) (s : State) : State := opCommand p 1 s

/-- RELEASE (R51). -/
def release (p : Path) (s : State) : State := opCommand p 2 s

/-- SET_DELAY (R50). -/
def setDelay (p : Path) (s : State) : State := opCommand p 3 s

/-- SET_GAIN (Table FS-4). -/
def setGain (p : Path) (s : State) : State := opCommand p 4 s

/-- STREAM_ON (Table FS-4). -/
def streamOn (p : Path) (s : State) : State := opCommand p 5 s

/-- STREAM_OFF (Table FS-4). -/
def streamOff (p : Path) (s : State) : State := opCommand p 6 s

/-- SWITCH_LAST (R65). -/
def switchLast (p : Path) (s : State) : State := opCommand p 7 s

/-- OPCODE_INVALID (R59): a write of FS_CMD_OP with opcode 0 or 0x8 to 0xF; another opcode is the command it names. -/
def opcodeInvalid (p : Path) (op : BitVec 4) (s : State) : State := opCommand p op.toNat s

/-- A write of FS_LAST_CTRL: SEL as given, and its action bits. -/
def lastCtrlWrite (p : Path) (v : Nat) (s : State) : State := s.gatedWrite p F.FS_LAST_CTRL.SEL.a v true fun s => s.lastCtrl p v

/-- ADMIT (R66). -/
def admitLast (p : Path) (sel : Fin 4) (s : State) : State := lastCtrlWrite p (sel.val * 16 + 1) s

/-- ACTIVATE (R66, R487): SEL keeps its value. -/
def activate (p : Path) (s : State) : State := lastCtrlWrite p (s.rd F.FS_LAST_CTRL.SEL * 16 + 2) s

/-- CANCEL (R488): SEL keeps its value. -/
def cancel (p : Path) (s : State) : State := lastCtrlWrite p (s.rd F.FS_LAST_CTRL.SEL * 16 + 4) s

/-- COMMIT (R85): a write of LE_LUT_CTRL that sets COMMIT and keeps TABLE and ENTRY. -/
def commit (p : Path) (s : State) : State :=
  let w := s.word F.LE_LUT_CTRL.COMMIT.a
  let v := w.toNat % 2 ^ 30 + 2 ^ 31
  s.gatedWrite p F.LE_LUT_CTRL.COMMIT.a v true fun s => s.lutCtrl p w v

/-- LUT_COPY_DONE (R86). -/
def lutCopyDone (s : State) : State := if s.on F.LE_LUT_CTRL.COPYING then s.lutCopied else s

/-- LUT_DATA_ACCESS (R491): a read of LE_LUT_DATA on a path, or a write. -/
def lutDataAccess (p : Path) (w : Option Word) (s : State) : State :=
  match w with
  | none => let r := s.lutRead; r.2.emit (.readData p [BitVec.ofNat 32 r.1])
  | some v => s.gatedWrite p F.LE_LUT_DATA.DATA.a v.toNat true fun s => s.lutWrite p v.toNat

/-- Latches the high half of the frame count for a path, and gives the low half (R42). -/
def State.readFrameLo (s : State) (p : Path) (doorbell : Bool) : Nat × State :=
  let k := s.frameCount (s.pathHalf p)
  (k % 2 ^ 32, match doorbell, p with
    | true, .head h => s.modHead h.val fun x => { x with frameHi := k / 2 ^ 32 }
    | _, _ => s.wr (F.FS_FRAME_HI.FRAME_HI.on p) (k / 2 ^ 32))

/-- FRAME_LO_READ (R42): a read of FS_FRAME_LO, or of DB_FRAME_LO in a head's doorbell window. -/
def frameLoRead (p : Path) (doorbell : Bool) (s : State) : State :=
  let r := s.readFrameLo p doorbell
  r.2.emit (.readData p [BitVec.ofNat 32 r.1])

/-- FTICK_EDGE (R370). -/
def ftickEdge (s : State) : State := s.onBases fun s =>
  match s.sched.cfg with
  | some l => ftickEdgeAt (lnom s.tb.rate l.rateN l.rateD s.sched.frac).1 s
  | none => ftickEdgeAt 0 s

end Sys2Proof.Machine
end

