-- ==== Sys2Proof/Machine/Thermal.lean ====
section
/-! DEFINITION. The thermal commands: sensors, trip, model and power-limit steps (14_thermal.md). Sensor readings are in units of 0.5 °C. -/
namespace Sys2Proof.Machine

/-- A sorted copy of a list of integers. -/
def sortInts (l : List Int) : List Int :=
  l.foldl (fun a x => a.takeWhile (· ≤ x) ++ x :: a.dropWhile (· ≤ x)) []

/-- The median of a half's other readings (R402). -/
def medianOthers (r : List Int) (i : Nat) : Int :=
  let o := sortInts (r.eraseIdx i)
  o.getD (o.length / 2) 0

/-- A reading is valid (R402). -/
def readingValid (r : List Int) (i : Nat) : Bool :=
  let t := r.getD i 0
  decide (-100 ≤ t) && t ≤ 350 && (t - medianOthers r i).natAbs ≤ 50

/-- TRIP in force, 0.5 °C units (R410). -/
def State.tripLevel (s : State) : Int := 2 * min (max (s.rd F.TH_CFG.TRIP) 120) 150

/-- WARMING flag of a half. -/
def warmingFld : Half → Fld
  | .a => F.TH_STATUS.WARMING_A
  | .b => F.TH_STATUS.WARMING_B

/-- TEMP_USE of a half (R406), 0.5 °C units; without a valid sensor the last value stands. -/
def State.tempUse (s : State) (h : Half) : Int :=
  match hottest (s.validTemps h) with
  | none => (s.th h).use
  | some v =>
    if s.on (warmingFld h) then v + s.rd F.TH_MARGIN.M_WARM
    else
      let n := hottest (((s.th h).nodes.map fun t => t.toList).getD [])
      let v := v + s.rd F.TH_MARGIN.M_SENS
      match n with
      | none => v
      | some t => max (t.tdiv 128) v

/-- TEMP_USE is formed anew. -/
def State.refreshUse (s : State) (h : Half) : State :=
  let s := s.modTh h fun t => { t with use := s.tempUse h }
  s.wrS F.TH_STATUS.TEMP_USE (max (s.th .a).use (s.th .b).use)

/-- One sensor's reading is stored, and becoming invalid raises an event (R402). -/
def State.storeReading (s : State) (h : Half) (r : List Int) (i : Nat) : State :=
  let ok := readingValid r i
  let was := s.on (F.TH_SENS_h_s.VALID h.idx i) || !(s.th h).seen
  let s' := (s.wrS (F.TH_SENS_h_s.TEMP h.idx i) (r.getD i 0)).flag (F.TH_SENS_h_s.VALID h.idx i) ok
  if was && !ok then s'.raise h (0x130 + 4 * h.idx) 0x15 (unitForm (8 * h.idx + i) (ofSigned 30 (r.getD i 0))) 0 else s'

/-- Fewer than 4 valid sensors: sensor loss for the rest of the run (R403). -/
def State.checkLoss (s : State) (h : Half) : State :=
  if (s.validTemps h).length < 4 && !(s.th h).sensorLoss then
    let s := s.modTh h fun t => { t with sensorLoss := true }
    ((s.wr (warmingFld h) 1).wr F.TH_STATUS.SENSOR_LOSS 1).raise h (0x131 + 4 * h.idx) 0x1B (unitForm h.idx 0) 3
  else s

/-- The trip comparators (R410): two consecutive samples at or above TRIP, each sensor with its message. -/
def State.checkTrip (s : State) (h : Half) (r : List Int) : State :=
  let hot := (List.range 8).map fun i => decide (s.tripLevel ≤ r.getD i (-100))
  let fired := (List.range 8).filter fun i => hot.getD i false && (s.th h).tripped.getLsbD i
  let s := s.modTh h fun t => { t with tripped := BitVec.ofNat 8 (hot.foldr (fun b n => b2n b + 2 * n) 0) }
  let s := fired.foldl (fun s i => s.raise h (0x132 + 4 * h.idx) 0x14 (unitForm (8 * h.idx + i) (ofSigned 30 (r.getD i 0))) 0) s
  if fired.isEmpty then s else s.enterFatal h

/-- SENSOR_READ (R402, R403, R410): the 8 readings of a half. -/
def sensorRead (h : Half) (r : List Int) (s : State) : State :=
  let s := (List.range 8).foldl (fun s i => s.storeReading h r i) s
  let s := s.modTh h fun t => { t with seen := true }
  ((s.checkLoss h).refreshUse h).checkTrip h r

/-! The model -/

/-- Power of a rail in mW from the last valid filter outputs of a half's ADC (R400). -/
def State.railPower (s : State) (h : Half) (r : Nat) : Nat :=
  ((s.pwr.adc h).chan r).last * ((s.pwr.adc h).chan (r + 12)).last / 100

/-- Lanes × rate of the trained heads of a half. -/
def State.laneWeight (s : State) (h : Half) : Nat :=
  ((List.range 4).map fun n =>
    if half4 n == h && s.on (F.HP_n_LINK.UP n) then 2 ^ (s.rd (F.HP_n_LINK.RATE n) + s.rd (F.HP_n_LINK.WIDTH n)) else 0).foldl (· + ·) 0

/-- The four power inputs of a half, mW (Table TH-1). -/
def State.nodePowers (s : State) (h : Half) (busy : Nat) : List Nat :=
  let serdes := s.railPower h 6 + s.railPower h 7
  let w := s.laneWeight h
  let ws := s.laneWeight .a + s.laneWeight .b
  let core := s.railPower h (match h with | .a => 3 | .b => 4)
  let n2 := 6 * busy * core / 10000
  [if ws = 0 then serdes / 2 else serdes * w / ws, s.railPower h (match h with | .a => 8 | .b => 9), n2,
    core - n2 + s.railPower h 5 / 2]

/-- Capacities and conductances in force (Table TH-1, or the maker's table of the booted bank). -/
def thermalDefaults : List (Nat × Nat) :=
  [(20000, 2000), (20000, 3000), (20000, 2500), (20000, 4000), (500000, 12500), (20000000, 12500)]

/-- The table of node capacities and conductances. -/
def State.thermalTable (s : State) : List (Nat × Nat) :=
  (Config.thermalTable (s.flashBytes (s.bankBase + 0x14A000) 4096)).getD thermalDefaults

/-- One update of the six nodes (R404). -/
def thermalStep (p : List Nat) (cg : List (Nat × Nat)) (tc : Int) (t : List Int) : List Int :=
  let P (i : Nat) : Int := (p.getD i 0 : Nat)
  let C (i : Nat) : Int := (cg.getD i (1, 0)).1
  let G (i : Nat) : Int := (cg.getD i (1, 0)).2
  let T (i : Nat) : Int := t.getD i 0
  let up (i : Nat) : Int := G i * (T i - T 4)
  let f (i : Nat) : Int :=
    if i < 4 then P i - (up i).tdiv 256
    else if i = 4 then (up 0 + up 1 + up 2 + up 3).tdiv 256 - (G 4 * (T 4 - T 5)).tdiv 256
    else (G 4 * (T 4 - T 5)).tdiv 256 - (G 5 * (T 5 - tc)).tdiv 256
  (List.range 6).map fun i => T i + (f i * 256).tdiv (C i)

/-- Average power of a half over its last 4 updates, mW. -/
def Thermal.avg (t : Thermal) : Nat := t.powers.foldl (· + ·) 0 / max 1 t.powers.length

/-- MODEL_UPDATE (R400, R404, R405): the samples since the last update, then the nodes. -/
def modelUpdate (h : Half) (busy : Nat) (samples : List (BitVec 12)) (s : State) : State :=
  let s := s.adcRun h samples
  let p := s.nodePowers h (min busy 1000)
  let ph : Nat := p.foldl (· + ·) 0
  let v := s.validTemps h
  let mean : Int :=
    if v.isEmpty then (Config.noSensorMean s.free).toInt else (128 * v.foldl (· + ·) 0).tdiv v.length
  let s := if v.isEmpty then { s with free := s.free + 1 } else s
  let start : List Int := List.replicate 6 ((hottest v).elim mean (128 * ·) + 5 * 256)
  let t := ((s.th h).nodes.map fun t => t.toList).getD start
  let t := thermalStep p s.thermalTable (mean - ((ph : Int) * 41).tdiv 1000) t
  let s := s.modTh h fun x => { x with nodes := some (Vector.ofFn fun i => t.getD i.val 0), powers := (ph :: x.powers).take 4 }
  let s := (List.range 6).foldl (fun s i => s.wrS (F.TH_NODE_h_i.TEMP h.idx i) ((t.getD i 0).tdiv 128)) s
  let s := s.wr (match h with | .a => F.TH_POWER.P_A | .b => F.TH_POWER.P_B) (min (s.th h).avg 65535)
  s.refreshUse h

/-- WARMING_END (R406): 2 s after the first update, unless in sensor loss. -/
def warmingEnd (h : Half) (s : State) : State :=
  let s := s.modTh h fun t => { t with warmed := true }
  if (s.th h).sensorLoss then s else (s.wr (warmingFld h) 0).refreshUse h

/-! Steps -/

/-- PMAX in W, T_HIGH and HYST in 0.5 °C units, clamped. -/
def State.pmax (s : State) : Nat := min (max (s.rd F.TH_CFG.PMAX) 40) 84
/-- T_HIGH in 0.5 °C units, clamped to 100 to 145 °C. -/
def State.tHigh (s : State) : Int := 2 * min (max (s.rd F.TH_CFG.T_HIGH) 100) 145
/-- HYST in 0.5 °C units. -/
def State.hyst (s : State) : Int := 2 * max (s.rd F.TH_CFG.HYST) 2

/-- P_avg stands above m/100 of PL_n (R407): whole device, or in split mode a half against PL_n / 2. -/
def State.powerAbove (s : State) (h : Half) (n m : Nat) : Bool :=
  let p := if s.split then 2 * (s.th h).avg else (s.th .a).avg + (s.th .b).avg
  s.pmax * 1000 * 92 ^ n * m < p * 100 ^ n * 100

/-- The temperature that the evaluation of a half uses. -/
def State.evalTemp (s : State) (h : Half) : Int := if s.split then (s.th h).use else max (s.th .a).use (s.th .b).use

/-- The lowest step allowed: MIN_STEP, and P2 while either half is in sensor loss (R403, R408). -/
def State.minStep (s : State) : Nat :=
  max (s.rd F.TH_FORCE.MIN_STEP) (if (s.th .a).sensorLoss || (s.th .b).sensorLoss then 2 else 0)

/-- The step and its timers are set in the evaluating half, and in both while the Welt joins them. -/
def State.setStep (s : State) (h : Half) (n : Nat) (since : Option Nat) (held : Nat) : State :=
  let f : Thermal → Thermal := fun t => { t with step := n, sinceRise := since, fallHeld := held }
  let s := if s.split then s.modTh h f else (s.modTh .a f).modTh .b f
  if h == s.leader then s.wr F.TH_STATUS.STEP n else s

/-- STEP_EVALUATION (R408, R409): once per millisecond on the leader, or on each half in split mode; frozen from PFW_N and in
the fatal state. `fallHeld` counts the evaluations of an unbroken hold, the one that began it or the change of step included, so that a step falls 100 ms
after it. -/
def stepEvaluation (h : Half) (s : State) : State :=
  if (h != s.leader && !s.split) || s.on F.PS_STATUS.PFW || (s.fc h).fatal then s
  else
    let t := s.th h
    let since := t.sinceRise.map (· + 1)
    let want := s.tHigh ≤ s.evalTemp h || s.powerAbove h t.step 100
    let cool := s.evalTemp h < s.tHigh - s.hyst && !s.powerAbove h t.step 92
    let held := if cool then t.fallHeld + 1 else 0
    let s := if 4 ≤ t.step then s.bump F.TH_CNT.MS_P4 else s
    let new :=
      if t.step < s.minStep then s.minStep
      else if want && t.step < 7 && since.all (5 ≤ ·) then t.step + 1
      else if cool && 100 < held && s.minStep < t.step then t.step - 1
      else t.step
    let s := s.setStep h new (if t.step < new then some 0 else since) (if new = t.step then held else if new < t.step then 1 else 0)
    let s := if t.step < new then s.bump F.TH_CNT.STEP_UPS else s
    let s := if t.step < 4 && 4 ≤ new then s.raise h (0x133 + 4 * h.idx) 0x14 (unitForm h.idx new) 0 else s
    s.stepChanged h t.step new

end Sys2Proof.Machine
end

