-- ==== Sys2Proof/Machine/Welt.lean ====
section
/-! DEFINITION. The commands of the Welt and of leadership: loss and retraining, the heel line, takeover, fences and the rejoin
(10_halves_leadership.md R308 to R328). -/
namespace Sys2Proof.Machine

/-! The link (R308, R310, R311, R326) -/

/-- The leader cannot be reached although its VCORE is good: the follower reports it once both lines are silent (R319). -/
def State.leaderUnreachable (s : State) : State :=
  let l := s.leader
  let silent := s.on (match l with | .a => F.WL_HEEL_A.SILENT | .b => F.WL_HEEL_B.SILENT)
  if silent && !s.wl.up && s.coreUp l && s.coreUp l.other then
    s.enterSplit.raise l.other 0x103 0x13 (unitForm l.idx (s.rd F.WL_STATUS.TOKEN)) 3
  else s

/-- WELT_LOST (R311): both halves declare the loss and enter split mode. -/
def weltLost (cause : Fin 3) (s : State) : State :=
  if s.wl.up then (s.weltDown (cause.val + 1) [.a, .b]).leaderUnreachable else s

/-- Working lanes in the direction from a half. -/
def lanesFrom (h : Half) : Fld := match h with | .a => F.WL_STATUS.LANES_AB | .b => F.WL_STATUS.LANES_BA

/-- FLIT_REPLAY (R308, R310): a replay, in which training may have mapped a failing lane of one direction onto a spare. -/
def flitReplay (repaired : Option Half) (s : State) : State :=
  if !s.wl.up then s
  else
    let s := s.bump F.WL_LINK_CNT.REPLAYS
    match repaired with
    | some h =>
      if s.rd (lanesFrom h) ≤ 72 then s.raiseL 0x101 0x14 (unitForm 0x3FF (s.rd F.WL_LINK_CNT.LANE_REPAIRS)) 2
      else
        let s := (s.wr (lanesFrom h) (s.rd (lanesFrom h) - 1)).bump F.WL_LINK_CNT.LANE_REPAIRS
        s.raiseL 0x101 0x14 (unitForm 0x3FF (s.rd F.WL_LINK_CNT.LANE_REPAIRS)) 1
    | none => s.raiseL 0x101 0x14 (unitForm 0x3FF (s.rd F.WL_LINK_CNT.LANE_REPAIRS)) 2

/-- Training of the lanes: failing ones are mapped onto spares, which LANE_REPAIRS counts (R308). -/
def State.trainLanes (s : State) (deadAB deadBA : Nat) : State :=
  let was := s.rd F.WL_LINK_CNT.LANE_REPAIRS
  let s := (s.wr F.WL_STATUS.LANES_AB (76 - deadAB)).wr F.WL_STATUS.LANES_BA (76 - deadBA)
  let s := s.wr F.WL_LINK_CNT.LANE_REPAIRS (deadAB + deadBA)
  if was < deadAB + deadBA then s.raiseL 0x101 0x14 (unitForm 0x3FF (deadAB + deadBA)) 1 else s

/-- The Welt comes up: at start the halves are joined, after a loss they stay in split mode until a rejoin (R326). Messages that the follower collected
before the Welt first came up stay in its own store: R20 and R417 leave open whether they are forwarded then (DESIGN CHOICE, log 235). -/
def State.weltUp (s : State) : State :=
  let s := s.modWl fun w => { w with up := true, upSince := s.now }
  if s.split then s else s.wr F.WL_STATUS.STATE 1

/-- WELT_RETRAIN (R308, R326): both halves on, the Welt down; the outcome is given, with the lanes found failing in each direction. -/
def weltRetrain (ok : Bool) (deadAB deadBA : Fin 5) (s : State) : State :=
  if ok && !s.wl.up && s.coreUp .a && s.coreUp .b && s.on (F.CK_h_STATUS.CORE_LOCK 0) && s.on (F.CK_h_STATUS.CORE_LOCK 1) then
    (s.trainLanes deadAB.val deadBA.val).weltUp
  else s

/-! Rejoining (R326, Tables WL-4 and WL-5) -/

/-- The rejoin may take place: in the maintenance window, the Welt up for 100 ms with AUTO_REJOIN or REJOIN written, and one of the 4 places of
the window free. -/
def State.rejoinAllowed (s : State) : Bool :=
  s.split && s.wl.up && s.maintenance s.leader && (s.mh .a).offline.length + (s.mh .b).offline.length < 4 &&
    (s.wl.rejoinWanted || (s.on F.WL_CTRL.AUTO_REJOIN && s.wl.upSince + cyclesOf 100000000 ≤ s.now))

/-- Frame counts become equal: the lower half jumps (R43, Table WL-4 step 2). -/
def State.rejoinFrames (s : State) (far : Sched) : State :=
  let c := s.sched
  let g := max c.frame far.frame
  if c.frame = far.frame then s
  else
    let d := g - min c.frame far.frame
    let low := if c.frame < far.frame then s.leader else s.leader.other
    let s := s.raiseL 0x104 0x1A (unitForm low.idx g) (min d 127)
    if c.frame < far.frame then { s with sched := { c with jump := c.jump + d } }
    else s.raise low 0x013 0x1A (unitForm 0 (g + 1)) (min d 127)

/-- Writes one held line ahead of everything that waits for its subchannel: in a visit of its own, or at the head of the waiting writes when its rank
is asleep (R322). An older write of the line that is still queued is superseded. -/
def State.writeHeld (s : State) (w : Nat × LineData × Bool) : State :=
  let n := w.1 / 2 ^ 32
  let line := w.1 % 2 ^ 32
  let l : WrLine := { idx := line % 4, data := w.2.1, poison := w.2.2, tag := 0 }
  if (s.sub n).retired then s
  else
    let s := s.modWrites n fun u =>
      { u with writeQ := (u.writeQ.map fun e => if e.g == line / 4 then { e with lines := e.lines.filter (·.idx != line % 4) } else e).filter
                 fun e => !e.lines.isEmpty }
    if s.issues n && (s.awake n).contains (s.rankOf (line * 64)) then
      s.writeVisit n { g := line / 4, lines := [l], seq := 0 }
    else s.modSub n fun u => { u with wrWait := ⟨line / 4, l, false⟩ :: u.wrWait }

/-- Both hold buffers are written (R322). -/
def State.writeHolds (s : State) : State :=
  let s := (s.wl.a.hold ++ s.wl.b.hold).foldl State.writeHeld s
  ((s.modWh .a fun w => { w with hold := [] }).modWh .b fun w => { w with hold := [] }).wr F.WL_SPLIT.HOLD 0

/-- The schedule after a rejoin (Table WL-5): per source from its publishing head's half, per stream its enable from its home engine's half. -/
def mergeScheds (lead : Half) (c far : Sched) : Sched :=
  let srcs := Vector.ofFn fun i : Fin 16 =>
    match c.src i.val with
    | some k => if half4 k.head = lead then c.rt i.val else far.rt i.val
    | none => c.rt i.val
  let enabled := match c.cfg with
    | some l => l.streams.foldl (fun b st =>
        if engHalf st.engine = lead then b
        else if far.enabled.getLsbD st.stream then b ||| (1#512 <<< st.stream) else b &&& ~~~(1#512 <<< st.stream)) c.enabled
    | none => c.enabled
  let filling := c.filling.map fun f =>
    match far.filling.find? (·.region == f.region) with
    | some g => { f with a := f.a && g.a, b := f.b && g.b, noted := f.noted || g.noted }
    | none => { f with a := false, b := false }
  { c with srcs := srcs, enabled := enabled, filling := filling.filter fun f => f.a || f.b }

/-- One step is in force again (R408, R409). Which one is left open: DESIGN CHOICE (log 233), the leader's; the other half takes it, and its actions begin
or end there. -/
def State.joinSteps (s : State) : State :=
  let l := s.th s.leader
  let o := s.leader.other
  let old := (s.th o).step
  (s.modTh o fun t => { t with step := l.step, sinceRise := l.sinceRise, fallHeld := l.fallHeld }).stepChanged o old l.step

/-- REJOIN (R326, R327, R432): the steps of Table WL-4. -/
def rejoin (s : State) : State :=
  if !s.rejoinAllowed then s
  else
    match s.sched2 with
    | none => s
    | some far =>
      let held := s.heldFor s.leader
      let s := (s.beginHold .a).beginHold .b
      let s := (s.modMh s.leader fun m => { m with offline := m.offline ++ [16] }).rejoinFrames far
      let s := s.joinSteps.writeHolds
      let s := { s with sched := mergeScheds s.leader s.sched far, sched2 := none, tb2 := none }
      let s := s.mergeStores
      let s := (s.wr F.WL_STATUS.STATE 1).bump F.WL_SPLIT.REJOINS
      let s := s.modWl fun w => { w with rejoinWanted := false, mending := s.sched.running, tookOver := false }
      if held then s else s.returnCredits s.leader

/-! WL_CTRL (R317, R326) -/

/-- A half is fenced, or is to be at the next stitch 0. -/
def State.halfFenced (s : State) (h : Half) : Bool := (s.wh h).fenced || (s.wh h).fencePending

/-- A fence of one half is accepted: pending until stitch 0 of the next tick. -/
def State.acceptFence (s : State) (h : Half) : State :=
  let s := s.modWh h fun w => { w with fencePending := true }
  s.wr (match h with | .a => F.WL_CTRL.FENCE_A | .b => F.WL_CTRL.FENCE_B) 1

/-- A fence is refused (source 0x105). -/
def State.refuseFence (s : State) (h : Half) : State := s.raiseL 0x105 0x0B (unitForm h.idx 0) 1

/-- What the fence bits of one write ask for (R317). -/
def State.fenceHalves (s : State) (a b : Bool) : State :=
  let a := a && !s.halfFenced .a
  let b := b && !s.halfFenced .b
  if a && b then s.refuseFence .a
  else if a then (if s.halfFenced .b then s.refuseFence .a else s.acceptFence .a)
  else if b then (if s.halfFenced .a then s.refuseFence .b else s.acceptFence .b)
  else s

/-- What a write of WL_CTRL starts. -/
def State.wlCtrl (s : State) (v : Nat) : State :=
  let s := s.fenceHalves (v.testBit 0) (v.testBit 1)
  if v.testBit 3 then s.modWl fun w => { w with rejoinWanted := true } else s

/-- REJOIN_WRITE (R326): AUTO_REJOIN keeps its value. -/
def rejoinWrite (p : Path) (s : State) : State :=
  let v := s.rd F.WL_CTRL.AUTO_REJOIN * 4 + 8
  s.gatedWrite p F.WL_CTRL.REJOIN.a v false fun s => s.wlCtrl v

/-- WL_FENCE (R317): AUTO_REJOIN keeps its value. -/
def wlFence (p : Path) (fenceA fenceB : Bool) (s : State) : State :=
  let v := s.rd F.WL_CTRL.AUTO_REJOIN * 4 + b2n fenceB * 2 + b2n fenceA
  s.gatedWrite p F.WL_CTRL.REJOIN.a v false fun s => s.wlCtrl v

/-! The heel line (R312, R313) and the claims at start (R315) -/

/-- What lets half B claim (R315): its heel line from half A shows CORE_GOOD or SELFTEST_OK clear or FENCED set, or half A is silent and PG_03 low. -/
def State.aFails (s : State) : Bool :=
  let f := s.rd F.WL_HEEL_A.FLAGS
  if s.on F.WL_HEEL_A.SILENT then !s.on (F.PS_RAIL_n_STATUS.PG 3) else !(f.testBit 6) || !(f.testBit 5) || f.testBit 4

/-- A half whose core rail is good, that passed its self-test and is not fenced. -/
def State.mayClaim (s : State) (h : Half) : Bool := s.coreUp h && (s.wh h).selftest && !(s.wh h).fenced

/-- A half claims leadership at start, and leads (R19, R315). -/
def State.claimLead (s : State) (h : Half) : State :=
  (s.modWl fun w => { w with leader := h, settled := true }).modWh h fun w => { w with claim := true }

/-- Leadership is settled at start (R315): half A claims when it can, half B only when A cannot. -/
def State.elect (s : State) : State :=
  if s.wl.settled then s
  else if s.mayClaim .a then s.claimLead .a
  else if s.mayClaim .b && s.aFails then s.claimLead .b
  else s

/-- A claim after E2, while no half could claim there. -/
def State.electLate (s : State) : State := if 2 < s.rd F.PS_STATUS.EYELET then s.elect else s

/-- Bits [15:9] of a half's heel frame (Table WL-2). -/
def State.heelFlagsNow (s : State) (h : Half) : Nat :=
  let w := s.wh h
  b2n (s.coreUp h) * 64 + b2n w.selftest * 32 + b2n w.fenced * 16 + b2n w.claim * 8 + b2n (!(s.pinSources h).isEmpty) * 4 + b2n (s.fc h).fatal * 2 +
    b2n s.wl.up

/-- A heel frame with its CRC-8 over bits [23:0]. -/
def heelWord (seq flags : Nat) : Nat :=
  let v := seq % 256 * 2 ^ 16 + flags % 128 * 2 ^ 9
  crc8 ((leBytes 3 v).reverse) * 2 ^ 24 + v

/-- HEEL_FRAME_SEND (R312, Table WL-2). -/
def heelFrameSend (h : Half) (s : State) : State :=
  if !s.pwr.aux then s
  else
    let s := s.modWh h fun w => { w with heelSeq := (w.heelSeq + 1) % 256 }
    s.emit (.heel h (BitVec.ofNat 32 (heelWord (s.wh h).heelSeq (s.heelFlagsNow h))))

/-- Register fields of the frames taken from a half: SEQ, FLAGS, SILENT, BAD. -/
def heelFlds : Half → Fld × Fld × Fld × Fld
  | .a => (F.WL_HEEL_A.SEQ, F.WL_HEEL_A.FLAGS, F.WL_HEEL_A.SILENT, F.WL_HEEL_A.BAD)
  | .b => (F.WL_HEEL_B.SEQ, F.WL_HEEL_B.FLAGS, F.WL_HEEL_B.SILENT, F.WL_HEEL_B.BAD)

/-- Until leadership is settled, half A drives the shared pins while half B receives its frames, and half B while half A is silent (R435). -/
def State.drivePins (s : State) (sender now : Half) : State :=
  if sender = .a && !s.wl.settled then s.modWl fun w => { w with leader := now } else s

/-- A half counts as silent on the heel line (R312, R315, R319). -/
def State.countSilent (s : State) (sender : Half) : State :=
  let silent := (heelFlds sender).2.2.1
  if s.on silent then s
  else
    let s := ((s.wr silent 1).drivePins sender .b).electLate
    if sender = s.leader then s.leaderUnreachable else s

/-- HEEL_FRAME (R312, R313, R426): taken when its CRC-8 checks; one that reports FATAL makes the receiver enter the fatal state. -/
def heelFrame (sender : Half) (frame : Word) (s : State) : State :=
  let v := frame.toNat
  let (seq, flags, silent, bad) := heelFlds sender
  if !s.pwr.aux then s
  else if crc8 ((leBytes 3 v).reverse) ≠ v / 2 ^ 24 then
    let s := ((s.modWh sender fun w => { w with badRun := w.badRun + 1 }).bump bad).raise sender.other 0x106 0x15 (unitForm sender.idx (v % 2 ^ 24)) 0
    if 4 ≤ (s.wh sender).badRun then s.countSilent sender else s
  else
    let s := s.modWh sender fun w => { w with badRun := 0 }
    let s := ((((s.wr seq (bits v 23 16)).wr flags (bits v 15 9)).wr silent 0).drivePins sender .a).electLate
    if v.testBit 10 && !(s.fc sender.other).fatal then
      ((s.fatalHalf sender.other).raise sender.other 0x13A 0x1C (unitForm sender.idx 0) 0).checkEyelet
    else s

/-- HEEL_SILENT (R312, R319): four frames in a row were missing or bad. -/
def heelSilent (sender : Half) (s : State) : State := if s.pwr.aux then s.countSilent sender else s

/-! Leadership (R316, R318, R320) -/

/-- HEARTBEAT (R316): what it carries is the schedule, the time base and the token, of which this model keeps one copy while the halves are
joined. -/
def heartbeat (s : State) : State := s

/-- The follower may take over (R318): the heel line shows the leader failed or fenced, or it is silent everywhere with its VCORE low. -/
def State.takeoverDue (s : State) : Bool :=
  let l := s.leader
  let (_, flags, silent, _) := heelFlds l
  let f := s.rd flags
  s.pwr.aux && s.coreUp l.other && !(s.wh l.other).fenced &&
    (if s.on silent then !s.wl.up && !s.coreUp l else !(f.testBit 6) || !(f.testBit 5) || f.testBit 4)

/-- Leadership moves to a half with a new token epoch; its schedule and time base go on, and the shared outputs keep their levels (R318). -/
def State.lead (s : State) (h : Half) : State :=
  let out := s.tb.tickOut
  let s := if s.split && h != s.leader then s.flip.modTb fun t => { t with tickOut := out } else s
  ((s.modWl fun w => { w with leader := h }).wrap F.WL_STATUS.TOKEN).wr F.TH_STATUS.STEP (s.th h).step

/-- LEADERSHIP_TAKEOVER (R318): at the follower's stitch 0; a fenced or failed leader holds its claim no longer. -/
def leadershipTakeover (s : State) : State :=
  if !s.takeoverDue then s
  else
    let old := s.leader
    let s := s.modWh old fun w => { w with claim := w.claim && !w.fenced && s.coreUp old }
    let s := ((s.modWh old.other fun w => { w with claim := true }).lead old.other).modWl fun w => { w with settled := true, tookOver := true }
    s.raise old.other 0x102 0x13 (unitForm old.other.idx (s.rd F.WL_STATUS.TOKEN)) 1

/-- CLAIM_DROP (R320): both halves claim; half A keeps leadership. -/
def claimDrop (s : State) : State :=
  if !(s.wl.a.claim && s.wl.b.claim) then s
  else
    let s := ((s.modWh .b fun w => { w with claim := false }).lead .a).modWl fun w => { w with tookOver := true }
    s.raise .b 0x104 0x13 (unitForm 0 (s.rd F.WL_STATUS.TOKEN)) 2

end Sys2Proof.Machine
end

