-- ==== Sys2Proof/Machine/Bus.lean ====
section
/-! DEFINITION. The register space as a path reaches it: what a write of any address does, what a read of any address returns and takes,
and the management and doorbell windows of the heads (00_scope.md R10 to R15; 05_host_heads.md R161 to R167). -/
namespace Sys2Proof.Machine

/-! Writes -/

/-- After a write of PS_ADC_CH_c_CFG: a change of GAIN or FILT clears the channel's filter, and a change of GAIN makes its next 4
samples invalid (R400). -/
def State.adcCfg (s : State) (c : Nat) (old : Word) : State :=
  let w := (s.word (0x20200 + 2 * c)).toNat
  let gain := bits w 3 2 != bits old.toNat 3 2
  if gain || bits w 0 0 != bits old.toNat 0 0 then
    let f : Adc → Adc := fun a => a.modChan c fun x => { x with filt := [], valid := false, settle := if gain then 4 else x.settle }
    s.modPwr fun p => (p.modAdc .a f).modAdc .b f
  else s

/-- A register of a block with one copy per instance, `base + stride × n` for n below `count`: the instance. -/
def instOf (a base stride count : Nat) : Option Nat :=
  if base ≤ a && a < base + stride * count && (a - base) % stride = 0 then some ((a - base) / stride) else none

/-- What a stored write of a register with several instances starts, and whether it records an audit entry of its own. -/
def blockEffect (p : Path) (a v : Nat) (old : Word) : Bool × (State → State) :=
  match instOf a 0x10010 1 10 with
  | some w => (true, fun s => s.stickyWrite p w v)
  | none =>
  match instOf a 0x10030 1 10 with
  | some w => (false, fun s => s.forceWrite p w v)
  | none =>
  match instOf a 0x20200 2 24 with
  | some c => (false, fun s => s.adcCfg c old)
  | none =>
  match instOf a 0x40080 2 4 with
  | some n => (false, fun s => s.auxWrite n old v)
  | none =>
  match instOf a 0x40081 2 4 with
  | some n => (false, fun s => s.wr F.CK_AUX_STATUS.REFUSED (s.rd F.CK_AUX_STATUS.REFUSED &&& (15 - 2 ^ n)))
  | none =>
  match instOf a 0x71000 0x800 16 with
  | some e => (false, fun s => s.leCtrl e v)
  | none =>
  match instOf a 0x100000 0x1000 16 with
  | some n => (false, fun s => s.dcCfgWrite n (bits old.toNat 3 2))
  | none =>
  match instOf a 0x200000 0x1000 16 with
  | some n => (false, fun s => s.diCtrlWrite n v)
  | none => (false, fun s => s.fcFix a)

/-- What a stored write of an address starts, and whether it records an audit entry of its own. `old` is the word before. -/
def writeEffect (p : Path) (a v : Nat) (old : Word) : Bool × (State → State) :=
  if a = 4 then (true, fun s => if v.testBit 0 then (s.audit (s.role p).role p.idx 1 4 0 0).warmReset else s)
  else if a = 5 then (false, fun s => s.bootWrite v)
  else if a = 8 then (true, fun s => s.roleAct v)
  else if a = 0x31 then (true, fun s => if v.testBit 31 then s.flashGo p (bits v 29 28) (bits v 5 0) else s)
  else if a = 0x20001 then (false, fun s => if v.testBit 0 then s.laceAbortWrite else s)
  else if a = 0x20007 then (false, fun s => if v.testBit 31 then s.transStart else s)
  else if a = 0x50000 then (false, fun s => if v.testBit 0 then s else s.onBases fun s => s.modTb fun t => { t with pend := none, rx := [] })
  else if a = 0x50014 then (v.testBit 31, fun s => s.setCtrlAct p v)
  else if a = 0x50018 then (false, fun s => s.tsqPush 6 (v % 65536))
  else if a = 0x6000B then (true, fun s => s.submit p (v % 16))
  else if a = 0x60010 then (true, fun s => s.lastCtrl p v)
  else if a = 0x70000 then (v.testBit 31, fun s => s.lutCtrl p old v)
  else if a = 0x70001 then (true, fun s => s.lutWrite p v)
  else if a = 0xA0001 then (false, fun s => if v.testBit 1 then s.fastCloseAct else s)
  else if a = 0xA0014 then (false, fun s => s.scrubWrite v)
  else if a = 0x380001 then (false, fun s => s.wlCtrl v)
  else blockEffect p a v old

/-- A write of a word address takes effect on a path. -/
def State.busWriteNow (s : State) (p : Path) (a v : Nat) : State :=
  let e := writeEffect p a v (s.word a)
  s.gatedNow p a v e.1 e.2

/-- A write of a word address through a path (R10 to R15). -/
def State.busWrite (s : State) (p : Path) (a v : Nat) : State :=
  let e := writeEffect p a v (s.word a)
  s.gatedWrite p a v e.1 e.2

/-! Reads -/

/-- Reads a word that latches another: the word `a` reads as, with the latched field set. -/
def State.latchRead (s : State) (p : Path) (a : Nat) (f : Fld) (v : Nat) : Nat × State := (s.viewReg p a, s.wr f v)

/-- A read of TB_CAL_DATE latches the time of day into TB_CAL_TIME (R376). -/
def State.calRead (s : State) (p : Path) (a : Nat) : Nat × State :=
  let t := (s.utcSeconds % 86400).toNat
  (s.viewReg p a,
    ((s.wr F.TB_CAL_TIME.HOUR (t / 3600)).wr F.TB_CAL_TIME.MINUTE (t / 60 % 60)).wr F.TB_CAL_TIME.SECOND (t % 60))

/-- A read of a word address through a path: the word, and the state after its side effects (R10, R13; the latches of 12 R354, R373 and
R376, 09 R303, 05 R172 and 02 R42). -/
def State.busRead (s : State) (p : Path) (a : Nat) : Nat × State :=
  if s.farReg p a then (0, s.farAccess p a false)
  else
    if a = 0x60004 then s.readFrameLo p false
    else if a = 0x50004 then s.latchRead p a F.TB_TIME_HI.TIME_HI (s.time / 2 ^ 32)
    else if a = 0x50010 then s.calRead p a
    else if a = 0x5001A then let r := s.tsqTake p; (r.1.toNat, r.2)
    else if a = 0x70001 then s.lutRead
    else if a = 0xA0016 then s.latchRead p a F.MI_SCRUB_LINES_HI.LINES_HI (s.dm.scrubLines / 2 ^ 32)
    else if a = 0xA001C then s.latchRead p a F.MI_SCRUB_FIRST_HI.FIRST_HI (s.dm.scrubFirst.getD 0 * 64 / 2 ^ 32)
    else if a = 0xA001E then s.latchRead p a F.MI_SCRUB_LAST_HI.LAST_HI (s.dm.scrubLast.getD 0 * 64 / 2 ^ 32)
    else
      match instOf a 0x300009 0x1000 4 with
      | some h => s.latchRead p a (F.HP_n_TSOFF_HI.OFFSET_HI h) (ofSigned 64 (s.head h).tsoff / 2 ^ 32)
      | none => (s.viewReg p a, s)

/-- Reads a run of words, each with its side effects, the address rising by one a word modulo 2^24 (R452). -/
def State.busReads (s : State) (p : Path) : (a n : Nat) → List Word × State
  | _, 0 => ([], s)
  | a, n + 1 =>
    let r := s.busRead p (a % 2 ^ 24)
    let t := r.2.busReads p (a + 1) n
    (BitVec.ofNat 32 r.1 :: t.1, t.2)

end Sys2Proof.Machine
end

