-- ==== Sys2Proof/Machine/StartOps.lean ====
section
/-! DEFINITION. What starts the device and what each eyelet's action does: power-on of the AUX domain, a start from an off state, the settings
lists, rail thresholds, hold-up, training, spare rows, the codec self-test and the first fill (13 R378 to R389, R396, R398; 16 R436 to R450,
R460; 08 R262, R263, R278, R279; 09 R295, R304 to R307). -/
namespace Sys2Proof.Machine

/-! What survives (R12, R278, R441, R470) -/

/-- The DRAM side after its supply was lost: the DRAM fitted remains. -/
def Mem.lost (d : Mem) : Mem := { run := d.run + 1, ranks := d.ranks, density := d.density }

/-- Management with only what OTP, the passport and the image flash hold, and the level of FIELD_N. -/
def Manage.powerOn (m : Manage) : Manage :=
  { otp := m.otp, passport := m.passport, boot := m.boot, health := m.health, torn := m.torn, fieldN := m.fieldN }

/-- Every register and block at its power-on value; the image flash, OTP, the passport and the health record stay. -/
def State.powerOn (s : State) : State :=
  { State.reset with
    pending := s.pending, out := s.out, now := s.now, free := s.free, flash := s.flash, mg := s.mg.powerOn, dm := s.dm.lost }

/-- The audit log goes on from the highest valid SEQ of the ring, but uses no SEQ of an entry that was lost (R459), and its tail in the passport is to
be rewritten (R447). -/
def State.resumeAudit (s : State) : State :=
  s.modMg fun m => { m with auditSeq := max m.auditSeq (match s.lastSeq with | some q => q + 1 | none => 0), tailDue := true }

/-- Firmware is verified and loaded (R436); with no valid bank the device enters the fatal state in E0. -/
def State.bootStart (s : State) : State :=
  let s := s.boot.blankNext
  if s.on F.MG_STATUS.FW_OK then s else s.enterFatal s.leader

/-- The AUX domain comes up (R470, R474, R385): RAILEN_01 and RAILEN_02 go high, a joining module pulls LACE low, firmware boots and E0 is
due; TEST_EN high keeps the device in E0. -/
def State.auxStart (s : State) (testEn : Bool) : State :=
  let join := !s.mg.otp.laceSolo
  let s := s.powerOn.modPwr fun p => { p with aux := true, auxAt := s.now, test := testEn, join := join, railen := 6, entryDue := !testEn }
  let s := ((s.flag F.PS_STATUS.SOLO (!join)).flag F.PS_STATUS.HOLDING join).flag F.PS_STATUS.LACE (!join)
  let s := ((s.wr (F.CK_h_STATUS.REF_OK 0) 1).wr (F.CK_h_STATUS.REF_OK 1) 1).resumeAudit
  if testEn then s else s.bootStart

/-! A start from an off state (R398, R460) -/

/-- Registers of a start without power-on: settings and staging keep their values (R450), and so do the blocks whose state and counters only a
power-on clears (MG, FC, PS and TH); of TB the counters are cleared; every other field takes its power-on value. -/
def startWord (k : Nat) (w : Word) : Word :=
  let a := k % 0x1000000
  if a < 0x40000 then w
  else if 0x50000 ≤ a && a < 0x60000 then (if 0x50009 ≤ a && a ≤ 0x5000B then regPowerOn k else w)
  else if a = 0x380001 then setBits (regPowerOn k) 2 2 (bits w.toNat 2 2)
  else
    match regAt a with
    | none => w
    | some t =>
      t.fields.foldl (fun x f =>
        if f.acc == .rw || f.acc == .rwl || (f.acc == .w1s && 0x200000 ≤ a && a < 0x210000) then setBits x f.hi f.lo (bits w.toNat f.hi f.lo) else x) (regPowerOn k)

/-- Rails at a start without power-on: latched faults hold (R382), the others are off, VAUX and VAUXC stay as they are. -/
def State.railsOff (s : State) : State :=
  (0 :: (List.range 9).map (· + 3)).foldl (fun s r =>
    if s.rd (F.PS_RAIL_n_STATUS.STATE r) = 4 then s
    else ((s.wr (F.PS_RAIL_n_STATUS.STATE r) 0).wr (F.PS_RAIL_n_STATUS.RETRIES r) 0).wr (F.PS_RAIL_n_STATUS.CAUSE r) 0) s

/-- The parts of the state that a start clears. -/
def State.clearRun (s : State) : State :=
  { s with
    regs := s.regs.foldl (fun (r : Sparse Word) (e : Nat × Word) => Sparse.put regPowerOn r e.1 (startWord e.1 e.2)) s.regs
    mem := [], sched := {}, sched2 := none, tb2 := none, lasts := Vector.replicate 4 none, admQueue := [], admitting := none, admStart := false
    admTouched := false, admBy := none, twUsed := 0, dm := s.dm.lost, le := { lut := s.le.lut }, wl := {}, ckA := {}, ckB := {}
    heads := s.heads.map fun h => { logs := h.logs, perst := h.perst, cfg := h.cfg } }

/-- Sensor loss lasts for the rest of the run (R403): a start ends it, and what the half warms for then is its first 2 s alone. -/
def State.endLoss (s : State) : State :=
  let f : Thermal → Thermal := fun t => { t with sensorLoss := false, seen := false }
  let s := (((s.modTh .a f).modTh .b f).flag F.TH_STATUS.WARMING_A (!s.thA.warmed)).flag F.TH_STATUS.WARMING_B (!s.thB.warmed)
  s.wr F.TH_STATUS.SENSOR_LOSS 0

/-- SVC_START's effect: E0 is due, solo; the fatal state and the sticky bits stay (R429). The first edges of PPS_IN and FTICK_IN after it are accepted (R362,
R370), and the power-limit step that stays in force goes on capping Bulk traffic (R407). -/
def State.svcRun (s : State) : State :=
  let refA := s.rd (F.CK_h_STATUS.REF_OK 0)
  let refB := s.rd (F.CK_h_STATUS.REF_OK 1)
  let bank := s.rd F.LE_LUT_CTRL.ACTIVE_BANK
  let s := s.clearRun.railsOff.endLoss
  let s := ((s.wr (F.CK_h_STATUS.REF_OK 0) refA).wr (F.CK_h_STATUS.REF_OK 1) refB).wr F.LE_LUT_CTRL.ACTIVE_BANK bank
  let s := s.modTb fun t => { t with lastEdge := none, ftLast := none, tickOut := false }
  let s := (List.range 16).foldl (fun s n => s.flag (F.DC_n_STATUS.BULK_CAPPED n) (1 ≤ s.stepFor (subHalf n))) s
  let s := (((s.wr F.PS_STATUS.STATE 0).wr F.PS_STATUS.EYELET 0).wr F.PS_STATUS.SOLO 1).wr F.PS_STATUS.LAST_GOOD 0
  let s := (((s.wr F.PS_SVC.FORCED 0).wr F.PS_SVC.PRESSED 0).wr F.MG_START.T_RUN 0).modPwr fun p =>
    { p with auxAt := s.now, entryDue := !p.test, acting := false, warned := false, ignoreLace := false, listed := false
             fatalKept := (s.fc .a).fatal || (s.fc .b).fatal, pfwDelay := false, transAbandoned := false }
  let s := s.modMg fun m => { m with ppRetries := 0, ppNackRetries := 0, ppPending := false, body := [], zone := [], op := none }
  (s.wr F.MG_PP_STAT.RETRIES 0).resumeAudit.bootStart

/-! E0: thresholds, settings, hold-up -/

/-- A threshold of a rail within its bounds (R380). -/
def clampBound (v lo hi : Nat) : Nat := if v < lo then lo else if hi < v then hi else v

/-- Loads the thresholds of a rail from its 8 bytes, clamped to the bounds of OTP, each clamp with its event (R380). -/
def State.loadRail (s : State) (r : Nat) (b : List Byte) : State :=
  let lo := s.mg.otp.loBound[r]!.toNat
  let hi := s.mg.otp.hiBound[r]!.toNat
  let uv := clampBound (field b 0 2) lo hi
  let ov := clampBound (field b 2 2) lo hi
  let s := ((s.setWindow r (uv, ov)).wr (F.PS_RAIL_n_CFG.GLITCH r) (field b 4 1)).wr (F.PS_RAIL_n_CFG.TSS r) (field b 5 1)
  let s := (s.wr (F.PS_RAIL_n_CFG.ILIM r) (field b 6 2)).flag (F.PS_RAIL_n_STATUS.CLAMPED r) (uv != field b 0 2 || ov != field b 2 2)
  let s := if uv = field b 0 2 then s else s.raiseL 0x12F 0x16 (unitForm r uv) 1
  if ov = field b 2 2 then s else s.raiseL 0x12F 0x16 (unitForm r ov) 1

/-- The 8 bytes of a rail: from the body in use, or DEF_RAIL of OTP (R445, Table MG-7); V_PFW is 11,400 mV by default (R380). -/
def State.railBytes (s : State) (r : Nat) : List Byte :=
  if s.mg.body.isEmpty then
    let b := s.mg.otp.defRail[r]!.toNat
    leBytes 8 (if r = 0 && b % 2 ^ 16 == 0 then b + 11400 else b)
  else slice s.mg.body (0x200 + 16 * r) 8

/-- Loads the thresholds of every rail. -/
def State.loadRails (s : State) : State := (List.range 12).foldl (fun s r => s.loadRail r (s.railBytes r)) s

/-- An address belongs to the group applied in E0: the MG, FC and PS blocks (R449). -/
def auxGroup (a : Nat) : Bool := a < 0x30000

/-- One settings entry is applied as a write by its role; the list's entry is the one audit entry of it (R449, R11, R15). -/
def State.applyEntry (s : State) (e : Nat × Nat × Nat) : State :=
  let old := s.word e.2.1
  match regAt e.2.1 with
  | some t =>
    let u := (writeEffect .spi e.2.1 e.2.2 old).2 ((s.modRole .spi fun r => { r with role := e.1 }).storeWrite .spi t e.2.1 e.2.2)
    let u := u.modRole .spi fun r => { r with role := (s.role .spi).role }
    (u.modMg fun m => { m with audit := s.mg.audit, auditSeq := s.mg.auditSeq, auditWait := s.mg.auditWait, refusals := s.mg.refusals }).setWord
      F.MG_AUDIT_STAT.SEQ.a (s.word F.MG_AUDIT_STAT.SEQ.a)
  | none => s

/-- The entries of a list that belong to a group are applied in list order; those beyond the list's authority are skipped. -/
def State.applyList (s : State) (maxRole : Nat) (aux : Bool) (l : List (Nat × Nat × Nat)) : State :=
  (l.filter fun e => auxGroup e.2.1 == aux && entryApplies maxRole e).foldl State.applyEntry s

/-- One group of both lists: maker entries first. -/
def State.applyLists (s : State) (aux : Bool) : State :=
  let s := s.applyList 3 aux s.makerList
  s.applyList 2 aux s.zoneList

/-- The audit entry of a list with entries: applied and skipped (kind 10). -/
def State.auditList (s : State) (which maxRole : Nat) (l : List (Nat × Nat × Nat)) : State :=
  let n := (l.filter (entryApplies maxRole)).length
  if l.isEmpty then s else s.audit maxRole 6 10 which n (l.length - n)

/-- The group of E2, once a core rail is good, with the audit entry of each list (R449). -/
def State.applyCoreLists (s : State) : State :=
  if s.pwr.listed then s
  else
    let s := (s.applyLists false).modPwr fun p => { p with listed := true }
    let s := s.auditList 0 3 s.makerList
    s.auditList 1 2 s.zoneList

/-- After the passport read: thresholds, the settings of the AUX blocks, and the audit tail where FIELD_N allows it. -/
def State.afterPassport (s : State) : State :=
  if s.mg.ppPending then s
  else
    let s := s.loadRails.applyLists true
    if s.mg.tailDue && !s.mg.fieldN then s.rewriteTail else s

/-- The hold-up computation at the end of E0 (R396). -/
def State.holdUp (s : State) : State :=
  let c := s.rd F.PS_HOLDUP.C_HOLD
  let v : Int := s.rd (F.PS_RAIL_n_WIN.UV 0)
  let e := (4 * (c : Int) * (v * v - 49000000)).tdiv 10000000
  let dly := ((e - 12000) * 1000).tdiv 84000 - 10
  let vmin := if c = 0 then (Config.vMinWithoutHold s.free).toNat else isqrt (49000000 + 5000000000 / c)
  let s := if c = 0 then { s with free := s.free + 1 } else s
  let used := min (sat (s.rd F.PS_PFW_CFG.PFW_DLY) 20 500) (sat dly 20 500)
  let s := (s.wr F.PS_HOLDUP.DLY_USED used.toNat).flag F.PS_HOLDUP.HOLDUP_LOW (dly < 20)
  let s := s.modPwr fun p => { p with vrec := max (10 * min (max (s.rd F.PS_PFW_CFG.V_REC) 750) 1000) vmin }
  if dly < 20 then s.raiseL 0x12F 0x16 (unitForm 0 (ofSigned 30 dly)) 5 else s

/-! E9: training (R262, R263, R278, R279, R235, R288) -/

/-- Rate codes to train: TS0 and TS1 of Last 0, or 6400 MT/s alone. -/
def State.startRates (s : State) : Nat × Nat :=
  match parseLast (s.flashBytes (s.bankBase + 0x100000) 0x10000) with
  | some l => (min l.ts0 s.gradeTop, min l.ts1 s.gradeTop)
  | none => (0, 0)

/-- CLEAR_MARKS of a subchannel acts at the start of E9. -/
def State.clearRecord (s : State) (n : Nat) : State :=
  if s.on (F.DI_n_CTRL.CLEAR_MARKS n) then
    (s.recordHealth n fun u => { u with marks := [], retired := false }).wr (F.DI_n_CTRL.CLEAR_MARKS n) 0
  else s

/-- A subchannel takes a new seal and LFSR seed; cells that now equal what an unlisted symbol reads as are no longer listed. -/
def State.setSeal (s : State) (n : Nat) (key : BitVec 128) (lfsr : Nat) : State :=
  let s := s.modSub n fun u => { u with sealKey := key, lfsr := lfsr }
  { s with mem := s.mem.filter fun c => decide (c.2 ≠ s.dm.blank c.1) }

/-- A subchannel begins training with a new seal and a new LFSR seed; its refresh mode is read as DRAM initialisation begins (Table MG-13).
Its channel starts at the first rate, without a ramp, and its DLL begins to lock (Table CK-3, steps 4 and 5). -/
def State.beginTraining (s : State) (n r0 r1 : Nat) : State :=
  let d := s.draw
  let seed := d.1.toNat / 2 ^ 128 % 2 ^ 32
  let s := d.2.setSeal n (BitVec.ofNat 128 d.1.toNat) (if seed = 0 then 0x1B873593 else seed)
  let s := s.modSub n fun u => { u with refAb := s.on (F.DC_n_CFG.REF_AB n) }
  let s := ((s.wr (F.CK_CH_n.RATE n) r0).wr (F.CK_CH_n.Q n) (qCode (rateMts r0))).wr (F.CK_DLL_n.STATE n) 1
  ((s.wr (F.DI_n_STATUS.RATE0 n) r0).wr (F.DI_n_STATUS.RATE1 n) r1).wr (F.DI_n_STATUS.STATE n) 1

/-- UNITS of a half: 7/8 of its storage in spare-subchannel mode (R279). -/
def State.spareUnits (s : State) (h : Half) : Nat := if s.on (F.DI_SPARE.ACTIVE h.idx) then s.fullUnits * 7 / 8 else s.fullUnits

/-- A half whose rails do not let it train is out of use for the run; its marks and retirements on record raise their faults again (R278). -/
def State.lostAtStart (s : State) (h : Half) : State := ((halfSubs h).foldl State.recordedMarks s).vddqLost h

/-- E9 on one half: trained where its core and VDDQ rails are good, otherwise out of use for the run. -/
def State.trainHalf (s : State) (h : Half) : State :=
  let r := s.startRates
  let s := (halfSubs h).foldl State.clearRecord s
  let s := s.wr (F.DI_SPARE.ACTIVE h.idx) (s.rd (F.DI_SPARE.SPARE_EN h.idx))
  if s.coreUp h && s.railGood (8 + h.idx) then
    let s := (halfSubs h).foldl (fun s n => s.beginTraining n r.1 r.2) (s.modDm fun d => { d with rates := some r })
    let s := s.loadRamp h ((qCode (rateMts r.1) : Int) - qCode (rateMts r.2)).natAbs
    if s.on (F.CK_h_STATUS.MEM_LOCK h.idx) then s.wr (F.CK_h_STATUS.SSC_ACTIVE h.idx) (s.spreadMode h (s.topRate h)) else s
  else s.lostAtStart h

/-- The action of E9. -/
def State.trainAll (s : State) : State :=
  let s := (s.trainHalf .a).trainHalf .b
  let s := (s.wr F.AM_SUB_CAP.UNITS_A (s.spareUnits .a)).wr F.AM_SUB_CAP.UNITS_B (s.spareUnits .b)
  (s.wr F.AM_SUB_CAP.DENSITY s.dm.density).flag F.AM_SUB_CAP.RANKS2 (s.dm.ranks == 2)

/-! E10: spare rows and the codec self-test (R304 to R307) -/

/-- The fuse map: 8-byte entries up to the first erased one. -/
def State.fuseMap (s : State) : List (List Byte) :=
  (chunksOf 8 4096 (s.flashBytes (s.bankBase + 0x14C000) 0x8000)).takeWhile fun e => !e.all (· == 0xFF)

/-- The fields of a fuse-map entry are in range (Table MI-4). -/
def State.fuseOk (s : State) (e : List Byte) : Bool :=
  field e 0 1 < 16 && field e 1 1 < 10 * s.dm.ranks && field e 2 1 < 32 && field e 3 1 == 0 && field e 4 4 < 2 ^ (16 + s.dm.density)

/-- One entry of the fuse map; `used` lists the soft repairs made as (subchannel, device, bank group), `soft` and `hard` say what the device
accepts (R305). -/
def State.fuseEntry (s : State) (used : List (Nat × Nat × Nat)) (i : Nat) (e : List Byte) (soft hard : Bool) : List (Nat × Nat × Nat) × State :=
  let n := field e 0 1
  let m := field e 1 1
  let bg := bits (field e 2 1) 4 2
  let key := leNat e
  if !s.fuseOk e then (used, s.subMsg (if n < 16 then n else 0) 6 0x16 i 0 3)
  else if (s.sub n).marks.contains m || (s.health n).hppr.contains key then (used, s)
  else if soft && !used.contains (n, m, bg) then ((n, m, bg) :: used, s.bump F.MI_PPR_STAT.SPPR)
  else if s.on F.MI_PPR_CFG.HPPR_EN && hard then
    (used, (s.recordHealth n fun u => { u with hppr := u.hppr ++ [key] }).bump F.MI_PPR_STAT.HPPR)
  else if (s.sub n).rowMap.length < 256 then
    (used, (s.modSub n fun u => { u with rowMap := u.rowMap ++ [⟨m / 10, bg, bits (field e 2 1) 1 0, field e 4 4, m % 10⟩] }).bump F.MI_PPR_STAT.ROWMAP)
  else (used, (s.bump F.MI_PPR_STAT.UNREPAIRED).subMsg n 6 0x1D n i 0)

/-- The fuse map is applied in its order, and ROWMAP_N shows each subchannel's row map (R306); `ppr` says for each entry what the device accepts (soft alone where it says nothing). -/
def State.fuseApply (s : State) (ppr : List (Bool × Bool)) : State :=
  let s := s.setWord F.MI_PPR_STAT.SPPR.a 0
  let es := s.fuseMap
  let s := ((List.zip (List.range es.length) es).foldl (fun (a : List (Nat × Nat × Nat) × State) e =>
    let p := ppr.getD e.1 (true, false)
    a.2.fuseEntry a.1 e.1 e.2 p.1 p.2) ([], s)).2
  (List.range 16).foldl (fun s n => s.wr (F.MI_SUB_n_ERR.ROWMAP_N n) (min (s.sub n).rowMap.length 255)) s

/-- The codec self-test: each failing codec sets its bit, and any failure enters the fatal state (R307). -/
def State.codecTest (s : State) (fail : List (Fin 16 × Fin 64)) : State :=
  let s := s.wr F.MI_STATUS.SELFTEST_FAIL 0
  fail.foldl (fun s f =>
    let s := s.wr F.MI_STATUS.SELFTEST_FAIL (s.rd F.MI_STATUS.SELFTEST_FAIL ||| 2 ^ f.1.val)
    (s.subMsg f.1.val 7 0x10 f.1.val 0 f.2.val).enterFatal (subHalf f.1.val)) s

/-! E11 and E12 -/

/-- The fills of the running halves begin (R295, R296); FAST_START is read here (R450). -/
def State.fillStart (s : State) : State :=
  let s := (List.range 16).foldl (fun s n => s.modSub n fun u => { u with fast := s.fastStarts n, skipFill := s.fastStarts n }) s
  let s := s.flag F.MI_STATUS.FAST_OPEN (s.dm.subs.toList.any (·.fast))
  [Half.a, Half.b].foldl (fun s h => if s.coreUp h then s.wr (fillFld h) 1 else s) (s.wr F.MI_STATUS.FILL_PCT 0)

/-- Last n is present: its area is not erased. -/
def State.lastPresent (s : State) (n : Nat) : Bool := (s.flashBytes (s.bankBase + 0x100000 + 0x10000 * n) 4).any (· != 0xFF)

/-- Admission of every Last present begins (R64), and with it the idle cycles of E12 (R45); TW_ENABLE is read for the run (R450). -/
def State.admitAll (s : State) : State :=
  let s := s.modScheds fun c => { c with tickAt := s.now }
  let s := { s with lasts := Vector.replicate 4 none, admTouched := false, admBy := none, twUsed := s.word F.TW_ENABLE.TL_EN.a }
  match (List.range 4).filter s.lastPresent with
  | [] => s
  | n :: t => { s with admitting := some n, admQueue := t, admStart := true }

/-! The eyelets (Table PS-2) -/

/-- The action that an eyelet's entry starts. -/
def State.eyeletAct (s : State) (e : Nat) (env : EyeletEnv) : State :=
  match e with
  | 0 => ((env.coreFail.foldl State.coreFails s).passportRead env.pp).afterPassport
  | 1 => (s.setRailen 0 true).enableRail 5
  | 2 => (s.enableRail 3).enableRail 4
  | 3 => s.enableRail 6
  | 4 => s.enableRail 7
  | 5 => s.enableRail 11
  | 6 => s.enableRail 10
  | 7 => (s.enableRail 8).enableRail 9
  | 8 => s.trainLanes env.deadLanes.1.val env.deadLanes.2.val
  | 9 => s.trainAll
  | 10 => (s.fuseApply env.ppr).codecTest env.codecFail
  | 11 => s.fillStart
  | 12 => s.admitAll
  | _ => s

/-- The core PLL, and the memory PLL, of a half are locked, or the half does not run. -/
def State.halfLocked (s : State) (h : Half) : Bool :=
  !s.coreUp h || (s.on (F.CK_h_STATUS.CORE_LOCK h.idx) && s.on (F.CK_h_STATUS.MEM_LOCK h.idx))

/-- A rail that an eyelet enables is decided. -/
def State.railDecided (s : State) (r : Nat) : Bool := s.railGood r || !(s.pwr.railen.getLsbD r || s.rd (F.PS_RAIL_n_STATUS.STATE r) == 2)

/-- The condition of the last column of Table PS-2. -/
def State.eyeletDone (s : State) (e : Nat) : Bool :=
  match e with
  | 0 => s.railGood 0 && s.railGood 1 && s.railGood 2 && !s.mg.ppPending && s.on F.MG_STATUS.FW_OK
  | 1 => s.railGood 5
  | 2 => s.railGood 3 || s.railGood 4
  | 3 => s.railGood 6
  | 4 => s.railGood 7
  | 5 => s.railGood 11
  | 6 => s.railGood 10
  | 7 => s.railDecided 8 && s.railDecided 9 && (s.railGood 8 || s.railGood 9)
  | 8 => s.halfLocked .a && s.halfLocked .b && (s.coreUp .a || s.coreUp .b)
  | 9 => (List.range 16).all fun n => s.rd (F.DI_n_STATUS.STATE n) != 1
  | 11 => s.rd F.MI_STATUS.FILL_A != 1 && s.rd F.MI_STATUS.FILL_B != 1
  | 12 => !s.admStart && (s.sched.active || s.sched.armed.isNone)
  | _ => true

/-- What the end of an eyelet settles: hold-up at the end of E0, leadership at the end of E2 (R315), the Welt at the end of E8. -/
def State.eyeletSettles (s : State) (e : Nat) : State :=
  match e with
  | 0 => s.holdUp
  | 2 =>
    s.elect
  | 8 => if s.coreUp .a && s.coreUp .b then s.weltUp else s.enterSplit
  | _ => s

end Sys2Proof.Machine
end

