-- ==== Sys2Proof/Machine/Eyelets.lean ====
section
/-! DEFINITION. The commands of start-up: AUX_UP, the eyelets, the passport retry, rails becoming good, AUX_RESET and SVC_START (13 R379, R385 to
R388, R398; 16 R445; 17 R470, R474). -/
namespace Sys2Proof.Machine

/-- AUX_UP (R470, R474). -/
def auxUp (testEn : Bool) (s : State) : State := if s.pwr.aux then s else s.auxStart testEn

/-- EYELET_ENTRY (R385, Table PS-2): the module pulls LACE low where it takes part, and the eyelet's action starts; a fatal state kept into this
start stops it at E9 (R429). -/
def eyeletEntry (env : EyeletEnv) (s : State) : State :=
  let e := s.rd F.PS_STATUS.EYELET
  if !(s.pwr.aux && s.pwr.entryDue && s.rd F.PS_STATUS.STATE < 2) then s
  else
    let s := s.modPwr fun p => { p with entryDue := false, acting := true }
    let s := if s.on F.PS_STATUS.SOLO then s else (s.wr F.PS_STATUS.HOLDING 1).wr F.PS_STATUS.LACE 0
    if s.eyeletLost then s.eyeletFail else s.eyeletAct e env

/-- PASSPORT_RETRY (R445). -/
def passportRetry (pp : PpRead) (s : State) : State :=
  if s.mg.ppPending && s.pwr.acting && s.rd F.PS_STATUS.EYELET = 0 then (s.passportRead pp).afterPassport else s

/-- E0_MIN, ms, clamped (PS_LACE_CFG). -/
def State.e0Min (s : State) : Nat := min (max 10 (s.rd F.PS_LACE_CFG.E0_MIN)) 1000

/-- EYELET_COMPLETE (R385, R386, R388): the module releases LACE; solo, the next eyelet begins. E0 lasts E0_MIN at least (Table PS-2). -/
def eyeletComplete (s : State) : State :=
  let e := s.rd F.PS_STATUS.EYELET
  if !(s.pwr.acting && s.rd F.PS_STATUS.STATE < 2) then s
  else if s.eyeletLost then s.eyeletFail
  else if !s.eyeletDone e then s
  else
    let s := if e = 0 then s.jumpTo (s.pwr.auxAt + s.e0Min * 1200000) else s
    let s := (s.eyeletSettles e).wr F.PS_STATUS.LAST_GOOD e
    let s := (s.modPwr fun p => { p with acting := false }).wr F.PS_STATUS.HOLDING 0
    if s.on F.PS_STATUS.SOLO then s.nextEyelet else s

/-- A half's core rail is good: the settings of E2 are applied, and its core PLL is enabled where REFCLK runs (R449, Table CK-3). When half B leads
already, half A claims beside it (R315, R320). -/
def State.coreGood (s : State) (h : Half) : State :=
  let s := (s.modWh h fun w => { w with coreGood := true }).applyCoreLists
  let s := if h = .a && s.wl.settled && s.mayClaim .a then s.modWh .a fun w => { w with claim := true } else s.electLate
  if s.on (F.CK_h_STATUS.REF_OK h.idx) then s.enableCorePll h else s

/-- RAIL_GOOD (R379): a rail in soft start, or an input rail, becomes good; a window of zero width never holds. -/
def railGood (r : Fin 12) (s : State) : State :=
  let st := s.rd (F.PS_RAIL_n_STATUS.STATE r.val)
  let w := s.window r.val
  if !s.pwr.aux || !(st == 1 || (r.val < 3 && st == 0)) || w.2 ≤ w.1 then s
  else
    let s := ((s.wr (F.PS_RAIL_n_STATUS.STATE r.val) 3).wr (F.PS_RAIL_n_STATUS.PG r.val) 1).wr (F.PS_RAIL_n_STATUS.IN_WIN r.val) 1
    if r.val = 3 then s.coreGood .a else if r.val = 4 then s.coreGood .b else s

/-- AUX_RESET (R470): the AUX domain and everything under it is reset; a record being written fails its CRC, and a flash operation is cut. -/
def auxReset (s : State) : State :=
  if !s.pwr.aux then s
  else
    let s := if s.pwr.recording && !s.pwr.recBytes.isEmpty then s.flashCut (0x1030000 + 256 * s.pwr.recSlot) 256 else s
    s.flashCutOff.powerOn

/-- SVC_START (R398): in an off state a press released before 8 s starts the device, sequencing solo. -/
def svcStart (s : State) : State :=
  let st := s.rd F.PS_STATUS.STATE
  if s.pwr.aux && 5 ≤ st && st ≤ 7 then s.svcRun else s

end Sys2Proof.Machine
end

