-- ==== Sys2Proof/Machine/ConfigSpace.lean ====
section
/-! DEFINITION. The configuration space of a head's function, its DOE and its CXL register blocks: what they report and what a host sets in them
(05_host_heads.md R155, R156, R180 to R182, R186, R190; 16_management_configuration.md R451). -/
namespace Sys2Proof.Machine

/-- The values of one CDAT entry (R180): DPA base and size and the non-volatile flag of the DSMAS, latency in ns and bandwidth in MB/s of the DSLBIS for
reads and for writes, and the memory type of the DSEMTS (0 EfiConventionalMemory, 1 EFI specific-purpose memory). -/
def Region.cdat (r : Region) : List Nat :=
  [r.base * 2 ^ 28, r.size * 2 ^ 28, 0, 115, 115, 59000, 59000, if r.cls == 1 then 0 else 1]

/-- The CDAT of a head: the regions of the active Last that list it as an owner. -/
def State.cdat (s : State) (h : Nat) : List Nat :=
  let c := s.schedOf (half4 h)
  ((c.map.regions.filter fun r => r.rdHeads.testBit h || r.wrHeads.testBit h).map Region.cdat).flatten

/-- What an item of a head's configuration space, DOE or register blocks reports.
- `ids`: vendor, device, revision, class code, subsystem vendor and subsystem (R451); `serial`: the device serial number (R156).
- `kamtalDvsec`: vendor ID, head number, half; `registerLocator`: for the component and the device block, its BAR and its offset (Table HP-3).
- `cxlDvsec`: Memory_Active and Memory_Active_Timeout in s (R186); `control`: Bus Master Enable, Max_Payload_Size, MSI-X Enable.
- `bar`, `msix`: a base address; address, data, mask and pending bit of a vector (R182). A function with no MSI-X table entry written is masked.
- `doeDiscovery`: vendor and type of each DOE protocol, discovery and CDAT Table Access (PRESUMED: the numbers are PCIe's and CXL's).
- `cdat`: R180; `ras`: the correctable link-level errors of the head (R155); `memoryDeviceStatus`: the Fatal bit, the media status and Mailbox
  Interface Ready of the device register block (R186, R188); `mailbox`: return code and payload of the last command. -/
def State.configItem (s : State) (h : Fin 4) : CfgItem → List Nat
  | .ids => [0x1F93, 0x2860, Config.dieRev.toNat, 0x050210, s.mg.subsystem.1, s.mg.subsystem.2]
  | .serial => [s.mg.serial.toNat]
  | .kamtalDvsec => [0x1F93, h.val, (half4 h.val).idx]
  | .registerLocator => [2, 0x100000, 2, 0x110000]
  | .cxlDvsec => [s.rd (F.HP_n_MEDIA.MEM_ACTIVE h.val), 64]
  | .control => let x := s.head h.val; [b2n x.bme, x.mps, b2n x.msixOn]
  | .bar i => [(s.head h.val).bars[i]]
  | .msix v => let e := (s.head h.val).msixTab[v]; [e.addr, e.data, b2n e.masked, b2n e.pending]
  | .doeDiscovery => [0x0001, 0x00, 0x1E98, 0x02]
  | .cdat => s.cdat h.val
  | .hdm d =>
    let x := (s.head h.val).hdm[d]
    [b2n x.committed, b2n x.error, x.dpaBase, x.prog.base, x.prog.size, x.prog.skip, x.prog.ways, x.prog.granularity, x.prog.position]
  | .ras => [(s.head h.val).ras]
  | .memoryDeviceStatus =>
    [b2n (s.fc (half4 h.val)).fatal, s.rd (F.HP_n_MEDIA.MEDIA_STATUS h.val), b2n (s.mailboxServed h.val)]
  | .mailbox => match (s.head h.val).mbox with | some m => m.1 :: m.2.map (·.toNat) | none => []

/-- A read of an item. -/
def State.configRead (s : State) (h : Fin 4) (item : CfgItem) : State := s.emit (.config h.val (s.configItem h item))

/-- Sizes of the base-address register pairs (Table HP-3). -/
def barSize (i : Nat) : Nat := [0x10000, 0x200000, 0x800000000].getD i 1

/-- Sets the mask of a vector; unmasking one that is pending sends it (PRESUMED: PCIe's rule). -/
def State.maskVector (s : State) (h : Nat) (v : Fin 4) (masked : Bool) : State :=
  let e := (s.head h).vec v.val
  let s := s.modHead h fun x => { x with msixTab := x.msixTab.set v { e with masked := masked, pending := e.pending && masked } }
  if e.pending && !masked then s.msix h v.val else s

/-- A write of the configuration space or the MSI-X table of a head: a base address keeps only the bits above its size, Max_Payload_Size is 128 or
256 bytes (R181), and an address of an MSI-X entry is 4-byte aligned. -/
def State.configWrite (s : State) (h : Nat) (r : CfgReg) (v : Nat) : State :=
  if !s.linkUp h then s
  else
    match r with
    | .bar i => s.modHead h fun x => { x with bars := x.bars.set i (v / barSize i.val * barSize i.val) }
    | .maxPayload => if v = 128 || v = 256 then s.modHead h fun x => { x with mps := v } else s
    | .msixEnable => s.modHead h fun x => { x with msixOn := v.testBit 0 }
    | .msixAddr n => s.modHead h fun x => { x with msixTab := x.msixTab.set n { x.vec n.val with addr := v / 4 * 4 } }
    | .msixData n => s.modHead h fun x => { x with msixTab := x.msixTab.set n { x.vec n.val with data := v % 2 ^ 32 } }
    | .msixMask n => s.maskVector h n (v.testBit 0)

end Sys2Proof.Machine
end

