-- ==== Sys2Proof/Machine/Windows.lean ====
section
/-! DEFINITION. Register writes over SPI, the management windows and the doorbell windows (00_scope.md R10 to R15; 05_host_heads.md R161 to
R167; 06 R209, R214), and the SPI management port (16_management_configuration.md R452 to R454; 15 R431). -/
namespace Sys2Proof.Machine

/-! The management window (R161) -/

/-- An access of wrong size or alignment: counted in DB_FORMAT. -/
def State.badFormat (s : State) (h : Nat) : State := s.bump (F.HP_n_REQ_ERR.DB_FORMAT h)

/-- Word address of a management-window access. -/
def State.windowAddr (s : State) (h off : Nat) : Nat := s.rd (F.HP_n_MW.PAGE h) * 2 ^ 18 + off / 4

/-- A write of `bytes` bytes at an offset of a management window; in the CXL register blocks above 0x0F_FFFF a write of the
HDM decoders, the mailbox or the RAS capability is a row of its own, and the spec states no other (log 204). -/
def windowWrite (h : Fin 4) (off bytes v : Nat) (s : State) : State :=
  if !s.linkUp h.val || 0x100000 ≤ off then s
  else if bytes ≠ 4 || off % 4 ≠ 0 then s.badFormat h.val
  else s.busWrite (.head h) (s.windowAddr h.val off) (v % 2 ^ 32)

/-! The doorbell window (Tables HP-4, HP-5, AM-7) -/

/-- DB_COPY_CMD (R214). -/
def copyCmd (h : Fin 4) (v : Nat) (s : State) : State :=
  if v.testBit 31 then slotCopyFromArchive h (Fin.ofNat 16 (bits v 23 20)) s
  else slotCopyToArchive h (Fin.ofNat 16 (bits v 23 20)) (BitVec.ofNat 16 v) s

/-- A write of RD_CTRL: ARM = 1 arms, ARM = 0 disarms (R167). -/
def ringCtrl (h : Fin 4) (r : Fin 512) (v : Nat) (s : State) : State :=
  if v.testBit 31 then arm h r (BitVec.ofNat 5 v) s else disarm h r (BitVec.ofNat 5 v) s

/-- A write of one word of a ring's descriptor (Table HP-5). -/
def ringWord (h : Fin 4) (r : Fin 512) (w v : Nat) (s : State) : State :=
  let x := BitVec.ofNat 32 v
  if w = 0x00 then ringDescriptorWrite h r .baseLo x s
  else if w = 0x04 then ringDescriptorWrite h r .baseHi x s
  else if w = 0x08 then ringDescriptorWrite h r .tailaLo x s
  else if w = 0x0C then ringDescriptorWrite h r .tailaHi x s
  else if w = 0x10 then ringDescriptorWrite h r .start x s
  else if w = 0x14 then consumedWrite h r x s
  else if w = 0x18 then ringCtrl h r v s
  else s.ringWrite h.val r.val w id

/-- A 4-byte write to a doorbell word; other offsets ignore it (R164). -/
def doorbellWord (h : Fin 4) (off v : Nat) (s : State) : State :=
  if off = 0x0004 then s.wr (F.HP_n_MW.PAGE h.val) (v % 64)
  else if off = 0x0014 then s.modHead h.val fun x => { x with tickEn := v.testBit 0 }
  else if 0x0100 ≤ off && off < 0x0200 && off % 16 = 0 then
    publishDoorbell h (Fin.ofNat 16 ((off - 0x100) / 16)) (BitVec.ofNat 16 v) (BitVec.ofNat 16 (v / 65536)) s
  else if 0x0100 ≤ off && off < 0x0200 && off % 16 = 4 then slotSelect h (Fin.ofNat 16 ((off - 0x100) / 16)) (BitVec.ofNat 16 v) s
  else if off = 0x0280 then s.modHead h.val fun x => { x with copyDst := x.copyDst / 2 ^ 32 * 2 ^ 32 + v }
  else if off = 0x0284 then s.modHead h.val fun x => { x with copyDst := v % 512 * 2 ^ 32 + x.copyDst % 2 ^ 32 }
  else if off = 0x0288 then copyCmd h v s
  else if 0x4000 ≤ off && off < 0x8000 then ringWord h (Fin.ofNat 512 ((off - 0x4000) / 32)) (off % 32) v s
  else s

/-- An 8-byte write: both words as one update; a low and high word pair of a descriptor is one write of one 64-bit field (R164, R166),
and a pair that covers DB_PUBLISH_s is ignored and counted (R209). -/
def doorbellPair (h : Fin 4) (off v : Nat) (s : State) : State :=
  if 0x0100 ≤ off && off < 0x0200 && off % 16 = 0 then s.badFormat h.val
  else if 0x4000 ≤ off && off < 0x8000 && off % 32 < 0x10 then
    let r := (off - 0x4000) / 32 % 512
    let w := off % 32
    s.ringWrite h.val r w fun s =>
      if (s.ring r).armed then s.ringRefused h.val r w 2
      else s.modRing r fun x => { x with desc := if w = 0 then { x.desc with base := v } else { x.desc with tail := v } }
  else doorbellWord h (off + 4) (v / 2 ^ 32) (doorbellWord h off (v % 2 ^ 32) s)

/-- A write of `bytes` bytes at an offset of a doorbell window. -/
def doorbellWrite (h : Fin 4) (off bytes v : Nat) (s : State) : State :=
  if !s.takesPosted h.val then s
  else if bytes = 4 && off % 4 = 0 then doorbellWord h off (v % 2 ^ 32) s
  else if bytes = 8 && off % 8 = 0 then doorbellPair h off v s
  else s.badFormat h.val

/-- What a doorbell word reads as (Tables HP-4, HP-5, AM-7), side effects aside: DB_FENCE is read by FENCE_READ, DB_FRAME_LO by FRAME_LO_READ. -/
def State.doorbellView (s : State) (h : Fin 4) (off : Nat) : Nat :=
  let c := s.schedOf (half4 h.val)
  let x := s.head h.val
  let n := (off - 0x100) / 16
  if off = 0x0000 then
    b2n (c.active) * 64 + s.rd (F.HP_n_MEDIA.MEDIA_STATUS h.val) * 16 + (half4 h.val).idx * 4 + h.val
  else if off = 0x0004 then s.rd (F.HP_n_MW.PAGE h.val)
  else if off = 0x0008 then s.frameCount (half4 h.val) % 2 ^ 32
  else if off = 0x000C then x.frameHi % 2 ^ 32
  else if off = 0x0010 then s.fsStitch (half4 h.val)
  else if off = 0x0014 then b2n x.tickEn
  else if 0x0100 ≤ off && off < 0x0200 && off % 16 = 4 then (c.rt n).wslot.getD 0xFFFF
  else if 0x0100 ≤ off && off < 0x0200 && off % 16 = 8 then s.srcState (half4 h.val) n
  else if 0x0240 ≤ off && off < 0x0280 then (c.rt ((off - 0x240) / 4)).pubStatus
  else if off = 0x0280 then x.copyDst % 2 ^ 32
  else if off = 0x0284 then x.copyDst / 2 ^ 32
  else if off = 0x028C then x.copyStatus
  else if 0x4000 ≤ off && off < 0x8000 then
    let r := s.ring ((off - 0x4000) / 32)
    [r.desc.base % 2 ^ 32, r.desc.base / 2 ^ 32, r.desc.tail % 2 ^ 32, r.desc.tail / 2 ^ 32, r.desc.start, r.consumed,
      b2n r.desc.arm * 2 ^ 31 + b2n r.armed * 2 ^ 30 + r.desc.log2, r.tail].getD (off % 32 / 4) 0
  else 0

/-- REGISTER_WRITE (R11, R13, R15). -/
def registerWrite (t : WriteTarget) (v : BitVec 64) (s : State) : State :=
  match t with
  | .word p a => s.busWrite p a.toNat (v.toNat % 2 ^ 32)
  | .window h off bytes => windowWrite h off.toNat bytes v.toNat s
  | .doorbell h off bytes => doorbellWrite h off.toNat bytes v.toNat s
  | .config h r => s.configWrite h.val r v.toNat

/-! Reads of the heads (R161, R164, R245) -/

/-- One word of a doorbell window, with the latch of DB_FRAME_LO (R42). -/
def State.doorbellRead (s : State) (h : Fin 4) (off : Nat) : Nat × State :=
  if off = 0x0008 then s.readFrameLo (.head h) true else (s.doorbellView h off, s)

/-- A read of `bytes` bytes at an offset of a doorbell window (R164); a wrong size or alignment reads 0 and is counted. -/
def State.readDoorbell (s : State) (h : Fin 4) (off bytes : Nat) : State :=
  if bytes = 4 && off % 4 = 0 then
    let r := s.doorbellRead h off
    r.2.emit (.readData (.head h) [BitVec.ofNat 32 r.1])
  else if bytes = 8 && off % 8 = 0 then
    let lo := s.doorbellRead h off
    let hi := lo.2.doorbellRead h (off + 4)
    hi.2.emit (.readData (.head h) [BitVec.ofNat 32 lo.1, BitVec.ofNat 32 hi.1])
  else (s.badFormat h.val).emit (.readData (.head h) [0])

/-- A read of a register through a head's management window. -/
def State.readWord (s : State) (h : Fin 4) (a : Nat) : State :=
  let r := s.busRead (.head h) a
  r.2.emit (.readData (.head h) [BitVec.ofNat 32 r.1])

/-- A read of `bytes` bytes at an offset of BAR2/3: in the management window a wrong size or alignment reads 0 and is counted (R161). Where CXL 3.1 places
a register in the blocks above 0x0F_FFFF is not stated, and what is read at an offset there is free (log 204); `configRead` names what they hold. -/
def State.readWindow (s : State) (h : Fin 4) (off bytes : Nat) : State :=
  if 0x100000 ≤ off then
    (s.draw).2.emit (.readData (.head h) ((List.range (max 1 (bytes / 4))).map fun i => BitVec.ofNat 32 (s.draw.1.toNat / 2 ^ (32 * i))))
  else if bytes ≠ 4 || off % 4 ≠ 0 then (s.badFormat h.val).emit (.readData (.head h) [0])
  else s.readWord h (s.windowAddr h.val off)

/-- Serves one CXL.io access of a head. -/
def State.ioServe (s : State) (h : Fin 4) : IoReq → State
  | .window off lines => s.takeWindowRead h.val off lines
  | .word off bytes => s.readWindow h off bytes
  | .doorbell off bytes => s.readDoorbell h off bytes
  | .reg a => s.readWord h a
  | .write a v => s.busWriteNow (.head h) a v
  | .frameLo => let r := s.readFrameLo (.head h) true; r.2.emit (.readData (.head h) [BitVec.ofNat 32 r.1])
  | .config item => s.configRead h item

/-- The oldest waiting CXL.io read of a head may be served: credits are there, and no pixel-window read goes before it that still runs. -/
def State.ioMayGo (s : State) (h : Nat) : Bool := s.inL0 h && !s.heldFor (half4 h) && (s.head h).win.isNone

/-- The waiting CXL.io reads of a head are served in order while they may. -/
def State.ioHead (s : State) (h : Fin 4) : State :=
  (s.head h.val).io.foldl (fun s q =>
    if s.ioMayGo h.val && (s.head h.val).io.head? == some q then (s.modHead h.val fun x => { x with io := x.io.drop 1 }).ioServe h q else s) s

/-- Every head serves the CXL.io reads that waited (R245). -/
def State.ioOn (s : State) : State := (List.finRange 4).foldl State.ioHead s

/-- A CXL.io read reaches a head: it takes its place behind those that wait. -/
def State.ioTake (s : State) (h : Fin 4) (q : IoReq) : State :=
  if s.linkUp h.val then (s.modHead h.val fun x => { x with io := x.io ++ [q] }).ioHead h else s

/-- READ (R10, R161, R164): a read through a head's windows or of its configuration space. A read of DB_FENCE is a fence read. -/
def headRead (h : Fin 4) (q : IoReq) (s : State) : State :=
  match q with
  | .doorbell 0x0200 4 => fenceRead h s
  | q => s.ioTake h q

/-! The SPI port (Table MG-8, R453) -/

/-- A faulty frame or an unanswered read: source 0x005 with the word address (Table FC-1a). -/
def State.spiFault (s : State) (a extra : Nat) : State := s.raiseL 0x005 0x0C (unitForm 0 a) extra

/-- A frame released in the middle of a word: the partial word is discarded and counted. -/
def State.partialWord (s : State) (a : Nat) (partialWord : Bool) : State :=
  if partialWord then ((s.bump F.MG_SPI_STAT.PARTIAL).wr F.MG_SPI_STAT.F_PARTIAL 1).spiFault a 2 else s

/-- A word of READ: the MG, FC and PS blocks answer from the AUX domain; any other address reads 0 and counts in MISS. -/
def State.auxRead (s : State) (a : Nat) : Nat × State := if a < 0x30000 then s.busRead .spi a else (0, s.bump F.MG_SPI_STAT.MISS)

/-- The words of a READ frame. -/
def State.auxReads (s : State) : (a n : Nat) → List Word × State
  | _, 0 => ([], s)
  | a, n + 1 =>
    let r := s.auxRead (a % 2 ^ 24)
    let t := r.2.auxReads (a + 1) n
    (BitVec.ofNat 32 r.1 :: t.1, t.2)

/-- Words on MSPI_MISO; without VAUX the ball is high impedance (R471). -/
def State.misoOut (s : State) (ws : List Word) : State := if s.pwr.aux then s.emit (.miso ws) else s

/-- READ (R452, R453). -/
def spiRead (a : BitVec 24) (words : Nat) (partialWord : Bool) (s : State) : State :=
  let r := s.auxReads a.toNat words
  (r.2.misoOut r.1).partialWord a.toNat partialWord

/-- The words of a WRITE frame, in order. -/
def State.spiWrites (s : State) : (a : Nat) → List Word → State
  | _, [] => s
  | a, w :: t => (s.busWrite .spi (a % 2 ^ 24) w.toNat).spiWrites (a + 1) t

/-- READ: a frame of `count` words on the SPI port, or a read of `count` bytes through a head (R10, R161, R164, R452). -/
def readAny (t : ReadTarget) (count : Nat) (partialWord : Bool) (s : State) : State :=
  match t with
  | .spi a => spiRead a count partialWord s
  | .window h off => headRead h (.word off.toNat count) s
  | .doorbell h off => headRead h (.doorbell off.toNat count) s
  | .config h item => headRead h (.config item) s

/-- A register read on a path that has a command of its own: over a head it takes its place among the head's CXL.io reads. -/
def State.readVia (s : State) (p : Path) (q : IoReq) (act : State → State) : State :=
  match p with
  | .spi => act s
  | .head h => if s.ioMayGo h.val && (s.head h.val).io.isEmpty then act s else s.ioTake h q

/-- LUT_DATA_ACCESS on a path (R491): a read over a head takes its place among the head's reads. -/
def lutDataVia (p : Path) (w : Option Word) (s : State) : State :=
  match w with
  | none => s.readVia p (.reg F.LE_LUT_DATA.DATA.a) (lutDataAccess p none)
  | some v => lutDataAccess p (some v) s

/-- FRAME_LO_READ on a path (R42). -/
def frameLoVia (p : Path) (doorbell : Bool) (s : State) : State :=
  s.readVia p (if doorbell then .frameLo else .reg F.FS_FRAME_LO.FRAME_LO.a) (frameLoRead p doorbell)

/-- TSQ_POP on a path (R373). -/
def tsqPopVia (p : Path) (s : State) : State := s.readVia p (.reg F.TB_TSQ_POP.ID.a) (tsqPop p)

/-- WRITE (R452, R453). -/
def spiWrite (a : BitVec 24) (words : List Word) (partialWord : Bool) (s : State) : State :=
  (s.spiWrites a.toNat words).partialWord a.toNat partialWord

/-- FETCH (R452, R453): BUSY until the words are fetched; a count outside 1 to 64 fetches nothing; a FETCH while one runs is not taken. -/
def fetch (a : BitVec 24) (count : BitVec 7) (excess : Bool) (s : State) : State :=
  let n := count.toNat
  let s :=
    if s.mg.fetching.isSome then s
    else if n = 0 || 64 < n then (s.wr F.MG_SPI_FETCH.COUNT 0).wr F.MG_SPI_FETCH.TIMEOUT 0
    else ((s.modMg fun m => { m with fetching := some (a.toNat, n) }).wr F.MG_SPI_FETCH.BUSY 1).wr F.MG_SPI_FETCH.TIMEOUT 0
  if excess then ((s.bump F.MG_SPI_STAT.EXCESS).wr F.MG_SPI_STAT.F_EXCESS 1).spiFault a.toNat 3 else s

/-- One fetched word: 0 when its block did not answer within 20 µs (R431), which the AUX-domain blocks always do. -/
def State.fetchWord (s : State) (a i : Nat) (unanswered : List Nat) : State :=
  let at' := (a + i) % 2 ^ 24
  let miss := unanswered.contains i && 0x30000 ≤ at'
  let r := if miss then (0, (s.wr F.MG_SPI_FETCH.TIMEOUT 1).spiFault at' 4) else s.busRead .spi at'
  r.2.modMg fun m => { m with fetchBuf := Sparse.put (fun _ => 0) m.fetchBuf i (BitVec.ofNat 32 r.1) }

/-- FETCH_DONE (R431): every word is fetched, with its side effects, in order. -/
def fetchDone (unanswered : List Nat) (s : State) : State :=
  match s.mg.fetching with
  | none => s
  | some (a, n) =>
    let s := (List.range n).foldl (fun s i => s.fetchWord a i unanswered) s
    ((s.modMg fun m => { m with fetching := none }).wr F.MG_SPI_FETCH.BUSY 0).wr F.MG_SPI_FETCH.COUNT n

/-- RDBUF (R452, R453): words of the fetch buffer from index [5:0], rising modulo 64. -/
def rdbuf (a : BitVec 24) (words : Nat) (partialWord : Bool) (s : State) : State :=
  let ws := (List.range words).map fun i => Sparse.get (fun _ => 0) s.mg.fetchBuf ((a.toNat + i) % 64)
  (s.misoOut ws).partialWord a.toNat partialWord

/-- SHORT_FRAME (R453). -/
def shortFrame (a : BitVec 24) (s : State) : State :=
  ((s.bump F.MG_SPI_STAT.SHORT).wr F.MG_SPI_STAT.F_SHORT 1).spiFault a.toNat 1

end Sys2Proof.Machine
end

