-- ==== Sys2Proof/Machine/Meanings.lean ====
section
/-! DEFINITION. The meaning of every command, one definition each: its effect as the family files give it, which is always a next
state. -/
namespace Sys2Proof.Machine

/-- AUX_UP (R470). -/
def execAuxUp (testEn : Bool) (s : State) : Host.Outcome State Fault Refusal := .next (auxUp testEn s)

/-- EYELET_ENTRY (R385). -/
def execEyeletEntry (env : EyeletEnv) (s : State) : Host.Outcome State Fault Refusal := .next (eyeletEntry env s)

/-- PASSPORT_RETRY (R445). -/
def execPassportRetry (pp : PpRead) (s : State) : Host.Outcome State Fault Refusal := .next (passportRetry pp s)

/-- TRAINING_DONE (R267). -/
def execTrainingDone (n : Fin 16) (lanes0 lanes1 : List LaneSweep) (ca0 ca1 : List CaSweep) (zq0 zq1 : Bool) (s : State) :
    Host.Outcome State Fault Refusal := .next (trainingDone n (lanes0 ++ lanes1) (ca0 ++ ca1) (zq0 && zq1) s)

/-- FILL_DONE (R295). -/
def execFillDone (s : State) : Host.Outcome State Fault Refusal := .next (fillDone s)

/-- EYELET_COMPLETE (R385). -/
def execEyeletComplete (s : State) : Host.Outcome State Fault Refusal := .next (eyeletComplete s)

/-- LACE_RISE (R385). -/
def execLaceRise (s : State) : Host.Outcome State Fault Refusal := .next (laceRise s)

/-- EYE_WARN (R386). -/
def execEyeWarn (s : State) : Host.Outcome State Fault Refusal := .next (eyeWarn s)

/-- LACE_ABORT (R387). -/
def execLaceAbort (s : State) : Host.Outcome State Fault Refusal := .next (laceAbort s)

/-- LACE_GLITCH (R387). -/
def execLaceGlitch (s : State) : Host.Outcome State Fault Refusal := .next (laceGlitch s)

/-- LACE_ABORT_WRITE (R387). -/
def execLaceAbortWrite (p : Path) (s : State) : Host.Outcome State Fault Refusal := .next (laceAbortCmd p s)

/-- SOFT_START_FAIL (R381). -/
def execSoftStartFail (r : Fin 12) (overCurrent : Bool) (mv : Nat) (s : State) :
    Host.Outcome State Fault Refusal := .next (softStartFail r overCurrent mv s)

/-- SOFT_START_RETRY (R381). -/
def execSoftStartRetry (r : Fin 12) (s : State) : Host.Outcome State Fault Refusal := .next (softStartRetry r s)

/-- RAIL_GOOD (R379). -/
def execRailGood (r : Fin 12) (s : State) : Host.Outcome State Fault Refusal := .next (railGood r s)

/-- RAIL_FAIL (R382). -/
def execRailFail (r : Fin 12) (cause : RailCause) (mv : Nat) (s : State) : Host.Outcome State Fault Refusal := .next (railFail r cause mv s)

/-- TRANSITION_START (R383). -/
def execTransitionStart (p : Path) (v : Word) (s : State) : Host.Outcome State Fault Refusal := .next (transitionStart p v s)

/-- TRANSITION_BLANK_END (R383). -/
def execTransitionBlankEnd (s : State) : Host.Outcome State Fault Refusal := .next (transitionBlankEnd s)

/-- PFW_ASSERT (R390). -/
def execPfwAssert (vinMv : Nat) (s : State) : Host.Outcome State Fault Refusal := .next (pfwAssert vinMv s)

/-- PFW_RIDE (R390). -/
def execPfwRide (s : State) : Host.Outcome State Fault Refusal := .next (pfwRide s)

/-- PFW_DELAY_END (R390). -/
def execPfwDelayEnd (s : State) : Host.Outcome State Fault Refusal := .next (pfwDelayEnd s)

/-- RAIL_GROUP_DROP (R391). -/
def execRailGroupDrop (s : State) : Host.Outcome State Fault Refusal := .next (railGroupDrop s)

/-- POWER_FAIL_RECORD (R392). -/
def execPowerFailRecord (byVrec : Bool) (vinMv : Nat) (samples : List (BitVec 12)) (tShedUs tRecUs : Nat) (s : State) :
    Host.Outcome State Fault Refusal := .next (powerFailRecord byVrec vinMv samples tShedUs tRecUs s)

/-- RECORD_WRITTEN (R394). -/
def execRecordWritten (ok : Bool) (s : State) : Host.Outcome State Fault Refusal := .next (recordWritten ok s)

/-- VAUX_FAIL (R391). -/
def execVauxFail (vauxc : Bool) (mv : Nat) (s : State) : Host.Outcome State Fault Refusal := .next (vauxFail vauxc mv s)

/-- AUX_RESET (R470). -/
def execAuxReset (s : State) : Host.Outcome State Fault Refusal := .next (auxReset s)

/-- VIN_RETURN_OFF (R395). -/
def execVinReturnOff (vinMv : Nat) (s : State) : Host.Outcome State Fault Refusal := .next (vinReturnOff vinMv s)

/-- SHORT_PRESS (R397). -/
def execShortPress (s : State) : Host.Outcome State Fault Refusal := .next (shortPress s)

/-- FORCED_OFF (R397). -/
def execForcedOff (s : State) : Host.Outcome State Fault Refusal := .next (forcedOff s)

/-- SVC_START (R398). -/
def execSvcStart (s : State) : Host.Outcome State Fault Refusal := .next (svcStart s)

/-- WARM_RESET (R438). -/
def execWarmReset (s : State) : Host.Outcome State Fault Refusal := .next (mgWarmReset s)

/-- WATCHDOG_EXPIRY (R438). -/
def execWatchdogExpiry (h : Half) (s : State) : Host.Outcome State Fault Refusal := .next (watchdogExpiry h s)

/-- TICK_START (R40). -/
def execTickStart (h : Half) (s : State) : Host.Outcome State Fault Refusal := .next ((tickStart h s).ioOn)

/-- TICK_OUT_END (R372). -/
def execTickOutEnd (s : State) : Host.Outcome State Fault Refusal := .next (tickOutEnd s)

/-- CUT_OFF (R44). -/
def execCutOff (h : Half) (s : State) : Host.Outcome State Fault Refusal := .next (cutOff h s)

/-- PRODUCTION_END (R72). -/
def execProductionEnd (h : Half) (s : State) : Host.Outcome State Fault Refusal := .next (productionEnd h s)

/-- IDLE_CYCLE_END (R45). -/
def execIdleCycleEnd (h : Half) (s : State) : Host.Outcome State Fault Refusal := .next ((idleCycleEnd h s).ioOn)

/-- FREEZE (R51). -/
def execFreeze (p : Path) (s : State) : Host.Outcome State Fault Refusal := .next (freeze p s)

/-- RELEASE (R51). -/
def execRelease (p : Path) (s : State) : Host.Outcome State Fault Refusal := .next (release p s)

/-- SET_DELAY (R50). -/
def execSetDelay (p : Path) (s : State) : Host.Outcome State Fault Refusal := .next (setDelay p s)

/-- SET_GAIN (R57). -/
def execSetGain (p : Path) (s : State) : Host.Outcome State Fault Refusal := .next (setGain p s)

/-- STREAM_ON (R57). -/
def execStreamOn (p : Path) (s : State) : Host.Outcome State Fault Refusal := .next (streamOn p s)

/-- STREAM_OFF (R57). -/
def execStreamOff (p : Path) (s : State) : Host.Outcome State Fault Refusal := .next (streamOff p s)

/-- SWITCH_LAST (R65). -/
def execSwitchLast (p : Path) (s : State) : Host.Outcome State Fault Refusal := .next (switchLast p s)

/-- OPCODE_INVALID (R59). -/
def execOpcodeInvalid (p : Path) (op : BitVec 4) (s : State) : Host.Outcome State Fault Refusal := .next (opcodeInvalid p op s)

/-- ADMIT (R66). -/
def execAdmitLast (p : Path) (sel : Fin 4) (s : State) : Host.Outcome State Fault Refusal := .next (admitLast p sel s)

/-- ADMISSION_DONE (R71). -/
def execAdmissionDone (s : State) : Host.Outcome State Fault Refusal := .next (admissionDone s)

/-- ACTIVATE (R66). -/
def execActivate (p : Path) (s : State) : Host.Outcome State Fault Refusal := .next (activate p s)

/-- CANCEL (R488). -/
def execCancel (p : Path) (s : State) : Host.Outcome State Fault Refusal := .next (cancel p s)

/-- COMMIT (R85). -/
def execCommit (p : Path) (s : State) : Host.Outcome State Fault Refusal := .next (commit p s)

/-- LUT_COPY_DONE (R86). -/
def execLutCopyDone (s : State) : Host.Outcome State Fault Refusal := .next (lutCopyDone s)

/-- LUT_DATA_ACCESS (R491). -/
def execLutDataAccess (p : Path) (w : Option Word) (s : State) : Host.Outcome State Fault Refusal := .next (lutDataVia p w s)

/-- FRAME_LO_READ (R42). -/
def execFrameLoRead (p : Path) (doorbell : Bool) (s : State) : Host.Outcome State Fault Refusal := .next (frameLoVia p doorbell s)

/-- PUBLISH_DOORBELL (R210). -/
def execPublishDoorbell (h : Fin 4) (src : Fin 16) (slot tag : BitVec 16) (s : State) :
    Host.Outcome State Fault Refusal := .next (publishDoorbell h src slot tag s)

/-- PUBLICATION_COUNT (R210). -/
def execPublicationCount (src : Fin 16) (s : State) : Host.Outcome State Fault Refusal := .next (publicationCount src s)

/-- SLOT_SELECT (R132). -/
def execSlotSelect (h : Fin 4) (src : Fin 16) (slot : BitVec 16) (s : State) : Host.Outcome State Fault Refusal := .next (slotSelect h src slot s)

/-- PIXEL_WINDOW_WRITE (R130). -/
def execPixelWindowWrite (h : Fin 4) (offset : BitVec 35) (bytes : List Byte) (allEnabled : Bool) (s : State) :
    Host.Outcome State Fault Refusal := .next (pixelWindowWrite h offset bytes allEnabled s)

/-- BLOCK_ROW_ENCODED (R136). -/
def execBlockRowEncoded (src : Fin 16) (s : State) : Host.Outcome State Fault Refusal := .next (blockRowEncoded src s)

/-- SIZE_MAP_MERGE (R124). -/
def execSizeMapMerge (src : Fin 16) (err : SymErr) (s : State) : Host.Outcome State Fault Refusal := .next (sizeMapMerge src err s)

/-- PIXEL_WINDOW_READ (R153). -/
def execPixelWindowRead (h : Fin 4) (offset : BitVec 35) (lines : Nat) (s : State) :
    Host.Outcome State Fault Refusal := .next (pixelWindowRead h offset lines s)

/-- SLOT_COPY_TO_ARCHIVE (R214). -/
def execSlotCopyToArchive (h : Fin 4) (src : Fin 16) (slot : BitVec 16) (s : State) :
    Host.Outcome State Fault Refusal := .next (slotCopyToArchive h src slot s)

/-- SLOT_COPY_FROM_ARCHIVE (R214). -/
def execSlotCopyFromArchive (h : Fin 4) (src : Fin 16) (s : State) : Host.Outcome State Fault Refusal := .next (slotCopyFromArchive h src s)

/-- SLOT_COPY_DONE (R215). -/
def execSlotCopyDone (h : Fin 4) (s : State) : Host.Outcome State Fault Refusal := .next (slotCopyDone h s)

/-- FENCE_READ (R208). -/
def execFenceRead (h : Fin 4) (s : State) : Host.Outcome State Fault Refusal := .next (fenceRead h s)

/-- FENCE_READ_COMPLETE (R208). -/
def execFenceReadComplete (h : Fin 4) (waited10ns : Nat) (s : State) : Host.Outcome State Fault Refusal := .next (fenceReadComplete h waited10ns s)

/-- RING_DESCRIPTOR_WRITE (R166). -/
def execRingDescriptorWrite (h : Fin 4) (r : Fin 512) (w : RdWord) (v : Word) (s : State) :
    Host.Outcome State Fault Refusal := .next (ringDescriptorWrite h r w v s)

/-- ARM (R108). -/
def execArm (h : Fin 4) (r : Fin 512) (log2 : BitVec 5) (s : State) : Host.Outcome State Fault Refusal := .next (arm h r log2 s)

/-- DISARM (R167). -/
def execDisarm (h : Fin 4) (r : Fin 512) (log2 : BitVec 5) (s : State) : Host.Outcome State Fault Refusal := .next (disarm h r log2 s)

/-- ARM_EFFECT (R108). -/
def execArmEffect (r : Fin 512) (s : State) : Host.Outcome State Fault Refusal := .next (armEffect r s)

/-- CONSUMED_WRITE (R108). -/
def execConsumedWrite (h : Fin 4) (r : Fin 512) (v : Word) (s : State) : Host.Outcome State Fault Refusal := .next (consumedWrite h r v s)

/-- CHUNK_STAGED (R95). -/
def execChunkStaged (e : Fin 16) (lutErrs : List LutErr) (s : State) : Host.Outcome State Fault Refusal := .next (chunkStaged e lutErrs s)

/-- STREAM_OPEN (R99). -/
def execStreamOpen (e : Fin 16) (s : State) : Host.Outcome State Fault Refusal := .next (streamOpen e s)

/-- CHUNK_RECORD_WRITE (R106). -/
def execChunkRecordWrite (r : Fin 512) (s : State) : Host.Outcome State Fault Refusal := .next (chunkRecordWrite r s)

/-- CHUNK_SKIP (R109). -/
def execChunkSkip (x : SkipOf) (s : State) : Host.Outcome State Fault Refusal := .next (chunkSkip x.ring x.noCredits s)

/-- RECORD_ABANDON (R185). -/
def execRecordAbandon (r : Fin 512) (s : State) : Host.Outcome State Fault Refusal := .next (recordAbandon r s)

/-- PANIC_ASSERT (R103). -/
def execPanicAssert (e : Fin 16) (level : Nat) (s : State) : Host.Outcome State Fault Refusal := .next (panicAssert e level s)

/-- PANIC_RELEASE (R103). -/
def execPanicRelease (e : Fin 16) (level : Nat) (s : State) : Host.Outcome State Fault Refusal := .next (panicRelease e level s)

/-- PANIC_MAX_EXPIRY (R103). -/
def execPanicMaxExpiry (e : Fin 16) (s : State) : Host.Outcome State Fault Refusal := .next (panicMaxExpiry e s)

/-- ENGINE_START (R104). -/
def execEngineStart (e : Fin 16) (s : State) : Host.Outcome State Fault Refusal := .next (engineStart e s)

/-- FENCE (R115). -/
def execFence (p : Path) (e : Fin 16) (s : State) : Host.Outcome State Fault Refusal := .next (fence p e s)

/-- ENABLE (R116). -/
def execEnable (p : Path) (e : Fin 16) (s : State) : Host.Outcome State Fault Refusal := .next (enable p e s)

/-- ENGINE_SELF_CHECK_FAIL (R115). -/
def execEngineSelfCheckFail (e : Fin 16) (s : State) : Host.Outcome State Fault Refusal := .next (engineSelfCheckFail e s)

/-- MEMRD (R175). -/
def execMemRd (h : Fin 4) (hpa : Nat) (s : State) : Host.Outcome State Fault Refusal := .next (memRd h hpa s)

/-- MEMRDDATA (R175). -/
def execMemRdData (h : Fin 4) (hpa : Nat) (s : State) : Host.Outcome State Fault Refusal := .next (memRdData h hpa s)

/-- MEMSPECRD (R175). -/
def execMemSpecRd (h : Fin 4) (hpa : Nat) (s : State) : Host.Outcome State Fault Refusal := .next (memSpecRd h hpa s)

/-- MEMINV (R175). -/
def execMemInv (h : Fin 4) (hpa : Nat) (s : State) : Host.Outcome State Fault Refusal := .next (memInv h hpa s)

/-- MEMINVNT (R175). -/
def execMemInvNt (h : Fin 4) (hpa : Nat) (s : State) : Host.Outcome State Fault Refusal := .next (memInvNt h hpa s)

/-- MEMWR (R176). -/
def execMemWr (h : Fin 4) (hpa : Nat) (data : LineData) (poison : Bool) (s : State) :
    Host.Outcome State Fault Refusal := .next (memWr h hpa data poison s)

/-- MEMWRPTL (R175). -/
def execMemWrPtl (h : Fin 4) (hpa : Nat) (x : PtlData) (enables : BitVec 64) (s : State) :
    Host.Outcome State Fault Refusal := .next (memWrPtl h hpa x.data enables x.poison s)

/-- DRAM_READ_RETURN (R290). -/
def execDramReadReturn (n : Fin 16) (x : ReadBurst) (s : State) : Host.Outcome State Fault Refusal := .next (dramReadReturn n x.err x.gates s)

/-- BLOCK_DECODE (R148). -/
def execBlockDecode (who : DecodeFor) (src : Fin 16) (slot block : Nat) (s : State) :
    Host.Outcome State Fault Refusal := .next ((blockDecode who src slot block s).ioOn)

/-- GET_EVENT_RECORDS (R171). -/
def execGetEventRecords (h : Fin 4) (log : Fin 4) (s : State) : Host.Outcome State Fault Refusal := .next (getEventRecords h log s)

/-- CLEAR_EVENT_RECORDS (R171). -/
def execClearEventRecords (h : Fin 4) (log : Fin 4) (count : Nat) (s : State) :
    Host.Outcome State Fault Refusal := .next (clearEventRecords h log count s)

/-- GET_TIMESTAMP (R170). -/
def execGetTimestamp (h : Fin 4) (s : State) : Host.Outcome State Fault Refusal := .next (getTimestamp h s)

/-- SET_TIMESTAMP (R170). -/
def execSetTimestamp (h : Fin 4) (v : BitVec 64) (s : State) : Host.Outcome State Fault Refusal := .next (setTimestamp h v s)

/-- GET_SUPPORTED_LOGS (R168). -/
def execGetSupportedLogs (h : Fin 4) (s : State) : Host.Outcome State Fault Refusal := .next (getSupportedLogs h s)

/-- GET_LOG (R168). -/
def execGetLog (h : Fin 4) (s : State) : Host.Outcome State Fault Refusal := .next (getLog h s)

/-- IDENTIFY_MEMORY_DEVICE (R169). -/
def execIdentifyMemoryDevice (h : Fin 4) (s : State) : Host.Outcome State Fault Refusal := .next (identifyMemoryDevice h s)

/-- GET_POISON_LIST (R172). -/
def execGetPoisonList (h : Fin 4) (dpa length : Nat) (s : State) : Host.Outcome State Fault Refusal := .next (getPoisonList h dpa length s)

/-- GET_HEAD_SUMMARY (R168). -/
def execGetHeadSummary (h : Fin 4) (s : State) : Host.Outcome State Fault Refusal := .next (getHeadSummary h s)

/-- GET_RING_STATUS (R492). -/
def execGetRingStatus (h : Fin 4) (first count : Nat) (s : State) : Host.Outcome State Fault Refusal := .next (getRingStatus h first count s)

/-- GET_ADMISSION_RESULT (R168). -/
def execGetAdmissionResult (h : Fin 4) (s : State) : Host.Outcome State Fault Refusal := .next (getAdmissionResult h s)

/-- READ_SELVEDGE_LOG (R422). -/
def execReadSelvedgeLog (h : Fin 4) (first count : Nat) (s : State) : Host.Outcome State Fault Refusal := .next (readSelvedgeLog h first count s)

/-- ROLE_CHALLENGE (R456). -/
def execRoleChallenge (h : Fin 4) (role : Nat) (s : State) : Host.Outcome State Fault Refusal := .next (roleChallenge h role s)

/-- ROLE_RESPONSE (R456). -/
def execRoleResponse (h : Fin 4) (resp : BitVec 256) (s : State) : Host.Outcome State Fault Refusal := .next (roleResponse h resp s)

/-- DROP_ROLE (R162). -/
def execDropRole (h : Fin 4) (s : State) : Host.Outcome State Fault Refusal := .next (dropRole h s)

/-- UNSUPPORTED_OPCODE (R168). -/
def execUnsupportedOpcode (h : Fin 4) (opcode : BitVec 16) (s : State) : Host.Outcome State Fault Refusal := .next (unsupportedOpcode h opcode s)

/-- LINK_TRAINING (R157). -/
def execLinkTraining (h : Fin 4) (s : State) : Host.Outcome State Fault Refusal := .next (linkTraining h s)

/-- LINK_UP (R157). -/
def execLinkUp (h : Fin 4) (rate width : Fin 3) (flit68 : Bool) (s : State) :
    Host.Outcome State Fault Refusal := .next ((linkUp h rate width flit68 s).ioOn)

/-- LINK_RECOVERY (R189). -/
def execLinkRecovery (h : Recovery) (s : State) : Host.Outcome State Fault Refusal := .next (linkRecovery h.head h.ras s)

/-- LINK_DOWN (R190). -/
def execLinkDown (h : Fin 4) (partialWrites partialLines : Nat) (s : State) :
    Host.Outcome State Fault Refusal := .next (linkDown h partialWrites partialLines s)

/-- PERST_ASSERT (R474). -/
def execPerstAssert (h : Fin 4) (partialWrites partialLines : Nat) (s : State) :
    Host.Outcome State Fault Refusal := .next (perstAssert h partialWrites partialLines s)

/-- BUS_MASTER_ENABLE_CLEAR (R183). -/
def execBusMasterEnableClear (h : Fin 4) (s : State) : Host.Outcome State Fault Refusal := .next (busMasterEnableClear h s)

/-- HDM_DECODER_COMMIT (R173). -/
def execHdmDecoderCommit (h : Fin 4) (d : Fin 4) (prog : HdmProg) (s : State) :
    Host.Outcome State Fault Refusal := .next (hdmDecoderCommit h d prog s)

/-- VISIT (R217). -/
def execVisit (n : Fin 16) (s : State) : Host.Outcome State Fault Refusal := .next (visit n s)

/-- REFRESH (R229). -/
def execRefresh (n : Fin 16) (rank : Fin 2) (s : State) : Host.Outcome State Fault Refusal := .next (refresh n rank s)

/-- REFRESH_KEEPER (R232). -/
def execRefreshKeeper (n : Fin 16) (x : KeeperRank) (s : State) : Host.Outcome State Fault Refusal := .next (refreshKeeper n x.rank x.pathFailed s)

/-- MR4_POLL (R230). -/
def execMr4Poll (n : Fin 16) (codes : List (Fin 8)) (aboveRated : Bool) (s : State) :
    Host.Outcome State Fault Refusal := .next (mr4Poll n codes aboveRated s)

/-- BULK_AGE_PROMOTION (R223). -/
def execBulkAgePromotion (n : Fin 16) (s : State) : Host.Outcome State Fault Refusal := .next (bulkAgePromotion n s)

/-- ALERT_WINDOW_EXPIRY (R238). -/
def execAlertWindowExpiry (n : Fin 16) (s : State) : Host.Outcome State Fault Refusal := .next (alertWindowExpiry n s)

/-- WRITE_CRC_ALERT (R239). -/
def execWriteCrcAlert (n : Fin 16) (s : State) : Host.Outcome State Fault Refusal := .next (writeCrcAlert n s)

/-- VERIFY_READBACK (R240). -/
def execVerifyReadback (n : Fin 16) (err : SymErr) (s : State) : Host.Outcome State Fault Refusal := .next (verifyReadback n err s)

/-- TS_REQ_WRITE (R243). -/
def execTsReqWrite (p : Path) (n : Fin 16) (v : Word) (s : State) : Host.Outcome State Fault Refusal := .next (tsReqWrite p n v s)

/-- TS_SWITCH (R243). -/
def execTsSwitch (n : Fin 16) (s : State) : Host.Outcome State Fault Refusal := .next (tsSwitch n s)

/-- FREQUENCY_CHANGE (R245). -/
def execFrequencyChange (n : Fin 16) (rampUs relockUs trackUs : Nat) (s : State) :
    Host.Outcome State Fault Refusal := .next (frequencyChange n (rampUs + relockUs + trackUs) s)

/-- RAMP_END (R339). -/
def execRampEnd (n : Fin 16) (s : State) : Host.Outcome State Fault Refusal := .next (rampEnd n s)

/-- DLL_LOCK (R341). -/
def execDllLock (x : DllLocked) (s : State) : Host.Outcome State Fault Refusal := .next (dllLock x.sub x.quick s)

/-- FREQUENCY_CHANGE_DONE (R245). -/
def execFrequencyChangeDone (s : State) : Host.Outcome State Fault Refusal := .next ((frequencyChangeDone s).ioOn)

/-- ARCHIVE_SLEEP (R249). -/
def execArchiveSleep (n : Fin 16) (s : State) : Host.Outcome State Fault Refusal := .next (archiveSleep n s)

/-- ARCHIVE_WAKE (R250). -/
def execArchiveWake (n : Fin 16) (s : State) : Host.Outcome State Fault Refusal := .next (archiveWake n s)

/-- WAKE_EVENT_START (R254). -/
def execWakeEventStart (h : Half) (s : State) : Host.Outcome State Fault Refusal := .next (wakeEventStart h s)

/-- RETIRE (R277). -/
def execRetire (p : Path) (n : Fin 16) (s : State) : Host.Outcome State Fault Refusal := .next (retire p n s)

/-- RETRAIN (R272). -/
def execRetrain (p : Path) (n : Fin 16) (s : State) : Host.Outcome State Fault Refusal := .next (retrain p n s)

/-- CLEAR_MARKS (R278). -/
def execClearMarks (p : Path) (n : Fin 16) (s : State) : Host.Outcome State Fault Refusal := .next (clearMarks p n s)

/-- TRACKING_MEASUREMENT (R268). -/
def execTrackingMeasurement (n : Fin 16) (rank : Fin 2) (counts : List (Fin 10 × Nat)) (s : State) :
    Host.Outcome State Fault Refusal := .next (trackingMeasurement n rank counts s)

/-- READ_STEP (R272). -/
def execReadStep (n : Fin 16) (lanes : List LaneSweep) (x : StepRun) (s : State) :
    Host.Outcome State Fault Refusal := .next (readStep n lanes x.us x.cut s)

/-- WRITE_STEP (R274). -/
def execWriteStep (n : Fin 16) (lanes : List LaneSweep) (x : BorrowRun) (s : State) :
    Host.Outcome State Fault Refusal := .next (writeStep n lanes x.us x.granule x.cut s)

/-- VREF_STEP (R272). -/
def execVrefStep (n : Fin 16) (lanes : List LaneSweep) (x : StepRun) (s : State) :
    Host.Outcome State Fault Refusal := .next (vrefStep n lanes x.us x.cut s)

/-- CHECK_STEP (R241). -/
def execCheckStep (n : Fin 16) (lanes : List LaneSweep) (x : BorrowRun) (s : State) :
    Host.Outcome State Fault Refusal := .next (checkStep n lanes x.us x.granule x.cut s)

/-- REBUILD_GRANULE (R282). -/
def execRebuildGranule (h : Half) (s : State) : Host.Outcome State Fault Refusal := .next (rebuildGranule h s)

/-- REGION_FILL_DONE (R212). -/
def execRegionFillDone (h : Half) (s : State) : Host.Outcome State Fault Refusal := .next (regionFillDone h s)

/-- FAST_CLOSE (R297). -/
def execFastClose (p : Path) (s : State) : Host.Outcome State Fault Refusal := .next (fastClose p s)

/-- SCRUB_START (R298). -/
def execScrubStart (p : Path) (s : State) : Host.Outcome State Fault Refusal := .next (scrubStart p s)

/-- SCRUB_ABORT (R302). -/
def execScrubAbort (p : Path) (s : State) : Host.Outcome State Fault Refusal := .next (scrubAbort p s)

/-- SCRUB_STEP (R299). -/
def execScrubStep (x : ScrubRun) (s : State) : Host.Outcome State Fault Refusal := .next (scrubStep x.half x.us s)

/-- WELT_LOST (R311). -/
def execWeltLost (cause : Fin 3) (s : State) : Host.Outcome State Fault Refusal := .next (weltLost cause s)

/-- FLIT_REPLAY (R310). -/
def execFlitReplay (repaired : Option Half) (s : State) : Host.Outcome State Fault Refusal := .next (flitReplay repaired s)

/-- WELT_RETRAIN (R326). -/
def execWeltRetrain (x : WeltTrained) (s : State) : Host.Outcome State Fault Refusal := .next (weltRetrain x.ok x.deadAB x.deadBA s)

/-- REJOIN (R326). -/
def execRejoin (s : State) : Host.Outcome State Fault Refusal := .next ((rejoin s).ioOn)

/-- REJOIN_WRITE (R326). -/
def execRejoinWrite (p : Path) (s : State) : Host.Outcome State Fault Refusal := .next (rejoinWrite p s)

/-- HEEL_FRAME_SEND (R312). -/
def execHeelFrameSend (h : Half) (s : State) : Host.Outcome State Fault Refusal := .next (heelFrameSend h s)

/-- HEEL_FRAME (R312). -/
def execHeelFrame (sender : Half) (frame : Word) (s : State) : Host.Outcome State Fault Refusal := .next (heelFrame sender frame s)

/-- HEEL_SILENT (R312). -/
def execHeelSilent (sender : Half) (s : State) : Host.Outcome State Fault Refusal := .next (heelSilent sender s)

/-- HEARTBEAT (R316). -/
def execHeartbeat (s : State) : Host.Outcome State Fault Refusal := .next (heartbeat s)

/-- LEADERSHIP_TAKEOVER (R318). -/
def execLeadershipTakeover (s : State) : Host.Outcome State Fault Refusal := .next (leadershipTakeover s)

/-- CLAIM_DROP (R320). -/
def execClaimDrop (s : State) : Host.Outcome State Fault Refusal := .next (claimDrop s)

/-- WL_FENCE (R317). -/
def execWlFence (p : Path) (fenceA fenceB : Bool) (s : State) : Host.Outcome State Fault Refusal := .next (wlFence p fenceA fenceB s)

/-- REFCLK_LOSS (R347). -/
def execRefclkLoss (s : State) : Host.Outcome State Fault Refusal := .next (refclkLoss s)

/-- REFCLK_RETURN (R347). -/
def execRefclkReturn (quick : List (Fin 16 × QuickTrack)) (s : State) : Host.Outcome State Fault Refusal := .next (refclkReturn quick s)

/-- REFCLK_LOSS_TIMEOUT (R347). -/
def execRefclkLossTimeout (s : State) : Host.Outcome State Fault Refusal := .next (refclkLossTimeout s)

/-- CORE_PLL_LOCK_LOST (R347). -/
def execCorePllLockLost (h : Half) (s : State) : Host.Outcome State Fault Refusal := .next (corePllLockLost h s)

/-- MEMORY_PLL_LOCK_LOST (R347). -/
def execMemoryPllLockLost (h : Half) (s : State) : Host.Outcome State Fault Refusal := .next (memoryPllLockLost h s)

/-- LOCK_WINDOW (R343). -/
def execLockWindow (h : Half) (pll : Pll) (count : Nat) (quick : List (Fin 16 × QuickTrack)) (s : State) :
    Host.Outcome State Fault Refusal := .next (lockWindow h pll count quick s)

/-- LOCKMON_FALLBACK (R345). -/
def execLockmonFallback (h : Half) (s : State) : Host.Outcome State Fault Refusal := .next (lockmonFallback h s)

/-- DLL_LOCK_LOST (R342). -/
def execDllLockLost (n : Fin 16) (s : State) : Host.Outcome State Fault Refusal := .next (dllLockLost n s)

/-- DLL_RELOCK_STEP (R347). -/
def execDllRelockStep (n : Fin 16) (x : Relock) (s : State) : Host.Outcome State Fault Refusal := .next (dllRelockStep n x.locked x.quick s)

/-- AUXCK_CONFIG_WRITE (R353). -/
def execAuxckConfigWrite (p : Path) (n : Fin 4) (tick : Bool) (v : Word) (s : State) :
    Host.Outcome State Fault Refusal := .next (auxckConfigWrite p n tick v s)

/-- PPS_EDGE (R364). -/
def execPpsEdge (s : State) : Host.Outcome State Fault Refusal := .next (ppsEdge s)

/-- PPS_GLITCH (R362). -/
def execPpsGlitch (s : State) : Host.Outcome State Fault Refusal := .next (ppsGlitch s)

/-- PPS_LOST (R362). -/
def execPpsLost (s : State) : Host.Outcome State Fault Refusal := .next (ppsLost s)

/-- TOD_SENTENCE (R360). -/
def execTodSentence (bytes : List Byte) (s : State) : Host.Outcome State Fault Refusal := .next (todSentence bytes s)

/-- TOD_BYTE_TIMEOUT (R360). -/
def execTodByteTimeout (s : State) : Host.Outcome State Fault Refusal := .next (todByteTimeout s)

/-- TOD_STALE (R361). -/
def execTodStale (s : State) : Host.Outcome State Fault Refusal := .next (todStale s)

/-- MASTER_LOST (R366). -/
def execMasterLost (s : State) : Host.Outcome State Fault Refusal := .next (masterLost s)

/-- FTICK_EDGE (R370). -/
def execFtickEdge (s : State) : Host.Outcome State Fault Refusal := .next (ftickEdge s)

/-- FTICK_LOST (R370). -/
def execFtickLost (s : State) : Host.Outcome State Fault Refusal := .next (ftickLost s)

/-- SET (R377). -/
def execSet (p : Path) (s : State) : Host.Outcome State Fault Refusal := .next (calSet p s)

/-- STEP_NOW (R364). -/
def execStepNow (p : Path) (s : State) : Host.Outcome State Fault Refusal := .next (stepNow p s)

/-- TB_CAPTURE_WRITE (R373). -/
def execTbCaptureWrite (p : Path) (v : Word) (s : State) : Host.Outcome State Fault Refusal := .next (tbCaptureWrite p v s)

/-- TSQ_POP (R373). -/
def execTsqPop (p : Path) (s : State) : Host.Outcome State Fault Refusal := .next (tsqPopVia p s)

/-- SENSOR_READ (R402). -/
def execSensorRead (h : Half) (readings : List Int) (s : State) : Host.Outcome State Fault Refusal := .next (sensorRead h readings s)

/-- MODEL_UPDATE (R404). -/
def execModelUpdate (h : Half) (busyPermille : Nat) (samples : List (BitVec 12)) (s : State) :
    Host.Outcome State Fault Refusal := .next (modelUpdate h busyPermille samples s)

/-- STEP_EVALUATION (R408). -/
def execStepEvaluation (h : Half) (s : State) : Host.Outcome State Fault Refusal := .next (stepEvaluation h s)

/-- WARMING_END (R406). -/
def execWarmingEnd (h : Half) (s : State) : Host.Outcome State Fault Refusal := .next (warmingEnd h s)

/-- MESSAGE_COLLECT (R418). -/
def execMessageCollect (h : Half) (source : Taken) (s : State) :
    Host.Outcome State Fault Refusal := .next (messageCollect h source.source source.parity s)

/-- STICKY_CLEAR (R419). -/
def execStickyClear (p : Path) (w : Fin 10) (bits : Word) (s : State) : Host.Outcome State Fault Refusal := .next (stickyClear p w bits s)

/-- FORCE (R425). -/
def execForce (p : Path) (w : Fin 10) (bits : Word) (s : State) : Host.Outcome State Fault Refusal := .next (force p w bits s)

/-- READ (R452). -/
def execRead (t : ReadTarget) (count : Nat) (partialWord : Bool) (s : State) :
    Host.Outcome State Fault Refusal := .next (readAny t count partialWord s)

/-- WRITE (R452). -/
def execWrite (addr : BitVec 24) (words : List Word) (partialWord : Bool) (s : State) :
    Host.Outcome State Fault Refusal := .next (spiWrite addr words partialWord s)

/-- FETCH (R452). -/
def execFetch (addr : BitVec 24) (count : BitVec 7) (excess : Bool) (s : State) :
    Host.Outcome State Fault Refusal := .next (fetch addr count excess s)

/-- FETCH_DONE (R431). -/
def execFetchDone (unanswered : List Nat) (s : State) : Host.Outcome State Fault Refusal := .next (fetchDone unanswered s)

/-- RDBUF (R452). -/
def execRdbuf (addr : BitVec 24) (words : Nat) (partialWord : Bool) (s : State) :
    Host.Outcome State Fault Refusal := .next (rdbuf addr words partialWord s)

/-- SHORT_FRAME (R453). -/
def execShortFrame (addr : BitVec 24) (s : State) : Host.Outcome State Fault Refusal := .next (shortFrame addr s)

/-- CHAL (R456). -/
def execChal (role : Fin 4) (s : State) : Host.Outcome State Fault Refusal := .next (chal role s)

/-- RESP (R456). -/
def execResp (s : State) : Host.Outcome State Fault Refusal := .next (resp s)

/-- DROP (R455). -/
def execDrop (s : State) : Host.Outcome State Fault Refusal := .next (drop s)

/-- ROLE_LOCK_END (R456). -/
def execRoleLockEnd (p : Path) (s : State) : Host.Outcome State Fault Refusal := .next (roleLockEnd p s)

/-- FLASH_READ (R442). -/
def execFlashRead (p : Path) (lenM1 : BitVec 6) (s : State) : Host.Outcome State Fault Refusal := .next (flashRead p lenM1 s)

/-- FLASH_PROGRAM (R442). -/
def execFlashProgram (p : Path) (lenM1 : BitVec 6) (s : State) : Host.Outcome State Fault Refusal := .next (flashProgram p lenM1 s)

/-- FLASH_ERASE_SECTOR (R442). -/
def execFlashEraseSector (p : Path) (s : State) : Host.Outcome State Fault Refusal := .next (flashEraseSector p s)

/-- FLASH_OP_DONE (R442). -/
def execFlashOpDone (deviceError : Bool) (s : State) : Host.Outcome State Fault Refusal := .next (flashOpDone deviceError s)

/-- NEXT_BANK_WRITE (R441). -/
def execNextBankWrite (p : Path) (bank : Bool) (s : State) : Host.Outcome State Fault Refusal := .next (nextBankWrite p bank s)

/-- WARM_RESET_WRITE (R438). -/
def execWarmResetWrite (p : Path) (s : State) : Host.Outcome State Fault Refusal := .next (warmResetWrite p s)

/-- AUDIT_ENTRY_WRITE (R459). -/
def execAuditEntryWrite (flashError fieldAsserted : Bool) (s : State) :
    Host.Outcome State Fault Refusal := .next (auditEntryWrite flashError fieldAsserted s)

/-- PASSPORT_WRITE_TIMEOUT (R447). -/
def execPassportWriteTimeout (s : State) : Host.Outcome State Fault Refusal := .next (passportWriteTimeout s)

/-- FIELD_RELEASE (R447). -/
def execFieldRelease (s : State) : Host.Outcome State Fault Refusal := .next (fieldRelease s)

/-- REGISTER_WRITE (R11). -/
def execRegisterWrite (t : WriteTarget) (v : BitVec 64) (s : State) : Host.Outcome State Fault Refusal := .next (registerWrite t v s)

/-- LOCKMON_LOCK (R344). -/
def execLockmonLock (h : Half) (quick : List (Fin 16 × QuickTrack)) (s : State) : Host.Outcome State Fault Refusal := .next (lockmonLock h quick s)

/-- MEMORY_PLL_RELOCK_TIMEOUT (R347). -/
def execMemoryPllRelockTimeout (h : Half) (s : State) : Host.Outcome State Fault Refusal := .next (memoryPllRelockTimeout h s)

/-- ALERT_N_RELEASE (R239). -/
def execAlertNRelease (n : Fin 16) (s : State) : Host.Outcome State Fault Refusal := .next (alertNRelease n s)

/-- TOD_FRAMING_ERROR (R360). -/
def execTodFramingError (s : State) : Host.Outcome State Fault Refusal := .next (todFramingError s)

/-- TAP_INSTRUCTION (R480). -/
def execTapInstruction (instr : TapInstr) (s : State) : Host.Outcome State Fault Refusal := .next (tapInstruction instr s)

/-- BUS_MASTER_ENABLE_SET (R183). -/
def execBusMasterEnableSet (h : Fin 4) (s : State) : Host.Outcome State Fault Refusal := .next (busMasterEnableSet h s)

end Sys2Proof.Machine
end

