-- ==== Sys2Proof/Machine/Dispatch.lean ====
section
/-! DEFINITION. One arm per command of the table, each one direct call of its meaning. -/
namespace Sys2Proof.Machine

def exec (i : Instr) (s : State) : Host.Outcome State Fault Refusal :=
  match i with
  | .auxUp testEn => Sys2Proof.Machine.execAuxUp testEn s
  | .eyeletEntry env => Sys2Proof.Machine.execEyeletEntry env s
  | .passportRetry pp => Sys2Proof.Machine.execPassportRetry pp s
  | .trainingDone n lanes0 lanes1 ca0 ca1 zq0 zq1 => Sys2Proof.Machine.execTrainingDone n lanes0 lanes1 ca0 ca1 zq0 zq1 s
  | .fillDone => Sys2Proof.Machine.execFillDone s
  | .eyeletComplete => Sys2Proof.Machine.execEyeletComplete s
  | .laceRise => Sys2Proof.Machine.execLaceRise s
  | .eyeWarn => Sys2Proof.Machine.execEyeWarn s
  | .laceAbort => Sys2Proof.Machine.execLaceAbort s
  | .laceGlitch => Sys2Proof.Machine.execLaceGlitch s
  | .laceAbortWrite p => Sys2Proof.Machine.execLaceAbortWrite p s
  | .softStartFail r overCurrent mv => Sys2Proof.Machine.execSoftStartFail r overCurrent mv s
  | .softStartRetry r => Sys2Proof.Machine.execSoftStartRetry r s
  | .railGood r => Sys2Proof.Machine.execRailGood r s
  | .railFail r cause mv => Sys2Proof.Machine.execRailFail r cause mv s
  | .transitionStart p v => Sys2Proof.Machine.execTransitionStart p v s
  | .transitionBlankEnd => Sys2Proof.Machine.execTransitionBlankEnd s
  | .pfwAssert vinMv => Sys2Proof.Machine.execPfwAssert vinMv s
  | .pfwRide => Sys2Proof.Machine.execPfwRide s
  | .pfwDelayEnd => Sys2Proof.Machine.execPfwDelayEnd s
  | .railGroupDrop => Sys2Proof.Machine.execRailGroupDrop s
  | .powerFailRecord byVrec vinMv samples tShedUs tRecUs => Sys2Proof.Machine.execPowerFailRecord byVrec vinMv samples tShedUs tRecUs s
  | .recordWritten ok => Sys2Proof.Machine.execRecordWritten ok s
  | .vauxFail vauxc mv => Sys2Proof.Machine.execVauxFail vauxc mv s
  | .auxReset => Sys2Proof.Machine.execAuxReset s
  | .vinReturnOff vinMv => Sys2Proof.Machine.execVinReturnOff vinMv s
  | .shortPress => Sys2Proof.Machine.execShortPress s
  | .forcedOff => Sys2Proof.Machine.execForcedOff s
  | .svcStart => Sys2Proof.Machine.execSvcStart s
  | .warmReset => Sys2Proof.Machine.execWarmReset s
  | .watchdogExpiry h => Sys2Proof.Machine.execWatchdogExpiry h s
  | .tickStart h => Sys2Proof.Machine.execTickStart h s
  | .tickOutEnd => Sys2Proof.Machine.execTickOutEnd s
  | .cutOff h => Sys2Proof.Machine.execCutOff h s
  | .productionEnd h => Sys2Proof.Machine.execProductionEnd h s
  | .idleCycleEnd h => Sys2Proof.Machine.execIdleCycleEnd h s
  | .freeze p => Sys2Proof.Machine.execFreeze p s
  | .release p => Sys2Proof.Machine.execRelease p s
  | .setDelay p => Sys2Proof.Machine.execSetDelay p s
  | .setGain p => Sys2Proof.Machine.execSetGain p s
  | .streamOn p => Sys2Proof.Machine.execStreamOn p s
  | .streamOff p => Sys2Proof.Machine.execStreamOff p s
  | .switchLast p => Sys2Proof.Machine.execSwitchLast p s
  | .opcodeInvalid p op => Sys2Proof.Machine.execOpcodeInvalid p op s
  | .admitLast p sel => Sys2Proof.Machine.execAdmitLast p sel s
  | .admissionDone => Sys2Proof.Machine.execAdmissionDone s
  | .activate p => Sys2Proof.Machine.execActivate p s
  | .cancel p => Sys2Proof.Machine.execCancel p s
  | .commit p => Sys2Proof.Machine.execCommit p s
  | .lutCopyDone => Sys2Proof.Machine.execLutCopyDone s
  | .lutDataAccess p w => Sys2Proof.Machine.execLutDataAccess p w s
  | .frameLoRead p doorbell => Sys2Proof.Machine.execFrameLoRead p doorbell s
  | .publishDoorbell h src slot tag => Sys2Proof.Machine.execPublishDoorbell h src slot tag s
  | .publicationCount src => Sys2Proof.Machine.execPublicationCount src s
  | .slotSelect h src slot => Sys2Proof.Machine.execSlotSelect h src slot s
  | .pixelWindowWrite h offset bytes allEnabled => Sys2Proof.Machine.execPixelWindowWrite h offset bytes allEnabled s
  | .blockRowEncoded src => Sys2Proof.Machine.execBlockRowEncoded src s
  | .sizeMapMerge src err => Sys2Proof.Machine.execSizeMapMerge src err s
  | .pixelWindowRead h offset lines => Sys2Proof.Machine.execPixelWindowRead h offset lines s
  | .slotCopyToArchive h src slot => Sys2Proof.Machine.execSlotCopyToArchive h src slot s
  | .slotCopyFromArchive h src => Sys2Proof.Machine.execSlotCopyFromArchive h src s
  | .slotCopyDone h => Sys2Proof.Machine.execSlotCopyDone h s
  | .fenceRead h => Sys2Proof.Machine.execFenceRead h s
  | .fenceReadComplete h waited10ns => Sys2Proof.Machine.execFenceReadComplete h waited10ns s
  | .ringDescriptorWrite h r w v => Sys2Proof.Machine.execRingDescriptorWrite h r w v s
  | .arm h r log2 => Sys2Proof.Machine.execArm h r log2 s
  | .disarm h r log2 => Sys2Proof.Machine.execDisarm h r log2 s
  | .armEffect r => Sys2Proof.Machine.execArmEffect r s
  | .consumedWrite h r v => Sys2Proof.Machine.execConsumedWrite h r v s
  | .chunkStaged e lutErrs => Sys2Proof.Machine.execChunkStaged e lutErrs s
  | .streamOpen e => Sys2Proof.Machine.execStreamOpen e s
  | .chunkRecordWrite r => Sys2Proof.Machine.execChunkRecordWrite r s
  | .chunkSkip x => Sys2Proof.Machine.execChunkSkip x s
  | .recordAbandon r => Sys2Proof.Machine.execRecordAbandon r s
  | .panicAssert e level => Sys2Proof.Machine.execPanicAssert e level s
  | .panicRelease e level => Sys2Proof.Machine.execPanicRelease e level s
  | .panicMaxExpiry e => Sys2Proof.Machine.execPanicMaxExpiry e s
  | .engineStart e => Sys2Proof.Machine.execEngineStart e s
  | .fence p e => Sys2Proof.Machine.execFence p e s
  | .enable p e => Sys2Proof.Machine.execEnable p e s
  | .engineSelfCheckFail e => Sys2Proof.Machine.execEngineSelfCheckFail e s
  | .memRd h hpa => Sys2Proof.Machine.execMemRd h hpa s
  | .memRdData h hpa => Sys2Proof.Machine.execMemRdData h hpa s
  | .memSpecRd h hpa => Sys2Proof.Machine.execMemSpecRd h hpa s
  | .memInv h hpa => Sys2Proof.Machine.execMemInv h hpa s
  | .memInvNt h hpa => Sys2Proof.Machine.execMemInvNt h hpa s
  | .memWr h hpa data poison => Sys2Proof.Machine.execMemWr h hpa data poison s
  | .memWrPtl h hpa x enables => Sys2Proof.Machine.execMemWrPtl h hpa x enables s
  | .dramReadReturn n x => Sys2Proof.Machine.execDramReadReturn n x s
  | .blockDecode who src slot block => Sys2Proof.Machine.execBlockDecode who src slot block s
  | .getEventRecords h log => Sys2Proof.Machine.execGetEventRecords h log s
  | .clearEventRecords h log count => Sys2Proof.Machine.execClearEventRecords h log count s
  | .getTimestamp h => Sys2Proof.Machine.execGetTimestamp h s
  | .setTimestamp h v => Sys2Proof.Machine.execSetTimestamp h v s
  | .getSupportedLogs h => Sys2Proof.Machine.execGetSupportedLogs h s
  | .getLog h => Sys2Proof.Machine.execGetLog h s
  | .identifyMemoryDevice h => Sys2Proof.Machine.execIdentifyMemoryDevice h s
  | .getPoisonList h dpa length => Sys2Proof.Machine.execGetPoisonList h dpa length s
  | .getHeadSummary h => Sys2Proof.Machine.execGetHeadSummary h s
  | .getRingStatus h first count => Sys2Proof.Machine.execGetRingStatus h first count s
  | .getAdmissionResult h => Sys2Proof.Machine.execGetAdmissionResult h s
  | .readSelvedgeLog h first count => Sys2Proof.Machine.execReadSelvedgeLog h first count s
  | .roleChallenge h role => Sys2Proof.Machine.execRoleChallenge h role s
  | .roleResponse h resp => Sys2Proof.Machine.execRoleResponse h resp s
  | .dropRole h => Sys2Proof.Machine.execDropRole h s
  | .unsupportedOpcode h opcode => Sys2Proof.Machine.execUnsupportedOpcode h opcode s
  | .linkTraining h => Sys2Proof.Machine.execLinkTraining h s
  | .linkUp h rate width flit68 => Sys2Proof.Machine.execLinkUp h rate width flit68 s
  | .linkRecovery h => Sys2Proof.Machine.execLinkRecovery h s
  | .linkDown h partialWrites partialLines => Sys2Proof.Machine.execLinkDown h partialWrites partialLines s
  | .perstAssert h partialWrites partialLines => Sys2Proof.Machine.execPerstAssert h partialWrites partialLines s
  | .busMasterEnableClear h => Sys2Proof.Machine.execBusMasterEnableClear h s
  | .hdmDecoderCommit h d prog => Sys2Proof.Machine.execHdmDecoderCommit h d prog s
  | .visit n => Sys2Proof.Machine.execVisit n s
  | .refresh n rank => Sys2Proof.Machine.execRefresh n rank s
  | .refreshKeeper n x => Sys2Proof.Machine.execRefreshKeeper n x s
  | .mr4Poll n codes aboveRated => Sys2Proof.Machine.execMr4Poll n codes aboveRated s
  | .bulkAgePromotion n => Sys2Proof.Machine.execBulkAgePromotion n s
  | .alertWindowExpiry n => Sys2Proof.Machine.execAlertWindowExpiry n s
  | .writeCrcAlert n => Sys2Proof.Machine.execWriteCrcAlert n s
  | .verifyReadback n err => Sys2Proof.Machine.execVerifyReadback n err s
  | .tsReqWrite p n v => Sys2Proof.Machine.execTsReqWrite p n v s
  | .tsSwitch n => Sys2Proof.Machine.execTsSwitch n s
  | .frequencyChange n rampUs relockUs trackUs => Sys2Proof.Machine.execFrequencyChange n rampUs relockUs trackUs s
  | .rampEnd n => Sys2Proof.Machine.execRampEnd n s
  | .dllLock x => Sys2Proof.Machine.execDllLock x s
  | .frequencyChangeDone => Sys2Proof.Machine.execFrequencyChangeDone s
  | .archiveSleep n => Sys2Proof.Machine.execArchiveSleep n s
  | .archiveWake n => Sys2Proof.Machine.execArchiveWake n s
  | .wakeEventStart h => Sys2Proof.Machine.execWakeEventStart h s
  | .retire p n => Sys2Proof.Machine.execRetire p n s
  | .retrain p n => Sys2Proof.Machine.execRetrain p n s
  | .clearMarks p n => Sys2Proof.Machine.execClearMarks p n s
  | .trackingMeasurement n rank counts => Sys2Proof.Machine.execTrackingMeasurement n rank counts s
  | .readStep n lanes x => Sys2Proof.Machine.execReadStep n lanes x s
  | .writeStep n lanes x => Sys2Proof.Machine.execWriteStep n lanes x s
  | .vrefStep n lanes x => Sys2Proof.Machine.execVrefStep n lanes x s
  | .checkStep n lanes x => Sys2Proof.Machine.execCheckStep n lanes x s
  | .rebuildGranule h => Sys2Proof.Machine.execRebuildGranule h s
  | .regionFillDone h => Sys2Proof.Machine.execRegionFillDone h s
  | .fastClose p => Sys2Proof.Machine.execFastClose p s
  | .scrubStart p => Sys2Proof.Machine.execScrubStart p s
  | .scrubAbort p => Sys2Proof.Machine.execScrubAbort p s
  | .scrubStep x => Sys2Proof.Machine.execScrubStep x s
  | .weltLost cause => Sys2Proof.Machine.execWeltLost cause s
  | .flitReplay repaired => Sys2Proof.Machine.execFlitReplay repaired s
  | .weltRetrain x => Sys2Proof.Machine.execWeltRetrain x s
  | .rejoin => Sys2Proof.Machine.execRejoin s
  | .rejoinWrite p => Sys2Proof.Machine.execRejoinWrite p s
  | .heelFrameSend h => Sys2Proof.Machine.execHeelFrameSend h s
  | .heelFrame sender frame => Sys2Proof.Machine.execHeelFrame sender frame s
  | .heelSilent sender => Sys2Proof.Machine.execHeelSilent sender s
  | .heartbeat => Sys2Proof.Machine.execHeartbeat s
  | .leadershipTakeover => Sys2Proof.Machine.execLeadershipTakeover s
  | .claimDrop => Sys2Proof.Machine.execClaimDrop s
  | .wlFence p fenceA fenceB => Sys2Proof.Machine.execWlFence p fenceA fenceB s
  | .refclkLoss => Sys2Proof.Machine.execRefclkLoss s
  | .refclkReturn quick => Sys2Proof.Machine.execRefclkReturn quick s
  | .refclkLossTimeout => Sys2Proof.Machine.execRefclkLossTimeout s
  | .corePllLockLost h => Sys2Proof.Machine.execCorePllLockLost h s
  | .memoryPllLockLost h => Sys2Proof.Machine.execMemoryPllLockLost h s
  | .lockWindow h pll count quick => Sys2Proof.Machine.execLockWindow h pll count quick s
  | .lockmonFallback h => Sys2Proof.Machine.execLockmonFallback h s
  | .dllLockLost n => Sys2Proof.Machine.execDllLockLost n s
  | .dllRelockStep n x => Sys2Proof.Machine.execDllRelockStep n x s
  | .auxckConfigWrite p n tick v => Sys2Proof.Machine.execAuxckConfigWrite p n tick v s
  | .ppsEdge => Sys2Proof.Machine.execPpsEdge s
  | .ppsGlitch => Sys2Proof.Machine.execPpsGlitch s
  | .ppsLost => Sys2Proof.Machine.execPpsLost s
  | .todSentence bytes => Sys2Proof.Machine.execTodSentence bytes s
  | .todByteTimeout => Sys2Proof.Machine.execTodByteTimeout s
  | .todStale => Sys2Proof.Machine.execTodStale s
  | .masterLost => Sys2Proof.Machine.execMasterLost s
  | .ftickEdge => Sys2Proof.Machine.execFtickEdge s
  | .ftickLost => Sys2Proof.Machine.execFtickLost s
  | .set p => Sys2Proof.Machine.execSet p s
  | .stepNow p => Sys2Proof.Machine.execStepNow p s
  | .tbCaptureWrite p v => Sys2Proof.Machine.execTbCaptureWrite p v s
  | .tsqPop p => Sys2Proof.Machine.execTsqPop p s
  | .sensorRead h readings => Sys2Proof.Machine.execSensorRead h readings s
  | .modelUpdate h busyPermille samples => Sys2Proof.Machine.execModelUpdate h busyPermille samples s
  | .stepEvaluation h => Sys2Proof.Machine.execStepEvaluation h s
  | .warmingEnd h => Sys2Proof.Machine.execWarmingEnd h s
  | .messageCollect h source => Sys2Proof.Machine.execMessageCollect h source s
  | .stickyClear p w bits => Sys2Proof.Machine.execStickyClear p w bits s
  | .force p w bits => Sys2Proof.Machine.execForce p w bits s
  | .read t count partialWord => Sys2Proof.Machine.execRead t count partialWord s
  | .write addr words partialWord => Sys2Proof.Machine.execWrite addr words partialWord s
  | .fetch addr count excess => Sys2Proof.Machine.execFetch addr count excess s
  | .fetchDone unanswered => Sys2Proof.Machine.execFetchDone unanswered s
  | .rdbuf addr words partialWord => Sys2Proof.Machine.execRdbuf addr words partialWord s
  | .shortFrame addr => Sys2Proof.Machine.execShortFrame addr s
  | .chal role => Sys2Proof.Machine.execChal role s
  | .resp => Sys2Proof.Machine.execResp s
  | .drop => Sys2Proof.Machine.execDrop s
  | .roleLockEnd p => Sys2Proof.Machine.execRoleLockEnd p s
  | .flashRead p lenM1 => Sys2Proof.Machine.execFlashRead p lenM1 s
  | .flashProgram p lenM1 => Sys2Proof.Machine.execFlashProgram p lenM1 s
  | .flashEraseSector p => Sys2Proof.Machine.execFlashEraseSector p s
  | .flashOpDone deviceError => Sys2Proof.Machine.execFlashOpDone deviceError s
  | .nextBankWrite p bank => Sys2Proof.Machine.execNextBankWrite p bank s
  | .warmResetWrite p => Sys2Proof.Machine.execWarmResetWrite p s
  | .auditEntryWrite flashError fieldAsserted => Sys2Proof.Machine.execAuditEntryWrite flashError fieldAsserted s
  | .passportWriteTimeout => Sys2Proof.Machine.execPassportWriteTimeout s
  | .fieldRelease => Sys2Proof.Machine.execFieldRelease s
  | .registerWrite t v => Sys2Proof.Machine.execRegisterWrite t v s
  | .lockmonLock h quick => Sys2Proof.Machine.execLockmonLock h quick s
  | .memoryPllRelockTimeout h => Sys2Proof.Machine.execMemoryPllRelockTimeout h s
  | .alertNRelease n => Sys2Proof.Machine.execAlertNRelease n s
  | .todFramingError => Sys2Proof.Machine.execTodFramingError s
  | .tapInstruction instr => Sys2Proof.Machine.execTapInstruction instr s
  | .busMasterEnableSet h => Sys2Proof.Machine.execBusMasterEnableSet h s

end Sys2Proof.Machine
end

