-- ==== Sys2Proof/Machine/Step.lean ====
section
/-! DEFINITION. One step of the block: the command at the front of its queue, or one core cycle when none waits; and the host's placement of
a table word, of which the opcode table gives none. -/
namespace Sys2Proof.Machine

/-- One step. An empty queue lets one core cycle pass (DESIGN CHOICE, log entry 2). -/
def step (s : State) : Host.Outcome State Fault Refusal :=
  match s.pending with
  | [] => .next (s.advance 1)
  | i :: rest => exec i { s with pending := rest }

/-- The opcode table gives no row any bits, so no word spells a command and the state is unchanged. -/
def State.withFetchWord (s : State) (_nbits _w : Nat) : State := s

end Sys2Proof.Machine
end

