-- ==== Sys2Proof/Safety.lean ====
section
/-! DEFINITION. What holds of the block in every state that its steps reach: the bounds the spec sets on its queues, logs and lists, and the
canonical form of its sparse stores. -/
namespace Sys2Proof.Machine

/-- A Selvedge store is within its bounds: at most one message of a source waits for the collector (R417), and the log ring holds at most 256
entries (R420). -/
structure FcStore.Ok (f : FcStore) : Prop where
  single : (f.pend.map (·.src)).Nodup
  ring : f.log.length ≤ 256

/-- The sparse stores behind the lamp engines, the fetch buffer and the passport are in order. -/
def State.Sorted (s : State) : Prop :=
  Sparse.rising s.le.rings = true ∧ Sparse.rising s.le.lut = true ∧ Sparse.rising s.mg.fetchBuf = true ∧ Sparse.rising s.mg.passport = true

/-- The bounds of the block: canonical registers, flash and DRAM cells (no cell equal to what an unlisted symbol reads as), the audit queue (R458), the time-stamp queues (R373), both
Selvedge stores, and the poison list (R172). -/
structure State.Inv (s : State) : Prop where
  regs : Sparse.wf regPowerOn s.regs = true
  flash : Sparse.wf (fun _ => 0xFF) s.flash = true
  cells : Sparse.wf s.dm.blank s.mem = true
  audit : s.mg.audit.length ≤ 64
  stamps : s.tb.tsq.length ≤ 32
  stamps2 : ∀ x ∈ s.tb2, x.1.tsq.length ≤ 32
  storeA : s.fcA.Ok
  storeB : s.fcB.Ok
  poison : s.dm.poison.length ≤ 256
  sorted : s.Sorted

/-! Parts of the state -/

/-- The parts of the state, for saying what a command leaves alone. -/
inductive Part where
  /-- What every symbol of DRAM reads as. -/
  | cells
  /-- The DRAM side: queues, subchannels, rebuilds, the poison list, and so on. -/
  | memory
  | flash
  | otp
  | passport
  | roles
  /-- The audit log: the queue, SEQ and the last refusals. -/
  | audit
  /-- What a start takes from the passport: bytes, zone, keys, serial number, and how its read stands. -/
  | start
  /-- Management, but for its OTP, passport, roles, audit log, what a start took, and the marks of cut flash operations. -/
  | manage
  /-- The Selvedge stores: sticky bits, log rings, the first FATAL message and the fatal state. -/
  | store
  /-- Messages that wait for the collectors, and the MERGED counts. -/
  | waiting
  /-- The core-cycle count, device time and the rate R. -/
  | clock
  /-- The rest of the time base, and the other half's own in split mode. -/
  | timebase
  | schedule
  /-- Lasts available and the admission under way. -/
  | lasts
  /-- The heads, but for the accesses that wait. -/
  | heads
  /-- Register and window accesses of the heads that wait their turn (R245, R454). -/
  | access
  | lamps
  | thermal
  | clocks
  | welt
  /-- The half that leads. -/
  | leader
  | power
  /-- What the device has sent. -/
  | outputs
  /-- Random draws and free values used. -/
  | draws
  /-- The registers of a block. -/
  | regs (b : Block)
  deriving DecidableEq, Repr

/-- What a start takes from the passport (R445, R448, R451, R457), and how its read stands. -/
structure Manage.Start where
  body : List Byte
  zone : List Byte
  serial : BitVec 64
  subsystem : Nat × Nat
  keys : Option (BitVec 256) × Option (BitVec 256)
  imon : List Nat
  reads : Nat × Nat × Bool
  deriving DecidableEq, Repr

/-- That part of management. -/
def Manage.taken (m : Manage) : Manage.Start :=
  ⟨m.body, m.zone, m.serial, m.subsystem, (m.keyOperator, m.keyInstaller), m.imon, (m.ppRetries, m.ppNackRetries, m.ppPending)⟩

/-- Management without its OTP, passport, roles, audit log and what a start took. -/
def Manage.rest (m : Manage) : Manage :=
  { m with otp := {}, passport := [], roles := Vector.replicate 5 {}, audit := [], auditSeq := 0, auditWait := [], refusals := [], torn := []
           body := [], zone := [], serial := 0, subsystem := (0, 0), keyOperator := none, keyInstaller := none, imon := []
           ppRetries := 0, ppNackRetries := 0, ppPending := false }

/-- A head without the accesses that wait. -/
def Head.rest (x : Head) : Head := { x with io := [] }

/-- What a store holds once collected. -/
def FcStore.core (f : FcStore) : FcStore := { f with pend := [], merged := [], mergedAll := 0 }

/-- What waits before a store, and its MERGED counts. -/
def FcStore.queue (f : FcStore) : List Msg × Sparse Nat × Nat := (f.pend, f.merged, f.mergedAll)

/-- The block of a register key, by its page; none for an unassigned page. -/
def blockOf (k : Nat) : Option Block :=
  match k % 0x1000000 / 0x10000 with
  | 0x00 => some .mg
  | 0x01 => some .fc
  | 0x02 => some .ps
  | 0x03 => some .th
  | 0x04 => some .ck
  | 0x05 => some .tb
  | 0x06 => some .fs
  | 0x07 => some .le
  | 0x08 => some .tw
  | 0x09 => some .am
  | 0x0A => some .mi
  | 0x10 => some .dc
  | 0x20 => some .di
  | 0x30 => some .hp
  | 0x38 => some .wl
  | _ => none

/-- A part of the state is the same in two states; the registers of a block, where the register file is in order. -/
def Part.Same (x : Part) (s t : State) : Prop :=
  match x with
  | .cells => (t.mem, t.dm.blank) = (s.mem, s.dm.blank)
  | .memory => t.dm = s.dm
  | .flash => (t.flash, t.mg.torn) = (s.flash, s.mg.torn)
  | .otp => t.mg.otp = s.mg.otp
  | .passport => t.mg.passport = s.mg.passport
  | .roles => t.mg.roles = s.mg.roles
  | .audit => (t.mg.audit, t.mg.auditSeq, t.mg.auditWait, t.mg.refusals) = (s.mg.audit, s.mg.auditSeq, s.mg.auditWait, s.mg.refusals)
  | .start => t.mg.taken = s.mg.taken
  | .manage => t.mg.rest = s.mg.rest
  | .store => (t.fcA.core, t.fcB.core) = (s.fcA.core, s.fcB.core)
  | .waiting => (t.fcA.queue, t.fcB.queue) = (s.fcA.queue, s.fcB.queue)
  | .clock => (t.now, t.tb.time, t.tb.rate) = (s.now, s.tb.time, s.tb.rate)
  | .timebase => (t.tb, t.tb2) = (s.tb, s.tb2)
  | .schedule => (t.sched, t.sched2) = (s.sched, s.sched2)
  | .lasts => (t.lasts, t.admQueue, t.admitting, t.admStart, t.admTouched, t.admBy, t.twUsed) =
    (s.lasts, s.admQueue, s.admitting, s.admStart, s.admTouched, s.admBy, s.twUsed)
  | .heads => t.heads.map Head.rest = s.heads.map Head.rest
  | .access => t.heads.map (·.io) = s.heads.map (·.io)
  | .lamps => t.le = s.le
  | .thermal => (t.thA, t.thB) = (s.thA, s.thB)
  | .clocks => (t.ckA, t.ckB) = (s.ckA, s.ckB)
  | .welt => t.wl = s.wl
  | .leader => t.wl.leader = s.wl.leader
  | .power => t.pwr = s.pwr
  | .outputs => t.out = s.out
  | .draws => t.free = s.free
  | .regs b => Sparse.rising s.regs = true → ∀ k, blockOf k = some b → t.word k = s.word k

/-! Terms of the statements -/

/-- The role check lets a write through. -/
def Gate.passes : Gate → Bool
  | .allowed _ => true
  | .ignored | .refused _ | .full _ => false

/-- A write of a path to an address reaches its register at once (R11, R13, R454, R455, R458, and R486 in split mode). -/
def State.writable (s : State) (p : Path) (a : Nat) : Bool := !s.pathBusy p && !s.farReg p a && (s.gate p (s.role p).role a).passes

/-- A write of an address starts nothing beside storing its fields: no action bit, no FC word, and no configuration that acts at its write. -/
def startsNothing (a : Nat) : Bool :=
  !([4, 5, 8, 0x31, 0x20001, 0x20007, 0x50000, 0x50014, 0x50018, 0x6000B, 0x60010, 0x70000, 0x70001, 0xA0001, 0xA0014, 0x380001].contains a) &&
  [(0x10010, 1, 10), (0x10020, 1, 10), (0x10030, 1, 10), (0x10100, 1, 320), (0x20200, 2, 24), (0x40080, 1, 8), (0x71000, 0x800, 16),
    (0x100000, 0x1000, 16), (0x200000, 0x1000, 16)].all fun x => (instOf a x.1 x.2.1 x.2.2).isNone

/-- The state after the plain part of a write: every writable field stored as one update (R15). -/
def State.stored (s : State) (p : Path) (a v : Nat) : State :=
  match regAt a with
  | some t => s.storeWrite p t a v
  | none => s

/-- A message of a source waits for the collector of a half (R417). -/
def State.Waits (s : State) (h : Half) (src : Nat) : Prop := ∃ m ∈ (s.fc h).pend, m.src = src

/-- A counter field went up by n, stopping at its top (R16). -/
def State.CountsUp (s t : State) (f : Fld) (n : Nat := 1) : Prop := t.rd f = min (s.rd f + n) (2 ^ (f.hi + 1 - f.lo) - 1)

/-- Every register word but those named is the same. -/
def State.RegsBut (s t : State) (ks : List Nat) : Prop := ∀ k, k ∉ ks → t.word k = s.word k

/-- Every part of the state but those named is the same; the registers are said apart. -/
def State.PartsBut (s t : State) (xs : List Part) : Prop := ∀ x, x ∉ xs → (∀ b, x ≠ .regs b) → x.Same s t

/-- What a symbol of DRAM reads as, by its key. -/
def State.cell (s : State) (k : Nat) : Byte := Sparse.get s.dm.blank s.mem k

/-- A head takes a request at once: its link is in L0, a credit is left and none waits before it (R31, R245). -/
def State.takesRequests (s : State) (h : Nat) : Bool := s.inL0 h && !s.noCredit h && (s.head h).held.isEmpty

/-- A register read of a path is served at once: over a head, when the head serves reads and none waits (R245). -/
def State.readsAtOnce (s : State) (p : Path) : Bool := match p with | .spi => true | .head h => s.ioMayGo h.val && (s.head h.val).io.isEmpty

/-- Where a request of a head that nothing refuses goes, by the order of R486: DPA, region number, region, subchannel and subchannel address. A read
of a line with a write in the far half's hold buffer, a read of a retired subchannel, and a write that is lost there are none (R177, R284, R322). -/
def State.servedAt (s : State) (h hpa : Nat) (write : Bool) : Option (Nat × Nat × Region × Nat × Nat) :=
  if (s.fc (half4 h)).fatal || !s.mediaReady h then none
  else
    (s.hdmDecode h hpa).bind fun dpa =>
      (s.locate (half4 h) dpa).bind fun (i, r, n, sa) =>
        if (if write then r.wrHeads else r.rdHeads).testBit h && !(write && r.guard && s.inProduction (half4 h)) && !(write && r.twill != 0) &&
            ((s.schedOf (half4 h)).fillingOf i).isNone && s.reaches (half4 h) r && !s.heldAt n sa &&
            !(if write then s.writeLost n sa else (s.sub (s.route n sa).1).retired) then some (dpa, i, r, n, sa)
        else none

/-- Where a write to a subchannel address goes: its target by `route`, or for a granule that it moves to the front of a rebuild with loss the place in
the reserve (R284). -/
def State.writePlace (s : State) (n sa : Nat) : Nat × Nat :=
  match (s.mh (subHalf n)).rebuild with
  | some r =>
    if r.sub = n && r.loss && r.cursor ≤ sa / 256 && !r.front.contains (sa / 256) then s.remap n sa else ((s.route n sa).1, (s.route n sa).2.1)
  | none => ((s.route n sa).1, (s.route n sa).2.1)

/-- No line can be read at a place: it lies on a retired subchannel, or beyond the cursor of a rebuild that ended with loss (R256, R284). -/
def State.lineLost (s : State) (n sa : Nat) : Bool :=
  let t := s.route n sa
  (s.sub t.1).retired || match (s.mh (subHalf n)).rebuild with | some b => b.sub == n && b.loss && !t.2.2 | none => false

/-- A reader waits for a line of a subchannel: before the read queues or in one of them (R218). -/
def Sub.Asks (u : Sub) (line : Nat) (r : Reader) : Prop :=
  (∃ w ∈ u.rdWait, w.g * 4 + w.idx = line ∧ w.reader = r) ∨ ∃ e ∈ u.frameQ ++ u.bulkQ, ∃ l ∈ e.lines, e.g * 4 + l.idx = line ∧ r ∈ l.readers

/-- A mailbox command has completed: its return code and payload went out, with no message but vector 0, and stand in the mailbox (R168). -/
def State.Replies (s t : State) (h code : Nat) (payload : List Byte) : Prop :=
  (∃ o, t.out = s.out ++ .mailbox h code payload :: o ∧ ∀ x ∈ o, ∃ a d, x = .msix h 0 a d) ∧ (t.head h).mbox = some (code, payload)

/-- A head has answered a request, or holds the answer back behind earlier requests of a STRICT region (R207). -/
def State.Answered (s : State) (h id : Nat) (r : MemResp) : Prop :=
  (∃ l, Out.cxl h id r l ∈ s.out) ∨ ∃ q ∈ (s.head h).flight, q.id = id ∧ q.resp = some r

/-- A source is counted by the half of its publishing head, with this entry (R324). -/
def State.Serves (s : State) (h n : Nat) (k : SrcCfg) : Prop :=
  s.srcAt h n = some k ∧ k.head = h ∧ (s.schedOf (s.srcHalf n)).src n = some k

/-- An item of a source is taken at once: no block row is being encoded and none waits (R132). -/
def State.takesLines (s : State) (n : Nat) : Bool := !(s.rt n).encoding && (s.rt n).wait.isEmpty

/-- A head that serves posted writes may describe a ring: the ring's stream is on the head (R105), or no Last is in force (R187). -/
def State.OwnRing (s : State) (h r : Nat) : Prop :=
  s.takesPosted h = true ∧ match s.stream r with | some st => st.head = h | none => (s.schedOf (half4 h)).cfg = none

/-- A half has a time base of its own: the leader's, or in split mode the follower's (R323). -/
def State.HasBase (s : State) (h : Half) : Prop :=
  h = s.leader ∨ (s.split = true ∧ ∃ x, s.tb2 = some x ∧ x.2.length = baseFields.length)

/-- Quick tracking of a subchannel whose ranks leave self-refresh at the settings of a timing set (R247, R271): the devices that fail. -/
def State.quickFails (s : State) (n m : Nat) (quick : QuickTrack) : List Nat :=
  let w := (s.wr (F.CK_DLL_n.STATE n) 2).wakeSub n
  (w.quickTrack n (s.rd (F.DC_n_TS_m_A.RATE m n)) (w.awake n) quick).2

/-- The register write that a command is, where it is one of a fixed register: path, address and the value written. -/
def gatedWriteOf (i : Instr) (s : State) : Option (Path × Nat × Nat) :=
  match i with
  | .laceAbortWrite p => some (p, 0x20001, 1)
  | .transitionStart p v => some (p, 0x20007, v.toNat)
  | .freeze p => some (p, 0x6000B, 1)
  | .release p => some (p, 0x6000B, 2)
  | .setDelay p => some (p, 0x6000B, 3)
  | .setGain p => some (p, 0x6000B, 4)
  | .streamOn p => some (p, 0x6000B, 5)
  | .streamOff p => some (p, 0x6000B, 6)
  | .switchLast p => some (p, 0x6000B, 7)
  | .opcodeInvalid p op => some (p, 0x6000B, op.toNat)
  | .tsReqWrite p n v => some (p, 0x100000 + 0x1000 * n.val, v.toNat)
  | .retrain p n => some (p, 0x200000 + 0x1000 * n.val, 1)
  | .retire p n => some (p, 0x200000 + 0x1000 * n.val, 2)
  | .clearMarks p n => some (p, 0x200000 + 0x1000 * n.val, 4)
  | .fence p e => some (p, 0x71000 + 0x800 * e.val, 1)
  | .enable p e => some (p, 0x71000 + 0x800 * e.val, 2)
  | .stepNow p => some (p, 0x50014, 0x40000000)
  | .set p => some (p, 0x50014, 0x80000000)
  | .tbCaptureWrite p v => some (p, 0x50018, v.toNat)
  | .lutDataAccess p (some v) => some (p, 0x70001, v.toNat)
  | .auxckConfigWrite p n tick v => some (p, 0x40080 + 2 * n.val + b2n tick, v.toNat)
  | .fastClose p => some (p, 0xA0001, 2 + s.rd F.MI_CFG.FAST_START)
  | .scrubStart p => some (p, 0xA0014, s.rd F.MI_SCRUB_CTRL.STEP_LINES * 65536 + 1)
  | .scrubAbort p => some (p, 0xA0014, s.rd F.MI_SCRUB_CTRL.STEP_LINES * 65536 + 2)
  | .rejoinWrite p => some (p, 0x380001, s.rd F.WL_CTRL.AUTO_REJOIN * 4 + 8)
  | .wlFence p a b => some (p, 0x380001, s.rd F.WL_CTRL.AUTO_REJOIN * 4 + b2n b * 2 + b2n a)
  | .stickyClear p w v => some (p, 0x10010 + w.val, v.toNat)
  | .force p w v => some (p, 0x10030 + w.val, v.toNat)
  | .nextBankWrite p b => some (p, 5, b2n b)
  | .warmResetWrite p => some (p, 4, 1)
  | .admitLast p sel => some (p, 0x60010, sel.val * 16 + 1)
  | .activate p => some (p, 0x60010, s.rd F.FS_LAST_CTRL.SEL * 16 + 2)
  | .cancel p => some (p, 0x60010, s.rd F.FS_LAST_CTRL.SEL * 16 + 4)
  | .commit p => some (p, 0x70000, (s.word 0x70000).toNat % 2 ^ 30 + 2 ^ 31)
  | .chal role => some (.spi, 8, role.val * 2 ^ 28 + 2 ^ 27)
  | .resp => some (.spi, 8, s.rd F.MG_ROLE.REQ * 2 ^ 28 + 2 ^ 26)
  | .drop => some (.spi, 8, s.rd F.MG_ROLE.REQ * 2 ^ 28 + 2 ^ 25)
  | .flashRead p n => some (p, 0x31, 2 ^ 31 + n.toNat)
  | .flashProgram p n => some (p, 0x31, 2 ^ 31 + 2 ^ 28 + n.toNat)
  | .flashEraseSector p => some (p, 0x31, 2 ^ 31 + 2 ^ 29 + s.rd (F.MG_FL_CTRL.LEN_M1.on p))
  | .registerWrite (.word p a) v => some (p, a.toNat, v.toNat % 2 ^ 32)
  | _ => none

/-- The registers of every block. -/
def allRegs : List Part :=
  [.regs .mg, .regs .fc, .regs .ps, .regs .th, .regs .ck, .regs .tb, .regs .fs, .regs .le, .regs .tw, .regs .am, .regs .mi, .regs .dc, .regs .di,
    .regs .hp, .regs .wl]

/-- The parts of the state that a command may change. -/
def footprint (i : Instr) : List Part :=
  match i with
  | .memSpecRd _ _ | .heartbeat =>
    []
  | .fenceRead _ | .busMasterEnableSet _ =>
    [.heads]
  | .alertWindowExpiry _ =>
    [.memory]
  | .roleLockEnd _ =>
    [.roles]
  | .vinReturnOff _ =>
    [.waiting]
  | .tickOutEnd =>
    [.clock, .timebase]
  | .getEventRecords _ _ | .getTimestamp _ | .setTimestamp _ _ | .getSupportedLogs _ | .getLog _ | .getPoisonList _ _ _
  | .getRingStatus _ _ _ | .readSelvedgeLog _ _ _ | .unsupportedOpcode _ _ =>
    [.heads, .outputs]
  | .hdmDecoderCommit _ _ _ =>
    [.heads, .regs .hp]
  | .lutCopyDone | .streamOpen _ | .panicAssert _ _ | .panicRelease _ _ | .panicMaxExpiry _ =>
    [.lamps, .regs .le]
  | .refresh _ _ | .refreshKeeper _ _ | .bulkAgePromotion _ | .archiveSleep _ | .alertNRelease _ =>
    [.memory, .regs .dc]
  | .trackingMeasurement _ _ _ =>
    [.memory, .regs .di]
  | .tapInstruction _ =>
    [.power, .outputs]
  | .softStartRetry _ | .transitionBlankEnd | .pfwRide | .railGroupDrop =>
    [.power, .regs .ps]
  | .warmingEnd _ =>
    [.thermal, .regs .th]
  | .ringDescriptorWrite _ _ _ _ | .arm _ _ _ | .disarm _ _ _ | .consumedWrite _ _ _ =>
    [.waiting, .lamps]
  | .shortFrame _ =>
    [.waiting, .regs .mg]
  | .laceGlitch =>
    [.waiting, .regs .ps]
  | .flitReplay _ =>
    [.waiting, .regs .wl]
  | .heelFrameSend _ =>
    [.welt, .outputs]
  | .ppsGlitch | .todByteTimeout | .todFramingError =>
    [.clock, .timebase, .regs .tb]
  | .cutOff _ =>
    [.clock, .timebase, .schedule]
  | .identifyMemoryDevice _ =>
    [.heads, .outputs, .draws]
  | .fenceReadComplete _ _ =>
    [.heads, .outputs, .regs .am]
  | .clearEventRecords _ _ _ =>
    [.heads, .outputs, .regs .hp]
  | .getHeadSummary _ | .getAdmissionResult _ =>
    [.heads, .outputs, .regs .le]
  | .fetch _ _ _ =>
    [.manage, .waiting, .regs .mg]
  | .frequencyChange _ _ _ _ =>
    [.memory, .regs .ck, .regs .dc]
  | .mr4Poll _ _ _ =>
    [.memory, .waiting, .regs .dc]
  | .fieldRelease =>
    [.passport, .manage, .draws]
  | .laceRise =>
    [.power, .regs .mg, .regs .ps]
  | .lockmonFallback _ =>
    [.waiting, .clocks, .regs .ck]
  | .linkRecovery _ =>
    [.waiting, .heads, .regs .hp]
  | .armEffect _ =>
    [.waiting, .lamps, .regs .le]
  | .rdbuf _ _ _ =>
    [.waiting, .outputs, .regs .mg]
  | .eyeWarn | .powerFailRecord _ _ _ _ _ =>
    [.waiting, .power, .regs .ps]
  | .publicationCount _ =>
    [.waiting, .schedule, .regs .fs]
  | .weltRetrain _ =>
    [.waiting, .welt, .regs .wl]
  | .passportWriteTimeout =>
    [.audit, .manage, .waiting, .regs .mg]
  | .verifyReadback _ _ =>
    [.cells, .memory, .waiting, .regs .dc]
  | .tsSwitch _ =>
    [.memory, .regs .ck, .regs .dc, .regs .di]
  | .dllLockLost _ =>
    [.memory, .waiting, .regs .ck, .regs .di]
  | .writeCrcAlert _ =>
    [.memory, .waiting, .regs .dc, .regs .di]
  | .modelUpdate _ _ _ =>
    [.thermal, .power, .draws, .regs .th]
  | .ppsLost | .todSentence _ | .todStale | .masterLost | .ftickEdge | .ftickLost =>
    [.waiting, .clock, .timebase, .regs .tb]
  | .publishDoorbell _ _ _ _ | .slotSelect _ _ _ | .pixelWindowWrite _ _ _ _ =>
    [.waiting, .schedule, .regs .fs, .regs .tw]
  | .force _ _ _ =>
    [.audit, .waiting, .access, .regs .mg, .regs .fc]
  | .stepNow _ =>
    [.audit, .waiting, .access, .regs .mg, .regs .tb]
  | .recordWritten _ =>
    [.flash, .waiting, .power, .draws, .regs .ps]
  | .engineStart _ | .linkTraining _ | .archiveWake _ | .wakeEventStart _ =>
    [.memory, .heads, .lamps, .regs .le, .regs .dc]
  | .stepEvaluation _ =>
    [.memory, .waiting, .thermal, .regs .th, .regs .dc]
  | .dropRole _ =>
    [.roles, .audit, .heads, .outputs, .regs .mg]
  | .resp | .drop =>
    [.roles, .audit, .waiting, .access, .regs .mg]
  | .roleChallenge _ _ =>
    [.roles, .waiting, .heads, .outputs, .draws]
  | .ppsEdge =>
    [.waiting, .clock, .timebase, .draws, .regs .tb]
  | .chunkRecordWrite _ | .chunkSkip _ | .recordAbandon _ | .busMasterEnableClear _ =>
    [.waiting, .heads, .lamps, .outputs, .regs .le]
  | .stickyClear _ _ _ =>
    [.audit, .store, .waiting, .access, .regs .mg, .regs .fc]
  | .auxckConfigWrite _ _ _ _ =>
    [.audit, .waiting, .access, .clocks, .regs .mg, .regs .ck]
  | .commit _ =>
    [.audit, .waiting, .access, .lamps, .regs .mg, .regs .le]
  | .laceAbortWrite _ | .transitionStart _ _ =>
    [.audit, .waiting, .access, .power, .regs .mg, .regs .ps]
  | .rejoinWrite _ | .wlFence _ _ _ =>
    [.audit, .waiting, .access, .welt, .regs .mg, .regs .wl]
  | .freeze _ | .release _ | .setDelay _ | .setGain _ | .streamOn _ | .streamOff _ | .switchLast _ | .opcodeInvalid _ _ =>
    [.audit, .waiting, .schedule, .access, .regs .mg, .regs .fs]
  | .admissionDone =>
    [.audit, .waiting, .schedule, .lasts, .regs .mg, .regs .fs]
  | .tbCaptureWrite _ _ =>
    [.audit, .waiting, .timebase, .access, .regs .mg, .regs .tb]
  | .refclkLoss =>
    [.cells, .memory, .waiting, .regs .ck, .regs .dc, .regs .hp]
  | .nextBankWrite _ _ =>
    [.flash, .audit, .manage, .waiting, .access, .regs .mg]
  | .retire _ _ | .retrain _ _ | .clearMarks _ _ =>
    [.memory, .audit, .waiting, .access, .regs .mg, .regs .di]
  | .fastClose _ | .scrubStart _ | .scrubAbort _ =>
    [.memory, .audit, .waiting, .access, .regs .mg, .regs .mi]
  | .scrubStep _ =>
    [.memory, .heads, .lamps, .regs .le, .regs .mi, .regs .dc]
  | .pfwAssert _ =>
    [.memory, .waiting, .power, .regs .ps, .regs .mi, .regs .di]
  | .chal _ =>
    [.roles, .audit, .waiting, .access, .draws, .regs .mg]
  | .roleResponse _ _ =>
    [.roles, .audit, .waiting, .heads, .outputs, .regs .mg]
  | .flashRead _ _ | .flashProgram _ _ | .flashEraseSector _ =>
    [.audit, .manage, .waiting, .schedule, .lasts, .access, .regs .mg]
  | .set _ =>
    [.audit, .waiting, .clock, .timebase, .access, .regs .mg, .regs .tb]
  | .admitLast _ _ | .activate _ | .cancel _ =>
    [.audit, .waiting, .schedule, .lasts, .access, .regs .mg, .regs .fs]
  | .rampEnd _ =>
    [.cells, .memory, .clock, .timebase, .clocks, .regs .ck, .regs .dc]
  | .fillDone =>
    [.cells, .memory, .heads, .outputs, .regs .mi, .regs .dc, .regs .hp]
  | .sizeMapMerge _ _ =>
    [.cells, .memory, .waiting, .schedule, .regs .mi, .regs .dc, .regs .di]
  | .auditEntryWrite _ _ =>
    [.flash, .passport, .audit, .manage, .waiting, .draws, .regs .mg]
  | .engineSelfCheckFail _ =>
    [.memory, .waiting, .heads, .lamps, .regs .fs, .regs .le, .regs .dc]
  | .blockRowEncoded _ =>
    [.memory, .waiting, .schedule, .regs .fs, .regs .tw, .regs .dc, .regs .di]
  | .flashOpDone _ =>
    [.flash, .otp, .passport, .audit, .manage, .waiting, .draws, .regs .mg]
  | .regionFillDone _ =>
    [.cells, .memory, .schedule, .heads, .lamps, .outputs, .regs .le, .regs .dc, .regs .hp]
  | .tsReqWrite _ _ _ =>
    [.memory, .audit, .waiting, .heads, .access, .lamps, .regs .mg, .regs .le, .regs .dc]
  | .refclkReturn _ | .lockmonLock _ _ =>
    [.memory, .heads, .lamps, .clocks, .draws, .regs .ck, .regs .le, .regs .dc, .regs .di]
  | .rebuildGranule _ =>
    [.memory, .waiting, .heads, .lamps, .outputs, .regs .le, .regs .dc, .regs .di, .regs .hp]
  | .leadershipTakeover | .claimDrop =>
    [.waiting, .clock, .timebase, .schedule, .welt, .leader, .regs .th, .regs .tb, .regs .wl]
  | .fetchDone _ =>
    [.manage, .waiting, .timebase, .heads, .regs .mg, .regs .tb, .regs .fs, .regs .le, .regs .mi, .regs .hp]
  | .fence _ _ | .enable _ _ =>
    [.memory, .audit, .waiting, .heads, .access, .lamps, .regs .mg, .regs .fs, .regs .le, .regs .dc]
  | .trainingDone _ _ _ _ _ _ _ =>
    [.memory, .flash, .manage, .waiting, .heads, .lamps, .draws, .regs .ck, .regs .le, .regs .dc, .regs .di]
  | .slotCopyToArchive _ _ _ | .slotCopyFromArchive _ _ =>
    [.memory, .waiting, .schedule, .heads, .lamps, .outputs, .draws, .regs .mi, .regs .dc, .regs .di, .regs .hp]
  | .linkDown _ _ _ =>
    [.roles, .audit, .waiting, .schedule, .heads, .access, .lamps, .outputs, .regs .mg, .regs .le, .regs .hp]
  | .perstAssert _ _ _ =>
    [.memory, .roles, .audit, .waiting, .schedule, .heads, .access, .lamps, .outputs, .regs .mg, .regs .le, .regs .hp]
  | .memRd _ _ | .memRdData _ _ | .memInv _ _ | .memInvNt _ _ | .memWr _ _ _ _ | .memWrPtl _ _ _ _ =>
    [.memory, .waiting, .schedule, .heads, .lamps, .outputs, .draws, .regs .am, .regs .mi, .regs .dc, .regs .di, .regs .hp]
  | .slotCopyDone _ | .chunkStaged _ _ =>
    [.memory, .waiting, .schedule, .heads, .lamps, .outputs, .draws, .regs .le, .regs .mi, .regs .dc, .regs .di, .regs .hp]
  | .dramReadReturn _ _ | .visit _ =>
    [.cells, .memory, .waiting, .schedule, .heads, .lamps, .outputs, .draws, .regs .am, .regs .mi, .regs .dc, .regs .di, .regs .hp]
  | .pixelWindowRead _ _ _ =>
    [.memory, .waiting, .schedule, .heads, .access, .lamps, .outputs, .draws, .regs .tw, .regs .mi, .regs .dc, .regs .di, .regs .hp]
  | .dllRelockStep _ _ =>
    [.memory, .flash, .manage, .waiting, .schedule, .heads, .lamps, .outputs, .draws, .regs .ck, .regs .mi, .regs .dc, .regs .di, .regs .hp]
  | .readStep _ _ _ | .vrefStep _ _ _ =>
    [.memory, .flash, .manage, .waiting, .schedule, .heads, .lamps, .outputs, .draws, .regs .le, .regs .mi, .regs .dc, .regs .di, .regs .hp]
  | .writeStep _ _ _ | .checkStep _ _ _ =>
    [.cells, .memory, .flash, .manage, .waiting, .schedule, .heads, .lamps, .outputs, .draws, .regs .le, .regs .mi, .regs .dc, .regs .di,
      .regs .hp]
  | .weltLost _ =>
    [.memory, .waiting, .timebase, .schedule, .heads, .lamps, .welt, .outputs, .draws, .regs .le, .regs .mi, .regs .dc, .regs .di, .regs .hp,
      .regs .wl]
  | .dllLock _ =>
    [.cells, .memory, .flash, .manage, .waiting, .schedule, .heads, .lamps, .outputs, .draws, .regs .ck, .regs .le, .regs .mi, .regs .dc,
      .regs .di, .regs .hp]
  | .heelSilent _ =>
    [.memory, .waiting, .timebase, .schedule, .heads, .lamps, .welt, .leader, .outputs, .draws, .regs .le, .regs .mi, .regs .dc, .regs .di,
      .regs .hp, .regs .wl]
  | .productionEnd _ =>
    [.memory, .flash, .manage, .waiting, .clock, .timebase, .schedule, .heads, .lamps, .outputs, .draws, .regs .fs, .regs .le, .regs .mi,
      .regs .dc, .regs .di, .regs .hp]
  | .refclkLossTimeout | .memoryPllRelockTimeout _ =>
    [.cells, .memory, .store, .waiting, .timebase, .schedule, .heads, .lamps, .welt, .power, .outputs, .draws, .regs .ps, .regs .le, .regs .mi,
      .regs .dc, .regs .di, .regs .hp]
  | .corePllLockLost _ =>
    [.cells, .memory, .store, .waiting, .timebase, .schedule, .heads, .lamps, .welt, .power, .outputs, .draws, .regs .ps, .regs .ck, .regs .le,
      .regs .mi, .regs .dc, .regs .di, .regs .hp]
  | .messageCollect _ _ =>
    [.cells, .memory, .passport, .manage, .store, .waiting, .timebase, .schedule, .heads, .lamps, .welt, .power, .outputs, .draws, .regs .ps,
      .regs .le, .regs .mi, .regs .dc, .regs .di, .regs .hp]
  | .memoryPllLockLost _ | .lockWindow _ _ _ _ =>
    [.cells, .memory, .store, .waiting, .timebase, .schedule, .heads, .lamps, .clocks, .welt, .power, .outputs, .draws, .regs .ps, .regs .ck,
      .regs .le, .regs .mi, .regs .dc, .regs .di, .regs .hp]
  | .sensorRead _ _ =>
    [.cells, .memory, .store, .waiting, .timebase, .schedule, .heads, .lamps, .thermal, .welt, .power, .outputs, .draws, .regs .ps, .regs .th,
      .regs .le, .regs .mi, .regs .dc, .regs .di, .regs .hp]
  | .heelFrame _ _ =>
    [.cells, .memory, .store, .waiting, .timebase, .schedule, .heads, .lamps, .welt, .leader, .power, .outputs, .draws, .regs .ps, .regs .le,
      .regs .mi, .regs .dc, .regs .di, .regs .hp, .regs .wl]
  | .eyeletComplete =>
    [.memory, .waiting, .clock, .timebase, .schedule, .heads, .lamps, .welt, .leader, .power, .outputs, .draws, .regs .mg, .regs .ps,
      .regs .le, .regs .mi, .regs .dc, .regs .di, .regs .hp, .regs .wl]
  | .warmReset =>
    [.roles, .audit, .manage, .draws] ++ allRegs
  | .shortPress | .watchdogExpiry _ =>
    [.roles, .audit, .manage, .waiting, .draws] ++ allRegs
  | .laceAbort | .pfwDelayEnd | .vauxFail _ _ | .forcedOff =>
    [.cells, .memory, .flash, .roles, .audit, .manage, .waiting, .timebase, .schedule, .heads, .access, .lamps, .welt, .power, .outputs,
      .draws, .regs .mg, .regs .ps, .regs .le, .regs .dc, .regs .di, .regs .hp]
  | .warmResetWrite _ =>
    [.roles, .audit, .manage, .waiting, .access, .draws] ++ allRegs
  | .softStartFail _ _ _ | .railFail _ _ _ =>
    [.cells, .memory, .flash, .roles, .audit, .manage, .store, .waiting, .timebase, .schedule, .heads, .access, .lamps, .welt, .power,
      .outputs, .draws, .regs .mg, .regs .ps, .regs .fs, .regs .le, .regs .mi, .regs .dc, .regs .di, .regs .hp, .regs .wl]
  | .write _ _ _ =>
    [.memory, .flash, .roles, .audit, .manage, .store, .waiting, .clock, .timebase, .schedule, .lasts, .heads, .access, .lamps, .clocks, .welt,
      .power, .draws] ++ allRegs
  | .railGood _ =>
    [.memory, .flash, .roles, .audit, .manage, .store, .waiting, .clock, .timebase, .schedule, .lasts, .heads, .lamps, .clocks, .welt, .leader,
      .power, .draws] ++ allRegs
  | .passportRetry _ =>
    [.memory, .flash, .passport, .roles, .audit, .start, .manage, .store, .waiting, .clock, .timebase, .schedule, .lasts, .heads, .lamps,
      .clocks, .welt, .power, .draws] ++ allRegs
  | .tickStart _ | .idleCycleEnd _ | .lutDataAccess _ _ | .frameLoRead _ _ | .blockDecode _ _ _ _ | .linkUp _ _ _ _ | .frequencyChangeDone
  | .tsqPop _ | .read _ _ _ | .registerWrite _ _ =>
    [.memory, .flash, .roles, .audit, .manage, .store, .waiting, .clock, .timebase, .schedule, .lasts, .heads, .access, .lamps, .clocks, .welt,
      .power, .outputs, .draws] ++ allRegs
  | .svcStart =>
    [.cells, .memory, .flash, .audit, .start, .manage, .store, .waiting, .timebase, .schedule, .lasts, .heads, .access, .lamps, .thermal,
      .clocks, .welt, .leader, .power, .outputs, .draws] ++ allRegs
  | .eyeletEntry _ =>
    [.cells, .memory, .flash, .passport, .roles, .audit, .start, .manage, .store, .waiting, .clock, .timebase, .schedule, .lasts, .heads,
      .lamps, .clocks, .welt, .power, .outputs, .draws] ++ allRegs
  | .rejoin =>
    [.cells, .memory, .flash, .roles, .audit, .manage, .store, .waiting, .clock, .timebase, .schedule, .lasts, .heads, .access, .lamps,
      .thermal, .clocks, .welt, .power, .outputs, .draws] ++ allRegs
  | .auxReset =>
    [.cells, .memory, .flash, .roles, .audit, .start, .manage, .store, .waiting, .clock, .timebase, .schedule, .lasts, .heads, .access, .lamps,
      .thermal, .clocks, .welt, .leader, .power, .draws] ++ allRegs
  | .auxUp _ =>
    [.cells, .memory, .flash, .roles, .audit, .start, .manage, .store, .waiting, .clock, .timebase, .schedule, .lasts, .heads, .access, .lamps,
      .thermal, .clocks, .welt, .leader, .power, .outputs, .draws] ++ allRegs

end Sys2Proof.Machine
end

