-- ==== Sys2Proof/Certificates/Slice0/Obligations.lean ====
section
/-! DEFINITION. What is to be proved of the block. Each statement says that its commands complete, in every state that meets conditions on
the state and the operands alone, and what they leave; the frame of every command is `CommandsKeepTheRest` with `footprint`. -/
open Sys2Proof Sys2Proof.Machine

/-! The block and its queue -/

/-- A step runs the command at the front of the queue on the state that holds the rest of the queue. -/
def Obligations.StepRunsFront : Prop :=
  ∀ (c : Instr) (q : List Instr) (s : State), s.pending = c :: q → step s = exec c { s with pending := q }

/-- On an empty queue one core cycle passes (the model's choice, log entry 2): the clock and the time base move, nothing else does. -/
def Obligations.StepIdle : Prop :=
  ∀ s : State, s.pending = [] →
    ∃ t, step s = .next t ∧ t.now = s.now + 1 ∧ t.pending = [] ∧ State.PartsBut s t [.clock, .timebase] ∧ State.RegsBut s t []

/-- No step stops: every command, in every state, leads to a next state with the rest of the queue waiting. What only grows: the clock, what the
device has sent, and the OTP words programmed (each once). -/
def Obligations.StepsGoOn : Prop :=
  ((∀ s : State, ∃ t, step s = .next t ∧ t.pending = s.pending.tail) ∧
  ∀ (c : Instr) (s : State), ∃ t, exec c s = .next t ∧ t.pending = s.pending) ∧
  (∀ s t : State, step s = .next t → s.now ≤ t.now ∧ s.out <+: t.out ∧ ∀ w, w ∈ s.mg.otp.done → w ∈ t.mg.otp.done)

/-- The bounds of `State.Inv` hold at reset. -/
def Obligations.ResetKeepsBounds : Prop := State.reset.Inv

/-- Every step keeps the bounds of `State.Inv`: canonical registers, flash and DRAM cells, the audit queue of 64 (R458), the time-stamp queue of 32
(R373), one waiting message per source (R417), the log ring of 256 (R420) and the poison list of 256 (R172). -/
def Obligations.StepKeepsBounds : Prop := ∀ s t : State, s.Inv → step s = .next t → t.Inv

/-- The frame of every command: a part of the state outside the command's footprint is the same after it. -/
def Obligations.CommandsKeepTheRest : Prop :=
  ∀ (c : Instr) (s : State), ∃ t, exec c s = .next t ∧ ∀ x, x ∉ footprint c → Part.Same x s t

/-- At reset every register holds its power-on value, the image flash and the passport are blank, DRAM lists nothing and no command waits; OTP holds
the bounds of RAIL_01 to RAIL_09 as delivered, locked, and is otherwise blank. -/
def Obligations.ResetValues : Prop :=
  (∀ k, State.reset.word k = regPowerOn k) ∧ (∀ a, Sparse.get (fun _ => 0xFF) State.reset.flash a = 0xFF) ∧ State.reset.mem = [] ∧
  State.reset.mg.passport = [] ∧ State.reset.pending = [] ∧
  State.reset.mg.otp.loBound.toList = [0, 3135, 776, 725, 725, 820, 873, 1164, 1067, 1067, 0, 0] ∧
  State.reset.mg.otp.hiBound.toList = [0, 3465, 824, 775, 775, 880, 927, 1236, 1133, 1133, 0, 0] ∧
  (∀ r, 1 ≤ r → r ≤ 9 → State.reset.mg.otp.open 4 r = false) ∧ State.reset.mg.otp.kMaker = 0 ∧ State.reset.mg.otp.kWrap = 0 ∧
  State.reset.mg.otp.makerKeyHash = 0 ∧ State.reset.mg.otp.minSec = 0 ∧ State.reset.mg.otp.defRail.toList = List.replicate 12 0 ∧
  State.reset.mg.otp.grade = 0 ∧ State.reset.mg.otp.laceSolo = false

/-! Role-gated writes -/

/-- A gated command whose path lacks the role changes no register (the audit counters apart) and no part of the state but the audit log; a refusal
recorded for the path and target within the last second is counted in MERGED, and otherwise, where the audit queue has room, the refusal is recorded
with its role, path, target and time. While the audit queue is full a gated write of a path that holds the role is discarded and counted in FULL. -/
def Obligations.GatedWritesRefused : Prop :=
  (∀ (c : Instr) (s : State) (p : Path) (a v : Nat) (t : RegTpl), s.Inv → gatedWriteOf c s = some (p, a, v) → s.pathBusy p = false →
    s.farReg p a = false → s.gate p (s.role p).role a = .refused t →
    ∃ u, exec c s = .next u ∧ State.PartsBut s u [.audit] ∧ State.RegsBut s u [F.MG_AUDIT_STAT.SEQ.a] ∧
      (s.refusedLately p 2 a = true → u.mg.audit = s.mg.audit ∧ s.CountsUp u F.MG_AUDIT_STAT.MERGED) ∧
      (s.auditFull = false → s.refusedLately p 2 a = false →
        ∃ e, u.mg.audit = s.mg.audit ++ [e] ∧ e.kind = 2 ∧ e.role = (s.role p).role ∧ e.path = p.idx ∧ e.target = a % 2 ^ 32 ∧
          e.time = s.time ∧ e.new = v % 2 ^ 32 ∧ e.seq = s.mg.auditSeq)) ∧
  (∀ (c : Instr) (s : State) (p : Path) (a v : Nat) (t : RegTpl), s.Inv → gatedWriteOf c s = some (p, a, v) → s.pathBusy p = false →
    s.farReg p a = false → s.gate p (s.role p).role a = .full t →
    ∃ u, exec c s = .next u ∧ State.PartsBut s u [] ∧ State.RegsBut s u [F.MG_AUDIT_STAT.SEQ.a] ∧ s.CountsUp u F.MG_AUDIT_STAT.FULL)

/-- In split mode a write to a register of the other half changes nothing: the half that serves the path raises source 0x078. A write to an unassigned
address, or of a head to a register that only SPI reaches, changes nothing. A write of a head whose earlier reads still wait takes its place behind
them and changes nothing else. -/
def Obligations.WritesWithoutEffect : Prop :=
  (∀ (c : Instr) (s : State) (p : Path) (a v : Nat), gatedWriteOf c s = some (p, a, v) → s.pathBusy p = false → s.farReg p a = true →
    ∃ u, exec c s = .next u ∧ State.PartsBut s u [.waiting] ∧ State.RegsBut s u [] ∧ u.Waits (s.pathHalf p) 0x078) ∧
  (∀ (c : Instr) (s : State) (p : Path) (a v : Nat), gatedWriteOf c s = some (p, a, v) → s.pathBusy p = false → s.farReg p a = false →
    s.gate p (s.role p).role a = .ignored → exec c s = .next s) ∧
  (∀ (c : Instr) (s : State) (h : Fin 4) (a v : Nat), gatedWriteOf c s = some (.head h, a, v) → s.pathBusy (.head h) = true →
    ∃ u, exec c s = .next u ∧ (u.head h.val).io = (s.head h.val).io ++ [.write a v] ∧
      (∀ k : Fin 4, k ≠ h → (u.head k.val).io = (s.head k.val).io) ∧ State.PartsBut s u [.access] ∧ State.RegsBut s u [])

/-- A register write over any path to a plain register of any block (one whose write starts nothing): its writable fields take the value as one
update, every other register keeps its word, and an applied gated change is recorded with the words before and after. A mask of FC leaves fatal-class
and reserved sources unmasked, and a severity of FC stays 4 for a fatal-class source, 0 for a reserved one and at most 3 for any other. -/
def Obligations.PlainRegisterWrite : Prop :=
  ∀ (s : State) (p : Path) (a : BitVec 24) (v : BitVec 64) (t : RegTpl), s.Inv → s.pathBusy p = false → s.farReg p a.toNat = false →
    s.gate p (s.role p).role a.toNat = .allowed t →
    let w := t.written (s.word (t.key p a.toNat)) (v.toNat % 2 ^ 32)
    (startsNothing a.toNat = true →
      ∃ u, exec (.registerWrite (.word p a) v) s = .next u ∧ u.word (t.key p a.toNat) = w ∧
        State.RegsBut s u [t.key p a.toNat, F.MG_AUDIT_STAT.SEQ.a] ∧ State.PartsBut s u [.audit] ∧
        (t.gated = true → ∃ e, u.mg.audit = s.mg.audit ++ [e] ∧ e.kind = 1 ∧ e.role = (s.role p).role ∧ e.path = p.idx ∧ e.target = a.toNat ∧
          e.time = s.time ∧ e.old = s.gatedWord p (t.key p a.toNat) a.toNat ∧ e.new = u.gatedWord p (t.key p a.toNat) a.toNat)) ∧
    (0x10020 ≤ a.toNat → a.toNat < 0x1002A →
      ∃ u, exec (.registerWrite (.word p a) v) s = .next u ∧ State.RegsBut s u [a.toNat, F.MG_AUDIT_STAT.SEQ.a] ∧ State.PartsBut s u [.audit] ∧
        ∀ b, b < 32 → (u.word a.toNat).getLsbD b =
          (w.getLsbD b && !fatalClass (32 * (a.toNat - 0x10020) + b) && !reservedSource (32 * (a.toNat - 0x10020) + b))) ∧
    (0x10100 ≤ a.toNat → a.toNat < 0x10240 →
      ∃ u, exec (.registerWrite (.word p a) v) s = .next u ∧ State.RegsBut s u [a.toNat, F.MG_AUDIT_STAT.SEQ.a] ∧ State.PartsBut s u [.audit] ∧
        u.rd (F.FC_SRC_s.SEV (a.toNat - 0x10100)) =
          (if fatalClass (a.toNat - 0x10100) then 4 else if reservedSource (a.toNat - 0x10100) then 0 else min (bits v.toNat 26 24) 3))

/-! Power: start-up -/

/-- AUX_UP: the AUX domain comes up with its own rails enabled, every path without a role and E0 due, unless TEST_EN is high, with LACE low and held
where the module joins; OTP, the passport and the image flash below the record ring stay. Without TEST_EN the boot record's bank, or else the other
one, is booted, and with no valid bank the fatal state is entered. PASSPORT_RETRY: a read that meets a generation mismatch, or one not acknowledged
while FIELD_N is released, is counted and due again. -/
def Obligations.AuxDomainComesUp : Prop :=
  (∀ (testEn : Bool) (s : State), s.pwr.aux = false →
    ∃ t, exec (.auxUp testEn) s = .next t ∧ t.pwr.aux = true ∧ t.pwr.auxAt = s.now ∧ t.pwr.test = testEn ∧ t.pwr.railen = 6 ∧
      t.pwr.entryDue = !testEn ∧ (∀ a, a < 0x1030000 → Sparse.get (fun _ => 0xFF) t.flash a = Sparse.get (fun _ => 0xFF) s.flash a) ∧
      t.mg.otp = s.mg.otp ∧ t.mg.passport = s.mg.passport ∧ (∀ p, t.role p = {}) ∧
      t.rd F.PS_STATUS.EYELET = 0 ∧ t.rd F.PS_STATUS.STATE = 0 ∧ t.rd F.PS_STATUS.SOLO = b2n s.mg.otp.laceSolo ∧
      t.rd F.PS_STATUS.LACE = b2n s.mg.otp.laceSolo ∧ t.rd F.PS_STATUS.HOLDING = b2n (!s.mg.otp.laceSolo) ∧
      (testEn = false → t.rd F.MG_STATUS.FW_OK = b2n s.bootBank.isSome ∧ (∀ b fb, s.bootBank = some (b, fb) → t.rd F.MG_STATUS.BANK = b) ∧
        (t.fc .a).fatal = s.bootBank.isNone)) ∧
  (∀ s : State, s.mg.ppPending = true → s.pwr.acting = true → s.rd F.PS_STATUS.EYELET = 0 → s.Inv →
    (s.mg.ppRetries < 50 →
      ∃ t, exec (.passportRetry .genMismatch) s = .next t ∧ t.mg.ppPending = true ∧ t.mg.ppRetries = s.mg.ppRetries + 1 ∧
        t.mg.fieldN = false ∧ t.rd F.MG_PP_STAT.RETRIES = min (s.rd F.MG_PP_STAT.RETRIES + 1) 63) ∧
    (s.mg.ppNackRetries < 2 →
      ∃ t, exec (.passportRetry .nackFree) s = .next t ∧ t.mg.ppPending = true ∧ t.mg.ppNackRetries = s.mg.ppNackRetries + 1 ∧
        t.rd F.MG_PP_STAT.RETRIES = min (s.rd F.MG_PP_STAT.RETRIES + 1) 63))

/-- EYELET_ENTRY. An eyelet that cannot complete stops the start: STATE 3, LACE released and ignored. Any other eyelet is entered: in a module that
joins LACE is pulled low and held, and the eyelet's action starts. E0 reads the passport: bytes that verify are used, with their serial number; a
generation mismatch or a NACK is tried again as R445 says; and a read that fails for good leaves the mirror, or with none the OTP defaults. E1 to E7
enable each of their rails whose dependencies are good and that is not latched, and with E1 RAIL_00; other rails stay. E8 trains the lanes of the
Welt. E9 begins to train the subchannels of every half with its core and VDDQ rails good, and retires those of another. E10 applies the fuse map and
runs the codec self-test, where a failing codec enters the fatal state. E11 begins the fills of the running halves, which leave fast-started
subchannels out. E12 begins to admit the Lasts present, the lowest first. From E13 on nothing else changes. -/
def Obligations.EyeletIsEntered : Prop :=
  ∀ (env : EyeletEnv) (s : State), s.Inv → s.pwr.aux = true → s.pwr.entryDue = true → s.rd F.PS_STATUS.STATE < 2 →
    (s.eyeletLost = true →
      ∃ t, exec (.eyeletEntry env) s = .next t ∧ t.rd F.PS_STATUS.STATE = 3 ∧ t.rd F.PS_STATUS.HOLDING = 0 ∧ t.pwr.ignoreLace = true ∧
        t.pwr.acting = false ∧ t.pwr.entryDue = false ∧ State.RegsBut s t [F.PS_STATUS.STATE.a] ∧ State.PartsBut s t [.power]) ∧
    (s.eyeletLost = false →
      (s.rd F.PS_STATUS.EYELET ≠ 0 → s.rd F.PS_STATUS.EYELET ≠ 10 →
        ∃ t, exec (.eyeletEntry env) s = .next t ∧ t.pwr.acting = true ∧ t.pwr.entryDue = false ∧
          t.rd F.PS_STATUS.HOLDING = (if s.on F.PS_STATUS.SOLO then s.rd F.PS_STATUS.HOLDING else 1) ∧
          t.rd F.PS_STATUS.LACE = (if s.on F.PS_STATUS.SOLO then s.rd F.PS_STATUS.LACE else 0)) ∧
      (s.rd F.PS_STATUS.EYELET = 0 → env.pp = .answered → s.mg.fieldN = false → bodyCrcOk (s.ppBytes 0 4096) = true →
        s.idHmacOk (s.ppBytes 0 4096) = true →
        ∃ t, exec (.eyeletEntry env) s = .next t ∧ t.mg.ppPending = false ∧ t.mg.body = s.ppBytes 0 4096 ∧
          t.mg.serial = BitVec.ofNat 64 (field (s.ppBytes 0 4096) 0x40 8)) ∧
      (s.rd F.PS_STATUS.EYELET = 0 → env.pp = .genMismatch ∨ env.pp = .nackField → s.mg.ppRetries < 50 →
        ∃ t, exec (.eyeletEntry env) s = .next t ∧ t.pwr.acting = true ∧ t.pwr.entryDue = false ∧ t.mg.ppPending = true ∧
          t.mg.ppRetries = s.mg.ppRetries + 1 ∧ t.mg.fieldN = decide (env.pp = .nackField) ∧
          ∀ h ∈ env.coreFail, (t.mg.core h).fw = none ∧ (t.wh h).selftest = false) ∧
      (s.rd F.PS_STATUS.EYELET = 0 → env.pp = .nackFree → s.mg.ppNackRetries < 2 →
        ∃ t, exec (.eyeletEntry env) s = .next t ∧ t.pwr.acting = true ∧ t.mg.ppPending = true ∧ t.mg.ppNackRetries = s.mg.ppNackRetries + 1) ∧
      (s.rd F.PS_STATUS.EYELET = 0 →
        (env.pp = .answered ∧ s.mg.fieldN = false ∧ bodyCrcOk (s.ppBytes 0 4096) = true ∧ s.idHmacOk (s.ppBytes 0 4096) = false) ∨
          ((env.pp = .genMismatch ∨ env.pp = .nackField) ∧ 50 ≤ s.mg.ppRetries) ∨ (env.pp = .nackFree ∧ 2 ≤ s.mg.ppNackRetries) →
        ∃ t, exec (.eyeletEntry env) s = .next t ∧ t.mg.ppPending = false ∧ t.mg.body = (match s.mirror with | some (_, b) => b | none => [])) ∧
      (∀ e r, (e, r) ∈ [(1, 5), (2, 3), (2, 4), (3, 6), (4, 7), (5, 11), (6, 10), (7, 8), (7, 9)] → s.rd F.PS_STATUS.EYELET = e →
        ∃ t, exec (.eyeletEntry env) s = .next t ∧ (e = 1 → t.pwr.railen.getLsbD 0 = true) ∧ State.PartsBut s t [.power] ∧
          if s.depsGood r = true ∧ s.rd (F.PS_RAIL_n_STATUS.STATE r) ≠ 4 then
            t.pwr.railen.getLsbD r = true ∧ t.rd (F.PS_RAIL_n_STATUS.STATE r) = 1
          else t.pwr.railen.getLsbD r = s.pwr.railen.getLsbD r ∧ t.rd (F.PS_RAIL_n_STATUS.STATE r) = s.rd (F.PS_RAIL_n_STATUS.STATE r)) ∧
      (s.rd F.PS_STATUS.EYELET = 8 →
        ∃ t, exec (.eyeletEntry env) s = .next t ∧ t.rd F.WL_STATUS.LANES_AB = 76 - env.deadLanes.1.val ∧
          t.rd F.WL_STATUS.LANES_BA = 76 - env.deadLanes.2.val ∧
          t.rd F.WL_LINK_CNT.LANE_REPAIRS = env.deadLanes.1.val + env.deadLanes.2.val) ∧
      (s.rd F.PS_STATUS.EYELET = 9 → ∀ n : Fin 16,
        ∃ t, exec (.eyeletEntry env) s = .next t ∧
          if s.coreUp (subHalf n.val) = true ∧ s.railGood (8 + (subHalf n.val).idx) = true then
            t.rd (F.DI_n_STATUS.STATE n.val) = 1 ∧ t.rd (F.DI_n_STATUS.RATE0 n.val) = s.startRates.1 % 8 ∧ t.rd (F.CK_DLL_n.STATE n.val) = 1
          else t.rd (F.DI_n_STATUS.STATE n.val) = 4 ∧ t.rd (F.DC_n_STATUS.STATE n.val) = 5 ∧ (t.sub n.val).retired = true) ∧
      (s.rd F.PS_STATUS.EYELET = 10 →
        ∃ t, exec (.eyeletEntry env) s = .next t ∧ (∀ n : Fin 16, t.rd (F.MI_SUB_n_ERR.ROWMAP_N n.val) = min (t.sub n.val).rowMap.length 255) ∧
          (env.codecFail = [] → t.rd F.MI_STATUS.SELFTEST_FAIL = 0 ∧ t.pwr.acting = true ∧ t.pwr.entryDue = false) ∧
          ∀ f ∈ env.codecFail, (t.rd F.MI_STATUS.SELFTEST_FAIL).testBit f.1.val = true ∧ (t.fc (subHalf f.1.val)).fatal = true) ∧
      (s.rd F.PS_STATUS.EYELET = 11 →
        ∃ t, exec (.eyeletEntry env) s = .next t ∧ (s.coreUp .a = true → t.rd F.MI_STATUS.FILL_A = 1) ∧
          (s.coreUp .b = true → t.rd F.MI_STATUS.FILL_B = 1) ∧ t.rd F.MI_STATUS.FILL_PCT = 0 ∧
          (∀ n : Fin 16, (t.sub n.val).skipFill = s.fastStarts n.val) ∧ State.PartsBut s t [.memory, .power]) ∧
      (∀ n q, s.rd F.PS_STATUS.EYELET = 12 → (List.range 4).filter s.lastPresent = n :: q →
        ∃ t, exec (.eyeletEntry env) s = .next t ∧ t.admitting = some n ∧ t.admQueue = q ∧ t.admStart = true ∧ ∀ k ∈ t.lasts, k = none) ∧
      (s.rd F.PS_STATUS.EYELET = 12 → (List.range 4).filter s.lastPresent = [] →
        ∃ t, exec (.eyeletEntry env) s = .next t ∧ t.admitting = s.admitting ∧ ∀ k ∈ t.lasts, k = none) ∧
      (13 ≤ s.rd F.PS_STATUS.EYELET →
        ∃ t, exec (.eyeletEntry env) s = .next t ∧ State.RegsBut s t [F.PS_STATUS.STATE.a] ∧ State.PartsBut s t [.power]))

/-- EYELET_COMPLETE releases LACE and, in a module that sequences solo, begins the next eyelet; E0 lasts E0_MIN at least. LACE_RISE begins the next
eyelet in a module that joins, and ends a pull of LACE_ABORT. -/
def Obligations.EyeletsFollow : Prop :=
  ∀ s : State, s.Inv →
    (s.rd F.PS_STATUS.STATE < 2 → s.pwr.acting = true → s.eyeletLost = false → s.eyeletDone (s.rd F.PS_STATUS.EYELET) = true →
      s.rd F.PS_STATUS.EYELET < 15 →
      ∃ t, exec .eyeletComplete s = .next t ∧ t.pwr.acting = false ∧ t.rd F.PS_STATUS.LAST_GOOD = s.rd F.PS_STATUS.EYELET ∧
        t.rd F.PS_STATUS.HOLDING = 0 ∧
        t.rd F.PS_STATUS.EYELET = s.rd F.PS_STATUS.EYELET + b2n (s.on F.PS_STATUS.SOLO) ∧
        (s.rd F.PS_STATUS.EYELET = 0 → s.pwr.auxAt + min (max 10 (s.rd F.PS_LACE_CFG.E0_MIN)) 1000 * 1200000 ≤ t.now)) ∧
    (s.rd F.PS_STATUS.STATE < 2 → s.on F.PS_STATUS.SOLO = false → s.pwr.ignoreLace = false → s.pwr.acting = false → s.pwr.entryDue = false →
      s.on F.PS_STATUS.HOLDING = false → s.pwr.aux = true → s.rd F.PS_STATUS.EYELET < 15 →
      ∃ t, exec .laceRise s = .next t ∧ t.rd F.PS_STATUS.LACE = 1 ∧ t.rd F.PS_STATUS.EYELET = s.rd F.PS_STATUS.EYELET + 1 ∧
        t.rd F.PS_STATUS.STATE = (if s.rd F.PS_STATUS.EYELET = 14 then 2 else 1) ∧
        t.pwr.entryDue = decide (s.rd F.PS_STATUS.EYELET < 14)) ∧
    (s.rd F.PS_STATUS.STATE = 2 → s.pwr.abortEnd.isSome = true →
      ∃ t, exec .laceRise s = .next t ∧ t.rd F.PS_STATUS.LACE = 1 ∧ t.rd F.PS_STATUS.HOLDING = 0 ∧ t.pwr.abortEnd = none ∧
        State.RegsBut s t [F.PS_STATUS.STATE.a])

/-- Rails in soft start: a good one shows state 3 with PG and IN_WIN; a first failure lowers its enable and waits (state 2; off while faults are
recorded only), its one retry begins soft start again, and a second failure latches with its source. Rails 3 and 4 also apply the settings of E2. -/
def Obligations.SoftStart : Prop :=
  ∀ (r : Fin 12) (s : State), s.Inv →
    (s.pwr.aux = true → s.rd (F.PS_RAIL_n_STATUS.STATE r.val) = 1 → (s.window r.val).1 < (s.window r.val).2 →
      ∃ t, exec (.railGood r) s = .next t ∧ t.rd (F.PS_RAIL_n_STATUS.STATE r.val) = 3 ∧ t.rd (F.PS_RAIL_n_STATUS.PG r.val) = 1 ∧
        t.rd (F.PS_RAIL_n_STATUS.IN_WIN r.val) = 1 ∧ (r.val ≠ 3 → r.val ≠ 4 → State.RegsBut s t [(F.PS_RAIL_n_STATUS.STATE r.val).a])) ∧
    (∀ oc mv, s.rd (F.PS_RAIL_n_STATUS.STATE r.val) = 1 → s.rd (F.PS_RAIL_n_STATUS.RETRIES r.val) = 0 →
      ∃ t, exec (.softStartFail r oc mv) s = .next t ∧ t.rd (F.PS_RAIL_n_STATUS.STATE r.val) = (if s.faultsRecordedOnly then 0 else 2) ∧
        t.rd (F.PS_RAIL_n_STATUS.CAUSE r.val) = (if oc then 1 else 2) ∧ t.pwr.railen.getLsbD r.val = false ∧
        State.RegsBut s t [(F.PS_RAIL_n_STATUS.STATE r.val).a]) ∧
    (∀ oc mv, s.rd (F.PS_RAIL_n_STATUS.STATE r.val) = 1 → s.rd (F.PS_RAIL_n_STATUS.RETRIES r.val) ≠ 0 →
      ∃ t, exec (.softStartFail r oc mv) s = .next t ∧ t.rd (F.PS_RAIL_n_STATUS.STATE r.val) = 4 ∧
        t.rd (F.PS_RAIL_n_STATUS.CAUSE r.val) = (if oc then 1 else 2) ∧ t.Waits s.leader (0x120 + r.val)) ∧
    (s.rd (F.PS_RAIL_n_STATUS.STATE r.val) = 2 → s.faultsRecordedOnly = false → s.depsGood r.val = true →
      ∃ t, exec (.softStartRetry r) s = .next t ∧ t.rd (F.PS_RAIL_n_STATUS.STATE r.val) = 1 ∧
        t.rd (F.PS_RAIL_n_STATUS.RETRIES r.val) = 1 ∧ t.pwr.railen.getLsbD r.val = true ∧
        State.RegsBut s t [(F.PS_RAIL_n_STATUS.STATE r.val).a])

/-! Power: rails, transitions, LACE, shedding -/

/-- RAIL_FAIL: a good rail that fails shows its cause and raises its source. VIN below its window latches nothing (the model's choice, log entry 227):
it asserts PFW_N. Any other failure latches, and a rail behind LACE is switched off; while faults are recorded only nothing else of the supervisor
changes, but a failure of VAUX or VAUXC always acts. The current limit does not apply to rails 0 to 2. A transition that is not refused widens the
rail's window over the old and the new one, and its end leaves the new one. -/
def Obligations.RunningRails : Prop :=
  (∀ (r : Fin 12) (cause : RailCause) (mv : Nat) (s : State), s.Inv → s.railGood r.val = true →
    if r.val < 3 ∧ cause = .overCurrent then exec (.railFail r cause mv) s = .next s
    else if r.val = 0 ∧ cause = .underUv then
      ∃ t, exec (.railFail r cause mv) s = .next t ∧ t.rd (F.PS_RAIL_n_STATUS.STATE 0) = 0 ∧ t.rd (F.PS_RAIL_n_STATUS.IN_WIN 0) = 0 ∧
        t.rd (F.PS_RAIL_n_STATUS.CAUSE 0) = 3 ∧ t.Waits s.leader 0x120 ∧
        (s.faultsRecordedOnly = false → t.rd F.PS_STATUS.PFW = 1 ∧ t.pwr.pfwDelay = true ∧ t.pwr.pfwVin = mv)
    else if s.faultsRecordedOnly = false ∨ r.val = 1 ∨ r.val = 2 then
      ∃ t, exec (.railFail r cause mv) s = .next t ∧ t.rd (F.PS_RAIL_n_STATUS.STATE r.val) = 4 ∧
        t.rd (F.PS_RAIL_n_STATUS.CAUSE r.val) = causeCode cause ∧ t.Waits s.leader (0x120 + r.val) ∧
        (3 ≤ r.val → t.pwr.railen.getLsbD r.val = false) ∧ (r.val = 1 ∨ r.val = 2 → 4 ≤ t.rd F.PS_STATUS.STATE)
    else
    ∃ t, exec (.railFail r cause mv) s = .next t ∧ t.rd (F.PS_RAIL_n_STATUS.STATE r.val) = 4 ∧
      t.rd (F.PS_RAIL_n_STATUS.CAUSE r.val) = causeCode cause ∧ t.Waits s.leader (0x120 + r.val) ∧ t.pwr = s.pwr ∧
      State.RegsBut s t [(F.PS_RAIL_n_STATUS.STATE r.val).a] ∧
      (cause = .pgLow → t.rd (F.PS_RAIL_n_STATUS.PG r.val) = 0) ∧
      (cause = .underUv ∨ cause = .overOv → t.rd (F.PS_RAIL_n_STATUS.IN_WIN r.val) = 0)) ∧
  ((∀ (p : Path) (v : Word) (s : State), s.Inv → s.writable p 0x20007 = true → v.getLsbD 31 = true →
    let u := s.stored p 0x20007 v.toNat
    let r := u.rd F.PS_TRANS.RAIL
    let new := (u.rd F.PS_TRANS_WIN.UV, u.rd F.PS_TRANS_WIN.OV)
    u.transRefused r new = false →
    ∃ t, exec (.transitionStart p v) s = .next t ∧ t.pwr.trans = some (r, u.window r, new) ∧ t.rd F.PS_TRANS.BUSY = 1 ∧
      t.rd F.PS_TRANS.REFUSED = 0 ∧ t.rd (F.PS_RAIL_n_STATUS.STATE r) = (if s.rd (F.PS_RAIL_n_STATUS.STATE r) = 3 then 6 else s.rd (F.PS_RAIL_n_STATUS.STATE r)) ∧
      t.window r = (min (u.window r).1 new.1, max (u.window r).2 new.2)) ∧
  ∀ (s : State) (r : Nat) (old new : Nat × Nat), s.pwr.trans = some (r, old, new) → s.Inv → r < 12 →
    s.rd (F.PS_RAIL_n_STATUS.STATE r) = 6 → new.1 < 2 ^ 16 → new.2 < 2 ^ 16 →
    ∃ t, exec .transitionBlankEnd s = .next t ∧ t.pwr.trans = none ∧ t.rd F.PS_TRANS.BUSY = 0 ∧
      t.rd (F.PS_RAIL_n_STATUS.STATE r) = 3 ∧ t.window r = new ∧
      State.RegsBut s t [F.PS_TRANS.BUSY.a, (F.PS_RAIL_n_STATUS.STATE r).a, (F.PS_RAIL_n_WIN.UV r).a])

/-- LACE in E15 and before: warnings and glitches are counted with their message; LACE_ABORT_WRITE pulls LACE low, for 2 ms. -/
def Obligations.LaceEvents : Prop :=
  ∀ s : State, s.Inv →
    (s.rd F.PS_STATUS.STATE < 2 → s.pwr.acting = false → s.pwr.entryDue = false → s.on F.PS_STATUS.LACE = false → s.pwr.warned = false →
      ∃ t, exec .eyeWarn s = .next t ∧ t.rd F.PS_LACE_CNT.WARNS = min (s.rd F.PS_LACE_CNT.WARNS + 1) 255 ∧ t.pwr.warned = true ∧
        t.Waits s.leader 0x12C ∧ State.RegsBut s t [F.PS_LACE_CNT.WARNS.a]) ∧
    (s.rd F.PS_STATUS.STATE = 2 →
      ∃ t, exec .laceGlitch s = .next t ∧ t.rd F.PS_LACE_CNT.GLITCH = min (s.rd F.PS_LACE_CNT.GLITCH + 1) 255 ∧
        t.Waits s.leader 0x12C ∧ State.RegsBut s t [F.PS_LACE_CNT.GLITCH.a]) ∧
    (∀ p, s.writable p 0x20001 = true → s.rd F.PS_STATUS.STATE = 2 →
      ∃ t, exec (.laceAbortWrite p) s = .next t ∧ t.rd F.PS_STATUS.HOLDING = 1 ∧ t.rd F.PS_STATUS.LACE = 0 ∧
        t.pwr.abortEnd = some (s.now + 2400000))

/-- PFW_N: its assertion is counted, stops a transition, holds the driving half, starts the charge estimator and starts the delay; a ride ends them
all and is counted; the end of the delay starts shedding for power fail (reason 1). What else starts shedding: a failing VAUX rail, whose fault
latches (reason 4), an abort over LACE in E15 (3) and a press held for 8 s (2); while the delay after PFW_N runs it is cut and the reason stays power
fail. -/
def Obligations.SheddingStarts : Prop :=
  (∀ s : State, s.Inv →
    (∀ vin, s.rd F.PS_STATUS.STATE < 4 → s.on F.PS_STATUS.PFW = false →
      ∃ t, exec (.pfwAssert vin) s = .next t ∧ t.rd F.PS_STATUS.PFW = 1 ∧ t.rd F.PS_PFW_STATUS.ASSERTS = min (s.rd F.PS_PFW_STATUS.ASSERTS + 1) 255 ∧
        t.pwr.pfwDelay = true ∧ t.pwr.pfwVin = vin ∧ t.pwr.trans = none ∧ t.pwr.charge = some 0 ∧ t.pwr.drive = some (s.pwr.drive.getD s.leader) ∧
        t.rd (F.PS_RAIL_n_STATUS.IN_WIN 0) = 0 ∧ t.Waits s.leader 0x12D) ∧
    (s.pwr.pfwDelay = true →
      ∃ t, exec .pfwRide s = .next t ∧ t.rd F.PS_STATUS.PFW = 0 ∧ t.pwr.pfwDelay = false ∧ t.pwr.charge = none ∧ t.pwr.drive = none ∧
        t.pwr.transAbandoned = false ∧ t.rd F.PS_PFW_STATUS.RIDES = min (s.rd F.PS_PFW_STATUS.RIDES + 1) 255 ∧
        t.rd (F.PS_RAIL_n_STATUS.IN_WIN 0) = 1 ∧
        State.RegsBut s t [F.PS_STATUS.PFW.a, F.PS_PFW_STATUS.RIDES.a, (F.PS_RAIL_n_STATUS.STATE 0).a]) ∧
    (s.pwr.pfwDelay = true →
      ∃ t, exec .pfwDelayEnd s = .next t ∧ t.rd F.PS_STATUS.STATE = 4 ∧ t.pwr.groups = shedGroups ∧ t.pwr.pfwDelay = false ∧
        t.pwr.shed.map (·.reason) = some 1 ∧ t.Waits s.leader 0x12D)) ∧
  (∀ s : State, s.Inv →
    (∀ vauxc mv, s.rd F.PS_STATUS.STATE < 4 →
      ∃ t, exec (.vauxFail vauxc mv) s = .next t ∧ t.rd F.PS_STATUS.STATE = 4 ∧ t.pwr.groups = shedGroups ∧
        t.pwr.shed.map (·.reason) = some (if s.pwr.pfwDelay then 1 else 4) ∧
        t.rd (F.PS_RAIL_n_STATUS.STATE (if vauxc then 2 else 1)) = 4 ∧ t.rd (F.PS_RAIL_n_STATUS.IN_WIN (if vauxc then 2 else 1)) = 0) ∧
    (s.rd F.PS_STATUS.STATE = 2 →
      ∃ t, exec .laceAbort s = .next t ∧ t.rd F.PS_STATUS.STATE = 4 ∧ t.pwr.groups = shedGroups ∧
        t.pwr.shed.map (·.reason) = some (if s.pwr.pfwDelay then 1 else 3)) ∧
    (s.rd F.PS_STATUS.STATE < 4 →
      ∃ t, exec .forcedOff s = .next t ∧ t.rd F.PS_STATUS.STATE = 4 ∧ t.pwr.groups = shedGroups ∧
        t.pwr.shed.map (·.reason) = some (if s.pwr.pfwDelay then 1 else 2)))

/-- RAIL_GROUP_DROP: while the device sheds, the next rail group drops: its enables go low, and its rails show STATE 5, a latched fault apart; every
other register and enable stays. POWER_FAIL_RECORD: once the last group has dropped, or where VIN stands below V_REC, the record of the next number
starts; in a blank slot its 256 bytes are formed, with number, flags, reason, VIN, the charge estimate and their CRC-32 (Table PS-5), and a slot that
is not blank takes none and fails the record. RECORD_WRITTEN: a record that completes stands in its slot, one that does not fails; the groups still to
drop are dropped, and the device is off: STATE 5, 6 (forced off) or 7 (abort), EYELET 0, LACE released. VIN_RETURN_OFF: VIN that returns to a device
that is off only raises its event. -/
def Obligations.SheddingRuns : Prop :=
  ∀ s : State, s.Inv →
    (∀ g rest, s.pwr.groups = g :: rest → s.rd F.PS_STATUS.STATE = 4 → (∀ r ∈ g, r < 12) →
      ∃ t, exec .railGroupDrop s = .next t ∧ t.pwr.groups = rest ∧
        (∀ r ∈ g, t.pwr.railen.getLsbD r = false ∧
          t.rd (F.PS_RAIL_n_STATUS.STATE r) = (if s.rd (F.PS_RAIL_n_STATUS.STATE r) = 4 then 4 else 5)) ∧
        (∀ r, r < 12 → r ∉ g → t.pwr.railen.getLsbD r = s.pwr.railen.getLsbD r) ∧
        State.RegsBut s t (g.map fun r => (F.PS_RAIL_n_STATUS.STATE r).a) ∧ State.PartsBut s t [.power]) ∧
    (s.pwr.groups = [] ∨ s.rd F.PS_STATUS.STATE ≠ 4 → exec .railGroupDrop s = .next s) ∧
    (∀ st, s.pwr.shed = some st → s.rd F.PS_STATUS.STATE = 4 → s.pwr.recording = false → ∀ byVrec vin samples tShed tRec,
      (byVrec = true ∧ vin < s.pwr.vrec ∨ s.pwr.groups = []) →
      ∃ t, exec (.powerFailRecord byVrec vin samples tShed tRec) s = .next t ∧ t.pwr.recording = true ∧ t.pwr.recSlot = s.nextRecord % 4096 ∧
        t.rd F.PS_PFW_STATUS.LAST_FLAGS = t.pwr.recFlags % 64 ∧ State.PartsBut s t [.power, .waiting] ∧
        ((s.flashBytes (0x1030000 + 256 * (s.nextRecord % 4096)) 256).all (· == 0xFF) = false →
          t.rd F.PS_PFW_STATUS.RECORD_FAIL = 1 ∧ t.pwr.recBytes = [] ∧ t.Waits s.leader 0x12D) ∧
        ((s.flashBytes (0x1030000 + 256 * (s.nextRecord % 4096)) 256).all (· == 0xFF) = true → t.rd F.PS_PFW_STATUS.RECORD_FAIL = 0) ∧
        ((s.flashBytes (0x1030000 + 256 * (s.nextRecord % 4096)) 256).all (· == 0xFF) = true → st.railV.length = 12 → st.railI.length = 12 →
          t.pwr.recBytes.length = 256 ∧ field t.pwr.recBytes 0 4 = 0x4B504652 ∧ field t.pwr.recBytes 6 2 = t.pwr.recFlags % 65536 ∧
          field t.pwr.recBytes 8 4 = s.nextRecord % 2 ^ 32 ∧ field t.pwr.recBytes 12 1 = st.reason % 256 ∧
          field t.pwr.recBytes 36 2 = vin % 65536 ∧ field t.pwr.recBytes 38 2 = (s.adcRun s.driver samples).chargeEstimate % 65536 ∧
          field t.pwr.recBytes 252 4 = crc32 (t.pwr.recBytes.take 252))) ∧
    (∀ byVrec vin samples tShed tRec, s.pwr.shed = none ∨ s.rd F.PS_STATUS.STATE ≠ 4 ∨ s.pwr.recording = true ∨
        (s.pwr.groups ≠ [] ∧ ¬ (byVrec = true ∧ vin < s.pwr.vrec)) →
      exec (.powerFailRecord byVrec vin samples tShed tRec) s = .next s) ∧
    (∀ st, s.pwr.shed = some st → s.pwr.recording = true → ∀ ok,
      ∃ t, exec (.recordWritten ok) s = .next t ∧ t.rd F.PS_STATUS.STATE = (if st.reason = 2 then 6 else if st.reason = 3 then 7 else 5) ∧
        t.rd F.PS_STATUS.EYELET = 0 ∧ t.rd F.PS_STATUS.HOLDING = 0 ∧ t.rd F.PS_STATUS.PFW = 0 ∧ t.rd F.PS_STATUS.LACE = 1 ∧
        t.pwr.shed = none ∧ t.pwr.recording = false ∧ t.pwr.groups = [] ∧ t.pwr.drive = none ∧
        (∀ g ∈ s.pwr.groups, ∀ r ∈ g, r < 12 → t.pwr.railen.getLsbD r = false ∧
          t.rd (F.PS_RAIL_n_STATUS.STATE r) = (if s.rd (F.PS_RAIL_n_STATUS.STATE r) = 4 then 4 else 5)) ∧
        (ok = false → s.pwr.recBytes ≠ [] → t.rd F.PS_PFW_STATUS.RECORD_FAIL = 1 ∧ t.Waits s.leader 0x12D) ∧
        (ok = true → s.pwr.recBytes.length = 256 → field s.pwr.recBytes 0 4 = 0x4B504652 →
          field s.pwr.recBytes 252 4 = crc32 (s.pwr.recBytes.take 252) → field s.pwr.recBytes 8 4 = s.nextRecord →
          s.pwr.recSlot = s.nextRecord % 4096 → s.tornAt (0x1030000 + 256 * s.pwr.recSlot) 256 = false →
          t.flashBytes (0x1030000 + 256 * s.pwr.recSlot) 256 = s.pwr.recBytes)) ∧
    (s.pwr.recording = false → ∀ ok, exec (.recordWritten ok) s = .next s) ∧
    (∀ vin, if 5 ≤ s.rd F.PS_STATUS.STATE then
        ∃ t, exec (.vinReturnOff vin) s = .next t ∧ t.Waits s.leader 0x12D ∧ State.RegsBut s t [] ∧ State.PartsBut s t [.waiting]
      else exec (.vinReturnOff vin) s = .next s)

/-- A management warm reset, by command, by a write of MG_CTRL, by a short press in E15, when stopped or in the fatal state, or by the watchdog,
leaves no path a role, empties the fetch buffer, and has every running core load the firmware of the booted bank again; a press and a watchdog reset
are counted. A short press in a start-up state without a fatal condition, or while the device sheds, is counted in IGNORED and changes nothing else
but its event. AUX_RESET: every register takes its power-on value and every block is empty, DRAM too; OTP, the passport, what was sent and the waiting
commands stay, and so does the image flash but for the record and the flash operation that it cuts off; a record cut off counts as none. SVC_START in
an off state starts the device solo with E0 due (not in manufacturing test), its rails off but for latched faults, and firmware booted. -/
def Obligations.Resets : Prop :=
  (∀ s : State, s.Inv →
    (∃ t, exec .warmReset s = .next t ∧ (∀ p, t.role p = {}) ∧ t.mg.fetchBuf = [] ∧ t.mg.fetching = none ∧ t.mg.otp = s.mg.otp ∧
      ∀ h, (t.mg.core h).fw = if (s.mg.core h).fw.isSome then some (s.rd F.MG_STATUS.BANK) else none) ∧
    (∀ p, s.writable p 4 = true →
      ∃ t, exec (.warmResetWrite p) s = .next t ∧ (∀ q, t.role q = {}) ∧ t.mg.fetchBuf = [] ∧ t.mg.fetching = none) ∧
    (s.rd F.PS_STATUS.STATE = 2 ∨ s.rd F.PS_STATUS.STATE = 3 ∨ (s.rd F.PS_STATUS.STATE < 4 ∧ (s.fc s.leader).fatal = true) →
      ∃ t, exec .shortPress s = .next t ∧ (∀ p, t.role p = {}) ∧ t.mg.fetchBuf = [] ∧ t.mg.fetching = none ∧
        t.rd F.PS_SVC.SHORT = min (s.rd F.PS_SVC.SHORT + 1) 255) ∧
    (∀ h, ∃ t, exec (.watchdogExpiry h) s = .next t ∧ (∀ p, t.role p = {}) ∧ t.mg.fetchBuf = [] ∧ t.mg.fetching = none ∧ s.CountsUp t F.MG_STATUS.WDOG ∧
      t.Waits h 0x007)) ∧
  (∀ s : State, s.Inv → (s.rd F.PS_STATUS.STATE < 2 ∧ (s.fc s.leader).fatal = false) ∨ s.rd F.PS_STATUS.STATE = 4 →
    ∃ t, exec .shortPress s = .next t ∧ t.rd F.PS_SVC.IGNORED = min (s.rd F.PS_SVC.IGNORED + 1) 255 ∧ t.Waits s.leader 0x12E ∧
      State.RegsBut s t [F.PS_SVC.IGNORED.a] ∧ State.PartsBut s t [.waiting]) ∧
  (∀ s : State, s.Inv → s.pwr.aux = true →
    (∃ t, exec .auxReset s = .next t ∧ (∀ k, t.word k = regPowerOn k) ∧ t.pwr = {} ∧ t.mem = [] ∧ t.mg.otp = s.mg.otp ∧
      t.mg.passport = s.mg.passport ∧ t.mg.audit = [] ∧ (∀ p, t.role p = {}) ∧ t.fcA = {} ∧ t.fcB = {} ∧ t.tb = {} ∧ t.sched = {} ∧ t.sched2 = none ∧
      t.le = {} ∧ t.wl = {} ∧ t.thA = {} ∧ t.thB = {} ∧ t.ckA = {} ∧ t.ckB = {} ∧ t.heads = Vector.replicate 4 {} ∧ t.out = s.out ∧
      t.pending = s.pending ∧
      (s.pwr.recording = true → s.pwr.recBytes ≠ [] → t.recordSeq s.pwr.recSlot = none) ∧
      ∀ a, ¬ (s.pwr.recording = true ∧ 0x1030000 + 256 * s.pwr.recSlot ≤ a ∧ a < 0x1030000 + 256 * s.pwr.recSlot + 256) →
        (∀ o, s.mg.op = some o → o.space = 0 → ¬ (o.addr ≤ a ∧ a < o.addr + if o.op = 2 then 4096 else 4 * o.words.length)) →
        Sparse.get (fun _ => 0xFF) t.flash a = Sparse.get (fun _ => 0xFF) s.flash a) ∧
    (5 ≤ s.rd F.PS_STATUS.STATE → s.rd F.PS_STATUS.STATE ≤ 7 →
      ∃ t, exec .svcStart s = .next t ∧ t.pwr.entryDue = (!s.pwr.test) ∧ t.pwr.acting = false ∧ t.pwr.auxAt = s.now ∧ t.mg.otp = s.mg.otp ∧
        t.rd F.PS_STATUS.STATE = 0 ∧ t.rd F.PS_STATUS.EYELET = 0 ∧ t.rd F.PS_STATUS.SOLO = 1 ∧ t.rd F.MG_STATUS.FW_OK = b2n s.bootBank.isSome ∧
        ∀ r ∈ [0, 3, 4, 5, 6, 7, 8, 9, 10, 11], t.rd (F.PS_RAIL_n_STATUS.STATE r) = if s.rd (F.PS_RAIL_n_STATUS.STATE r) = 4 then 4 else 0))

/-! Management -/

/-- READ on the SPI port answers with the words as the registers read, for the blocks of the AUX domain, and with 0 for any other address, counted in
MISS; without VAUX nothing is driven. A frame released inside a word is counted in PARTIAL with its event. WRITE of one word is the register write of
the SPI path, and of several words one after the other; a frame released inside a word is counted with its event. -/
def Obligations.SpiWords : Prop :=
  (∀ (a : BitVec 24) (n : Nat) (part : Bool) (s : State), s.Inv → a.toNat + n ≤ 2 ^ 24 →
    ∃ t, exec (.read (.spi a) n part) s = .next t ∧
      t.out = s.out ++ (if s.pwr.aux then [.miso ((List.range n).map fun i =>
        if a.toNat + i < 0x30000 then BitVec.ofNat 32 (s.viewReg .spi (a.toNat + i)) else 0)] else []) ∧
      t.rd F.MG_SPI_STAT.MISS = min (s.rd F.MG_SPI_STAT.MISS + (a.toNat + n - max a.toNat 0x30000)) 15 ∧
      t.rd F.MG_SPI_STAT.PARTIAL = min (s.rd F.MG_SPI_STAT.PARTIAL + b2n part) 255 ∧
      State.RegsBut s t [F.MG_SPI_STAT.MISS.a] ∧
      (part = false → State.PartsBut s t [.outputs]) ∧
      (part = true → t.rd F.MG_SPI_STAT.F_PARTIAL = 1 ∧ t.Waits s.leader 0x005 ∧ State.PartsBut s t [.outputs, .waiting])) ∧
  (∀ (a : BitVec 24) (w : Word) (s : State), s.Inv →
    (∃ t, exec (.write a [w] false) s = .next t ∧ exec (.registerWrite (.word .spi a) (w.zeroExtend 64)) s = .next t) ∧
    (∀ (ws : List Word) u, a.toNat + 1 < 2 ^ 24 → exec (.write a [w] false) s = .next u →
      exec (.write a (w :: ws) false) s = exec (.write (a + 1) ws false) u) ∧
    ∃ t, exec (.write a [] true) s = .next t ∧ t.rd F.MG_SPI_STAT.PARTIAL = min (s.rd F.MG_SPI_STAT.PARTIAL + 1) 255 ∧
      t.rd F.MG_SPI_STAT.F_PARTIAL = 1 ∧ t.Waits s.leader 0x005 ∧ State.RegsBut s t [F.MG_SPI_STAT.PARTIAL.a])

/-- FETCH of 1 to 64 words is under way until FETCH_DONE, which leaves the words in the buffer; another count fetches nothing, and a FETCH while one
is under way is not taken. A fetch or RDBUF frame with excess or partial words and a short frame are counted with their event. RDBUF returns words of
the buffer from an index that rises modulo 64, where VAUX is there to drive them. A fetched word of the AUX domain stands in the buffer as the
register reads; a word of another block that did not answer stands as 0, with TIMEOUT and its event. Every other word of the buffer stays, and the
buffer keeps its canonical form. -/
def Obligations.SpiFetch : Prop :=
  (∀ s : State, s.Inv →
    (∀ (a : BitVec 24) (n : BitVec 7), s.mg.fetching = none → 1 ≤ n.toNat → n.toNat ≤ 64 →
      ∃ t, exec (.fetch a n false) s = .next t ∧ t.mg.fetching = some (a.toNat, n.toNat) ∧ t.rd F.MG_SPI_FETCH.BUSY = 1 ∧
        t.rd F.MG_SPI_FETCH.TIMEOUT = 0 ∧ State.RegsBut s t [F.MG_SPI_FETCH.BUSY.a]) ∧
    (∀ (a : BitVec 24) (n : BitVec 7), s.mg.fetching = none → n.toNat = 0 ∨ 64 < n.toNat →
      ∃ t, exec (.fetch a n false) s = .next t ∧ t.mg.fetching = none ∧ t.rd F.MG_SPI_FETCH.COUNT = 0 ∧ State.RegsBut s t [F.MG_SPI_FETCH.BUSY.a]) ∧
    (∀ (a : BitVec 24) (n : BitVec 7), s.mg.fetching.isSome = true → exec (.fetch a n false) s = .next s) ∧
    (∀ (a : BitVec 24) (n : BitVec 7), ∃ t, exec (.fetch a n true) s = .next t ∧ t.rd F.MG_SPI_STAT.EXCESS = min (s.rd F.MG_SPI_STAT.EXCESS + 1) 255 ∧
      t.rd F.MG_SPI_STAT.F_EXCESS = 1 ∧ t.Waits s.leader 0x005) ∧
    (∀ a n, s.mg.fetching = some (a, n) → a + n ≤ 0x30000 → n ≤ 64 → ∀ unanswered,
      ∃ t, exec (.fetchDone unanswered) s = .next t ∧ t.mg.fetching = none ∧ t.rd F.MG_SPI_FETCH.BUSY = 0 ∧
        t.rd F.MG_SPI_FETCH.COUNT = n ∧ State.RegsBut s t [F.MG_SPI_FETCH.BUSY.a]) ∧
    (∀ (a : BitVec 24) n, ∃ t, exec (.rdbuf a n false) s = .next t ∧
      t = (if s.pwr.aux then s.emit (.miso ((List.range n).map fun i => Sparse.get (fun _ => 0) s.mg.fetchBuf ((a.toNat + i) % 64))) else s)) ∧
    (∀ (a : BitVec 24) n, ∃ t, exec (.rdbuf a n true) s = .next t ∧ t.rd F.MG_SPI_STAT.PARTIAL = min (s.rd F.MG_SPI_STAT.PARTIAL + 1) 255 ∧
      t.rd F.MG_SPI_STAT.F_PARTIAL = 1 ∧ t.Waits s.leader 0x005) ∧
    ∀ a, ∃ t, exec (.shortFrame a) s = .next t ∧ t.rd F.MG_SPI_STAT.SHORT = min (s.rd F.MG_SPI_STAT.SHORT + 1) 255 ∧
      t.rd F.MG_SPI_STAT.F_SHORT = 1 ∧ t.Waits s.leader 0x005 ∧ State.RegsBut s t [F.MG_SPI_STAT.SHORT.a]) ∧
  (∀ (s : State) (a : Nat), s.mg.fetching = some (a, 1) → s.Inv → ∀ unanswered : List Nat,
    (a < 0x30000 →
      ∃ t, exec (.fetchDone unanswered) s = .next t ∧ Sparse.get (fun _ => 0) t.mg.fetchBuf 0 = BitVec.ofNat 32 (s.viewReg .spi a) ∧
        (∀ i, i ≠ 0 → Sparse.get (fun _ => 0) t.mg.fetchBuf i = Sparse.get (fun _ => 0) s.mg.fetchBuf i) ∧
        Sparse.rising t.mg.fetchBuf = true) ∧
    (0x30000 ≤ a → a < 2 ^ 24 → 0 ∈ unanswered →
      ∃ t, exec (.fetchDone unanswered) s = .next t ∧ Sparse.get (fun _ => 0) t.mg.fetchBuf 0 = 0 ∧ t.rd F.MG_SPI_FETCH.TIMEOUT = 1 ∧
        t.rd F.MG_SPI_FETCH.BUSY = 0 ∧ t.Waits s.leader 0x005 ∧ State.RegsBut s t [F.MG_SPI_FETCH.BUSY.a]))

/-- A 4-byte write to the management window of a head whose link is up is the register write of that head's path at the address of its page; another
size or alignment is counted in DB_FORMAT. Beyond the window, in the CXL register blocks, a plain write starts nothing (log entry 204). Doorbell
writes: the page of the management window, DB_TICK_EN, the words of the copy destination, the doorbells that are commands of their own, and a size or
alignment that no doorbell takes, counted in DB_FORMAT. READ through a head whose link is up. Where no read of the head waits: a 4-byte read of the
management window returns the register at the address of its page (0 from the other half in split mode), 4-byte reads of the doorbell window return
its words, a wrong size or alignment returns 0 and is counted in DB_FORMAT, an offset in the CXL register blocks returns a free value (log entry 204),
and the configuration space reports its items. While the head holds reads back, the read waits its turn. Writes of the configuration space of a head
whose link is up: a base address keeps the bits above its size, Max_Payload_Size takes 128 or 256, MSI-X is enabled or not, and the address, data and
mask of a vector are set; a vector unmasked while it pends is sent. -/
def Obligations.HeadWindows : Prop :=
  (∀ (h : Fin 4) (off : BitVec 21) (v : BitVec 64) (s : State), s.Inv → s.linkUp h.val = true →
    (off.toNat < 0x100000 → off.toNat % 4 = 0 →
      ∃ t, exec (.registerWrite (.window h off 4) v) s = .next t ∧
        exec (.registerWrite (.word (.head h) (BitVec.ofNat 24 (s.rd (F.HP_n_MW.PAGE h.val) * 2 ^ 18 + off.toNat / 4))) v) s = .next t) ∧
    (0x100000 ≤ off.toNat → ∀ bytes, exec (.registerWrite (.window h off bytes) v) s = .next s) ∧
    ∀ bytes, off.toNat < 0x100000 → bytes ≠ 4 ∨ off.toNat % 4 ≠ 0 →
      ∃ t, exec (.registerWrite (.window h off bytes) v) s = .next t ∧ s.CountsUp t (F.HP_n_REQ_ERR.DB_FORMAT h.val) ∧
        State.RegsBut s t [(F.HP_n_REQ_ERR.DB_FORMAT h.val).a] ∧ State.PartsBut s t []) ∧
  (∀ (h : Fin 4) (v : BitVec 64) (s : State), s.Inv → s.takesPosted h.val = true →
    (∃ t, exec (.registerWrite (.doorbell h 4 4) v) s = .next t ∧ t.rd (F.HP_n_MW.PAGE h.val) = v.toNat % 64 ∧
      State.RegsBut s t [(F.HP_n_MW.PAGE h.val).a] ∧ State.PartsBut s t []) ∧
    (∃ t, exec (.registerWrite (.doorbell h 0x14 4) v) s = .next t ∧ (t.head h.val).tickEn = v.getLsbD 0 ∧ State.RegsBut s t [] ∧
      State.PartsBut s t [.heads]) ∧
    (∃ t, exec (.registerWrite (.doorbell h 0x280 4) v) s = .next t ∧ (t.head h.val).copyDst % 2 ^ 32 = v.toNat % 2 ^ 32 ∧
      (t.head h.val).copyDst / 2 ^ 32 = (s.head h.val).copyDst / 2 ^ 32 ∧ State.RegsBut s t [] ∧ State.PartsBut s t [.heads]) ∧
    (∃ t, exec (.registerWrite (.doorbell h 0x284 4) v) s = .next t ∧ (t.head h.val).copyDst / 2 ^ 32 = v.toNat % 512 ∧
      (t.head h.val).copyDst % 2 ^ 32 = (s.head h.val).copyDst % 2 ^ 32 ∧ State.RegsBut s t [] ∧ State.PartsBut s t [.heads]) ∧
    (∃ t, exec (.registerWrite (.doorbell h 0x288 4) v) s = .next t ∧
      exec (if v.getLsbD 31 then .slotCopyFromArchive h (Fin.ofNat 16 (v.toNat / 2 ^ 20))
        else .slotCopyToArchive h (Fin.ofNat 16 (v.toNat / 2 ^ 20)) (v.truncate 16)) s = .next t) ∧
    (∀ src : Fin 16, ∃ t, exec (.registerWrite (.doorbell h (BitVec.ofNat 16 (0x100 + 16 * src.val)) 4) v) s = .next t ∧
      exec (.publishDoorbell h src (v.truncate 16) ((v >>> 16).truncate 16)) s = .next t) ∧
    (∀ src : Fin 16, ∃ t, exec (.registerWrite (.doorbell h (BitVec.ofNat 16 (0x104 + 16 * src.val)) 4) v) s = .next t ∧
      exec (.slotSelect h src (v.truncate 16)) s = .next t) ∧
    (∀ (r : Fin 512) (w : RdWord), ∃ t,
      exec (.registerWrite (.doorbell h (BitVec.ofNat 16 (0x4000 + 32 * r.val +
        (match w with | .baseLo => 0 | .baseHi => 4 | .tailaLo => 8 | .tailaHi => 12 | .start => 16))) 4) v) s = .next t ∧
      exec (.ringDescriptorWrite h r w (v.truncate 32)) s = .next t) ∧
    (∀ r : Fin 512, ∃ t, exec (.registerWrite (.doorbell h (BitVec.ofNat 16 (0x4014 + 32 * r.val)) 4) v) s = .next t ∧
      exec (.consumedWrite h r (v.truncate 32)) s = .next t) ∧
    (∀ r : Fin 512, ∃ t, exec (.registerWrite (.doorbell h (BitVec.ofNat 16 (0x4018 + 32 * r.val)) 4) v) s = .next t ∧
      exec (if v.getLsbD 31 then .arm h r (v.truncate 5) else .disarm h r (v.truncate 5)) s = .next t) ∧
    ∀ (off : BitVec 16) bytes, ¬ (bytes = 4 ∧ off.toNat % 4 = 0) → ¬ (bytes = 8 ∧ off.toNat % 8 = 0) →
      ∃ t, exec (.registerWrite (.doorbell h off bytes) v) s = .next t ∧ s.CountsUp t (F.HP_n_REQ_ERR.DB_FORMAT h.val) ∧
        State.RegsBut s t [(F.HP_n_REQ_ERR.DB_FORMAT h.val).a] ∧ State.PartsBut s t []) ∧
  (∀ (h : Fin 4) (s : State), s.Inv → s.linkUp h.val = true →
    (s.ioMayGo h.val = true → (s.head h.val).io = [] →
      (∀ off : BitVec 21, off.toNat < 0x100000 → off.toNat % 4 = 0 →
        let a := s.windowAddr h.val off.toNat
        ∃ t, exec (.read (.window h off) 4 false) s = .next t ∧
          t.out = s.out ++ [.readData (.head h) [BitVec.ofNat 32 (if s.farReg (.head h) a then 0 else s.viewReg (.head h) a)]]) ∧
      (∀ (off : BitVec 21) bytes, 0x100000 ≤ off.toNat →
        ∃ t ws, exec (.read (.window h off) bytes false) s = .next t ∧ t.out = s.out ++ [.readData (.head h) ws] ∧ ws.length = max 1 (bytes / 4) ∧
          State.RegsBut s t [] ∧ t.free = s.free + 1) ∧
      (∀ (off : BitVec 21) bytes, off.toNat < 0x100000 → bytes ≠ 4 ∨ off.toNat % 4 ≠ 0 →
        ∃ t, exec (.read (.window h off) bytes false) s = .next t ∧ t.out = s.out ++ [.readData (.head h) [0]] ∧
          s.CountsUp t (F.HP_n_REQ_ERR.DB_FORMAT h.val)) ∧
      (∀ off : BitVec 16, off.toNat % 4 = 0 → off ≠ 8 → off ≠ 0x200 →
        ∃ t, exec (.read (.doorbell h off) 4 false) s = .next t ∧
          t.out = s.out ++ [.readData (.head h) [BitVec.ofNat 32 (s.doorbellView h off.toNat)]] ∧ State.RegsBut s t []) ∧
      (∀ (off : BitVec 16) bytes, ¬ (bytes = 4 ∧ off.toNat % 4 = 0) → ¬ (bytes = 8 ∧ off.toNat % 8 = 0) →
        ∃ t, exec (.read (.doorbell h off) bytes false) s = .next t ∧ t.out = s.out ++ [.readData (.head h) [0]] ∧
          s.CountsUp t (F.HP_n_REQ_ERR.DB_FORMAT h.val)) ∧
      ∀ item n, ∃ t, exec (.read (.config h item) n false) s = .next t ∧ t.out = s.out ++ [.config h.val (s.configItem h item)] ∧ State.RegsBut s t []) ∧
    (s.ioMayGo h.val = false →
      (∀ off bytes, ∃ t, exec (.read (.window h off) bytes false) s = .next t ∧ t.out = s.out ∧ State.PartsBut s t [.access] ∧ State.RegsBut s t [] ∧
        (t.head h.val).io = (s.head h.val).io ++ [.word off.toNat bytes]) ∧
      (∀ off bytes, ¬ (off = 0x200 ∧ bytes = 4) →
        ∃ t, exec (.read (.doorbell h off) bytes false) s = .next t ∧ t.out = s.out ∧ State.PartsBut s t [.access] ∧ State.RegsBut s t [] ∧
          (t.head h.val).io = (s.head h.val).io ++ [.doorbell off.toNat bytes]) ∧
      ∀ item n, ∃ t, exec (.read (.config h item) n false) s = .next t ∧ t.out = s.out ∧ State.PartsBut s t [.access] ∧ State.RegsBut s t [] ∧
        (t.head h.val).io = (s.head h.val).io ++ [.config item])) ∧
  (∀ (h : Fin 4) (v : BitVec 64) (s : State), s.Inv → s.linkUp h.val = true →
    (∀ i : Fin 3, ∃ t, exec (.registerWrite (.config h (.bar i)) v) s = .next t ∧
      (t.head h.val).bars[i] = v.toNat / barSize i.val * barSize i.val ∧ State.RegsBut s t [] ∧ State.PartsBut s t [.heads]) ∧
    (∃ t, exec (.registerWrite (.config h .maxPayload) v) s = .next t ∧
      (t.head h.val).mps = (if v.toNat = 128 ∨ v.toNat = 256 then v.toNat else (s.head h.val).mps) ∧ State.PartsBut s t [.heads]) ∧
    (∃ t, exec (.registerWrite (.config h .msixEnable) v) s = .next t ∧ (t.head h.val).msixOn = v.getLsbD 0 ∧ State.PartsBut s t [.heads]) ∧
    (∀ n : Fin 4, ∃ t, exec (.registerWrite (.config h (.msixAddr n)) v) s = .next t ∧
      ((t.head h.val).vec n.val).addr = v.toNat / 4 * 4 ∧ State.PartsBut s t [.heads]) ∧
    (∀ n : Fin 4, ∃ t, exec (.registerWrite (.config h (.msixData n)) v) s = .next t ∧
      ((t.head h.val).vec n.val).data = v.toNat % 2 ^ 32 ∧ State.PartsBut s t [.heads]) ∧
    ∀ n : Fin 4, ∃ t, exec (.registerWrite (.config h (.msixMask n)) v) s = .next t ∧ ((t.head h.val).vec n.val).masked = v.getLsbD 0 ∧
      State.RegsBut s t [] ∧ (((s.head h.val).vec n.val).pending = false → State.PartsBut s t [.heads]))

/-- CHAL over SPI loads a fresh challenge for a role whose key is available, on a path that is not locked; on a locked path RESULT is 3, and for a
role without a key it is 4. RESP over SPI: the right response within 10 s sets the role with an audit entry; a wrong one leaves the path without a
role, counts, and locks the path at the fifth in a row; one without a challenge, or later than 10 s, leaves the path without a role with RESULT 2.
DROP gives up the role of the SPI path with an audit entry of kind 8; ROLE_LOCK_END lets a path take challenges again. -/
def Obligations.SpiRoles : Prop :=
  (∀ (role : Fin 4) (s : State), s.Inv →
    ((s.role .spi).locked = false → s.keyOf role.val ≠ none →
      ∃ t, exec (.chal role) s = .next t ∧ (t.role .spi).chal = some (Config.randomDraw s.free, role.val, s.now) ∧ t.free = s.free + 1 ∧
        ∀ i, i < 8 → t.rd (F.MG_ROLE_CHAL_i.CHAL i) = (Config.randomDraw s.free).toNat / 2 ^ (32 * i) % 2 ^ 32) ∧
    ((s.role .spi).locked = true →
      ∃ t, exec (.chal role) s = .next t ∧ t.role .spi = s.role .spi ∧ t.rd F.MG_ROLE.RESULT = 3 ∧ t.Waits s.leader 0x004) ∧
    ((s.role .spi).locked = false → s.keyOf role.val = none →
      ∃ t, exec (.chal role) s = .next t ∧ t.role .spi = s.role .spi ∧ t.rd F.MG_ROLE.RESULT = 4 ∧ t.Waits s.leader 0x004)) ∧
  (∀ s : State, s.Inv → s.auditFull = false →
    let sent := ((List.range 8).map fun i => leBytes 4 (s.rd (F.MG_ROLE_RESP_i.RESP i))).flatten
    (∀ c role t0, (s.role .spi).chal = some (c, role, t0) → s.now ≤ t0 + 12000000000 → ∀ key, s.keyOf role = some key →
      s.wantedResponse .spi key c role = sent →
      ∃ t, exec .resp s = .next t ∧ t.role .spi = { role := role } ∧ t.rd F.MG_ROLE.RESULT = 0 ∧
        ∃ e, t.mg.audit = s.mg.audit ++ [e] ∧ e.kind = 7 ∧ e.role = role ∧ e.path = 0) ∧
    (∀ c role t0, (s.role .spi).chal = some (c, role, t0) → s.now ≤ t0 + 12000000000 → ∀ key, s.keyOf role = some key →
      s.wantedResponse .spi key c role ≠ sent →
      ∃ t, exec .resp s = .next t ∧ (t.role .spi).role = 0 ∧ (t.role .spi).chal = none ∧ (t.role .spi).fails = (s.role .spi).fails + 1 ∧
        (t.role .spi).locked = decide (5 ≤ (s.role .spi).fails + 1) ∧ t.rd F.MG_ROLE.RESULT = 1 ∧ t.Waits s.leader 0x004) ∧
    ((match (s.role .spi).chal with | none => true | some x => decide (x.2.2 + 12000000000 < s.now)) = true →
      ∃ t, exec .resp s = .next t ∧ (t.role .spi).role = 0 ∧ (t.role .spi).chal = none ∧ t.rd F.MG_ROLE.RESULT = 2 ∧ t.Waits s.leader 0x004)) ∧
  (∀ s : State, s.Inv →
    ((s.role .spi).role ≠ 0 → s.auditFull = false →
      ∃ t, exec .drop s = .next t ∧ (t.role .spi).role = 0 ∧ (t.role .spi).chal = none ∧
        ∃ e, t.mg.audit = s.mg.audit ++ [e] ∧ e.kind = 8 ∧ e.role = (s.role .spi).role ∧ e.path = 0) ∧
    ∀ p, (s.role p).locked = true →
      ∃ t, exec (.roleLockEnd p) s = .next t ∧ (t.role p).locked = false ∧ (t.role p).fails = 0 ∧ (t.role p).role = (s.role p).role ∧
        State.RegsBut s t [])

/-- FLASH_READ by a path that may read there fills its buffer with the words of the image flash, of the passport or of OTP and ends with RESULT 0; a
path without the role gets RESULT 1, and an address that no role may read gets RESULT 2. FLASH_PROGRAM (image flash, passport, OTP or a role key) and
FLASH_ERASE_SECTOR, allowed and with the engine free, start the operation: BUSY is set, and what is stored still stands. The image flash takes none
while the device sheds, and OTP none that meets a word programmed or locked (RESULT 5). -/
def Obligations.FlashOperationStarts : Prop :=
  (∀ (p : Path) (m1 : BitVec 6) (s : State), s.Inv → s.pathBusy p = false → s.auditFull = false →
    let space := s.rd (F.MG_FL_ADDR.SPACE.on p)
    let n := m1.toNat + 1
    let addr := s.rd (F.MG_FL_ADDR.ADDR.on p) / 4 * 4
    (space < 3 → ¬ (space = 0 ∧ s.rd F.PS_STATUS.STATE = 4) → (∃ r, s.flashRole 0 space addr (4 * n) = some r ∧ r ≤ (s.role p).role) →
      ∃ t, exec (.flashRead p m1) s = .next t ∧ t.rd (F.MG_FL_CTRL.RESULT.on p) = 0 ∧ t.rd (F.MG_FL_CTRL.BUSY.on p) = 0 ∧
        t.flash = s.flash ∧ t.mg.passport = s.mg.passport ∧ t.mg.otp = s.mg.otp ∧
        ∀ i, i < n → t.word ((F.MG_FL_DATA_i.DATA i).on p).a = BitVec.ofNat 32 (
          if space = 0 then field (s.flashBytes addr (4 * n)) (4 * i) 4
          else if space = 1 then field (s.ppBytes addr (4 * n)) (4 * i) 4
          else s.mg.otp.read (Config.otpWordOf (addr + 4 * i)).1 (Config.otpWordOf (addr + 4 * i)).2)) ∧
    (space < 3 → (∃ r, s.flashRole 0 space addr (4 * n) = some r ∧ (s.role p).role < r) →
      ∃ t, exec (.flashRead p m1) s = .next t ∧ t.rd (F.MG_FL_CTRL.RESULT.on p) = 1 ∧ t.mg.rest = s.mg.rest) ∧
    (space < 3 → s.flashRole 0 space addr (4 * n) = none →
      ∃ t, exec (.flashRead p m1) s = .next t ∧ t.rd (F.MG_FL_CTRL.RESULT.on p) = 2 ∧ t.mg.rest = s.mg.rest)) ∧
  (∀ (p : Path) (s : State), s.Inv → s.pathBusy p = false → s.auditFull = false → s.mg.op = none →
    let space := s.rd (F.MG_FL_ADDR.SPACE.on p)
    let raw := s.rd (F.MG_FL_ADDR.ADDR.on p)
    (∀ m1 : BitVec 6,
      let addr := if space = 3 then raw else raw / 4 * 4
      (∃ r, s.flashRole 1 space addr (if space = 3 then 1 else 4 * (m1.toNat + 1)) = some r ∧ r ≤ (s.role p).role) →
      (¬ (space = 0 ∧ s.rd F.PS_STATUS.STATE = 4) → ¬ (space = 2 ∧ s.otpClosed addr (m1.toNat + 1) = true) →
        ∃ t, exec (.flashProgram p m1) s = .next t ∧ t.flash = s.flash ∧ t.mg.passport = s.mg.passport ∧ t.mg.otp = s.mg.otp ∧
          t.rd (F.MG_FL_CTRL.BUSY.on p) = 1 ∧
          t.mg.op = some ⟨p, 1, space, addr, s.bufWords p (if space = 3 then 8 else m1.toNat + 1)⟩) ∧
      (space = 2 → s.otpClosed addr (m1.toNat + 1) = true →
        ∃ t, exec (.flashProgram p m1) s = .next t ∧ t.rd (F.MG_FL_CTRL.RESULT.on p) = 5 ∧ t.mg.op = none ∧ t.mg.otp = s.mg.otp) ∧
      (space = 0 → s.rd F.PS_STATUS.STATE = 4 →
        ∃ t, exec (.flashProgram p m1) s = .next t ∧ t.rd (F.MG_FL_CTRL.RESULT.on p) = 3 ∧ t.mg.op = none ∧ t.flash = s.flash)) ∧
    (let addr := raw / 4 * 4 / 4096 * 4096;
      space = 0 → s.rd F.PS_STATUS.STATE ≠ 4 → (∃ r, s.flashRole 2 0 addr 4096 = some r ∧ r ≤ (s.role p).role) →
      ∃ t, exec (.flashEraseSector p) s = .next t ∧ t.flash = s.flash ∧ t.rd (F.MG_FL_CTRL.BUSY.on p) = 1 ∧
        (t.mg.op.map fun o => (o.path, o.op, o.space, o.addr)) = some (p, 2, 0, addr)))

/-- FLASH_OP_DONE. In the image flash a program clears bits of the bytes it covers and an erase sets its sector to 0xFF; every other byte of the flash
keeps its value. In the passport the bytes take the words, GEN goes up by one and BODY_CRC is formed anew; in OTP the words can be programmed no more.
An operation that met a device error ends with RESULT 4, and the words that carried a key read 0 after either end. A passport write that FIELD_N holds
back goes on waiting. -/
def Obligations.FlashOperationEnds : Prop :=
  ∀ (s : State) (o : FlashOp), s.mg.op = some o → s.Inv →
    (o.space = 0 → o.op = 1 →
      ∃ t, exec (.flashOpDone false) s = .next t ∧ t.mg.op = none ∧ t.rd (F.MG_FL_CTRL.RESULT.on o.path) = 0 ∧
        t.rd (F.MG_FL_CTRL.BUSY.on o.path) = 0 ∧
        (∀ i w, i < o.words.length → o.words[i]? = some w → ∀ j, j < 4 →
          Sparse.get (fun _ => 0xFF) t.flash (o.addr + 4 * i + j) =
            Sparse.get (fun _ => 0xFF) s.flash (o.addr + 4 * i + j) &&& BitVec.ofNat 8 (w.toNat / 256 ^ j)) ∧
        ∀ a, a < o.addr ∨ o.addr + 4 * o.words.length ≤ a → Sparse.get (fun _ => 0xFF) t.flash a = Sparse.get (fun _ => 0xFF) s.flash a) ∧
    (o.space = 0 → o.op = 2 →
      ∃ t, exec (.flashOpDone false) s = .next t ∧ t.mg.op = none ∧ t.rd (F.MG_FL_CTRL.BUSY.on o.path) = 0 ∧
        ∀ a, Sparse.get (fun _ => 0xFF) t.flash a =
          if o.addr ≤ a ∧ a < o.addr + 4096 then 0xFF else Sparse.get (fun _ => 0xFF) s.flash a) ∧
    (o.space = 1 → s.ppHeld = false → 0x40 ≤ o.addr → o.addr + 4 * o.words.length ≤ 0x400 →
      ∃ t, exec (.flashOpDone false) s = .next t ∧ t.mg.op = none ∧ t.rd (F.MG_FL_CTRL.RESULT.on o.path) = 0 ∧
        t.ppBytes o.addr (4 * o.words.length) = (o.words.map fun w => leBytes 4 w.toNat).flatten ∧
        field (t.ppBytes 8 4) 0 4 = (field (s.ppBytes 8 4) 0 4 + 1) % 2 ^ 32 ∧ field (t.ppBytes 12 4) 0 4 = crc32 (t.ppBytes 0x40 0x4C0)) ∧
    (o.space = 2 →
      ∃ t, exec (.flashOpDone false) s = .next t ∧ t.mg.op = none ∧ t.rd (F.MG_FL_CTRL.RESULT.on o.path) = 0 ∧
        ∀ i, i < o.words.length → Config.otpWordOf (o.addr + 4 * i) ∈ t.mg.otp.done) ∧
    (∀ err, o.space = 3 → s.ppHeld = false →
      ∃ t, exec (.flashOpDone err) s = .next t ∧ t.mg.op = none ∧ t.rd (F.MG_FL_CTRL.RESULT.on o.path) = (if err then 4 else 0) ∧
        ∀ i, i < 8 → t.word ((F.MG_FL_DATA_i.DATA i).on o.path).a = 0) ∧
    (s.ppHeld = false →
      ∃ t, exec (.flashOpDone true) s = .next t ∧ t.mg.op = none ∧ t.rd (F.MG_FL_CTRL.RESULT.on o.path) = 4 ∧
        t.rd (F.MG_FL_CTRL.BUSY.on o.path) = 0 ∧ t.mg.passport = s.mg.passport ∧ t.mg.otp = s.mg.otp ∧ (o.space = 0 → t.Waits s.leader 0x006)) ∧
    ∀ err, s.ppHeld = true → exec (.flashOpDone err) s = .next s

/-- AUDIT_ENTRY_WRITE: the oldest queued audit entry goes to its ring slot, an entry that waited for a place takes it, and in a sector that is not
begun by the written entry every other byte of the flash keeps its value; the entry goes to the passport's audit tail too, at once or once FIELD_N is
released. A failed write raises source 0x006. While the device sheds nothing is written. Passport writes wait while FIELD_N is asserted: one of the
device's own that waited too long is dropped and counted, and one of management's ends with device error (the model's choice, log entry 225); the
release of FIELD_N writes those that wait. -/
def Obligations.DeferredWrites : Prop :=
  (∀ (s : State) (e : AuditEntry) (rest : List AuditEntry), s.mg.audit = e :: rest → s.Inv →
    (s.rd F.PS_STATUS.STATE ≠ 4 → ∀ err fieldN : Bool,
      ∃ t, exec (.auditEntryWrite err fieldN) s = .next t ∧ t.mg.fieldN = fieldN ∧
        (s.mg.auditWait = [] → t.mg.audit = rest ∧ t.mg.auditWait = []) ∧
        (∀ w ws, s.mg.auditWait = w :: ws → t.mg.audit = rest ++ [{ w with seq := s.mg.auditSeq }] ∧ t.mg.auditWait = ws) ∧
        (err = false → ∀ i, i < 32 → Sparse.get (fun _ => 0xFF) t.flash (0x1010000 + 32 * (e.seq % 4096) + i) = e.bytes.getD i 0) ∧
        (err = true → t.Waits s.leader 0x006) ∧
        (e.seq % 128 ≠ 0 → ∀ a, a < 0x1010000 + 32 * (e.seq % 4096) ∨ 0x1010000 + 32 * (e.seq % 4096) + 32 ≤ a →
          Sparse.get (fun _ => 0xFF) t.flash a = Sparse.get (fun _ => 0xFF) s.flash a) ∧
        (s.ppReleased = false → fieldN = true → t.mg.ppWaiting = s.mg.ppWaiting ++ [(0x1000 + 32 * (e.seq % 32), e.bytes)] ∧ t.Waits s.leader 0x003) ∧
        (s.ppReleased = false → fieldN = false → ∀ i, i < 32 →
          Sparse.get (fun _ => 0) t.mg.passport (0x1000 + 32 * (e.seq % 32) + i) = e.bytes.getD i 0)) ∧
    (s.rd F.PS_STATUS.STATE = 4 → ∀ err fieldN, exec (.auditEntryWrite err fieldN) s = .next s)) ∧
  (∀ s : State, s.Inv →
    (∀ x rest, s.mg.ppWaiting = x :: rest → s.ppHeld = false ∨ s.mg.ppAhead ≠ 0 →
      ∃ t, exec .passportWriteTimeout s = .next t ∧ t.mg.ppWaiting = rest ∧ t.mg.passport = s.mg.passport ∧
        t.rd F.MG_PP_STAT.DROPPED = min (s.rd F.MG_PP_STAT.DROPPED + 1) 65535 ∧ t.Waits s.leader 0x003 ∧
        State.RegsBut s t [F.MG_PP_STAT.DROPPED.a]) ∧
    (∀ o, s.mg.op = some o → s.ppHeld = true → s.mg.ppAhead = 0 →
      ∃ t, exec .passportWriteTimeout s = .next t ∧ t.mg.op = none ∧ t.mg.passport = s.mg.passport ∧
        t.rd F.MG_PP_STAT.DROPPED = min (s.rd F.MG_PP_STAT.DROPPED + 1) 65535 ∧ t.Waits s.leader 0x003 ∧
        t.rd (F.MG_FL_CTRL.RESULT.on o.path) = 4 ∧ t.rd (F.MG_FL_CTRL.BUSY.on o.path) = 0) ∧
    (s.mg.fieldN = true →
      ∃ t, exec .fieldRelease s = .next t ∧ t.mg.fieldN = false ∧ t.mg.ppWaiting = [] ∧ t.mg.tailDue = false ∧ State.RegsBut s t [] ∧
        ∀ x, s.mg.ppWaiting = [x] → s.mg.tailDue = false → t.ppBytes x.1 x.2.length = x.2) ∧
    (s.mg.fieldN = false → exec .fieldRelease s = .next s))

/-- NEXT_BANK_WRITE by the role of MG_BOOT sets the boot record and records the change; TAP_INSTRUCTION loads an instruction, and IDCODE shifts out
the identification word, where VAUX is there to drive it; EXTEST and the IEEE 1149.6 instructions are executed only in STATE 0 with RAILEN_03 to
RAILEN_11 low, and otherwise act as BYPASS. -/
def Obligations.BootBankAndTap : Prop :=
  ∀ s : State, s.Inv →
    (∀ p bank, s.writable p 5 = true → ∃ t, exec (.nextBankWrite p bank) s = .next t ∧ t.nextBank = some bank ∧
      ∃ e, t.mg.audit = s.mg.audit ++ [e] ∧ e.kind = 1 ∧ e.target = 5 ∧ e.path = p.idx) ∧
    (s.pwr.aux = true → ∃ t, exec (.tapInstruction .idcode) s = .next t ∧ t.pwr.tap = .idcode ∧
      t.out = s.out ++ [.tdo (BitVec.ofNat 32 (Config.dieRev.toNat * 2 ^ 28 + 0x2860 * 2 ^ 12 + 0x9A7))]) ∧
    (s.pwr.aux = true → ∀ i, i ≠ .idcode → ∃ t, exec (.tapInstruction i) s = .next t ∧ t.pwr.tap = i ∧ t.out = s.out ∧
      t.tapNow = (if (i = .extest ∨ i = .ac1149_6) ∧ ¬ (s.rd F.PS_STATUS.STATE = 0 ∧ s.pwr.railen.toNat < 2 ^ 3) then .bypass else i)) ∧
    (s.pwr.aux = false → ∀ i, exec (.tapInstruction i) s = .next s)

/-! The frame schedule and the LUTs -/

/-- TICK_START while a tick runs whose production has ended: the next tick begins at its end, with the frame count one up and any jump added; the
leader drives TICK_OUT high. At the first activation after start the count is FRAME_BASE of the Last. -/
def Obligations.TickStarts : Prop :=
  ∀ (h : Half) (s : State), s.Inv → s.schedules h = true → (s.fc h).fatal = false → s.rd F.PS_STATUS.STATE < 4 →
    let c := s.schedOf h
    (c.running = true → c.cutDone = true → c.prodDone = true → c.everActive = true →
      ∃ t, exec (.tickStart h) s = .next t ∧ (t.schedOf h).frame = (c.frame + 1 + c.jump) % 2 ^ 64 ∧ (t.schedOf h).running = true ∧
        (t.schedOf h).cutDone = false ∧ (t.schedOf h).prodDone = false ∧ t.now = max s.now (c.tickAt + c.tickLen) ∧
        (h = s.leader → t.tb.tickOut = true)) ∧
    (c.running = false → c.everActive = false → c.cmds = [] → ∀ a, c.actAt = some a → ∀ n, c.armed = some n → ∀ l, s.lasts[n]? = some (some l) →
      a.1 ≤ l.frameBase → ∀ d, ((s.onBase h State.takeTickSrc).asSeen h).toTarget l.rateN l.rateD = some d →
      ∃ t, exec (.tickStart h) s = .next t ∧ (t.schedOf h).frame = l.frameBase ∧ (t.schedOf h).last = some (n, l) ∧
        (t.schedOf h).running = true ∧ (t.schedOf h).everActive = true ∧ t.now = s.now + d)

/-- Inside a tick: the set closes at stitch C, production ends at stitch W_end, TICK_OUT falls, and an idle cycle alternates between its parts.
FRAME_LO_READ, where it is served at once, gives the low half of the frame count and latches its high half, for the path or, over the doorbell window,
for the head; while a head's reads wait, it takes its place among them. -/
def Obligations.TickProceeds : Prop :=
  (∀ (h : Half) (s : State), s.Inv → s.schedules h = true →
    let c := s.schedOf h
    (c.running = true → c.cutDone = false →
      ∃ t, exec (.cutOff h) s = .next t ∧ (t.schedOf h).cutDone = true ∧ (t.schedOf h).frame = c.frame ∧ (t.schedOf h).cmds = c.cmds ∧
        State.RegsBut s t []) ∧
    (c.running = true → c.prodDone = false →
      ∃ t, exec (.productionEnd h) s = .next t ∧ (t.schedOf h).cutDone = true ∧ (t.schedOf h).prodDone = true ∧
        (t.schedOf h).frame = c.frame ∧ (t.schedOf h).running = true) ∧
    (s.tb.tickOut = true → ∃ t, exec .tickOutEnd s = .next t ∧ t.tb.tickOut = false ∧ State.RegsBut s t []) ∧
    (c.running = false → 12 ≤ s.rd F.PS_STATUS.EYELET → s.rd F.PS_STATUS.STATE ≤ 2 → s.stopping h = false →
      ∃ t, exec (.idleCycleEnd h) s = .next t ∧ (t.schedOf h).idleWindow = !c.idleWindow ∧ s.now ≤ t.now)) ∧
  (∀ (s : State) (p : Path), s.Inv → s.frameCount (s.pathHalf p) < 2 ^ 64 →
    let k := s.frameCount (s.pathHalf p)
    (s.readsAtOnce p = true →
      (∃ t, exec (.frameLoRead p false) s = .next t ∧ t.out = s.out ++ [.readData p [BitVec.ofNat 32 (k % 2 ^ 32)]] ∧
        t.rd (F.FS_FRAME_HI.FRAME_HI.on p) = k / 2 ^ 32 ∧ State.RegsBut s t [(F.FS_FRAME_HI.FRAME_HI.on p).a]) ∧
      ∀ h, p = .head h →
        ∃ t, exec (.frameLoRead p true) s = .next t ∧ t.out = s.out ++ [.readData p [BitVec.ofNat 32 (k % 2 ^ 32)]] ∧
          (t.head h.val).frameHi = k / 2 ^ 32 ∧ State.RegsBut s t []) ∧
    ∀ h, p = .head h → s.ioMayGo h.val = false → ∀ doorbell,
      ∃ t, exec (.frameLoRead p doorbell) s = .next t ∧ t.out = s.out ∧ State.RegsBut s t [] ∧ State.PartsBut s t [.access] ∧
        (t.head h.val).io = (s.head h.val).io ++ (if s.linkUp h.val then [if doorbell then .frameLo else .reg 0x60004] else []))

/-- An operator command is accepted: it is queued with its effective tick, and FS_CMD_RESULT shows 0, or 1 with the ticks it was put off when it came
too late. One that is not accepted leaves the schedule alone and shows why; an opcode that no command has shows 7. -/
def Obligations.OperatorCommands : Prop :=
  ∀ (p : Path) (s : State), s.Inv → s.writable p 0x6000B = true →
    let h := s.actHalf p
    let q := s.schedOf h
    let e := s.staged p
    let target := s.rd (F.FS_CMD_ARG.TARGET.on p)
    let value := s.rd (F.FS_CMD_ARG.VALUE.on p)
    (∀ c op, (c, op) ∈ [(Instr.freeze p, 1), (.release p, 2), (.setDelay p, 3), (.setGain p, 4), (.streamOn p, 5), (.streamOff p, 6), (.switchLast p, 7)] →
      let r := s.submitResult q op target value e
      ∃ t, exec c s = .next t ∧ t.rd (F.FS_CMD_RESULT.RESULT.on p) = r ∧
        t.rd (F.FS_CMD_RESULT.SEQ.on p) = (s.rd (F.FS_CMD_RESULT.SEQ.on p) + 1) % 256 ∧
        (r = 0 → t.rd (F.FS_CMD_RESULT.DEFER.on p) = 0 ∧
          (t.schedOf h).cmds = q.cmds ++ [⟨op, target, value, e, e, p.idx, (s.role p).role, s.split⟩]) ∧
        (r = 1 → t.rd (F.FS_CMD_RESULT.DEFER.on p) = min (q.firstOpen - e) 0xFFFF ∧
          t.rd F.FS_EVENT_CNT.LATE_CMD = min (s.rd F.FS_EVENT_CNT.LATE_CMD + 1) 0xFFFF ∧ t.Waits h 0x014 ∧
          (t.schedOf h).cmds = q.cmds ++ [⟨op, target, value, q.firstOpen, e, p.idx, (s.role p).role, s.split⟩]) ∧
        (2 ≤ r → Part.Same .schedule s t)) ∧
    ∀ op : BitVec 4, op.toNat = 0 ∨ 8 ≤ op.toNat →
      ∃ t, exec (.opcodeInvalid p op) s = .next t ∧ t.rd (F.FS_CMD_RESULT.RESULT.on p) = 7 ∧ Part.Same .schedule s t

/-- The queue holds at most 64 accepted commands, and a command submitted when it is full is refused (its RESULT is neither 0 nor 1, and the schedule
stays). -/
def Obligations.CommandQueueOf64 : Prop :=
  ∀ (p : Path) (s : State), s.writable p 0x6000B = true →
    ∀ c, c ∈ [Instr.freeze p, .release p, .setDelay p, .setGain p, .streamOn p, .streamOff p, .switchLast p] →
    (s.schedOf (s.actHalf p)).cmds.length ≤ 64 →
    ∃ t, exec c s = .next t ∧ (t.schedOf (s.actHalf p)).cmds.length ≤ 64 ∧
      ((s.schedOf (s.actHalf p)).cmds.length = 64 → 2 ≤ t.rd (F.FS_CMD_RESULT.RESULT.on p) ∧ Part.Same .schedule s t)

/-- FS_LAST_CTRL: ADMIT starts an admission, whose end shows its verdict and arms an admitted Last; ACTIVATE fixes its tick; CANCEL drops it. -/
def Obligations.LastControl : Prop :=
  ∀ (p : Path) (s : State), s.Inv →
    (∀ sel, s.writable p 0x60010 = true → s.admitting = none →
      ∃ t, exec (.admitLast p sel) s = .next t ∧ t.admitting = some sel.val ∧ t.admTouched = false ∧ t.admStart = false ∧
        t.admBy = some ((s.role p).role, p.idx) ∧ t.rd F.FS_LAST_CTRL.SEL = sel.val ∧ Part.Same .schedule s t) ∧
    (∀ n, s.admitting = some n → n < 4 → s.admStart = false →
      let v := s.verdict n
      ∃ t, exec .admissionDone s = .next t ∧ t.admitting = none ∧ t.rd F.FS_ADMIT_RESULT.DONE = 1 ∧
        t.rd F.FS_ADMIT_RESULT.OK = b2n (v.reason == 0) ∧ t.rd F.FS_ADMIT_RESULT.LAST = n ∧ t.rd F.FS_ADMIT_RESULT.REASON = v.reason % 256 ∧
        (v.reason = 0 → s.admTouched = false → t.sched.armed = some n ∧ t.sched.actAt = none ∧ t.lasts[n]? = some v.cfg) ∧
        (v.reason ≠ 0 → t.Waits s.leader 0x010)) ∧
    (∀ n, s.writable p 0x60010 = true → (s.schedOf (s.actHalf p)).armed = some n →
      let c := s.schedOf (s.actHalf p)
      ∃ t, exec (.activate p) s = .next t ∧ (t.schedOf (s.actHalf p)).armed = some n ∧
        (t.schedOf (s.actHalf p)).actAt = some (if c.running then max (s.staged p) c.firstOpen else 0, (s.role p).role, p.idx)) ∧
    (s.writable p 0x60010 = true →
      ∃ t, exec (.cancel p) s = .next t ∧ (t.schedOf (s.actHalf p)).armed = none ∧ (t.schedOf (s.actHalf p)).actAt = none ∧
        (t.schedOf (s.actHalf p)).last = (s.schedOf (s.actHalf p)).last)

/-- LUT banks: a COMMIT swaps the banks at once while no tick runs, which begins the copy; while one runs it waits for its tick; while COPYING it
changes nothing. The end of the copy leaves both banks with the active one's curves. A read of LE_LUT_DATA returns the shadow entry (0 above 4,096)
and steps ENTRY, or waits its turn among the head's reads; a write steps ENTRY and stores the shadow entry, but none above 4,096 and none while
COPYING. -/
def Obligations.LutBanks : Prop :=
  ∀ (p : Path) (s : State), s.Inv →
    let b := s.lutBank
    let e := s.rd F.LE_LUT_CTRL.ENTRY
    let table := s.rd F.LE_LUT_CTRL.TABLE
    let k := lutKey (1 - b) table e
    (s.writable p 0x70000 = true → table < 80 →
      ∃ t, exec (.commit p) s = .next t ∧ t.le.lut = s.le.lut ∧
        if s.rd F.LE_LUT_CTRL.COPYING = 1 then t.le.commit = s.le.commit ∧ t.lutBank = b ∧ t.rd F.LE_LUT_CTRL.COPYING = 1
        else if (s.schedOf (s.actHalf p)).running then
          t.le.commit = some ⟨max (s.staged p) (s.schedOf (s.actHalf p)).firstOpen, table, p.idx, (s.role p).role, s.split⟩ ∧
            t.rd F.LE_LUT_CTRL.COMMIT = 1 ∧ t.lutBank = b ∧ t.rd F.LE_LUT_CTRL.COPYING = 0
        else t.le.commit = none ∧ t.rd F.LE_LUT_CTRL.COMMIT = 0 ∧ t.lutBank = 1 - b ∧ t.rd F.LE_LUT_CTRL.COPYING = 1) ∧
    (if s.rd F.LE_LUT_CTRL.COPYING = 1 then
      ∃ t, exec .lutCopyDone s = .next t ∧ t.rd F.LE_LUT_CTRL.COPYING = 0 ∧ t.lutBank = b ∧
        ∀ bank table entry, bank < 2 → table < 80 → entry ≤ 4096 → t.lutAt (lutKey bank table entry) = s.lutAt (lutKey b table entry)
     else exec .lutCopyDone s = .next s) ∧
    (∃ t, exec (.lutDataAccess p none) s = .next t ∧ t.le = s.le ∧
      (s.readsAtOnce p = true → t.out = s.out ++ [.readData p [BitVec.ofNat 32 (if 4096 < e then 0 else s.lutAt k)]] ∧
        t.rd F.LE_LUT_CTRL.ENTRY = (e + 1) % 8192) ∧
      (∀ h, p = .head h → s.ioMayGo h.val = false → t.out = s.out ∧ State.RegsBut s t [] ∧
        (t.head h.val).io = (s.head h.val).io ++ (if s.linkUp h.val then [.reg 0x70001] else []))) ∧
    ∀ v : Word, s.writable p 0x70001 = true →
      ∃ t, exec (.lutDataAccess p (some v)) s = .next t ∧
        t.rd F.LE_LUT_CTRL.ENTRY = (e + 1) % 8192 ∧
        if s.rd F.LE_LUT_CTRL.COPYING = 1 ∨ 4096 < e then t.le = s.le
        else t.lutAt k = (if table < 16 then v.toNat % 2 ^ 20 else v.toNat % 2 ^ 16) ∧ ∀ j, j ≠ k → t.lutAt j = s.lutAt j

/-- LUT contents: identity curves in both banks at power-on, kept by every warm reset. -/
def Obligations.LutAtPowerOn : Prop :=
  (∀ bank table x, bank < 2 → table < 80 → x ≤ 4096 →
    State.reset.lutAt (lutKey bank table x) = (if table < 16 then min (256 * x) 1048575 else min (16 * x) 65535) ∧
    ∀ testEn s, s.pwr.aux = false →
      ∃ t, exec (.auxUp testEn) s = .next t ∧
        t.lutAt (lutKey bank table x) = (if table < 16 then min (256 * x) 1048575 else min (16 * x) 65535)) ∧
  ∀ s i, i ∈ [Instr.warmReset, .shortPress, .watchdogExpiry .a, .watchdogExpiry .b] ∨ (∃ p, i = .warmResetWrite p) →
    ∃ t, exec i s = .next t ∧ ∀ k, t.lutAt k = s.lutAt k

/-! Publication, ingest and heads -/

/-- PUBLISH_DOORBELL of the publishing head: a slot that passes every check waits for its blocks and is the source's write slot no longer; one that
fails is refused with the code of its check, and the source stays as it is but for its status word; behind a block row that is being encoded the
doorbell waits. A doorbell of another head is refused. PUBLICATION_COUNT counts the oldest accepted one once its blocks have their places, or refuses
it when its slot is incomplete by then. SLOT_SELECT of the publishing head takes the slot, abandons an open pass and marks the old slot incomplete;
beyond DEPTH it is refused and changes nothing of the source; behind a block row that is being encoded it waits; while the schedule is not ACTIVE it
is dropped and counted. -/
def Obligations.Publication : Prop :=
  (∀ (s : State) (h : Fin 4) (src : Fin 16) (k : SrcCfg), s.Serves h.val src.val k → s.Inv →
    let c := s.schedOf (half4 h.val)
    let r := s.rt src.val
    let tick := if c.cutDone then c.frame + 1 else c.frame
    (s.takesPosted h.val = true → ∀ slot tag : BitVec 16,
      let v := if s.activeAt h.val then s.pubResult src.val k slot.toNat else 5
      (s.takesLines src.val = true → v = 0 → ∃ t, exec (.publishDoorbell h src slot tag) s = .next t ∧
        t.rt src.val = { r with wslot := none, pass := 0, pubs := r.pubs ++ [⟨slot.toNat, tag.toNat, tick, c.cutDone⟩] } ∧
        State.RegsBut s t []) ∧
      (s.takesLines src.val = true → v ≠ 0 → ∃ t, exec (.publishDoorbell h src slot tag) s = .next t ∧
        t.rt src.val = { r with pubStatus := pubWord tag.toNat v 0 } ∧
        s.CountsUp t (F.FS_SRC_CNT_n.REFUSED src.val) ∧ t.Waits (half4 h.val) (0x020 + src.val) ∧
        State.RegsBut s t [(F.FS_SRC_CNT_n.REFUSED src.val).a]) ∧
      (s.takesLines src.val = false → ∃ t, exec (.publishDoorbell h src slot tag) s = .next t ∧
        t.rt src.val = { r with wait := r.wait ++ [.publish slot.toNat tag.toNat tick c.cutDone] } ∧ State.RegsBut s t [])) ∧
    (∀ h' : Fin 4, h' ≠ h → half4 h'.val = half4 h.val → s.takesPosted h'.val = true → ∀ slot tag : BitVec 16,
      ∃ t, exec (.publishDoorbell h' src slot tag) s = .next t ∧ t.rt src.val = r ∧ s.CountsUp t (F.FS_SRC_CNT_n.REFUSED src.val) ∧
        t.Waits (half4 h.val) (0x020 + src.val)) ∧
    ∀ q rest, r.pubs = q :: rest →
      (s.blocksAccepted src.val q.slot = false → exec (.publicationCount src) s = .next s) ∧
      (s.blocksAccepted src.val q.slot = true → q.slot ∈ r.incomplete →
        ∃ t, exec (.publicationCount src) s = .next t ∧ t.rt src.val = { r with pubs := rest, pubStatus := pubWord q.tag 4 0 } ∧
          s.CountsUp t (F.FS_SRC_CNT_n.REFUSED src.val) ∧ t.Waits (half4 h.val) (0x020 + src.val)) ∧
      (s.blocksAccepted src.val q.slot = true → q.slot ∉ r.incomplete →
        ∃ t, exec (.publicationCount src) s = .next t ∧
          t.rt src.val = { r.count q with pubs := rest, pubStatus := pubWord q.tag (b2n q.late) q.tick } ∧
          s.CountsUp t (F.FS_SRC_CNT_n.LATE_PUB src.val) (b2n q.late) ∧
          s.CountsUp t (F.FS_SRC_CNT_n.SUPERSEDED src.val) (b2n (r.counted.getLast?.any fun x => x.tick == q.tick)) ∧
          State.RegsBut s t [(F.FS_SRC_CNT_n.LATE_PUB src.val).a, (F.FS_SRC_CNT_n.SUPERSEDED src.val).a])) ∧
  (∀ (s : State) (h : Fin 4) (src : Fin 16) (k : SrcCfg), s.Serves h.val src.val k → ∀ slot : BitVec 16, s.takesPosted h.val = true →
    if s.activeAt h.val = false then
      ∃ t, exec (.slotSelect h src slot) s = .next t ∧ t.rt src.val = s.rt src.val ∧ t.Waits (half4 h.val) (0x020 + src.val) ∧
        State.RegsBut s t [(F.TW_SRC_DROP_n.RANGE src.val).a]
    else if s.takesLines src.val = false then
      ∃ t, exec (.slotSelect h src slot) s = .next t ∧
        t.rt src.val = { s.rt src.val with wait := (s.rt src.val).wait ++ [.select slot.toNat] } ∧ State.RegsBut s t []
    else if slot.toNat < k.depth then
      ∃ t, exec (.slotSelect h src slot) s = .next t ∧ (t.rt src.val).wslot = some slot.toNat ∧ (t.rt src.val).pass = 0 ∧
        (∀ w, (s.rt src.val).pass = 1 → (s.rt src.val).wslot = some w → w ∈ (t.rt src.val).incomplete) ∧ State.RegsBut s t []
    else
      ∃ t, exec (.slotSelect h src slot) s = .next t ∧ t.rt src.val = s.rt src.val ∧ t.Waits (half4 h.val) (0x020 + src.val) ∧
        State.RegsBut s t [])

/-- PIXEL_WINDOW_WRITE: a write that is not whole lines, or comes while the schedule is not ACTIVE, or from a head that does not publish the source,
is dropped and counted. A line of the publishing head waits behind a block row that is being encoded; else the first line of a frame opens a pass of
the write slot, a line of the open block row joins it, and one out of order or during a copy into the source's slot is dropped, counted, and in the
first case marks the slot incomplete. -/
def Obligations.WindowLines : Prop :=
  ∀ (h : Fin 4) (off : BitVec 35) (bytes : List Byte) (k : SrcCfg) (s : State), s.Inv → s.linkUp h.val = true →
    let n := bits off.toNat 34 31
    let row := bits off.toNat 30 17
    let line := bits off.toNat 16 6
    (bytes ≠ [] → (off.toNat % 64 ≠ 0 ∨ bytes.length % 64 ≠ 0) →
      ∃ t, exec (.pixelWindowWrite h off bytes true) s = .next t ∧ s.CountsUp t (F.TW_SRC_DROP_n.FORMAT n) ∧ t.Waits (half4 h.val) (0x020 + n) ∧
        Part.Same .schedule s t ∧ State.RegsBut s t [(F.TW_SRC_DROP_n.FORMAT n).a]) ∧
    (bytes ≠ [] → ∃ t, exec (.pixelWindowWrite h off bytes false) s = .next t ∧ s.CountsUp t (F.TW_SRC_DROP_n.FORMAT n) ∧ Part.Same .schedule s t) ∧
    (off.toNat % 64 = 0 → bytes.length = 64 → s.activeAt h.val = false →
      ∃ t, exec (.pixelWindowWrite h off bytes true) s = .next t ∧ s.CountsUp t (F.TW_SRC_DROP_n.RANGE n) ∧ Part.Same .schedule s t ∧
        State.RegsBut s t [(F.TW_SRC_DROP_n.RANGE n).a]) ∧
    (off.toNat % 64 = 0 → bytes.length = 64 → s.activeAt h.val = true → s.srcAt h.val n = some k → k.head ≠ h.val →
      ∃ t, exec (.pixelWindowWrite h off bytes true) s = .next t ∧ s.CountsUp t (F.TW_SRC_DROP_n.HEAD n) ∧ Part.Same .schedule s t ∧
        State.RegsBut s t [(F.TW_SRC_DROP_n.HEAD n).a]) ∧
    (off.toNat % 64 = 0 → bytes.length = 64 → s.activeAt h.val = true → s.Serves h.val n k → row < k.height → line < k.lines →
      (s.takesLines n = false →
        ∃ t, exec (.pixelWindowWrite h off bytes true) s = .next t ∧
          t.rt n = { s.rt n with wait := (s.rt n).wait ++ [.line row line (lineOfBytes bytes)] } ∧ State.RegsBut s t []) ∧
      (s.takesLines n = true → s.copyingIn n = true →
        ∃ t, exec (.pixelWindowWrite h off bytes true) s = .next t ∧ t.rt n = s.rt n ∧ s.CountsUp t (F.TW_SRC_DROP_n.ORDER n)) ∧
      (s.takesLines n = true → s.copyingIn n = false → (s.rt n).wslot = none →
        ∃ t, exec (.pixelWindowWrite h off bytes true) s = .next t ∧ t.rt n = { s.rt n with noted := true } ∧ s.CountsUp t (F.TW_SRC_DROP_n.RANGE n)) ∧
      (s.takesLines n = true → s.copyingIn n = false → ∀ w, (s.rt n).wslot = some w →
        (s.slotBusy n w = true →
          ∃ t, exec (.pixelWindowWrite h off bytes true) s = .next t ∧ t.rt n = s.rt n ∧ s.CountsUp t (F.FS_SRC_CNT_n.REFUSED n)) ∧
        (s.slotBusy n w = false → row = 0 → line = 0 →
          ∃ t, exec (.pixelWindowWrite h off bytes true) s = .next t ∧ (t.rt n).pass = 1 ∧ (t.rt n).brow = 0 ∧
            (t.rt n).asm = [(asmKey 0 0, lineOfBytes bytes)] ∧ w ∉ (t.rt n).incomplete ∧ (t.rt n).begun = (s.rt n).begun + 1 ∧ State.RegsBut s t []) ∧
        (s.slotBusy n w = false → 0 < row + line → (s.rt n).pass = 1 → row / 4 = (s.rt n).brow →
          ∃ t, exec (.pixelWindowWrite h off bytes true) s = .next t ∧ Sparse.find (t.rt n).asm (asmKey row line) = some (lineOfBytes bytes) ∧
            (t.rt n).pass = 1 ∧ (t.rt n).brow = (s.rt n).brow ∧ (t.rt n).incomplete = (s.rt n).incomplete ∧ State.RegsBut s t []) ∧
        (s.slotBusy n w = false → 0 < row + line → (s.rt n).pass = 1 → row / 4 ≠ (s.rt n).brow →
          ∃ t, exec (.pixelWindowWrite h off bytes true) s = .next t ∧ s.CountsUp t (F.TW_SRC_DROP_n.ORDER n) ∧ w ∈ (t.rt n).incomplete ∧
            (t.rt n).asm = (s.rt n).asm ∧ (t.rt n).pass = 1)))

/-- BLOCK_ROW_ENCODED once the encoders may take the row: an open pass goes on with the next block row, or is done after the last one; a pass that was
abandoned meanwhile writes nothing; a SLOT_SELECT that waited is then taken; a pass whose head's link went down closes and its slot is incomplete.
With no row to encode, or while the encoders may not take it, nothing changes. SIZE_MAP_MERGE: while the subchannel of its map line cannot read it the
oldest waiting entry waits on; else it leaves the queue, and of those behind it only entries that begin a map line may leave with it; a map line that
comes back as poison leaves the slot incomplete. With no entry waiting nothing changes. -/
def Obligations.BlockRowEncoded : Prop :=
  (∀ (s : State) (src : Fin 16) (k : SrcCfg), (s.schedOf (s.srcHalf src.val)).src src.val = some k →
    let r := s.rt src.val
    (r.encoding = false ∨ s.mayEncode src.val = false → exec (.blockRowEncoded src) s = .next s) ∧
    (r.encoding = true → s.mayEncode src.val = true →
      (r.pass = 1 → r.closing = false → ∀ w, r.wslot = some w → ∀ m, (s.schedOf (s.srcHalf src.val)).modeOf k = some m →
        (r.wait = [] → ∃ t, exec (.blockRowEncoded src) s = .next t ∧ (t.rt src.val).encoding = false ∧ (t.rt src.val).wslot = some w ∧
          (t.rt src.val).brow = r.brow + 1 ∧ (t.rt src.val).asm = [] ∧ (t.rt src.val).pass = if r.brow + 1 = k.bh then 2 else 1) ∧
        ∀ slot, r.wait = [.select slot] → slot < k.depth → ∃ t, exec (.blockRowEncoded src) s = .next t ∧ (t.rt src.val).encoding = false ∧
          (t.rt src.val).wait = [] ∧ (t.rt src.val).wslot = some slot ∧ (t.rt src.val).pass = 0) ∧
      (r.pass ≠ 1 → r.closing = false → r.wait = [] → ∃ t, exec (.blockRowEncoded src) s = .next t ∧
        t.rt src.val = { r with encoding := false } ∧ t.dm = s.dm ∧ State.RegsBut s t []) ∧
      (r.closing = true → r.wait = [] → ∀ w, r.wslot = some w →
        ∃ t, exec (.blockRowEncoded src) s = .next t ∧ (t.rt src.val).encoding = false ∧ (t.rt src.val).closing = false ∧
          (t.rt src.val).pass = 0 ∧ w ∈ (t.rt src.val).incomplete))) ∧
  (∀ (s : State) (src : Fin 16) (k : SrcCfg) (err : SymErr), (s.schedOf (s.srcHalf src.val)).src src.val = some k →
    let h := s.srcHalf src.val
    ((s.rt src.val).mapWait = [] → exec (.sizeMapMerge src err) s = .next s) ∧
    ∀ slot b e rest, (s.rt src.val).mapWait = (slot, b, e) :: rest →
      (s.mapWaits h (k.mapLine slot b) = true → exec (.sizeMapMerge src err) s = .next s) ∧
      (s.mapWaits h (k.mapLine slot b) = false →
        ∃ t, exec (.sizeMapMerge src err) s = .next t ∧ (t.rt src.val).mapWait.Sublist rest ∧
          (∀ x ∈ rest, x.2.1 % 128 ≠ 0 → x ∈ (t.rt src.val).mapWait) ∧
          (((s.modRt src.val fun r => { r with mapWait := rest }).readMap h (k.mapLine slot b) err).1 = none → slot ∈ (t.rt src.val).incomplete)))

/-- A pixel-window read while the schedule is not ACTIVE, or of a source that the head does not publish, returns zeros and is counted; one of the
write slot is under way; one that finds no credit, or another read of its head before it, waits. A decoder finishes a block whose lines have all
arrived, once: an engine keeps its pixels, or that it failed; a window read keeps them likewise, and with the last of its blocks it returns its lines.
A window read whose source has left the Last returns zeros. -/
def Obligations.BlocksDecoded : Prop :=
  (∀ (h : Fin 4) (off : BitVec 35) (lines : Nat) (s : State), s.Inv → s.linkUp h.val = true → 0 < lines →
    let n := bits off.toNat 34 31
    let free := !s.heldFor (half4 h.val) && (s.head h.val).win.isNone && (s.head h.val).io.isEmpty
    (free = false → ∃ t, exec (.pixelWindowRead h off lines) s = .next t ∧ t.out = s.out ∧ State.RegsBut s t [] ∧ State.PartsBut s t [.access] ∧
      (t.head h.val).io = (s.head h.val).io ++ [.window off.toNat lines]) ∧
    (free = true → s.activeAt h.val = false →
      ∃ t, exec (.pixelWindowRead h off lines) s = .next t ∧ t.out = s.out ++ [.window h.val (List.replicate lines (some 0))] ∧
        s.CountsUp t (F.TW_SRC_DROP_n.RANGE n) lines ∧ State.RegsBut s t [(F.TW_SRC_DROP_n.RANGE n).a]) ∧
    (free = true → s.activeAt h.val = true → ∀ k, s.srcAt h.val n = some k →
      (k.head ≠ h.val → ∃ t, exec (.pixelWindowRead h off lines) s = .next t ∧
        t.out = s.out ++ [.window h.val (List.replicate lines (some 0))] ∧ s.CountsUp t (F.TW_SRC_DROP_n.HEAD n)) ∧
      (k.head = h.val → ∀ w, (s.rt n).wslot = some w → bits off.toNat 30 17 < k.height → bits off.toNat 16 6 + lines ≤ k.lines →
        ∀ m, (s.schedOf (half4 h.val)).modeOf k = some m →
        ∃ t, exec (.pixelWindowRead h off lines) s = .next t ∧ (t.head h.val).win = some ⟨n, w, bits off.toNat 30 17, bits off.toNat 16 6, lines⟩))) ∧
  (∀ (src : Fin 16) (s : State), s.Inv →
    (∀ (e : Fin 16) slot block k, (s.schedOf (engHalf e.val)).src src.val = some k → ∀ m, (s.schedOf (engHalf e.val)).modeOf k = some m →
      let g := s.eng e.val
      g.fenced = false → (blockIn g.blocks src.val slot block).isNone = true → (blockNeeds k m g.lines slot block).isEmpty = true →
      ∃ t, exec (.blockDecode (.engine e) src slot block) s = .next t ∧
        (t.eng e.val).blocks = g.blocks ++ [⟨src.val, slot, block, (blockFrom k m g.lines slot block).getRight?⟩] ∧ (t.eng e.val).lines = g.lines) ∧
    ∀ (h : Fin 4) w, (s.head h.val).win = some w → w.src = src.val →
      let x := s.head h.val
      ((s.schedOf (half4 h.val)).src src.val = none → ∀ slot block,
        ∃ t, exec (.blockDecode (.window h) src slot block) s = .next t ∧ Out.window h.val (List.replicate w.lines (some 0)) ∈ t.out) ∧
      ∀ k, (s.schedOf (half4 h.val)).src src.val = some k → ∀ m, (s.schedOf (half4 h.val)).modeOf k = some m →
        ∀ block, (w.blocks k).contains block = true → (blockIn x.winBlocks src.val w.slot block).isNone = true →
        (blockNeeds k m x.winLines w.slot block).isEmpty = true →
        let bs := x.winBlocks ++ [⟨src.val, w.slot, block, (blockFrom k m x.winLines w.slot block).getRight?⟩]
        ∃ t, exec (.blockDecode (.window h) src w.slot block) s = .next t ∧
          if (w.blocks k).all fun b => (blockIn bs w.src w.slot b).isSome then
            Out.window h.val ((List.range w.lines).map fun i => winLine k w bs (w.line + i)) ∈ t.out
          else (t.head h.val).win = some w ∧ (t.head h.val).winBlocks = bs)

/-- A slot copy whose checks pass is under way with its number, its DPAs and its lines; one that fails a check shows the code. Once it has moved all
its lines, or cannot go on, and its writes have their places, it ends with RESULT 0, 5 after lines copied as poison, or 6; before that it stays under
way. -/
def Obligations.SlotCopies : Prop :=
  ∀ (h : Fin 4) (s : State), s.Inv →
    let x := s.head h.val
    (s.takesPosted h.val = true → ∀ src : Fin 16,
      (∀ slot : BitVec 16, s.copyCheck h.val src.val (some slot.toNat) = 0 → ∀ k, s.srcAt h.val src.val = some k →
        ∀ m, (s.schedOf (half4 h.val)).modeOf k = some m →
        ∃ t c, exec (.slotCopyToArchive h src slot) s = .next t ∧ (t.head h.val).copy = some c ∧ c.id = x.copies ∧ c.fromArchive = false ∧
          c.src = src.val ∧ c.slot = slot.toNat ∧ c.base = k.slotBase slot.toNat ∧ c.dest = x.copyDst ∧ c.lines = k.slotBytes m / 64 ∧
          (t.head h.val).copies = x.copies + 1 ∧ (t.head h.val).copyStatus / 2 ^ 31 = 1) ∧
      (s.copyCheck h.val src.val none = 0 → ∀ k, s.srcAt h.val src.val = some k → ∀ m, (s.schedOf (half4 h.val)).modeOf k = some m →
        ∀ w, (s.rt src.val).wslot = some w →
        ∃ t c, exec (.slotCopyFromArchive h src) s = .next t ∧ (t.head h.val).copy = some c ∧ c.id = x.copies ∧ c.fromArchive = true ∧
          c.src = src.val ∧ c.slot = w ∧ c.base = x.copyDst ∧ c.dest = k.slotBase w ∧ c.lines = k.slotBytes m / 64 ∧
          (t.rt src.val).pass = 0 ∧ (t.rt src.val).asm = [] ∧ (t.head h.val).copyStatus / 2 ^ 31 = 1) ∧
      ∀ i v, (∃ slot : BitVec 16, i = .slotCopyToArchive h src slot ∧ v = s.copyCheck h.val src.val (some slot.toNat)) ∨
          (i = .slotCopyFromArchive h src ∧ v = s.copyCheck h.val src.val none) → v ≠ 0 →
        ∃ t, exec i s = .next t ∧ (t.head h.val).copy = x.copy ∧
          (t.head h.val).copyStatus = x.copyStatus / 2 ^ 31 * 2 ^ 31 + v * 2 ^ 28 + x.copyStatus % 2 ^ 25 ∧
          State.PartsBut s t [.heads] ∧ State.RegsBut s t []) ∧
    (x.copy = none → exec (.slotCopyDone h) s = .next s) ∧
    ∀ c, x.copy = some c →
      let v := if c.early then 6 else if c.bad = 0 then 0 else 5
      ∃ t, exec (.slotCopyDone h) s = .next t ∧
        if (c.early = true ∨ c.done = c.lines) ∧ c.asked = [] ∧ s.copyBacklog h.val = false then
          (t.head h.val).copy = none ∧ (t.head h.val).copyStatus = v * 2 ^ 28 + c.done % 2 ^ 25 ∧ (v ≠ 0 → t.Waits (half4 h.val) 0x07A) ∧
          (c.fromArchive = true → c.src < 16 → c.early = false → (s.rt c.src).wslot = some c.slot →
            (t.rt c.src).pass = 2 ∧ c.slot ∉ (t.rt c.src).incomplete)
        else ∃ c', (t.head h.val).copy = some c' ∧ c'.id = c.id

/-- MEMINV and MEMINVNT answer Cmp and reach no memory, wait at the host while no credit is left, and do nothing out of L0; MEMSPECRD is dropped.
Reads of CXL.mem that nothing refuses. A line with data queued for it is answered with that data at once; a lost one with poison; any other waits for
its line in the read queues of its subchannel, and no request touches DRAM yet. Writes of CXL.mem that nothing refuses. MemWr: its data is what its
line reads as from then on, the poison list follows it, and Cmp is its answer, at once or when it has a place in the write queue. MemWrPtl merges its
enabled bytes into the data queued for its line; a line with queued poison, or a lost one, drops it with Cmp and is counted; any other waits for its
line. A read or write of CXL.mem that finds no credit, or another request of its head waiting before it, waits at the host, and out of L0 nothing
happens. -/
def Obligations.MemoryRequests : Prop :=
  (∀ (h : Fin 4) (hpa : Nat) (s : State),
    exec (.memSpecRd h hpa) s = .next s ∧
    ∀ i, i ∈ [Instr.memInv h hpa, .memInvNt h hpa] →
      (s.takesRequests h.val = true →
        ∃ t, exec i s = .next t ∧ (∃ l, Out.cxl h.val (s.head h.val).nextId .cmp l ∈ t.out) ∧ (t.head h.val).nextId = (s.head h.val).nextId + 1 ∧
          t.dm = s.dm ∧ t.mem = s.mem) ∧
      (s.inL0 h.val = true → s.takesRequests h.val = false →
        ∃ t, exec i s = .next t ∧ (t.head h.val).held = (s.head h.val).held ++ [⟨3, hpa, 0, false, 0⟩] ∧ t.out = s.out ∧ State.RegsBut s t []) ∧
      (s.inL0 h.val = false → exec i s = .next s)) ∧
  (∀ (h : Fin 4) (hpa : Nat) (s : State), s.Inv → s.takesRequests h.val = true →
    let id := (s.head h.val).nextId
    ∀ dpa g r n sa, s.servedAt h.val hpa false = some (dpa, g, r, n, sa) → r.il ≤ 2 → ∀ i, i ∈ [Instr.memRd h hpa, .memRdData h hpa] →
      let p := s.route n sa
      (s.lineLost n sa = true → ∃ t, exec i s = .next t ∧ t.mem = s.mem ∧ t.Answered h.val id (.data (Config.poisonData s.free) true)) ∧
      (s.lineLost n sa = false →
        (∀ data, (s.sub p.1).queued (p.2.1 / 64) = some (data, false) →
          ∃ t, exec i s = .next t ∧ t.mem = s.mem ∧ t.Answered h.val id (.data data false)) ∧
        (∀ data, (s.sub p.1).queued (p.2.1 / 64) = some (data, true) →
          ∃ t, exec i s = .next t ∧ t.mem = s.mem ∧ t.Answered h.val id (.data (Config.poisonData s.free) true)) ∧
        ((s.sub p.1).queued (p.2.1 / 64) = none →
          ∃ t, exec i s = .next t ∧ t.mem = s.mem ∧ t.out = s.out ∧ (t.sub p.1).Asks (p.2.1 / 64) (.host h.val id) ∧
            ∃ q ∈ (t.head h.val).flight, q.id = id ∧ q.kind = 0 ∧ q.dpa = dpa ∧ q.resp = none))) ∧
  (∀ (h : Fin 4) (hpa : Nat) (s : State), s.Inv → s.takesRequests h.val = true →
    let id := (s.head h.val).nextId
    ∀ dpa g r n sa, s.servedAt h.val hpa true = some (dpa, g, r, n, sa) → r.il ≤ 2 →
      let w := s.writePlace n sa
      let p := s.route n sa
      (∀ data poison,
        ∃ t, exec (.memWr h hpa data poison) s = .next t ∧ t.mem = s.mem ∧ (t.sub w.1).queued (w.2 / 64) = some (data, poison) ∧
          (t.Answered h.val id .cmp ∨
            (∃ q ∈ (t.head h.val).flight, q.id = id ∧ q.kind = 1 ∧ q.resp = none) ∧ ∃ x ∈ (t.sub w.1).wrWait, (h.val, id) ∈ x.line.reqs) ∧
          (poison = false → ∀ e ∈ t.dm.poison, e.1 ≠ dpa / 64) ∧
          (poison = true → (∃ e ∈ t.dm.poison, e.1 = dpa / 64) ∨ t.dm.poison.length = 256)) ∧
      ∀ data mask poison,
        (s.lineLost n sa = true →
          ∃ t, exec (.memWrPtl h hpa ⟨data, poison⟩ mask) s = .next t ∧ t.mem = s.mem ∧ t.Answered h.val id .cmp ∧
            s.CountsUp t (F.HP_n_REQ_ERR.PTL_POISON h.val)) ∧
        (s.lineLost n sa = false →
          (∀ old, (s.sub p.1).queued (p.2.1 / 64) = some (old, false) →
            ∃ t, exec (.memWrPtl h hpa ⟨data, poison⟩ mask) s = .next t ∧ t.mem = s.mem ∧
              (t.sub w.1).queued (w.2 / 64) = some (mergeBytes old data mask, poison)) ∧
          (∀ old, (s.sub p.1).queued (p.2.1 / 64) = some (old, true) →
            ∃ t, exec (.memWrPtl h hpa ⟨data, poison⟩ mask) s = .next t ∧ t.mem = s.mem ∧ t.Answered h.val id .cmp ∧
              (t.sub p.1).queued (p.2.1 / 64) = some (old, true) ∧ s.CountsUp t (F.HP_n_REQ_ERR.PTL_POISON h.val)) ∧
          ((s.sub p.1).queued (p.2.1 / 64) = none →
            ∃ t, exec (.memWrPtl h hpa ⟨data, poison⟩ mask) s = .next t ∧ t.mem = s.mem ∧ t.out = s.out ∧
              (t.sub p.1).Asks (p.2.1 / 64) (.host h.val id) ∧
              ∃ q ∈ (t.head h.val).flight, q.id = id ∧ q.kind = 2 ∧ q.dpa = dpa ∧ q.data = data ∧ q.mask = mask ∧ q.poison = poison ∧ q.resp = none))) ∧
  (∀ (h : Fin 4) (hpa : Nat) (s : State),
    ∀ i q, (i, q) ∈ [(Instr.memRd h hpa, (⟨0, hpa, 0, false, 0⟩ : HeldReq)), (.memRdData h hpa, ⟨0, hpa, 0, false, 0⟩)] ∨
        (∃ d p, (i, q) = (Instr.memWr h hpa d p, ⟨1, hpa, d, p, 0⟩)) ∨ (∃ d m p, (i, q) = (Instr.memWrPtl h hpa ⟨d, p⟩ m, ⟨2, hpa, d, p, m⟩)) →
      (s.inL0 h.val = true → s.takesRequests h.val = false →
        ∃ t, exec i s = .next t ∧ (t.head h.val).held = (s.head h.val).held ++ [q] ∧ t.out = s.out ∧ State.RegsBut s t [] ∧
          State.PartsBut s t [.heads]) ∧
      (s.inL0 h.val = false → exec i s = .next s))

/-- DRAM_READ_RETURN: the oldest burst of a subchannel decodes with the errors it came back with, which stay in its line; its outcome is counted,
unless only scrub reads asked for it, and no other symbol of DRAM changes. With no burst on its way nothing happens. What the reader of a burst gets:
the data that a write queued for the line meanwhile, else what the burst decodes to. A host read of a head in L0 that no STRICT order holds is
answered with it, an engine and a window read take it among their lines; a line that is poison or uncorrectable gives poison. -/
def Obligations.BurstReturns : Prop :=
  (∀ (s : State) (n : Fin 16) (err : SymErr) (gates : List (Fin 10 × Bool)),
    ((s.sub n.val).flight = [] → exec (.dramReadReturn n ⟨err, gates⟩) s = .next s) ∧
    ∀ (f : Flight) (rest : List Flight), (s.sub n.val).flight = f :: rest → s.Inv →
      let u := (s.modSub n.val fun x => { x with flight := rest }).disturb n.val f.line err
      let o := u.decodeLine n.val f.line
      let c := b2n (!f.readers.all (·.isScrub))
      ∃ t, exec (.dramReadReturn n ⟨err, gates⟩) s = .next t ∧ (∀ k, t.cell k = u.cell k) ∧
        s.CountsUp t (F.MI_SUB_n_CNT.CORR_READS n.val) (match o with | .corrected _ _ _ => c | _ => 0) ∧
        s.CountsUp t (F.MI_SUB_n_ERR.UNCOR_READS n.val) (match o with | .uncorrectable => c | _ => 0) ∧
        s.CountsUp t (F.MI_SUB_n_ERR.POISON_READS n.val) (match o with | .poison => c | _ => 0) ∧
        (o = .uncorrectable → c = 1 → t.Waits (subHalf n.val) (0x081 + 8 * n.val))) ∧
  (∀ (s : State) (n : Fin 16) (err : SymErr) (gates : List (Fin 10 × Bool)) (f : Flight) (rest : List Flight) (r : Reader),
    (s.sub n.val).flight = f :: rest → f.readers = [r] → s.Inv →
    let u := (s.modSub n.val fun x => { x with flight := rest }).disturb n.val f.line err
    let o := match (s.sub n.val).queued f.line with | some q => queuedOut q | none => u.decodeLine n.val f.line
    (∀ h id q, r = .host h id → h < 4 → s.inL0 h = true → (s.head h).flight.find? (·.id == id) = some q → q.kind = 0 → q.strict = none →
      ∃ t, exec (.dramReadReturn n ⟨err, gates⟩) s = .next t ∧
        match o.data? with
        | some d => ∃ l, Out.cxl h id (.data d false) l ∈ t.out
        | none => ∃ l, Out.cxl h id (.data (Config.poisonData s.free) true) l ∈ t.out) ∧
    (∀ e ep a, r = .engine e ep → e < 16 → (s.eng e).fenced = false → ep = s.rd (F.LE_n_STATUS.EPOCH e) → f.dpa = some a →
      (s.eng e).asked.contains (a / 64) = true →
      ∃ t, exec (.dramReadReturn n ⟨err, gates⟩) s = .next t ∧ ⟨a / 64, o.data?, s.degradedSub n.val⟩ ∈ (t.eng e).lines) ∧
    ∀ h a, r = .window h → h < 4 → f.dpa = some a → (s.head h).winAsked.contains (a / 64) = true →
      ∃ t, exec (.dramReadReturn n ⟨err, gates⟩) s = .next t ∧ ⟨a / 64, o.data?, s.degradedSub n.val⟩ ∈ (t.head h).winLines)

/-- The fence read takes its place; the oldest one waits until the writes that its head received before it have taken effect, then returns the count,
the window and the stitch. Out of L0 neither happens. -/
def Obligations.FenceRead : Prop :=
  ∀ (h : Fin 4) (s : State), s.Inv →
    (s.inL0 h.val = false → exec (.fenceRead h) s = .next s ∧ ∀ w, exec (.fenceReadComplete h w) s = .next s) ∧
    (s.inL0 h.val = true →
      (∃ t, exec (.fenceRead h) s = .next t ∧ t.out = s.out ∧ State.RegsBut s t [] ∧ State.PartsBut s t [.heads] ∧
        (t.head h.val).fences = (s.head h.val).fences ++ [⟨if s.heldFor (half4 h.val) then none else some (s.fenceMark h.val)⟩]) ∧
      ((s.head h.val).fences = [] → ∀ w, exec (.fenceReadComplete h w) s = .next s) ∧
      ∀ f rest, (s.head h.val).fences = f :: rest → ∀ w : Nat,
        (s.fenceHolds h.val f = false → exec (.fenceReadComplete h w) s = .next s) ∧
        (s.fenceHolds h.val f = true →
          let c := s.schedOf (half4 h.val)
          let count := (s.rd (F.AM_HEAD_n_FENCE.FENCES h.val) + 1) % 2 ^ 16
          ∃ t, exec (.fenceReadComplete h w) s = .next t ∧ (t.head h.val).fences = rest ∧ t.rd (F.AM_HEAD_n_FENCE.FENCES h.val) = count ∧
            t.rd (F.AM_HEAD_n_FENCE.MAX_10NS h.val) = min (max (s.rd (F.AM_HEAD_n_FENCE.MAX_10NS h.val)) w) 255 ∧
            State.RegsBut s t [(F.AM_HEAD_n_FENCE.FENCES h.val).a] ∧
            t.out = s.out ++ [.fence h.val (BitVec.ofNat 32 (count * 2 ^ 16 + c.window * 2 ^ 12 + s.stitchOf c))]))

/-- The mailbox of a head whose mailbox is not served runs no command. Mailbox commands that read, with their payloads: the time-stamp is UTC in ns
with the head's offset; the one log that is supported and its entries, one for each opcode; Identify Memory Device gives the capacity, total and
volatile alike, 64 records for each log and a poison list of 256; the head summary and the admission result are the words of their registers. An
opcode of no command is Unsupported. None changes a register. Mailbox commands that return lists, with their payloads: the oldest 31 records of a log
behind the header with its flags and counts; 254 entries of the poison list of a range, going on where the same range stopped; the message words of
Selvedge log entries, indexed modulo 256; the seven words of each ring. A count that the command does not take is Invalid Input. Mailbox commands that
set something: Clear Event Records takes the oldest records of a log, and with any its overflow flag and count; more than there are is Invalid Handle
and changes nothing. Set Timestamp makes the time-stamp the value written. -/
def Obligations.MailboxCommands : Prop :=
  (∀ (h : Fin 4) (s : State), s.mailboxServed h.val = false →
    (∀ i ∈ [Instr.getTimestamp h, .getSupportedLogs h, .getLog h, .identifyMemoryDevice h, .getHeadSummary h, .getAdmissionResult h, .dropRole h],
      exec i s = .next s) ∧
    (∀ log, exec (.getEventRecords h log) s = .next s ∧ ∀ n, exec (.clearEventRecords h log n) s = .next s) ∧
    (∀ v, exec (.setTimestamp h v) s = .next s) ∧
    (∀ a n, exec (.getPoisonList h a n) s = .next s ∧ exec (.getRingStatus h a n) s = .next s ∧ exec (.readSelvedgeLog h a n) s = .next s) ∧
    (∀ role, exec (.roleChallenge h role) s = .next s) ∧ (∀ r, exec (.roleResponse h r) s = .next s) ∧
    ∀ op, exec (.unsupportedOpcode h op) s = .next s) ∧
  (∀ (h : Fin 4) (s : State), s.Inv → s.mailboxServed h.val = true →
    (∃ t, exec (.getTimestamp h) s = .next t ∧ s.Replies t h.val rcSuccess (le64 ((s.asSeen (half4 h.val)).utcNs + (s.head h.val).tsoff)) ∧
      State.RegsBut s t []) ∧
    (∃ t, exec (.getSupportedLogs h) s = .next t ∧ s.Replies t h.val rcSuccess (leBytes 2 1 ++ leBytes 6 0 ++ celUuid ++ leBytes 4 60) ∧
      State.RegsBut s t []) ∧
    (∃ t, exec (.getLog h) s = .next t ∧ s.Replies t h.val rcSuccess ((opcodes.map fun o => leBytes 2 o.1 ++ leBytes 2 o.2).flatten) ∧
      State.RegsBut s t []) ∧
    (∃ t p, exec (.identifyMemoryDevice h) s = .next t ∧ s.Replies t h.val rcSuccess p ∧ p.length = 69 ∧
      (p.drop 16).take 50 = leBytes 8 s.capacity ++ leBytes 8 s.capacity ++ leBytes 16 0 ++ (List.replicate 4 (leBytes 2 64)).flatten ++ leBytes 4 0 ++
        leBytes 3 256 ++ leBytes 3 0 ∧ p.drop 67 = leBytes 2 0 ∧ State.RegsBut s t []) ∧
    (∃ t, exec (.getHeadSummary h) s = .next t ∧ s.Replies t h.val rcSuccess
        (([1, 2, 3, 5, 7].map fun i => leBytes 4 (s.viewReg (.head h) (0x300000 + 0x1000 * h.val + i))).flatten) ∧ State.RegsBut s t []) ∧
    (∃ t, exec (.getAdmissionResult h) s = .next t ∧ s.Replies t h.val rcSuccess
        (([0x60000, 0x60011, 0x60012].map fun a => leBytes 4 (s.viewReg (.head h) a)).flatten) ∧ State.RegsBut s t []) ∧
    ∀ op : BitVec 16, opcodes.any (·.1 == op.toNat) = false →
      ∃ t, exec (.unsupportedOpcode h op) s = .next t ∧ s.Replies t h.val rcUnsupported [] ∧ State.RegsBut s t []) ∧
  (∀ (h : Fin 4) (s : State), s.Inv → s.mailboxServed h.val = true →
    (∀ log : Fin 4,
      let lg := (s.head h.val).logs[log]
      let l := lg.recs.take 31
      ∃ t, exec (.getEventRecords h log) s = .next t ∧ s.Replies t h.val rcSuccess
          (leBytes 1 (b2n ((s.rd (F.HP_n_EVT.OVERFLOW h.val)).testBit log.val) + 2 * b2n (31 < lg.recs.length)) ++ leBytes 1 0 ++
            leBytes 2 (min lg.lost 65535) ++ le64 lg.firstLost ++ le64 lg.lastLost ++ leBytes 2 l.length ++ leBytes 10 0 ++
            (l.map fun r => r.bytes log.val).flatten) ∧ State.RegsBut s t []) ∧
    (∀ dpa len,
      let all := s.dm.poison.filter fun e => dpa / 64 ≤ e.1 && e.1 < dpa / 64 + len
      let skip := match (s.head h.val).poisonAt with | some (a, n, k) => if a = dpa ∧ n = len then k else 0 | none => 0
      let l := (all.drop skip).take 254
      let since : Int := match s.dm.poisonOver with | some x => x - s.utcOffset * 10 ^ 9 + (s.head h.val).tsoff | none => 0
      ∃ t, exec (.getPoisonList h dpa len) s = .next t ∧ s.Replies t h.val rcSuccess
          (leBytes 1 (b2n (skip + 254 < all.length) + 2 * b2n s.dm.poisonOver.isSome) ++ leBytes 1 0 ++ le64 since ++ leBytes 2 l.length ++ leBytes 20 0 ++
            (l.map fun e => leBytes 8 (e.1 * 64 + if e.2 then 1 else 2) ++ leBytes 4 1 ++ leBytes 4 0).flatten) ∧
        (t.head h.val).poisonAt = (if skip + 254 < all.length then some (dpa, len, skip + 254) else none) ∧ t.dm = s.dm ∧ State.RegsBut s t []) ∧
    (∀ first count, (1 ≤ count → count ≤ 256 →
        ∃ t, exec (.readSelvedgeLog h first count) s = .next t ∧ s.Replies t h.val rcSuccess
          (((List.range count).map fun i => leBytes 8 (match (s.fc (s.storeHalf (.head h))).entry ((first + i) % 256) with
            | some e => e.msg.pack | none => 0)).flatten) ∧ State.RegsBut s t []) ∧
      (count = 0 ∨ 256 < count →
        ∃ t, exec (.readSelvedgeLog h first count) s = .next t ∧ s.Replies t h.val rcInvalidInput [] ∧ State.RegsBut s t [])) ∧
    ∀ first count, 1 ≤ count → count ≤ 128 → first + count ≤ 512 →
      ∃ t, exec (.getRingStatus h first count) s = .next t ∧ State.RegsBut s t [] ∧ s.Replies t h.val rcSuccess
        (((List.range count).map fun i =>
          let x := s.ring (first + i)
          ([b2n x.armed, s.ringState (first + i) / 2 ^ 30, x.tail, x.consumed, x.chunks, x.skips, s.rd (F.LE_RING_SKIP_n.SKIPS (first + i))].map
            (leBytes 4 ·)).flatten).flatten)) ∧
  (∀ (h : Fin 4) (s : State), s.Inv → s.mailboxServed h.val = true →
    (∀ (log : Fin 4) (count : Nat),
      (0 < count → count ≤ ((s.head h.val).logs[log]).recs.length →
        ∃ t, exec (.clearEventRecords h log count) s = .next t ∧ s.Replies t h.val rcSuccess [] ∧
          ((t.head h.val).logs[log]).recs = ((s.head h.val).logs[log]).recs.drop count ∧ ((t.head h.val).logs[log]).lost = 0 ∧
          (t.rd (F.HP_n_EVT.OVERFLOW h.val)).testBit log.val = false ∧ State.RegsBut s t [(F.HP_n_EVT.OVERFLOW h.val).a]) ∧
      (((s.head h.val).logs[log]).recs.length < count →
        ∃ t, exec (.clearEventRecords h log count) s = .next t ∧ s.Replies t h.val rcInvalidHandle [] ∧
          (t.head h.val).logs = (s.head h.val).logs ∧ State.RegsBut s t []) ∧
      (count = 0 →
        ∃ t, exec (.clearEventRecords h log count) s = .next t ∧ s.Replies t h.val rcSuccess [] ∧
          (t.head h.val).logs = (s.head h.val).logs ∧ State.RegsBut s t [])) ∧
    ∀ v : BitVec 64, ∃ t, exec (.setTimestamp h v) s = .next t ∧ s.Replies t h.val rcSuccess [] ∧ State.RegsBut s t [] ∧
      ((t.head h.val).tsoff + (t.asSeen (half4 h.val)).utcNs - v.toNat) % 2 ^ 64 = 0)

/-- Get Ring Status returns Invalid Input and no ring for a count of 0 or above 128, or a range beyond ring 511. -/
def Obligations.RingStatusInvalid : Prop :=
  ∀ (h : Fin 4) (first count : Nat) (s : State), s.mailboxServed h.val = true → (count = 0 ∨ 128 < count ∨ 512 < first + count) →
    ∃ t o, exec (.getRingStatus h first count) s = .next t ∧ t.out = s.out ++ .mailbox h.val rcInvalidInput [] :: o ∧
      ∀ x ∈ o, ∃ a d, x = .msix h.val 0 a d

/-- Roles over the mailbox: a challenge for a role whose key is available; the right response sets the role with an audit entry, a wrong one is
Invalid Input; Drop Role gives it up. A locked path, or a role without a key, gets no challenge, and with a full audit queue no role changes. -/
def Obligations.MailboxRoles : Prop :=
  ∀ (h : Fin 4) (s : State), s.Inv → s.mailboxServed h.val = true →
    let p := Path.head h
    (∀ role, (s.role p).locked = false → s.keyOf role ≠ none →
      ∃ t, exec (.roleChallenge h role) s = .next t ∧ s.Replies t h.val rcSuccess (bytes32 (Config.randomDraw s.free)) ∧
        (t.role p).chal = some (Config.randomDraw s.free, role, s.now)) ∧
    (∀ role, (s.role p).locked = true ∨ s.keyOf role = none →
      ∃ t, exec (.roleChallenge h role) s = .next t ∧ s.Replies t h.val rcInvalidInput [] ∧ t.role p = s.role p) ∧
    (∀ c role t0, (s.role p).chal = some (c, role, t0) → s.now ≤ t0 + 12000000000 → ∀ key, s.keyOf role = some key → s.auditFull = false → ∀ resp,
      (s.wantedResponse p key c role = bytes32 resp →
        ∃ t, exec (.roleResponse h resp) s = .next t ∧ s.Replies t h.val rcSuccess (leBytes 1 role) ∧
          t.role p = { role := role } ∧ ∃ e, t.mg.audit = s.mg.audit ++ [e] ∧ e.kind = 7 ∧ e.path = p.idx) ∧
      (s.wantedResponse p key c role ≠ bytes32 resp →
        ∃ t, exec (.roleResponse h resp) s = .next t ∧ s.Replies t h.val rcInvalidInput [] ∧ (t.role p).role = 0 ∧ (t.role p).chal = none)) ∧
    ((s.role p).role ≠ 0 → s.auditFull = false →
      ∃ t, exec (.dropRole h) s = .next t ∧ s.Replies t h.val rcSuccess [] ∧ (t.role p).role = 0 ∧
        ∃ e, t.mg.audit = s.mg.audit ++ [e] ∧ e.kind = 8 ∧ e.role = (s.role p).role) ∧
    (s.auditFull = true →
      (∃ t, exec (.dropRole h) s = .next t ∧ s.Replies t h.val rcInvalidInput [] ∧ t.role p = s.role p) ∧
      ∀ resp, ∃ t, exec (.roleResponse h resp) s = .next t ∧ s.Replies t h.val rcInvalidInput [] ∧ t.role p = s.role p)

/-- Links: training starts within the wake budget with HP_n_CFG as it is then, or waits there; L0 shows the operating point, Recovery leaves it and
reports a correctable error, and link-down or PERST resets the function: no role, no HDM decoder, nothing in flight. Bus Master Enable and the HDM
decoders follow the host. -/
def Obligations.LinkEvents : Prop :=
  ∀ (h : Fin 4) (s : State), s.Inv →
    (s.linkUp h.val = false → (s.head h.val).training = false → s.mayTrain h.val = true → (WakeEv.link h.val) ∉ (s.mh (half4 h.val)).waiting →
      if s.wakeRoom (half4 h.val) = true ∧ (s.mh (half4 h.val)).waiting.filter s.wakeOk = [] then
        ∃ t, exec (.linkTraining h) s = .next t ∧ (t.head h.val).training = true ∧ (t.head h.val).perst = false ∧
          (t.head h.val).cfg = (s.word (0x300000 + 0x1000 * h.val)).toNat ∧ State.RegsBut s t []
      else
        ∃ t, exec (.linkTraining h) s = .next t ∧ (t.mh (half4 h.val)).waiting = (s.mh (half4 h.val)).waiting ++ [.link h.val] ∧
          (t.head h.val).training = false ∧ State.RegsBut s t [(F.DC_WAKE.WAITS (half4 h.val).idx).a]) ∧
    (∀ rate width flit68, (s.linkUp h.val = true ∧ s.rd (F.HP_n_LINK.RECOVERY h.val) = 1) ∨
        ((s.head h.val).training = true ∧ s.phyOn h.val = true ∧ (s.head h.val).perst = false) →
      s.operatingPoint h.val rate.val width.val flit68 = true →
      ∃ t, exec (.linkUp h rate width flit68) s = .next t ∧ t.rd (F.HP_n_LINK.UP h.val) = 1 ∧ t.rd (F.HP_n_LINK.RATE h.val) = rate.val ∧
        t.rd (F.HP_n_LINK.WIDTH h.val) = width.val ∧ t.rd (F.HP_n_LINK.FLIT256 h.val) = b2n (!flit68) ∧ t.rd (F.HP_n_LINK.RECOVERY h.val) = 0) ∧
    (s.linkUp h.val = true →
      (∃ t, exec (.linkRecovery ⟨h, none⟩) s = .next t ∧ t.rd (F.HP_n_LINK.RECOVERY h.val) = 1 ∧ t.rd (F.HP_n_LINK.UP h.val) = 1 ∧
        State.RegsBut s t [(F.HP_n_LINK.RECOVERY h.val).a] ∧ State.PartsBut s t []) ∧
      (∀ ras : BitVec 30, ∃ t, exec (.linkRecovery ⟨h, some ras⟩) s = .next t ∧ t.rd (F.HP_n_LINK.RECOVERY h.val) = 1 ∧ t.rd (F.HP_n_LINK.UP h.val) = 1 ∧
        (t.head h.val).ras = (s.head h.val).ras ||| ras.toNat ∧ t.Waits (half4 h.val) (0x054 + 8 * h.val) ∧
        State.RegsBut s t [(F.HP_n_LINK.RECOVERY h.val).a]) ∧
      (∀ w l i, i ∈ [Instr.linkDown h w l, .perstAssert h w l] →
        ∃ t, exec i s = .next t ∧ t.rd (F.HP_n_LINK.UP h.val) = 0 ∧ (t.role (.head h)).role = 0 ∧ (t.role (.head h)).chal = none ∧
          (t.head h.val).flight = [] ∧ (t.head h.val).bme = false ∧ (t.head h.val).hdm = Vector.replicate 4 {} ∧ t.Waits (half4 h.val) (0x050 + 8 * h.val) ∧
          (i = .perstAssert h w l → (t.head h.val).perst = true) ∧ s.CountsUp t (F.HP_n_LINK.DOWN_COUNT h.val)) ∧
      (∃ t, exec (.busMasterEnableSet h) s = .next t ∧ (t.head h.val).bme = true ∧ t.le = s.le ∧ State.RegsBut s t []) ∧
      ∀ (d : Fin 4) p,
        let base := (s.head h.val).dpaBase d.val p
        let ok := (s.head h.val).inOrder d.val && s.hdmFits base p
        ∃ t, exec (.hdmDecoderCommit h d p) s = .next t ∧ (t.head h.val).hdm[d] = ⟨ok, !ok, base, p⟩ ∧
        (t.rd (F.HP_n_MEDIA.HDM_COMMITTED h.val)).testBit d.val = ok ∧ State.RegsBut s t [(F.HP_n_MEDIA.HDM_COMMITTED h.val).a]) ∧
    ((s.head h.val).bme = true →
      ∃ t, exec (.busMasterEnableClear h) s = .next t ∧ (t.head h.val).bme = false ∧
        ∀ r, s.ringHead r = some h.val → (t.ring r).armed = false)

/-! Rings and lamp engines -/

/-- Ring descriptors, written by the head that the ring's stream names (before any Last is in force by every head; a head that takes a ring over finds
it disarmed and clear, log entry 183): a word is taken while the ring is disarmed and refused while it is armed; ARM with fields that meet every
requirement, and DISARM, wait for the chunk boundary, where they take effect (an ARM only while Bus Master Enable is set); CONSUMED is taken unless it
names bytes never written. A head that is not the ring's own is refused. -/
def Obligations.RingDescriptors : Prop :=
  ∀ (h : Fin 4) (r : Fin 512) (s : State), s.Inv →
    let x := (s.ring r.val).own h.val
    (s.OwnRing h.val r.val →
      (∀ w (v : Word), ∃ t, exec (.ringDescriptorWrite h r w v) s = .next t ∧ (∀ q, q ≠ r.val → t.ring q = s.ring q) ∧ State.RegsBut s t [] ∧
        (x.armed = false → t.ring r.val = { x with desc := x.desc.put w v.toNat }) ∧
        (x.armed = true → t.ring r.val = x ∧ t.Waits (half4 h.val) 0x043)) ∧
      (∀ log2 : BitVec 5,
        let d : RingDesc := { x.desc with log2 := if x.armed then x.desc.log2 else log2.toNat, arm := true }
        ∃ t, exec (.arm h r log2) s = .next t ∧ (∀ q, q ≠ r.val → t.ring q = s.ring q) ∧ State.RegsBut s t [] ∧
          (d.armable (s.stream r.val) = true → (s.head h.val).bme = true → t.ring r.val = { x with desc := d, wait := some (some d) }) ∧
          (d.armable (s.stream r.val) = true → (s.head h.val).bme = false → t.ring r.val = { x with desc := d }) ∧
          (d.armable (s.stream r.val) = false → t.ring r.val = x ∧ t.Waits (half4 h.val) 0x043)) ∧
      (∀ log2 : BitVec 5, ∃ t, exec (.disarm h r log2) s = .next t ∧ (∀ q, q ≠ r.val → t.ring q = s.ring q) ∧ State.RegsBut s t [] ∧
        t.ring r.val = (if x.armed then { x with wait := some none, desc := { x.desc with arm := false } }
          else { x with wait := none, desc := { x.desc with log2 := log2.toNat, arm := false } })) ∧
      ∀ v : Word,
        let used := (x.tail + 2 ^ 32 - v.toNat) % 2 ^ 32
        ∃ t, exec (.consumedWrite h r v) s = .next t ∧ (∀ q, q ≠ r.val → t.ring q = s.ring q) ∧ State.RegsBut s t [] ∧
          ((x.armed = false ∨ (used ≤ 2 ^ x.inForce.log2 ∧ used % 64 = 0)) → t.ring r.val = { x with consumed := v.toNat }) ∧
          (x.armed = true → (2 ^ x.inForce.log2 < used ∨ used % 64 ≠ 0) → t.ring r.val = x ∧ t.Waits (half4 h.val) 0x043)) ∧
    (s.takesPosted h.val = true → ¬ s.OwnRing h.val r.val →
      ∀ i, (∃ w v, i = .ringDescriptorWrite h r w v) ∨ (∃ k, i = .arm h r k) ∨ (∃ k, i = .disarm h r k) ∨ (∃ v, i = .consumedWrite h r v) →
        ∃ t, exec i s = .next t ∧ t.le = s.le ∧ t.Waits (half4 h.val) 0x043 ∧ State.RegsBut s t []) ∧
    let y := s.ring r.val
    (∀ d, y.wait = some (some d) →
      ∃ t, exec (.armEffect r) s = .next t ∧ (∀ q, q ≠ r.val → t.ring q = s.ring q) ∧ State.RegsBut s t [] ∧
        t.ring r.val = if y.owner.all fun o => (s.head o).bme then
            { y with armed := true, wait := none, inForce := d, tail := d.start, consumed := d.start, chunks := 0, skips := 0, skipping := false }
          else { y with wait := none }) ∧
    (y.wait = some none →
      ∃ t, exec (.armEffect r) s = .next t ∧ (t.ring r.val).armed = false ∧ (t.ring r.val).wait = none ∧ (t.ring r.val).queue = [] ∧
        ∀ q, q ≠ r.val → t.ring q = s.ring q) ∧
    (y.wait = none → exec (.armEffect r) s = .next s)

/-- The first record of a ring at its chunk boundary: one that cannot be delivered is skipped; with its ring armed, the link in L0 and room for it, it
is written and announced in the tail record; else it waits, or is skipped at once while the ring skips. After RING_WAIT without room, link or posted
credits it is skipped and counted, and the ring skips; so is one whose payload writes began and could not end. -/
def Obligations.ChunkDelivery : Prop :=
  ∀ (s : State) (r : Fin 512) (q : Rec) (rest : List Rec), (s.ring r.val).queue = q :: rest → s.Inv →
    let x := s.ring r.val
    let h := q.head
    let ready := s.inL0 h && x.fits q.bytes.length
    let n := (if x.gap then withGap q.bytes else q.bytes).length
    (x.wait = none → s.undeliverable r.val h q = false →
      (ready = true →
        ∃ t, exec (.chunkRecordWrite r) s = .next t ∧ (t.ring r.val).queue = rest ∧ (t.ring r.val).tail = (x.tail + n) % 2 ^ 32 ∧
          (t.ring r.val).chunks = (x.chunks + 1) % 2 ^ 32 ∧ (t.ring r.val).skips = x.skips ∧ (t.ring r.val).gap = false ∧
          (t.ring r.val).skipping = false ∧ (t.ring r.val).next = some (q.frame, q.chunk + 1) ∧
          Out.post h x.inForce.tail (leBytes 4 ((x.tail + n) % 2 ^ 32) ++ leBytes 4 ((x.chunks + 1) % 2 ^ 32) ++ leBytes 4 x.skips ++ leBytes 4 q.frame) 0
            false false false ∈ t.out ∧
          ∀ k, k ≠ r.val → t.ring k = s.ring k) ∧
      (ready = false → x.skipping = false →
        ∃ t, exec (.chunkRecordWrite r) s = .next t ∧ t.ring r.val = { x with queue := { q with since := some (q.since.getD s.now) } :: rest } ∧
          (∀ k, k ≠ r.val → t.ring k = s.ring k) ∧ t.out = s.out ∧ State.RegsBut s t [])) ∧
    (∀ i, (i = .chunkRecordWrite r ∧ x.wait = none ∧ (s.undeliverable r.val h q = true ∨ (ready = false ∧ x.skipping = true))) ∨
        (s.undeliverable r.val h q = false ∧ ((∃ c, i = .chunkSkip ⟨r, c⟩ ∧ (c = true ∨ (q.since.isSome = true ∧ ready = false))) ∨
          (i = .recordAbandon r ∧ x.fits q.bytes.length = true))) →
      ∃ t, exec i s = .next t ∧ (t.ring r.val).queue = rest ∧ (t.ring r.val).skips = (x.skips + 1) % 2 ^ 32 ∧ (t.ring r.val).gap = true ∧
        (t.ring r.val).tail = x.tail ∧ (t.ring r.val).next = some (q.frame, q.chunk + 1) ∧ s.CountsUp t (F.LE_RING_SKIP_n.SKIPS r.val) ∧
        (t.ring r.val).skipping = (if i = .chunkRecordWrite r then x.skipping else true) ∧ ∀ k, k ≠ r.val → t.ring k = s.ring k)

/-- An engine opens the next stream of its plan, stages a chunk whose inputs have arrived, and enters and leaves panic. -/
def Obligations.EnginesCompute : Prop :=
  ∀ (e : Fin 16) (s : State), s.Inv →
    let g := s.eng e.val
    (s.computes e.val = true → g.cur = none → g.opened.length < 8 → ∀ r rest, g.plan = r :: rest → ∀ st, s.stream r = some st →
      s.startChunk r (s.frameCount (engHalf e.val)) < st.chunks →
      ∃ t, exec (.streamOpen e) s = .next t ∧ (t.eng e.val).cur = some (r, s.startChunk r (s.frameCount (engHalf e.val))) ∧
        (t.eng e.val).plan = rest ∧ r ∈ (t.eng e.val).opened ∧ t.le.rings = s.le.rings) ∧
    (s.computes e.val = true → ∀ r c, g.cur = some (r, c) → ∀ st, s.stream r = some st → ∀ k, (s.schedOf (engHalf e.val)).src st.src = some k →
      ∀ m, (s.schedOf (engHalf e.val)).modeOf k = some m → ∀ errs, s.shareUsed e.val r + recordBytes st.format (st.count c) ≤ st.share * 1024 →
      let x := s.lampIn e.val st k errs
      (x.needs m (c * st.chunkLamps) (st.count c)).1.isEmpty = true → (x.needs m (c * st.chunkLamps) (st.count c)).2.isEmpty = true →
      ∃ t, exec (.chunkStaged e errs) s = .next t ∧
        (t.ring st.stream).queue = (s.ring st.stream).queue ++
          [⟨e.val, st.head, x.fc, c, (s.computeChunk x c (s.asSeen (engHalf e.val)).stamp).1, false, c + 1 == st.chunks, none⟩] ∧
        (t.eng e.val).cur = (if c + 1 < st.chunks then some (st.stream, c + 1) else none) ∧ (t.eng e.val).lamps = g.lamps + st.count c ∧
        ∀ j, j ≠ st.stream → t.ring j = s.ring j) ∧
    (∀ level, g.fenced = false → g.panicAt = none → g.panicBar = false → s.rd (F.LE_n_STATUS.STATE e.val) = 1 → s.inProduction (engHalf e.val) = true →
      0 < s.rd F.LE_PANIC_CFG.PANIC_MAX → level < s.rd F.LE_PANIC_CFG.PANIC_LO →
      ∃ t, exec (.panicAssert e level) s = .next t ∧ (t.eng e.val).panicAt = some s.now ∧ t.rd (F.LE_n_STATUS.PANIC e.val) = 1 ∧
        State.RegsBut s t [(F.LE_n_STATUS.PANIC e.val).a]) ∧
    (∀ t0, g.panicAt = some t0 →
      (∀ level, s.panicHi ≤ level →
        ∃ t, exec (.panicRelease e level) s = .next t ∧ (t.eng e.val).panicAt = none ∧ (t.eng e.val).panicBar = g.panicBar ∧
          t.rd (F.LE_n_STATUS.PANIC e.val) = 0) ∧
      ∃ t, exec (.panicMaxExpiry e) s = .next t ∧ (t.eng e.val).panicAt = none ∧ (t.eng e.val).panicBar = true ∧ t.rd (F.LE_n_STATUS.PANIC e.val) = 0)

/-- An engine that waits for the wake budget starts; a fence by register or by self-check stops it with its cause and an event; ENABLE of a fenced one
waits for stitch 0. -/
def Obligations.EnginesFenced : Prop :=
  ∀ (e : Fin 16) (s : State), s.Inv →
    (nextWake ((s.mh (engHalf e.val)).waiting.filter s.wakeOk) = some (.engine e.val) → s.wakeRoom (engHalf e.val) = true →
      ∃ t, exec (.engineStart e) s = .next t ∧ (t.eng e.val).waiting = false ∧ t.rd (F.LE_n_STATUS.STATE e.val) = 1 ∧
        State.RegsBut s t [(F.LE_n_STATUS.STATE e.val).a]) ∧
    ((s.eng e.val).fenced = false →
      (∀ p, s.writable p (0x71000 + 0x800 * e.val) = true →
        ∃ t, exec (.fence p e) s = .next t ∧ (t.eng e.val).fenced = true ∧ t.rd (F.LE_n_STATUS.CAUSE e.val) = 1 ∧
          t.rd (F.LE_n_STATUS.STATE e.val) = 3 ∧ t.Waits (engHalf e.val) (0x030 + e.val)) ∧
      ∃ t, exec (.engineSelfCheckFail e) s = .next t ∧ (t.eng e.val).fenced = true ∧ t.rd (F.LE_n_STATUS.CAUSE e.val) = 2 ∧
        t.rd (F.LE_n_STATUS.STATE e.val) = 3 ∧ t.Waits (engHalf e.val) (0x030 + e.val)) ∧
    ∀ p, s.writable p (0x71000 + 0x800 * e.val) = true → (s.eng e.val).fenced = true → (s.wh (engHalf e.val)).fenced = false →
      ∃ t, exec (.enable p e) s = .next t ∧ (t.eng e.val).enable = true ∧ (t.eng e.val).fenced = true ∧ t.rd (F.LE_n_CTRL.ENABLE e.val) = 1

/-! DRAM -/

/-- VISIT: what waits takes its places, then one visit is issued: of a replay that runs its next burst, the last one ending it; else the pick of Table
DC-2, a read whose bursts are then on their way, or a write that stores its lines and no others; then what waited is served. Bulk reads are promoted
by age to their place in the Frame queue; refresh steps through the banks of a rank, and so does the keeper, in the fatal state also for a rank whose
command path failed; MR4 polls steer the refresh rate. -/
def Obligations.DramVisits : Prop :=
  ∀ (n : Fin 16) (s : State), s.Inv →
    let v := s.settle n.val
    let u := v.sub n.val
    (v.issues n.val = false → exec (.visit n) s = .next v.serveAllHeld.copiesOn) ∧
    (v.issues n.val = true →
      (u.replaying = true → ∀ b, u.retry[u.replayAt]? = some b →
        ∃ x : State, exec (.visit n) s = .next x.serveAllHeld.copiesOn ∧
          (if u.replayAt + 1 < u.retry.length then (x.sub n.val).replaying = true ∧ (x.sub n.val).replayAt = u.replayAt + 1
            else (x.sub n.val).replaying = false ∧ (x.sub n.val).replayNo = 0 ∧ (x.sub n.val).replayAt = 0) ∧
          (x.sub n.val).retry = u.retry ∧ (x.sub n.val).writeQ = u.writeQ ∧ (∀ k, k / 128 ≠ n.val * 2 ^ 32 + b.line → x.cell k = s.cell k) ∧
          ∀ i, i < 80 → x.cell (symKey n.val b.line i) = BitVec.ofNat 8 ((rsEncode (bytesOfLine b.data) u.sealKey b.poison).getD i 0)) ∧
      (u.replaying = false → v.pickVisit n.val = none →
        exec (.visit n) s = .next (v.modSub n.val fun u => { u with run := 0 }).serveAllHeld.copiesOn) ∧
      (∀ i (bulk : Bool), u.replaying = false → v.pickVisit n.val = some (if bulk then .bulk i else .frame i) →
        ∀ e, (if bulk then u.bulkQ[i]? else u.frameQ[i]?) = some e →
        ∃ x : State, exec (.visit n) s = .next (x.settle n.val).serveAllHeld.copiesOn ∧ x.mem = s.mem ∧ (x.sub n.val).writeQ = u.writeQ ∧
          (x.sub n.val).run = 0 ∧ (x.sub n.val).frameQ = (if bulk then u.frameQ else u.frameQ.eraseIdx i) ∧
          (x.sub n.val).bulkQ = (if bulk then u.bulkQ.eraseIdx i else u.bulkQ) ∧
          (x.sub n.val).flight = u.flight ++ (e.lines.foldr insertLine []).map fun l => ⟨e.g * 4 + l.idx, l.dpa, l.readers⟩) ∧
      ∀ i, u.replaying = false → v.pickVisit n.val = some (.write i) → ∀ e, u.writeQ[i]? = some e →
        ∃ x : State, exec (.visit n) s = .next (x.settle n.val).serveAllHeld.copiesOn ∧ (x.sub n.val).writeQ = u.writeQ.eraseIdx i ∧
          (x.sub n.val).run = (if v.on (F.DC_n_STATUS.DRAIN n.val) then 0 else if u.run = 0 then 7 else u.run - 1) ∧
          (x.sub n.val).retry = u.retry ++ (e.lines.foldr insertWrite []).map (fun l => ⟨e.g * 4 + l.idx, l.data, l.poison, 0⟩) ∧
          (∀ k, (∀ l ∈ e.lines, k / 128 ≠ n.val * 2 ^ 32 + (e.g * 4 + l.idx)) → x.cell k = s.cell k) ∧
          ∀ l ∈ e.lines, (∀ l' ∈ e.lines, l'.idx = l.idx → l' = l) → ∀ i, i < 80 →
            x.cell (symKey n.val (e.g * 4 + l.idx) i) = BitVec.ofNat 8 ((rsEncode (bytesOfLine l.data) u.sealKey l.poison).getD i 0)) ∧
    let u := s.sub n.val
    (∀ e rest, u.bulkQ = e :: rest → s.runs n.val = true → u.frameQ.length < 64 →
      ∃ t, exec (.bulkAgePromotion n) s = .next t ∧ (t.sub n.val).bulkQ = rest ∧
        (t.sub n.val).frameQ = u.frameQ.filter (fun x => !decide (e.seq < x.seq)) ++ { e with aged := true } :: u.frameQ.filter (fun x => decide (e.seq < x.seq)) ∧
        s.CountsUp t (F.DC_n_AGE.PROMOTED n.val) ∧ State.RegsBut s t [(F.DC_n_AGE.PROMOTED n.val).a]) ∧
    (∀ r : Fin 2,
      let next := if u.refAb then 0 else (u.refPos[r] + 1) % 4
      (s.refreshes n.val r.val = true → u.alerting = false → u.replaying = false →
        ∃ t, exec (.refresh n r) s = .next t ∧ (t.sub n.val).refPos[r] = next ∧ t.mem = s.mem ∧
          (next = 0 → t.rd (F.DC_n_STATUS.HOT n.val) = b2n u.hotWant)) ∧
      ∀ failed, (s.refreshes n.val r.val = true ∨ (failed = true ∧ (s.fc (subHalf n.val)).fatal = true ∧ r.val < s.dm.ranks ∧ u.retired = false ∧
          s.rd (F.DC_n_STATUS.STATE n.val) ≠ 0)) →
        ∃ t, exec (.refreshKeeper n ⟨r, failed⟩) s = .next t ∧ (t.sub n.val).refPos[r] = next ∧ t.mem = s.mem ∧ s.CountsUp t (F.DC_n_REF.KEEPER n.val)) ∧
    ∀ codes above, s.runs n.val = true → (s.awake n.val).isEmpty = false →
      let top := codes.foldl (fun m c => max m c.val) 0
      ∃ t, exec (.mr4Poll n codes above) s = .next t ∧ t.rd (F.DC_n_REF.MR4_MAX n.val) = top ∧
        (t.sub n.val).hotWant = (decide (3 ≤ top) || (u.hotWant && decide (u.calm + 1 < 2))) ∧ State.RegsBut s t [(F.DC_n_REF.MR4_MAX n.val).a]

/-- Write CRC: a burst leaves the retry buffer after its window; an alert is reported and stops the controller until ALERT_n is released, which
replays; a replay that fails for the third time in a row leads to the verify state, where alerts are only reported and bursts are read back: rewritten
when corrected, rewritten and then stored as poison when uncorrectable. During the drain of shedding an alert is only counted. -/
def Obligations.WriteCrc : Prop :=
  ∀ (n : Fin 16) (s : State), s.Inv →
    let u := s.sub n.val
    (u.alerting = false → u.replaying = false → u.verify = false →
      ∃ t, exec (.alertWindowExpiry n) s = .next t ∧ (t.sub n.val).retry = u.retry.drop 1 ∧ t.mem = s.mem ∧ State.RegsBut s t []) ∧
    (s.canAlert n.val = true →
      (s.pwr.shed.isSome = true → u.retired = false →
        ∃ t, exec (.writeCrcAlert n) s = .next t ∧ t.dm = s.dm ∧ s.CountsUp t (F.DC_n_CRC.VERIFY_UNCOR n.val) ∧
          State.RegsBut s t [(F.DC_n_CRC.VERIFY_UNCOR n.val).a]) ∧
      (s.pwr.shed = none → s.runs n.val = true → u.alerting = false →
        (u.verify = true → ∃ t, exec (.writeCrcAlert n) s = .next t ∧ t.dm = s.dm ∧ t.Waits (subHalf n.val) (0x082 + 8 * n.val) ∧ State.RegsBut s t []) ∧
        (u.verify = false → u.replaying = false ∨ u.replayNo < 3 →
          ∃ t, exec (.writeCrcAlert n) s = .next t ∧ (t.sub n.val).alerting = true ∧ (t.sub n.val).replaying = false ∧ (t.sub n.val).retry = u.retry ∧
            (t.sub n.val).replayNo = (if u.replaying then u.replayNo else 0) ∧
            t.Waits (subHalf n.val) (0x082 + 8 * n.val) ∧ s.CountsUp t (F.DC_n_CRC.REPLAY_FAIL n.val) (b2n u.replaying) ∧
            State.RegsBut s t [(F.DC_n_CRC.REPLAY_FAIL n.val).a]) ∧
        (u.verify = false → u.replaying = true → 3 ≤ u.replayNo →
          ∃ t, exec (.writeCrcAlert n) s = .next t ∧ (t.sub n.val).verify = true ∧ (t.sub n.val).replaying = false ∧
            t.rd (F.DC_n_STATUS.VERIFY n.val) = 1 ∧ t.Waits (subHalf n.val) (0x082 + 8 * n.val) ∧ s.CountsUp t (F.DC_n_CRC.REPLAY_FAIL n.val)))) ∧
    (u.alerting = true →
      ∃ t, exec (.alertNRelease n) s = .next t ∧ (t.sub n.val).alerting = false ∧ (t.sub n.val).replaying = true ∧ (t.sub n.val).replayAt = 0 ∧
        (t.sub n.val).replayNo = u.replayNo + 1 ∧ s.CountsUp t (F.DC_n_CRC.ALERTS n.val) ∧ State.RegsBut s t [(F.DC_n_CRC.ALERTS n.val).a]) ∧
    ∀ err, u.verify = true → ∀ b rest, u.retry = b :: rest → s.bulkTurn n.val (b.line / 4) = true →
      let o := (s.disturb n.val b.line err).decodeLine n.val b.line
      let later := rest.any fun x => x.line == b.line
      ∃ t, exec (.verifyReadback n err) s = .next t ∧
        (t.sub n.val).retry = rest ++ (if later then [] else
          match o, b.tries with
          | .corrected d _ _, 0 => [{ b with data := d, poison := false, tries := 1 }]
          | .uncorrectable, 0 => [{ b with tries := 1 }]
          | .uncorrectable, 1 => [{ b with data := 0, poison := true, tries := 2 }]
          | _, _ => []) ∧
        (∀ k, k / 128 ≠ n.val * 2 ^ 32 + b.line → t.cell k = s.cell k) ∧
        (later = false → o = .uncorrectable → b.tries = 1 →
          s.CountsUp t (F.DC_n_CRC.VERIFY_UNCOR n.val) ∧ t.Waits (subHalf n.val) (0x081 + 8 * n.val) ∧
          ∀ i, i < 80 → t.cell (symKey n.val b.line i) = BitVec.ofNat 8 ((rsEncode (bytesOfLine 0) u.sealKey true).getD i 0))

/-- Timing sets: a maker's request waits, a set of the same rate becomes active at once, and another one through a change: offline, ramp, relock,
quick tracking; where that fails the change goes back, and a device that fails at both rates is marked. The credits that were withheld return when it
has ended. Archive ranks sleep when idle and wake for a request that is no background one; waiting wake events start within the budget. -/
def Obligations.TimingSets : Prop :=
  (∀ (n : Fin 16) (s : State), s.Inv →
    let u := s.sub n.val
    let h := subHalf n.val
    let active := s.rd (F.DC_n_STATUS.TS_ACTIVE n.val)
    (∀ p (v : Word) m, s.writable p (0x100000 + 0x1000 * n.val) = true → m < 2 → bits v.toNat 3 2 = m + 1 → (m = 0 → s.stepFor h < 3) →
      s.gone n.val = false →
      ∃ t, exec (.tsReqWrite p n v) s = .next t ∧
        (u.change.isSome = true → (t.sub n.val).want = some m ∧ t.rd (F.DC_n_CFG.TS_REQ n.val) = m + 1) ∧
        (u.change = none → active = m → (t.sub n.val).want = none ∧ t.rd (F.DC_n_STATUS.TS_PENDING n.val) = 0 ∧ t.rd (F.DC_n_CFG.TS_REQ n.val) = 0) ∧
        (u.change = none → active ≠ m → (t.sub n.val).want = some m ∧ t.rd (F.DC_n_STATUS.TS_PENDING n.val) = 1 ∧ t.rd (F.DC_n_CFG.TS_REQ n.val) = m + 1 ∧
          (s.rd (F.DC_n_TS_m_A.RATE 0 n.val) ≠ s.rd (F.DC_n_TS_m_A.RATE 1 n.val) → ∃ q ∈ t.dm.freqPend, q.sub = n.val))) ∧
    (∀ p (v : Word), s.writable p (0x100000 + 0x1000 * n.val) = true → bits v.toNat 3 2 = 0 ∨ bits v.toNat 3 2 = 3 →
      ∃ t, exec (.tsReqWrite p n v) s = .next t ∧ t.dm = s.dm ∧ t.rd (F.DC_n_CFG.TS_REQ n.val) = s.rd (F.DC_n_CFG.TS_REQ n.val)) ∧
    (∀ m, u.want = some m → m < 2 → s.runs n.val = true → s.rd (F.DC_n_TS_m_A.RATE 0 n.val) = s.rd (F.DC_n_TS_m_A.RATE 1 n.val) →
      ∃ t, exec (.tsSwitch n) s = .next t ∧ (t.sub n.val).want = none ∧ t.rd (F.DC_n_STATUS.TS_ACTIVE n.val) = m ∧
        t.rd (F.DC_n_STATUS.TS_PENDING n.val) = 0 ∧ t.rd (F.DC_n_CFG.TS_REQ n.val) = 0) ∧
    (∀ rampUs relockUs trackUs m, u.want = some m → s.changeDue n.val = true → s.mayGoOffline n.val = true → s.roomFor h 33 = true →
      ∃ t, exec (.frequencyChange n rampUs relockUs trackUs) s = .next t ∧ (t.sub n.val).change = some ⟨m, 0, [], rampUs + relockUs + trackUs, s.rd (F.CK_CH_n.Q n.val), s.now⟩ ∧
        (t.sub n.val).want = none ∧ t.dm.freqPend = s.dm.freqPend.filter (fun q => q.sub != n.val) ∧ (t.mh h).offline = (s.mh h).offline ++ [n.val] ∧
        (t.sub n.val).sr = s.rankMask ∧ t.rd (F.DC_n_STATUS.STATE n.val) = 2 ∧ t.rd (F.CK_CH_n.RAMPING n.val) = 1) ∧
    (∀ c, u.change = some c → c.phase = 0 ∨ c.phase = 2 → s.rd (F.CK_h_STATUS.MEM_HOLD h.idx) = 0 →
      ∃ t, exec (.rampEnd n) s = .next t ∧
        (t.sub n.val).change = (if s.stopping h = true ∨ s.gone n.val = true then none else some { c with phase := c.phase + 1 }) ∧
        t.rd (F.CK_CH_n.RAMPING n.val) = 0 ∧ t.rd (F.CK_CH_n.Q n.val) = s.rampTarget n.val c ∧ c.rampAt * 5 + s.rampLength n.val c * 48 ≤ t.now * 5 ∧
        (s.stopping h = false → s.gone n.val = false → t.rd (F.CK_DLL_n.STATE n.val) = 1) ∧ s.CountsUp t (F.CK_h_EVENTS.RAMPS h.idx)) ∧
    (s.rd (F.CK_DLL_n.STATE n.val) = 1 → ∀ quick,
      (u.change = none → ∃ t, exec (.dllLock ⟨n, quick⟩) s = .next t ∧ t.rd (F.CK_DLL_n.STATE n.val) = 2 ∧ State.RegsBut s t [(F.CK_DLL_n.STATE n.val).a]) ∧
      ∀ c, u.change = some c →
        (s.stopping h = true → ∃ t, exec (.dllLock ⟨n, quick⟩) s = .next t ∧ (t.sub n.val).change = none ∧ (t.sub n.val).sr = u.sr) ∧
        (s.stopping h = false → c.phase = 1 → c.target < 2 →
          (s.quickFails n.val c.target quick = [] →
            ∃ t, exec (.dllLock ⟨n, quick⟩) s = .next t ∧ (t.sub n.val).change = none ∧ t.rd (F.DC_n_STATUS.TS_ACTIVE n.val) = c.target ∧
              t.rd (F.DC_n_STATUS.STATE n.val) = 1 ∧ t.rd (F.CK_DLL_n.STATE n.val) = 2 ∧ t.rd (F.DC_n_FCHG.LAST_US n.val) = min c.us 255 ∧
              s.CountsUp t (F.DC_n_FCHG.CHANGES n.val)) ∧
          (s.quickFails n.val c.target quick ≠ [] →
            ∃ t, exec (.dllLock ⟨n, quick⟩) s = .next t ∧ t.rd (F.DC_n_STATUS.TS_ACTIVE n.val) = active ∧ t.rd (F.CK_CH_n.RAMPING n.val) = 1 ∧
              (t.sub n.val).change = some { c with phase := 2, failNew := s.quickFails n.val c.target quick, rampQ := s.rd (F.CK_CH_n.Q n.val), rampAt := s.now } ∧
              s.CountsUp t (F.DC_n_FCHG.FAILED n.val) ∧ t.Waits h (0x084 + 8 * n.val))) ∧
        (s.stopping h = false → c.phase = 3 → u.retired = false →
          ∃ t, exec (.dllLock ⟨n, quick⟩) s = .next t ∧ (t.sub n.val).change = none ∧ t.rd (F.DC_n_STATUS.TS_ACTIVE n.val) = active ∧
            ∀ m, m ∈ (t.sub n.val).marks ↔ m ∈ u.marks ∨ (m ∈ c.failNew ∧ m ∈ s.quickFails n.val active quick))) ∧
    (∀ k, k = s.leader ∨ s.split = true → s.heldFor k = true → s.changing k = false → (∀ i, i < 4 → (s.head i).held = []) →
      ∃ t, exec .frequencyChangeDone s = .next t ∧ (t.mh k).hold = false ∧
        ∀ i t0, i < 4 → half4 i ∈ s.halvesOf k → (s.head i).withheld = some t0 → (s.head i).flight.length < 1024 →
          (t.head i).withheld = none ∧ (t.head i).released = some s.now ∧
          s.CountsUp t (F.HP_n_CREDIT.WITHHELD i) ((s.schedOf (half4 i)).stitches (s.now - t0) + 1))) ∧
  (∀ (n : Fin 16) (h : Half) (s : State), s.Inv →
    (s.dm.ranks = 2 → s.on (F.DC_n_CFG.ARCH_SLEEP_EN n.val) = true → s.issues n.val = true → (s.sub n.val).sr.getLsbD 1 = false →
      s.archiveOnly n.val = true → s.rank1Waits n.val = false →
      ∃ t, exec (.archiveSleep n) s = .next t ∧ (t.sub n.val).sr = (s.sub n.val).sr ||| 2 ∧ t.rd (F.DC_n_STATUS.RANK1_ASLEEP n.val) = 1 ∧
        State.RegsBut s t [(F.DC_n_STATUS.RANK1_ASLEEP n.val).a]) ∧
    (s.on (F.DC_n_STATUS.RANK1_ASLEEP n.val) = true → s.rank1Asked n.val = true → s.issues n.val = true →
      ∃ t, exec (.archiveWake n) s = .next t ∧ (t.sub n.val).sr = (s.sub n.val).sr &&& 1 ∧ (t.sub n.val).refPos[1] = 0 ∧
        t.rd (F.DC_n_STATUS.RANK1_ASLEEP n.val) = 0 ∧ WakeEv.archive n.val ∉ (t.mh (subHalf n.val)).waiting ∧
        (t.mh (subHalf n.val)).wakes = s.now :: s.recentWakes (subHalf n.val) ∧ State.RegsBut s t [(F.DC_n_STATUS.RANK1_ASLEEP n.val).a]) ∧
    ∀ e, nextWake ((s.mh h).waiting.filter s.wakeOk) = some e → s.wakeRoom h = true →
      ∃ t, exec (.wakeEventStart h) s = .next t ∧ (t.mh h).waiting = (s.mh h).waiting.filter (· != e) ∧
        (t.mh h).wakes = s.now :: s.recentWakes h)

/-- Start-up training decides a subchannel's state, and a device keeps the settings it found at every rate or is marked; a failed ZQ calibration
retires the half. Tracking runs on an awake rank in the production window: a device's write delay follows its drift, unless that is a jump. A step
whose devices all found a setting is booked, gives them these settings, leaves the marks as they are and is done; a device that found none is marked;
a step that is cut off takes the window's turn and stays pending. Maker writes of DI_n_CTRL, a DLL that loses lock and its relock step, and a granule
of a rebuild: the last one ends it, and the subchannel is remapped. -/
def Obligations.Training : Prop :=
  (∀ (n : Fin 16) (s : State), s.Inv →
    (∀ lanes0 lanes1 ca0 ca1, s.rd (F.DI_n_STATUS.STATE n.val) = 1 →
      (∃ t, exec (.trainingDone n lanes0 lanes1 ca0 ca1 true true) s = .next t ∧ (t.sub n.val).trained = true ∧
        (t.sub n.val).sets.map (·.rate) = s.trainedRates n.val ∧ t.rd (F.DI_n_STATUS.STATE n.val) ≠ 1 ∧
        ∀ m, m < 20 → m < 10 * s.dm.ranks → m ∉ (s.health n.val).marks →
          match s.trainDevice n.val (lanes0 ++ lanes1) m with
          | some l => ∀ (i : Nat) d, l[i]? = some d → (((t.sub n.val).sets[i]?).bind fun (q : RateSet) => q.devs[m]?) = some d
          | none => m ∈ (t.sub n.val).marks) ∧
      ∀ zq0 zq1, (zq0 && zq1) = false → ∃ t, exec (.trainingDone n lanes0 lanes1 ca0 ca1 zq0 zq1) s = .next t ∧ ∀ k ∈ halfSubs (subHalf n.val), (t.sub k).retired = true) ∧
    (∀ (r : Fin 2) counts, s.tracks (subHalf n.val) = true → s.online n.val = true → r.val ∈ s.awake n.val →
      ∃ t, exec (.trackingMeasurement n r counts) s = .next t ∧ s.CountsUp t (F.DI_n_TRACK.RUNS n.val) ∧ t.mem = s.mem ∧
        (t.sub n.val).marks = (s.sub n.val).marks ∧
        ((counts.map (·.1)).Nodup → ∀ c ∈ counts,
          let m := 10 * r.val + c.1.val
          let d := s.devSet n.val (s.rateOf n.val) m
          let drift := driftOf d.base c.2
          m ∉ (s.sub n.val).marks → m < (s.rateSet n.val (s.rateOf n.val)).devs.length →
            t.devSet n.val (s.rateOf n.val) m =
              if s.rd (F.DI_n_LIMITS.TRACK_JUMP n.val) < drift.natAbs then d else { d with wr := movedDelay d.wr drift, adj := d.adj + drift })) ∧
    ∀ lanes us granule cut i kind,
      (i, kind) ∈ [(Instr.readStep n lanes ⟨us, cut⟩, 1), (.writeStep n lanes ⟨us, granule, cut⟩, 2), (.vrefStep n lanes ⟨us, cut⟩, 3),
        (.checkStep n lanes ⟨us, granule, cut⟩, 4)] →
      ∀ q, s.stepReady kind n.val = some q →
      let devs := if kind = 4 then ((s.awake n.val).map fun r => s.rankDevs n.val r).flatten else s.rankDevs n.val q.rank
      let good := fun m =>
        if kind = 1 then (s.readSweep n.val lanes m).isSome
        else if kind = 3 then (s.codeSweep n.val lanes m).isSome
        else (decide (kind = 4) && s.checkPasses n.val lanes m) || (s.writeSweep n.val lanes m).isSome
      let found := fun m => if kind = 1 then (s.readSweep n.val lanes m).map (·.1) else if kind = 3 then s.codeSweep n.val lanes m
        else (s.writeSweep n.val lanes m).map (·.1)
      ∃ t, exec i s = .next t ∧ n.val ∈ (t.mh (subHalf n.val)).offline ∧
        (cut = true → q ∈ t.dm.steps ∧ (t.sub n.val).marks = (s.sub n.val).marks ∧ t.rd (F.DI_n_RETRAIN.STEPS n.val) = s.rd (F.DI_n_RETRAIN.STEPS n.val)) ∧
        (cut = false → q ∉ t.dm.steps ∧ s.CountsUp t (F.DI_n_RETRAIN.STEPS n.val) ∧ t.rd (F.DI_n_RETRAIN.LAST_KIND n.val) = kind ∧
          t.rd (F.DI_n_RETRAIN.LAST_US n.val) = min us 255 ∧ (∀ m ∈ devs, good m = false → m ∈ (t.sub n.val).marks) ∧
          ((∀ m ∈ devs, good m = true) → (t.sub n.val).marks = (s.sub n.val).marks ∧ (kind = 4 → t.Waits (subHalf n.val) (0x084 + 8 * n.val)) ∧
            (kind < 4 → ∀ m ∈ devs, m < (s.rateSet n.val (s.rateOf n.val)).devs.length → some (t.devSet n.val (s.rateOf n.val) m) = found m)) ∧
          (kind = 4 → (t.sub n.val).verify = false ∧ t.rd (F.DC_n_STATUS.VERIFY n.val) = 0))) ∧
  (∀ (n : Fin 16) (s : State), s.Inv →
    (∀ p, s.writable p (0x200000 + 0x1000 * n.val) = true →
      (s.gone n.val = false → ∃ t, exec (.retire p n) s = .next t ∧ (t.sub n.val).retireDue = true ∧ (t.sub n.val).retired = false) ∧
      (s.runs n.val = true → ∃ t, exec (.retrain p n) s = .next t ∧
        ∀ r ∈ s.awake n.val, ∀ k, k = 1 ∨ k = 2 → ∃ q ∈ t.dm.steps, q.kind = k ∧ q.sub = n.val ∧ q.rank = r) ∧
      ∃ t, exec (.clearMarks p n) s = .next t ∧ t.rd (F.DI_n_CTRL.CLEAR_MARKS n.val) = 1 ∧ t.dm = s.dm) ∧
    (s.rd (F.CK_DLL_n.STATE n.val) = 2 →
      ∃ t, exec (.dllLockLost n) s = .next t ∧ t.rd (F.CK_DLL_n.STATE n.val) = 3 ∧ s.CountsUp t (F.CK_DLL_n.COASTS n.val) ∧
        t.Waits (subHalf n.val) (0x083 + 8 * n.val) ∧ (s.gone n.val = false → ∃ q ∈ t.dm.steps, q.kind = 5 ∧ q.sub = n.val ∧ q.rank = 0)) ∧
    (∀ q quick, s.stepReady 5 n.val = some q →
      (∃ t, exec (.dllRelockStep n ⟨true, quick⟩) s = .next t ∧ t.rd (F.CK_DLL_n.STATE n.val) = 2 ∧ s.CountsUp t (F.CK_DLL_n.RELOCKS n.val) ∧
        q ∉ t.dm.steps ∧ n.val ∈ (t.mh (subHalf n.val)).offline) ∧
      ∃ t, exec (.dllRelockStep n ⟨false, quick⟩) s = .next t ∧ (t.sub n.val).retired = true ∧ t.Waits (subHalf n.val) (0x085 + 8 * n.val)) ∧
    ∀ h r, (s.mh h).rebuild = some r → s.rebuildReady h r = true →
      ∃ t, exec (.rebuildGranule h) s = .next t ∧ t.mem = s.mem ∧
        (r.cursor + 1 < s.granules h → (t.mh h).rebuild = some { r with cursor := r.cursor + 1, front := r.front.filter (· != r.cursor) } ∧
          t.rd (F.DI_n_REBUILD.CURSOR r.sub) = (r.cursor + 1) / 65536 % 2 ^ 14) ∧
        (s.granules h ≤ r.cursor + 1 → h = subHalf r.sub → r.sub < 16 → (t.mh h).rebuild = none ∧ (t.mh h).spare = some r.sub ∧
          t.rd (F.DI_n_STATUS.REBUILDING r.sub) = 0 ∧ t.rd (F.DI_n_REBUILD.STATE r.sub) = (if r.loss then 3 else 2)))

/-- FILL_DONE ends the fill of each half where one runs and makes its media ready. REGION_FILL_DONE waits for what the fill cannot write yet, a
sleeping rank being woken; else its region is filled on the half and the lines it filled leave the poison list. FAST_CLOSE closes the fast-start
window of every subchannel. A scrub pass starts unless one runs or its range is beyond the capacity, aborts, shows as paused while its steps are held,
and takes a step in a maintenance window; it ends when no line is left on either half and every read has come back. -/
def Obligations.MemoryIntegrity : Prop :=
  ∀ (h : Half) (s : State), s.Inv →
    (s.rd (fillFld h) = 1 → s.stopping h = false →
      ∃ t, exec .fillDone s = .next t ∧ t.rd (fillFld h) ∈ [2, 3] ∧
        ∀ n ∈ halfHeads h, t.rd (F.HP_n_MEDIA.MEDIA_STATUS n) = 1 ∧ t.rd (F.HP_n_MEDIA.MEM_ACTIVE n) = 1) ∧
    (∀ f, (s.schedOf h).filling.find? (·.on h) = some f → s.stopping h = false → ∀ r, (s.schedOf h).map.regions[f.region]? = some r →
      let w := s.fillWakes h r
      if w.fillWaits h r then exec (.regionFillDone h) s = .next w ∧ w.mem = s.mem ∧ (w.schedOf h).filling = (s.schedOf h).filling
      else ∃ t, exec (.regionFillDone h) s = .next t ∧ (∀ g ∈ (t.schedOf h).filling, g.region = f.region → g.on h = false) ∧
        ∀ p, p ∈ t.dm.poison ↔ p ∈ s.dm.poison ∧
          (match s.locate h (p.1 * 64) with | some (k, _, n, _) => ¬ (k = f.region ∧ subHalf n = h) | none => True)) ∧
    (∀ p, s.writable p 0xA0001 = true →
      ∃ t, exec (.fastClose p) s = .next t ∧ (∀ n, n < 16 → (t.sub n).fast = false) ∧ t.rd F.MI_STATUS.FAST_OPEN = 0 ∧
        t.rd F.MI_CFG.FAST_START = s.rd F.MI_CFG.FAST_START) ∧
    (∀ p, s.writable p 0xA0014 = true →
      let st := s.rd F.MI_SCRUB_STATUS.STATE
      let r := s.scrubRange
      (∃ t, exec (.scrubStart p) s = .next t ∧ t.rd F.MI_SCRUB_CTRL.STEP_LINES = s.rd F.MI_SCRUB_CTRL.STEP_LINES ∧
        (st = 1 → t.rd F.MI_SCRUB_STATUS.STATE = st ∧ t.rd F.MI_SCRUB_STATUS.RESULT = 1) ∧
        (st ≠ 1 → s.capacity * 2 ^ 22 < r.1 + r.2 → t.rd F.MI_SCRUB_STATUS.STATE = st ∧ t.rd F.MI_SCRUB_STATUS.RESULT = 2) ∧
        (st ≠ 1 → r.1 + r.2 ≤ s.capacity * 2 ^ 22 →
          t.rd F.MI_SCRUB_STATUS.STATE = (if r.2 = 0 then 3 else 1) ∧ t.rd F.MI_SCRUB_STATUS.RESULT = 0 ∧
          (t.mh h).scrubAt = r.1 ∧ (t.mh h).scrubLeft = r.2 ∧ t.dm.hist = [] ∧ t.dm.scrubLines = 0 ∧ t.dm.scrubFirst = none ∧ t.dm.scrubLast = none ∧
          t.rd F.MI_SCRUB_CORR.CORRECTED = 0 ∧ t.rd F.MI_SCRUB_UNCOR.UNCOR = 0 ∧ t.rd F.MI_SCRUB_POISON.POISON = 0 ∧ t.rd F.MI_SCRUB_SKIP.SKIPPED = 0)) ∧
      (st = 1 →
        ∃ t, exec (.scrubAbort p) s = .next t ∧ t.rd F.MI_SCRUB_STATUS.STATE = 3 ∧ t.rd F.MI_SCRUB_STATUS.RESULT = 3 ∧ (t.mh h).scrubLeft = 0)) ∧
    (∀ p, s.rd F.MI_SCRUB_STATUS.STATE = 1 → s.viewReg p F.MI_SCRUB_STATUS.STATE.a / 2 ^ 30 = if s.scrubPaused (s.pathHalf p) then 2 else 1) ∧
    ∀ us, s.rd F.MI_SCRUB_STATUS.STATE = 1 → s.maintenance h = true → (s.mh h).stepped = false → s.stepFor h < 2 → s.stopping h = false →
      s.rd F.PS_STATUS.PFW = 0 → s.roomFor h us = true →
      ∃ t, exec (.scrubStep ⟨h, us⟩) s = .next t ∧ (t.mh h).stepped = true ∧ (t.mh h).scrubLeft ≤ (s.mh h).scrubLeft ∧
        (t.mh h).scrubAt + (t.mh h).scrubLeft = (s.mh h).scrubAt + (s.mh h).scrubLeft ∧
        ((t.mh .a).scrubLeft = 0 → (t.mh .b).scrubLeft = 0 → t.dm.scrubOut = 0 →
          t.rd F.MI_SCRUB_STATUS.STATE = 3 ∧ t.rd F.MI_SCRUB_STATUS.RESULT = 0)

/-! Halves, clocks, time, heat and Selvedge -/

/-- The Welt and the heel line: a loss leads to split mode with an event on each half, replays and repairs are counted, and retraining, rejoining and
heel frames act as they say; the follower takes over when the leader fails, and of two claims half B's drops. -/
def Obligations.WeltEvents : Prop :=
  ∀ s : State, s.Inv →
    (s.wl.up = true →
      (∀ cause, ∃ t, exec (.weltLost cause) s = .next t ∧ t.wl.up = false ∧ t.split = true ∧ s.CountsUp t F.WL_LINK_CNT.LOSSES ∧ t.Waits .a 0x100 ∧
        t.Waits .b 0x100) ∧
      ∀ d : Option Half,
        let fixed := match d with | some h => decide (72 < s.rd (lanesFrom h)) | none => false
        ∃ t, exec (.flitReplay d) s = .next t ∧ s.CountsUp t F.WL_LINK_CNT.REPLAYS ∧ t.Waits s.leader 0x101 ∧
          s.CountsUp t F.WL_LINK_CNT.LANE_REPAIRS (b2n fixed) ∧
          ∀ h, t.rd (lanesFrom h) = if d = some h ∧ fixed = true then s.rd (lanesFrom h) - 1 else s.rd (lanesFrom h)) ∧
    (∀ deadAB deadBA : Fin 5,
      exec (.weltRetrain ⟨false, deadAB, deadBA⟩) s = .next s ∧
      (s.wl.up = false → s.coreUp .a = true → s.coreUp .b = true → s.on (F.CK_h_STATUS.CORE_LOCK 0) = true → s.on (F.CK_h_STATUS.CORE_LOCK 1) = true →
        ∃ t, exec (.weltRetrain ⟨true, deadAB, deadBA⟩) s = .next t ∧ t.wl.up = true ∧ t.wl.upSince = s.now ∧ t.split = s.split ∧
          t.rd F.WL_STATUS.LANES_AB = 76 - deadAB.val ∧ t.rd F.WL_STATUS.LANES_BA = 76 - deadBA.val ∧
          t.rd F.WL_LINK_CNT.LANE_REPAIRS = deadAB.val + deadBA.val ∧ (s.split = false → t.rd F.WL_STATUS.STATE = 1))) ∧
    (∀ far, s.rejoinAllowed = true → s.sched2 = some far →
      ∃ t, exec .rejoin s = .next t ∧ t.split = false ∧ t.rd F.WL_STATUS.STATE = 1 ∧ s.CountsUp t F.WL_SPLIT.REJOINS ∧ t.wl.rejoinWanted = false ∧
        t.wl.tookOver = false ∧ t.sched2 = none ∧ t.tb2 = none ∧ t.rd F.WL_SPLIT.HOLD = 0 ∧ (t.wh .a).hold = [] ∧ (t.wh .b).hold = []) ∧
    (∀ p, s.writable p 0x380001 = true →
      (∃ t, exec (.rejoinWrite p) s = .next t ∧ t.wl.rejoinWanted = true ∧ t.rd F.WL_CTRL.AUTO_REJOIN = s.rd F.WL_CTRL.AUTO_REJOIN) ∧
      (s.halfFenced .a = false → s.halfFenced .b = false →
        (∃ t, exec (.wlFence p true false) s = .next t ∧ (t.wh .a).fencePending = true ∧ t.wh .b = s.wh .b ∧ t.rd F.WL_CTRL.FENCE_A = 1) ∧
        (∃ t, exec (.wlFence p false true) s = .next t ∧ (t.wh .b).fencePending = true ∧ t.wh .a = s.wh .a ∧ t.rd F.WL_CTRL.FENCE_B = 1) ∧
        ∃ t, exec (.wlFence p true true) s = .next t ∧ t.wl = s.wl ∧ t.Waits s.leader 0x105)) ∧
    (∀ h, s.pwr.aux = true →
      (∃ t, exec (.heelFrameSend h) s = .next t ∧ (∃ x : Word, t.out = s.out ++ [.heel h x] ∧ crc8 ((leBytes 3 x.toNat).reverse) = x.toNat / 2 ^ 24 ∧ bits x.toNat 23 16 = ((s.wh h).heelSeq + 1) % 256) ∧
        State.RegsBut s t []) ∧
      (∀ v : Word,
        let q := heelFlds h
        (crc8 ((leBytes 3 v.toNat).reverse) ≠ v.toNat / 2 ^ 24 →
          ∃ t, exec (.heelFrame h v) s = .next t ∧ s.CountsUp t q.2.2.2 ∧ (t.wh h).badRun = (s.wh h).badRun + 1 ∧ t.Waits h.other 0x106 ∧
            (3 ≤ (s.wh h).badRun → t.rd q.2.2.1 = 1) ∧ ((s.wh h).badRun < 3 → State.RegsBut s t [q.2.2.2.a])) ∧
        (crc8 ((leBytes 3 v.toNat).reverse) = v.toNat / 2 ^ 24 →
          ∃ t, exec (.heelFrame h v) s = .next t ∧ t.rd q.1 = bits v.toNat 23 16 ∧ t.rd q.2.1 = bits v.toNat 15 9 ∧ t.rd q.2.2.1 = 0 ∧
            (t.wh h).badRun = 0 ∧ (v.getLsbD 10 = true → (t.fc h.other).fatal = true))) ∧
      (s.rd (heelFlds h).2.2.1 = 0 → ∃ t, exec (.heelSilent h) s = .next t ∧ t.rd (heelFlds h).2.2.1 = 1)) ∧
    exec .heartbeat s = .next s ∧
    (s.takeoverDue = true →
      ∃ t, exec .leadershipTakeover s = .next t ∧ t.leader = s.leader.other ∧ (t.wh s.leader.other).claim = true ∧ t.wl.tookOver = true ∧
        t.rd F.WL_STATUS.TOKEN = (s.rd F.WL_STATUS.TOKEN + 1) % 256 ∧ t.Waits s.leader.other 0x102) ∧
    ((s.wh .a).claim = true → (s.wh .b).claim = true →
      ∃ t, exec .claimDrop s = .next t ∧ t.leader = .a ∧ (t.wh .b).claim = false ∧ (t.wh .a).claim = true ∧ t.Waits .b 0x104)

/-- Clock losses hold or stop their half, and locks and returns end the hold; LOCKMON shows the voltage at which lock came or went and falls back to
the counter; an AUXCK setting is taken or refused. -/
def Obligations.ClockEvents : Prop :=
  ∀ (h : Half) (s : State), s.Inv →
    (s.rd (F.CK_h_STATUS.REF_OK h.idx) = 1 →
      ∃ t, exec .refclkLoss s = .next t ∧ t.rd (F.CK_h_STATUS.REF_OK h.idx) = 0 ∧ t.rd (F.CK_h_STATUS.CORE_LOCK h.idx) = 0 ∧
        t.rd (F.CK_h_STATUS.MEM_LOCK h.idx) = 0 ∧ t.rd (F.CK_h_STATUS.MEM_HOLD h.idx) = 1 ∧ s.CountsUp t (F.CK_h_EVENTS.REF_LOSS h.idx) ∧
        t.Waits h (0x112 + 4 * h.idx)) ∧
    (s.rd (F.CK_h_STATUS.REF_OK h.idx) = 0 →
      (∀ quick, ∃ t, exec (.refclkReturn quick) s = .next t ∧ t.rd (F.CK_h_STATUS.REF_OK h.idx) = 1 ∧
        t.rd (F.CK_h_STATUS.MEM_HOLD h.idx) = 0 ∧
        ((s.ck h).memEnabled = true → t.rd (F.CK_h_STATUS.CORE_LOCK h.idx) = 1 ∧ t.rd (F.CK_h_STATUS.MEM_LOCK h.idx) = 1) ∧
        ((s.ck h).memEnabled = false → t.rd (F.CK_h_STATUS.CORE_LOCK h.idx) = s.rd (F.CK_h_STATUS.CORE_LOCK h.idx) ∧
          (s.coreUp h = true → (t.ck h).coreEnabled = true))) ∧
      ∃ t, exec .refclkLossTimeout s = .next t ∧ (t.fc h).fatal = true) ∧
    (s.rd (F.CK_h_STATUS.CORE_LOCK h.idx) = 1 →
      ∃ t, exec (.corePllLockLost h) s = .next t ∧ t.rd (F.CK_h_STATUS.CORE_LOCK h.idx) = 0 ∧ (t.fc h).fatal = true ∧ t.Waits h (0x110 + 4 * h.idx) ∧
        (s.lockmonJudges h .core = true → 251 ≤ t.rd (F.CK_h_STATUS.LOCKMON_MV h.idx))) ∧
    (s.rd (F.CK_h_STATUS.MEM_LOCK h.idx) = 1 →
      ∃ t, exec (.memoryPllLockLost h) s = .next t ∧ t.rd (F.CK_h_STATUS.MEM_LOCK h.idx) = 0 ∧ t.rd (F.CK_h_STATUS.MEM_HOLD h.idx) = 1 ∧
        (t.ck h).memLost = true ∧ s.CountsUp t (F.CK_h_EVENTS.MEM_LOSS h.idx) ∧
        ((s.ck h).memLost = true → (t.fc h).fatal = true) ∧ ((s.ck h).memLost = false → t.Waits h (0x111 + 4 * h.idx))) ∧
    (s.rd (F.CK_h_STATUS.MEM_HOLD h.idx) = 1 → s.rd (F.CK_h_STATUS.REF_OK h.idx) = 1 →
      ∃ t, exec (.memoryPllRelockTimeout h) s = .next t ∧ (t.fc h).fatal = true) ∧
    (∀ pll (count : Nat) quick, s.lockmonJudges h pll = false → s.rd (F.CK_h_STATUS.REF_OK h.idx) = 1 →
      (s.locked h pll = false → 4095 ≤ count → count ≤ 4097 → (s.ck h).goodRun pll = 0 →
        ∃ t, exec (.lockWindow h pll count quick) s = .next t ∧ (t.ck h).goodRun pll = 1 ∧ State.RegsBut s t []) ∧
      (s.locked h pll = false → 4095 ≤ count → count ≤ 4097 → 1 ≤ (s.ck h).goodRun pll →
        (pll = .core → (s.ck h).coreEnabled = true) → (pll = .memory → (s.ck h).memEnabled = true) →
        ∃ t, exec (.lockWindow h pll count quick) s = .next t ∧ t.locked h pll = true) ∧
      (s.locked h pll = true → (count ≤ 4093 ∨ 4099 ≤ count) → ∃ t, exec (.lockWindow h pll count quick) s = .next t ∧ t.locked h pll = false)) ∧
    (∀ pll quick, s.lockmonJudges h pll = true → (pll = .core → (s.ck h).coreEnabled = true) → (pll = .memory → (s.ck h).memEnabled = true) →
      (∃ t, exec (.lockmonLock h quick) s = .next t ∧ t.locked h pll = true ∧ t.rd (F.CK_h_STATUS.LOCKMON_MV h.idx) < 100) ∧
      (s.locked h pll = false →
        ∃ t, exec (.lockmonFallback h) s = .next t ∧ (t.ck h).fallback = true ∧ t.rd (F.CK_h_STATUS.LOCKMON_FALLBACK h.idx) = 1 ∧
          t.rd (F.CK_h_STATUS.LOCKMON_MV h.idx) = 0 ∧ t.Waits h (0x111 + 4 * h.idx) ∧ State.RegsBut s t [(F.CK_h_STATUS.LOCKMON_FALLBACK h.idx).a])) ∧
    (∀ p (n : Fin 4) tick (v : Word), s.writable p (0x40080 + 2 * n.val + b2n tick) = true →
      let a := 0x40080 + 2 * n.val + b2n tick
      ∃ t, exec (.auxckConfigWrite p n tick v) s = .next t ∧
        (tick = true ∨ s.auxRefused n.val v.toNat = false →
          t.word a = (s.stored p a v.toNat).word a ∧ (t.rd F.CK_AUX_STATUS.REFUSED).testBit n.val = false) ∧
        (tick = false → s.auxRefused n.val v.toNat = true → t.word a = s.word a ∧ (t.rd F.CK_AUX_STATUS.REFUSED).testBit n.val = true))

/-- PPS, FTICK and ToD, on the time base of each half that has one: an edge in its window is accepted and one outside it is a glitch, a good sentence
becomes pending and a bad one is counted, and every loss shows with its event. Calendar sets and the time-stamp queue: SET moves device time when
every field is good, STEP_NOW is kept for the next edge, a capture is queued or dropped and counted, and a pop, where the read is served at once,
gives the oldest entry; while a head's reads wait, it takes its place among them. -/
def Obligations.TimeBase : Prop :=
  (∀ (h : Half) (s : State), s.Inv → s.HasBase h →
    let v := s.asSeen h
    (v.ppsAccepted = true →
      ∃ t, exec .ppsEdge s = .next t ∧
        let w := t.asSeen h
        w.rd F.TB_STATUS.PPS_OK = 1 ∧ v.CountsUp w F.TB_PPS_CNT.EDGES ∧ w.tb.lastEdge = some s.now ∧
          w.tb.rate = (v.tb.takeEdge s.now (v.on F.TB_STATUS.PPS_OK)).rate) ∧
    (∀ i, (i = .ppsEdge ∧ v.ppsAccepted = false) ∨ i = .ppsGlitch →
      ∃ t, exec i s = .next t ∧ v.CountsUp (t.asSeen h) F.TB_PPS_CNT.GLITCH ∧ (t.asSeen h).tb = v.tb ∧
        (s.split = false → State.RegsBut s t [F.TB_PPS_CNT.GLITCH.a])) ∧
    (v.rd F.TB_STATUS.PPS_OK = 1 →
      ∃ t, exec .ppsLost s = .next t ∧ (t.asSeen h).rd F.TB_STATUS.PPS_OK = 0 ∧ v.CountsUp (t.asSeen h) F.TB_PPS_CNT.PPS_LOSS ∧ t.Waits h 0x119 ∧
        (t.asSeen h).tb = { v.tb with masterGone := v.tb.masterGone || v.on F.TB_STATUS.MASTER } ∧
        (v.rd F.TB_STATUS.MASTER = 1 → (t.asSeen h).rd F.TB_STATUS.MASTER = 0 ∧ (t.asSeen h).rd F.TB_STATUS.FREE_RUN = 1 ∧ t.Waits h 0x11C)) ∧
    (∀ bytes, s.rd F.TB_CFG.TOD_EN = 1 → v.tb.rx = [] → bytes.length = 24 → field bytes 0 2 = 0x5AA5 →
      ∃ t, exec (.todSentence bytes) s = .next t ∧ (t.asSeen h).tb.rx = [] ∧
        (todBad bytes = false → (t.asSeen h).tb.pend = some (todParse bytes s.now) ∧ (t.asSeen h).tb.lastSeq = some (field bytes 18 2) ∧
          (t.asSeen h).tb.time = v.tb.time) ∧
        (todBad bytes = true → v.CountsUp (t.asSeen h) F.TB_TOD_CNT.BAD ∧ t.Waits h 0x118 ∧ (t.asSeen h).tb = v.tb)) ∧
    (s.rd F.TB_CFG.TOD_EN = 0 → ∀ bytes, ∃ t, exec (.todSentence bytes) s = .next t ∧ (t.asSeen h).tb = v.tb) ∧
    (∀ i, i = .todByteTimeout ∨ i = .todFramingError →
      ∃ t, exec i s = .next t ∧ (t.asSeen h).tb = { v.tb with rx := [] } ∧ (s.split = false → State.RegsBut s t [])) ∧
    (v.tb.pend.isSome = true →
      ∃ t, exec .todStale s = .next t ∧ (t.asSeen h).tb.pend = none ∧ v.CountsUp (t.asSeen h) F.TB_TOD_CNT.STALE ∧ t.Waits h 0x118) ∧
    (v.rd F.TB_STATUS.MASTER = 1 →
      ∃ t, exec .masterLost s = .next t ∧ (t.asSeen h).rd F.TB_STATUS.MASTER = 0 ∧ (t.asSeen h).rd F.TB_STATUS.FREE_RUN = 1 ∧ t.Waits h 0x11C ∧
        (t.asSeen h).tb = { v.tb with masterGone := true }) ∧
    (let l := match v.sched.cfg with | some c => (lnom v.tb.rate c.rateN c.rateD v.sched.frac).1 | none => 0
      (v.ftickAccepted l = true →
        ∃ t, exec .ftickEdge s = .next t ∧ (t.asSeen h).tb.ftLast = some s.now ∧ (t.asSeen h).rd F.TB_STATUS.FTICK_OK = 1) ∧
      (v.ftickAccepted l = false → ∃ t, exec .ftickEdge s = .next t ∧ v.CountsUp (t.asSeen h) F.TB_PPS_CNT.GLITCH ∧ (t.asSeen h).tb = v.tb)) ∧
    (v.rd F.TB_STATUS.FTICK_OK = 1 →
      ∃ t, exec .ftickLost s = .next t ∧ (t.asSeen h).rd F.TB_STATUS.FTICK_OK = 0 ∧ v.CountsUp (t.asSeen h) F.TB_PPS_CNT.FTICK_LOSS ∧ t.Waits h 0x11D)) ∧
  (∀ (p : Path) (s : State), s.Inv →
    (s.writable p 0x50014 = true →
      (∃ t, exec (.set p) s = .next t ∧ t.rd F.TB_SET_CTRL.RESULT = s.setResult ∧
        (s.setResult = 0 → t.rd F.TB_STATUS.TIME_VALID = 1 ∧ t.rd F.TB_STATUS.EPOCH = (s.rd F.TB_STATUS.EPOCH + 1) % 65536 ∧
          t.time = ofSigned 64 (s.setSeconds * 10 ^ 9) ∧ t.tb.pend = none) ∧
        (s.setResult ≠ 0 → t.tb = s.tb)) ∧
      ∃ t, exec (.stepNow p) s = .next t ∧ t.rd F.TB_SET_CTRL.STEP_NOW = 1 ∧ t.tb = s.tb) ∧
    (∀ v : Word, s.writable p 0x50018 = true →
      ∃ t, exec (.tbCaptureWrite p v) s = .next t ∧
        (s.tb.tsq.length < 32 → t.tb.tsq = s.tb.tsq ++ [⟨v.toNat % 65536, 6, s.epoch % 256, s.time⟩]) ∧
        (s.tb.tsq.length = 32 → t.tb.tsq = s.tb.tsq ∧ s.CountsUp t F.TB_TSQ_STATUS.DROPPED ∧ t.rd F.TB_TSQ_STATUS.OVF = 1)) ∧
    (s.readsAtOnce p = true → s.tb.tsq = [] → exec (.tsqPop p) s = .next (s.emit (.readData p [0]))) ∧
    (s.readsAtOnce p = true → ∀ e rest, s.tb.tsq = e :: rest →
      ∃ t, exec (.tsqPop p) s = .next t ∧ t.tb.tsq = rest ∧ t.rd (F.TB_TSQ_TIME_LO.TIME_LO.on p) = e.time % 2 ^ 32 ∧
        t.rd (F.TB_TSQ_TIME_HI.TIME_HI.on p) = e.time / 2 ^ 32 % 2 ^ 32 ∧
        t.out = s.out ++ [.readData p [BitVec.ofNat 32 (e.id * 65536 + e.kind * 256 + e.epoch)]] ∧
        State.RegsBut s t [(F.TB_TSQ_TIME_LO.TIME_LO.on p).a, (F.TB_TSQ_TIME_HI.TIME_HI.on p).a]) ∧
    ∀ h, p = .head h → s.ioMayGo h.val = false →
      ∃ t, exec (.tsqPop p) s = .next t ∧ t.out = s.out ∧ State.RegsBut s t [] ∧ State.PartsBut s t [.access] ∧
        (t.head h.val).io = (s.head h.val).io ++ (if s.linkUp h.val then [.reg 0x5001A] else []))

/-- Sensors are stored with their validity, and a sensor at TRIP in two samples on end starts the fatal state. The model takes one step of its six
nodes and keeps the last four powers. The power-limit step stays at or above its minimum, rises by one while the temperature or the power asks for it,
at the earliest five evaluations after the last rise, and falls by one when it has been cool for more than 100 evaluations. Warming ends, but not in
sensor loss. -/
def Obligations.ThermalEvents : Prop :=
  ∀ (h : Half) (s : State), s.Inv →
    (∀ r, ∃ t, exec (.sensorRead h r) s = .next t ∧ (t.th h).seen = true ∧
      (∀ i, i < 8 → t.rd (F.TH_SENS_h_s.VALID h.idx i) = b2n (readingValid r i) ∧
        (readingValid r i = true → t.rdS (F.TH_SENS_h_s.TEMP h.idx i) = r.getD i 0)) ∧
      ((∃ i, i < 8 ∧ s.tripLevel ≤ r.getD i (-100) ∧ (s.th h).tripped.getLsbD i = true) → (t.fc h).fatal = true) ∧
      ((∀ i, i < 8 → r.getD i (-100) < s.tripLevel) → t.fcA.core = s.fcA.core ∧ t.fcB.core = s.fcB.core ∧ (t.th h).tripped = 0)) ∧
    (∀ busy samples,
      let w := s.adcRun h samples
      let p := w.nodePowers h (min busy 1000)
      let sum : Nat := p.foldl (· + ·) 0
      let v := w.validTemps h
      ∃ t, exec (.modelUpdate h busy samples) s = .next t ∧ (t.th h).powers = (sum :: (s.th h).powers).take 4 ∧ (t.th h).step = (s.th h).step ∧
        ∀ n, (s.th h).nodes = some n → v ≠ [] →
          (t.th h).nodes.map (·.toList) =
            some (thermalStep p w.thermalTable ((128 * v.foldl (· + ·) 0).tdiv v.length - ((sum : Int) * 41).tdiv 1000) n.toList)) ∧
    ((h = s.leader ∨ s.split = true) → s.rd F.PS_STATUS.PFW = 0 → (s.fc h).fatal = false →
      let k := (s.th h).step
      let want := decide (s.tHigh ≤ s.evalTemp h) || s.powerAbove h k 100
      let cool := decide (s.evalTemp h < s.tHigh - s.hyst) && !s.powerAbove h k 92
      ∃ t, exec (.stepEvaluation h) s = .next t ∧ s.minStep ≤ (t.th h).step ∧ (h = s.leader → t.rd F.TH_STATUS.STEP = (t.th h).step % 8) ∧
        (s.minStep ≤ k → want = true → k < 7 → ((s.th h).sinceRise.all fun n => decide (4 ≤ n)) = true →
          (t.th h).step = k + 1 ∧ (t.th h).sinceRise = some 0) ∧
        (s.minStep ≤ k → want = true → cool = false → ((s.th h).sinceRise.all fun n => decide (4 ≤ n)) = false → (t.th h).step = k) ∧
        (s.minStep ≤ k → want = false → cool = false → (t.th h).step = k ∧ (t.th h).fallHeld = 0) ∧
        (s.minStep < k → want = false → cool = true → 100 ≤ (s.th h).fallHeld → (t.th h).step = k - 1) ∧
        (s.minStep ≤ k → want = false → cool = true → (s.th h).fallHeld < 100 → (t.th h).step = k ∧ (t.th h).fallHeld = (s.th h).fallHeld + 1) ∧
        (k < s.minStep → (t.th h).step = s.minStep)) ∧
    ∃ t, exec (.warmingEnd h) s = .next t ∧ (t.th h).warmed = true ∧ ((s.th h).sensorLoss = false → t.rd (warmingFld h) = 0)

/-- A collected message whose sticky bit is clear sets it and enters the log ring, the oldest of 256 entries making room; one whose bit is set is
merged and counted. The follower's message is stored in the leader too while the halves are joined. A parity error of the store raises 0x139. A write
of ones clears sticky bits but never those of the fatal class; a force raises its sources. -/
def Obligations.Selvedge : Prop :=
  ∀ s : State, s.Inv →
    (∀ h src m, (s.fc h).pend.find? (fun x => x.src == src) = some m →
      let f := s.fc h
      (f.isSticky m.src = false → m.src < 320 → h = s.leader →
        ∃ t, exec (.messageCollect h ⟨src, false⟩) s = .next t ∧ (t.fc h).isSticky m.src = true ∧ (t.fc h).wr = (f.wr + 1) % 2 ^ 32 ∧
          (t.fc h).log = (if 256 ≤ f.log.length then f.log.drop 1 else f.log) ++ [⟨m, false, s.split⟩] ∧
          (m.sev = 4 → (t.fc h).fatal = true ∧ (t.fc h).first = some (f.first.getD m))) ∧
      (f.isSticky m.src = true → h = s.leader →
        ∃ t, exec (.messageCollect h ⟨src, false⟩) s = .next t ∧ (t.fc h).log = f.log ∧ (t.fc h).sticky = f.sticky ∧
          Sparse.get (fun _ => 0) (t.fc h).merged m.src = min (Sparse.get (fun _ => 0) f.merged m.src + 1) 65535 ∧ State.RegsBut s t []) ∧
      (h ≠ s.leader → m.src < 320 →
        ∃ t, exec (.messageCollect h ⟨src, false⟩) s = .next t ∧ (t.fc h).isSticky m.src = true ∧
          (s.joined = true → (t.fc s.leader).isSticky m.src = true) ∧
          (s.joined = false → (t.fc s.leader).sticky = (s.fc s.leader).sticky ∧ (t.fc s.leader).log = (s.fc s.leader).log))) ∧
    (∀ h src, src ≠ 0x139 → ∃ t, exec (.messageCollect h ⟨src, true⟩) s = .next t ∧ t.Waits h 0x139) ∧
    (∀ p (w : Fin 10) (v : Word), s.writable p (0x10010 + w.val) = true →
      ∃ t, exec (.stickyClear p w v) s = .next t ∧
        (∀ b, b < 32 → v.getLsbD b = true → fatalClass (32 * w.val + b) = false → reservedSource (32 * w.val + b) = false →
          (t.fc (s.storeHalf p)).isSticky (32 * w.val + b) = false) ∧
        (∀ i, i < 320 → (fatalClass i = true ∨ i / 32 ≠ w.val ∨ v.getLsbD (i % 32) = false) →
          (t.fc (s.storeHalf p)).isSticky i = (s.fc (s.storeHalf p)).isSticky i) ∧
        (t.fc (s.storeHalf p)).log = (s.fc (s.storeHalf p)).log) ∧
    ∀ p (w : Fin 10) (v : Word), s.writable p (0x10030 + w.val) = true →
      ∃ t, exec (.force p w v) s = .next t ∧
        ∀ b, b < 32 → v.getLsbD b = true → reservedSource (32 * w.val + b) = false →
          (fatalClass (32 * w.val + b) = true → s.on F.FC_CFG.FORCE_FATAL_EN = true) → t.Waits (s.storeHalf p) (32 * w.val + b)
end

