-- ==== Sys2Proof/Laws/Store.lean ====
section
/-! SUPPORT. Laws of sparse storage: every operation keeps the canonical form, a read after a write gives what was written, and a write leaves
every other key alone. -/
namespace Sys2Proof.Machine

variable {α : Type}

/-- Keys strictly rising, as a pairwise order. -/
theorem Sparse.rising_iff (m : Sparse α) : Sparse.rising m = true ↔ m.Pairwise (fun p q => p.1 < q.1) := by
  induction m with
  | nil => simp [Sparse.rising]
  | cons p t ih =>
    cases t with
    | nil => simp [Sparse.rising]
    | cons q t =>
      simp only [Sparse.rising, Bool.and_eq_true, decide_eq_true_eq, ih, List.pairwise_cons, List.mem_cons]
      constructor
      · rintro ⟨h, hq, ht⟩
        refine ⟨?_, hq, ht⟩
        rintro r (rfl | hr)
        · exact h
        · exact lt_trans h (hq r hr)
      · rintro ⟨h, hq, ht⟩
        exact ⟨h q (Or.inl rfl), hq, ht⟩

theorem Sparse.mem_del {m : Sparse α} {k : Nat} {p : Nat × α} (h : p ∈ Sparse.del m k) : p ∈ m := by
  induction m with
  | nil => simp [Sparse.del] at h
  | cons q t ih =>
    unfold Sparse.del at h
    split at h
    · exact List.mem_cons_of_mem _ h
    · split at h
      · exact h
      · rcases List.mem_cons.1 h with rfl | h
        · exact List.mem_cons_self
        · exact List.mem_cons_of_mem _ (ih h)

theorem Sparse.mem_ins {m : Sparse α} {k : Nat} {x : α} {p : Nat × α} (h : p ∈ Sparse.ins m k x) : p = (k, x) ∨ p ∈ m := by
  induction m with
  | nil => simpa [Sparse.ins] using h
  | cons q t ih =>
    unfold Sparse.ins at h
    split at h
    · rcases List.mem_cons.1 h with rfl | h
      · exact Or.inl rfl
      · exact Or.inr (List.mem_cons_of_mem _ h)
    · split at h
      · rcases List.mem_cons.1 h with rfl | h
        · exact Or.inl rfl
        · exact Or.inr h
      · rcases List.mem_cons.1 h with rfl | h
        · exact Or.inr List.mem_cons_self
        · rcases ih h with h | h
          · exact Or.inl h
          · exact Or.inr (List.mem_cons_of_mem _ h)

theorem Sparse.rising_del {m : Sparse α} (k : Nat) (h : Sparse.rising m = true) : Sparse.rising (Sparse.del m k) = true := by
  rw [Sparse.rising_iff] at *
  induction m with
  | nil => simp [Sparse.del]
  | cons p t ih =>
    obtain ⟨hp, ht⟩ := List.pairwise_cons.1 h
    unfold Sparse.del
    split
    · exact ht
    · split
      · exact h
      · exact List.pairwise_cons.2 ⟨fun q hq => hp q (Sparse.mem_del hq), ih ht⟩

theorem Sparse.rising_ins {m : Sparse α} (k : Nat) (x : α) (h : Sparse.rising m = true) : Sparse.rising (Sparse.ins m k x) = true := by
  rw [Sparse.rising_iff] at *
  induction m with
  | nil => simp [Sparse.ins]
  | cons p t ih =>
    obtain ⟨hp, ht⟩ := List.pairwise_cons.1 h
    obtain ⟨j, v⟩ := p
    unfold Sparse.ins
    split
    · subst_vars; exact List.pairwise_cons.2 ⟨hp, ht⟩
    · split
      · refine List.pairwise_cons.2 ⟨fun q hq => ?_, h⟩
        rcases List.mem_cons.1 hq with rfl | hq
        · assumption
        · exact lt_trans ‹k < j› (hp q hq)
      · refine List.pairwise_cons.2 ⟨fun q hq => ?_, ih ht⟩
        rcases Sparse.mem_ins hq with rfl | hq
        · show j < k; omega
        · exact hp q hq

theorem Sparse.rising_put [DecidableEq α] {d : Nat → α} {m : Sparse α} (k : Nat) (x : α) (h : Sparse.rising m = true) :
    Sparse.rising (Sparse.put d m k x) = true := by
  unfold Sparse.put
  split
  · exact Sparse.rising_del k h
  · exact Sparse.rising_ins k x h

theorem Sparse.rising_delRange {m : Sparse α} (lo n : Nat) (h : Sparse.rising m = true) : Sparse.rising (Sparse.delRange m lo n) = true := by
  rw [Sparse.rising_iff] at *
  exact h.filter _

/-- A run of writes keeps keys rising. -/
theorem Sparse.rising_foldPut {β : Type} [DecidableEq α] {d : Nat → α} {m : Sparse α} (l : List β) (k : β → Nat) (x : β → α)
    (h : Sparse.rising m = true) : Sparse.rising (l.foldl (fun m b => Sparse.put d m (k b) (x b)) m) = true := by
  induction l generalizing m with
  | nil => exact h
  | cons b l ih => exact ih (Sparse.rising_put _ _ h)

/-- A write keeps the canonical form. -/
theorem Sparse.wf_put [DecidableEq α] {d : Nat → α} {m : Sparse α} (k : Nat) (x : α) (h : Sparse.wf d m = true) :
    Sparse.wf d (Sparse.put d m k x) = true := by
  unfold Sparse.wf at *
  simp only [Bool.and_eq_true, List.all_eq_true, decide_eq_true_eq] at *
  refine ⟨Sparse.rising_put k x h.1, fun p hp => ?_⟩
  unfold Sparse.put at hp
  split at hp
  · exact h.2 p (Sparse.mem_del hp)
  · rcases Sparse.mem_ins hp with rfl | hp
    · assumption
    · exact h.2 p hp

/-- Removing a range keeps the canonical form. -/
theorem Sparse.wf_delRange [DecidableEq α] {d : Nat → α} {m : Sparse α} (lo n : Nat) (h : Sparse.wf d m = true) :
    Sparse.wf d (Sparse.delRange m lo n) = true := by
  unfold Sparse.wf at *
  simp only [Bool.and_eq_true, List.all_eq_true, decide_eq_true_eq] at *
  exact ⟨Sparse.rising_delRange lo n h.1, fun p hp => h.2 p (List.mem_of_mem_filter hp)⟩

theorem Sparse.find_del (m : Sparse α) (k j : Nat) (h : Sparse.rising m = true) :
    Sparse.find (Sparse.del m k) j = if j = k then none else Sparse.find m j := by
  rw [Sparse.rising_iff] at h
  induction m with
  | nil => simp [Sparse.del, Sparse.find]
  | cons p t ih =>
    obtain ⟨a, v⟩ := p
    obtain ⟨hp, ht⟩ := List.pairwise_cons.1 h
    have none_of : ∀ (l : Sparse α) (b : Nat), (∀ q ∈ l, b < q.1) → Sparse.find l b = none := by
      intro l b hb
      cases l with
      | nil => rfl
      | cons q l => have := hb q List.mem_cons_self; simp only [Sparse.find]; rw [if_neg (by omega), if_pos this]
    unfold Sparse.del
    split
    · rename_i hak; subst hak
      by_cases hj : j = a
      · subst hj; simp only [if_pos]; exact none_of t _ hp
      · rw [if_neg hj]; simp only [Sparse.find]; rw [if_neg (fun e => hj e.symm)]
        split
        · exact none_of t _ (fun q hq => lt_trans ‹j < a› (hp q hq))
        · rfl
    · split
      · rename_i hne hlt
        by_cases hj : j = k
        · subst hj; rw [if_pos rfl]; simp only [Sparse.find]; rw [if_neg hne, if_pos hlt]
        · rw [if_neg hj]
      · rename_i hne hlt
        simp only [Sparse.find, ih ht]
        by_cases hj : j = k
        · subst hj; simp [hne, hlt]
        · simp [hj]

theorem Sparse.find_ins (m : Sparse α) (k j : Nat) (x : α) : Sparse.find (Sparse.ins m k x) j = if j = k then some x else Sparse.find m j := by
  induction m with
  | nil =>
    by_cases hj : j = k
    · subst hj; simp [Sparse.ins, Sparse.find]
    · have := Ne.symm hj; simp [Sparse.ins, Sparse.find, hj, this]
  | cons p t ih =>
    obtain ⟨a, v⟩ := p
    unfold Sparse.ins
    by_cases hj : j = k
    · subst hj
      by_cases h1 : a = j
      · simp [h1, Sparse.find]
      · by_cases h2 : j < a <;> simp [h1, h2, Sparse.find, ih]
    · have hk := Ne.symm hj
      by_cases h1 : a = k
      · subst h1
        by_cases h2 : j < a <;> simp [hj, hk, h2, Sparse.find]
      · by_cases h2 : k < a
        · by_cases h3 : j < k
          · have h4 : a ≠ j := by omega
            have h5 : j < a := by omega
            simp [h1, h2, h3, h4, h5, hj, hk, Sparse.find]
          · simp [h1, h2, h3, hj, hk, Sparse.find]
        · simp [h1, h2, hj, Sparse.find, ih]

/-- Read after write: the key written reads what was written, every other key as before. -/
theorem Sparse.get_put [DecidableEq α] (d : Nat → α) (m : Sparse α) (k j : Nat) (x : α) (h : Sparse.rising m = true) :
    Sparse.get d (Sparse.put d m k x) j = if j = k then x else Sparse.get d m j := by
  unfold Sparse.get Sparse.put
  split
  · rename_i hx
    rw [Sparse.find_del m k j h]
    by_cases hj : j = k
    · subst hj; simp [hx]
    · simp [hj]
  · rw [Sparse.find_ins]
    by_cases hj : j = k
    · subst hj; simp
    · simp [hj]

end Sys2Proof.Machine
end

