-- ==== Sys2Proof/Laws/State.lean ====
section
/-! SUPPORT. One law per field and update: what each named update of the state leaves and what it writes. -/
namespace Sys2Proof.Machine

@[simp] theorem State.setWord_pending (s : State) (k : Nat) (w : Word) : (s.setWord k w).pending = s.pending := rfl
@[simp] theorem State.setWord_out (s : State) (k : Nat) (w : Word) : (s.setWord k w).out = s.out := rfl
@[simp] theorem State.setWord_now (s : State) (k : Nat) (w : Word) : (s.setWord k w).now = s.now := rfl
@[simp] theorem State.setWord_free (s : State) (k : Nat) (w : Word) : (s.setWord k w).free = s.free := rfl
@[simp] theorem State.setWord_regs (s : State) (k : Nat) (w : Word) : (s.setWord k w).regs = Sparse.put regPowerOn s.regs k w := rfl
@[simp] theorem State.setWord_mem (s : State) (k : Nat) (w : Word) : (s.setWord k w).mem = s.mem := rfl
@[simp] theorem State.setWord_flash (s : State) (k : Nat) (w : Word) : (s.setWord k w).flash = s.flash := rfl
@[simp] theorem State.setWord_fcA (s : State) (k : Nat) (w : Word) : (s.setWord k w).fcA = s.fcA := rfl
@[simp] theorem State.setWord_fcB (s : State) (k : Nat) (w : Word) : (s.setWord k w).fcB = s.fcB := rfl
@[simp] theorem State.setWord_tb (s : State) (k : Nat) (w : Word) : (s.setWord k w).tb = s.tb := rfl
@[simp] theorem State.setWord_pwr (s : State) (k : Nat) (w : Word) : (s.setWord k w).pwr = s.pwr := rfl
@[simp] theorem State.setWord_thA (s : State) (k : Nat) (w : Word) : (s.setWord k w).thA = s.thA := rfl
@[simp] theorem State.setWord_thB (s : State) (k : Nat) (w : Word) : (s.setWord k w).thB = s.thB := rfl
@[simp] theorem State.setWord_wl (s : State) (k : Nat) (w : Word) : (s.setWord k w).wl = s.wl := rfl
@[simp] theorem State.setWord_ckA (s : State) (k : Nat) (w : Word) : (s.setWord k w).ckA = s.ckA := rfl
@[simp] theorem State.setWord_ckB (s : State) (k : Nat) (w : Word) : (s.setWord k w).ckB = s.ckB := rfl
@[simp] theorem State.setWord_mg (s : State) (k : Nat) (w : Word) : (s.setWord k w).mg = s.mg := rfl
@[simp] theorem State.setWord_sched (s : State) (k : Nat) (w : Word) : (s.setWord k w).sched = s.sched := rfl
@[simp] theorem State.setWord_sched2 (s : State) (k : Nat) (w : Word) : (s.setWord k w).sched2 = s.sched2 := rfl
@[simp] theorem State.setWord_tb2 (s : State) (k : Nat) (w : Word) : (s.setWord k w).tb2 = s.tb2 := rfl
@[simp] theorem State.setWord_lasts (s : State) (k : Nat) (w : Word) : (s.setWord k w).lasts = s.lasts := rfl
@[simp] theorem State.setWord_admQueue (s : State) (k : Nat) (w : Word) : (s.setWord k w).admQueue = s.admQueue := rfl
@[simp] theorem State.setWord_admitting (s : State) (k : Nat) (w : Word) : (s.setWord k w).admitting = s.admitting := rfl
@[simp] theorem State.setWord_admStart (s : State) (k : Nat) (w : Word) : (s.setWord k w).admStart = s.admStart := rfl
@[simp] theorem State.setWord_admTouched (s : State) (k : Nat) (w : Word) : (s.setWord k w).admTouched = s.admTouched := rfl
@[simp] theorem State.setWord_admBy (s : State) (k : Nat) (w : Word) : (s.setWord k w).admBy = s.admBy := rfl
@[simp] theorem State.setWord_twUsed (s : State) (k : Nat) (w : Word) : (s.setWord k w).twUsed = s.twUsed := rfl
@[simp] theorem State.setWord_dm (s : State) (k : Nat) (w : Word) : (s.setWord k w).dm = s.dm := rfl
@[simp] theorem State.setWord_le (s : State) (k : Nat) (w : Word) : (s.setWord k w).le = s.le := rfl
@[simp] theorem State.setWord_heads (s : State) (k : Nat) (w : Word) : (s.setWord k w).heads = s.heads := rfl
@[simp] theorem State.emit_pending (s : State) (o : Out) : (s.emit o).pending = s.pending := rfl
@[simp] theorem State.emit_out (s : State) (o : Out) : (s.emit o).out = s.out ++ [o] := rfl
@[simp] theorem State.emit_now (s : State) (o : Out) : (s.emit o).now = s.now := rfl
@[simp] theorem State.emit_free (s : State) (o : Out) : (s.emit o).free = s.free := rfl
@[simp] theorem State.emit_regs (s : State) (o : Out) : (s.emit o).regs = s.regs := rfl
@[simp] theorem State.emit_mem (s : State) (o : Out) : (s.emit o).mem = s.mem := rfl
@[simp] theorem State.emit_flash (s : State) (o : Out) : (s.emit o).flash = s.flash := rfl
@[simp] theorem State.emit_fcA (s : State) (o : Out) : (s.emit o).fcA = s.fcA := rfl
@[simp] theorem State.emit_fcB (s : State) (o : Out) : (s.emit o).fcB = s.fcB := rfl
@[simp] theorem State.emit_tb (s : State) (o : Out) : (s.emit o).tb = s.tb := rfl
@[simp] theorem State.emit_pwr (s : State) (o : Out) : (s.emit o).pwr = s.pwr := rfl
@[simp] theorem State.emit_thA (s : State) (o : Out) : (s.emit o).thA = s.thA := rfl
@[simp] theorem State.emit_thB (s : State) (o : Out) : (s.emit o).thB = s.thB := rfl
@[simp] theorem State.emit_wl (s : State) (o : Out) : (s.emit o).wl = s.wl := rfl
@[simp] theorem State.emit_ckA (s : State) (o : Out) : (s.emit o).ckA = s.ckA := rfl
@[simp] theorem State.emit_ckB (s : State) (o : Out) : (s.emit o).ckB = s.ckB := rfl
@[simp] theorem State.emit_mg (s : State) (o : Out) : (s.emit o).mg = s.mg := rfl
@[simp] theorem State.emit_sched (s : State) (o : Out) : (s.emit o).sched = s.sched := rfl
@[simp] theorem State.emit_sched2 (s : State) (o : Out) : (s.emit o).sched2 = s.sched2 := rfl
@[simp] theorem State.emit_tb2 (s : State) (o : Out) : (s.emit o).tb2 = s.tb2 := rfl
@[simp] theorem State.emit_lasts (s : State) (o : Out) : (s.emit o).lasts = s.lasts := rfl
@[simp] theorem State.emit_admQueue (s : State) (o : Out) : (s.emit o).admQueue = s.admQueue := rfl
@[simp] theorem State.emit_admitting (s : State) (o : Out) : (s.emit o).admitting = s.admitting := rfl
@[simp] theorem State.emit_admStart (s : State) (o : Out) : (s.emit o).admStart = s.admStart := rfl
@[simp] theorem State.emit_admTouched (s : State) (o : Out) : (s.emit o).admTouched = s.admTouched := rfl
@[simp] theorem State.emit_admBy (s : State) (o : Out) : (s.emit o).admBy = s.admBy := rfl
@[simp] theorem State.emit_twUsed (s : State) (o : Out) : (s.emit o).twUsed = s.twUsed := rfl
@[simp] theorem State.emit_dm (s : State) (o : Out) : (s.emit o).dm = s.dm := rfl
@[simp] theorem State.emit_le (s : State) (o : Out) : (s.emit o).le = s.le := rfl
@[simp] theorem State.emit_heads (s : State) (o : Out) : (s.emit o).heads = s.heads := rfl
@[simp] theorem State.emit_word (s : State) (o : Out) (j : Nat) : (s.emit o).word j = s.word j := rfl
@[simp] theorem State.emit_rd (s : State) (o : Out) (x : Fld) : (s.emit o).rd x = s.rd x := rfl
@[simp] theorem State.modFc_pending (s : State) (h : Half) (f : FcStore → FcStore) : (s.modFc h f).pending = s.pending := by cases h <;> rfl
@[simp] theorem State.modFc_out (s : State) (h : Half) (f : FcStore → FcStore) : (s.modFc h f).out = s.out := by cases h <;> rfl
@[simp] theorem State.modFc_now (s : State) (h : Half) (f : FcStore → FcStore) : (s.modFc h f).now = s.now := by cases h <;> rfl
@[simp] theorem State.modFc_free (s : State) (h : Half) (f : FcStore → FcStore) : (s.modFc h f).free = s.free := by cases h <;> rfl
@[simp] theorem State.modFc_regs (s : State) (h : Half) (f : FcStore → FcStore) : (s.modFc h f).regs = s.regs := by cases h <;> rfl
@[simp] theorem State.modFc_mem (s : State) (h : Half) (f : FcStore → FcStore) : (s.modFc h f).mem = s.mem := by cases h <;> rfl
@[simp] theorem State.modFc_flash (s : State) (h : Half) (f : FcStore → FcStore) : (s.modFc h f).flash = s.flash := by cases h <;> rfl
@[simp] theorem State.modFc_tb (s : State) (h : Half) (f : FcStore → FcStore) : (s.modFc h f).tb = s.tb := by cases h <;> rfl
@[simp] theorem State.modFc_pwr (s : State) (h : Half) (f : FcStore → FcStore) : (s.modFc h f).pwr = s.pwr := by cases h <;> rfl
@[simp] theorem State.modFc_thA (s : State) (h : Half) (f : FcStore → FcStore) : (s.modFc h f).thA = s.thA := by cases h <;> rfl
@[simp] theorem State.modFc_thB (s : State) (h : Half) (f : FcStore → FcStore) : (s.modFc h f).thB = s.thB := by cases h <;> rfl
@[simp] theorem State.modFc_wl (s : State) (h : Half) (f : FcStore → FcStore) : (s.modFc h f).wl = s.wl := by cases h <;> rfl
@[simp] theorem State.modFc_ckA (s : State) (h : Half) (f : FcStore → FcStore) : (s.modFc h f).ckA = s.ckA := by cases h <;> rfl
@[simp] theorem State.modFc_ckB (s : State) (h : Half) (f : FcStore → FcStore) : (s.modFc h f).ckB = s.ckB := by cases h <;> rfl
@[simp] theorem State.modFc_mg (s : State) (h : Half) (f : FcStore → FcStore) : (s.modFc h f).mg = s.mg := by cases h <;> rfl
@[simp] theorem State.modFc_sched (s : State) (h : Half) (f : FcStore → FcStore) : (s.modFc h f).sched = s.sched := by cases h <;> rfl
@[simp] theorem State.modFc_sched2 (s : State) (h : Half) (f : FcStore → FcStore) : (s.modFc h f).sched2 = s.sched2 := by cases h <;> rfl
@[simp] theorem State.modFc_tb2 (s : State) (h : Half) (f : FcStore → FcStore) : (s.modFc h f).tb2 = s.tb2 := by cases h <;> rfl
@[simp] theorem State.modFc_lasts (s : State) (h : Half) (f : FcStore → FcStore) : (s.modFc h f).lasts = s.lasts := by cases h <;> rfl
@[simp] theorem State.modFc_admQueue (s : State) (h : Half) (f : FcStore → FcStore) : (s.modFc h f).admQueue = s.admQueue := by cases h <;> rfl
@[simp] theorem State.modFc_admitting (s : State) (h : Half) (f : FcStore → FcStore) : (s.modFc h f).admitting = s.admitting := by cases h <;> rfl
@[simp] theorem State.modFc_admStart (s : State) (h : Half) (f : FcStore → FcStore) : (s.modFc h f).admStart = s.admStart := by cases h <;> rfl
@[simp] theorem State.modFc_admTouched (s : State) (h : Half) (f : FcStore → FcStore) : (s.modFc h f).admTouched = s.admTouched := by cases h <;> rfl
@[simp] theorem State.modFc_admBy (s : State) (h : Half) (f : FcStore → FcStore) : (s.modFc h f).admBy = s.admBy := by cases h <;> rfl
@[simp] theorem State.modFc_twUsed (s : State) (h : Half) (f : FcStore → FcStore) : (s.modFc h f).twUsed = s.twUsed := by cases h <;> rfl
@[simp] theorem State.modFc_dm (s : State) (h : Half) (f : FcStore → FcStore) : (s.modFc h f).dm = s.dm := by cases h <;> rfl
@[simp] theorem State.modFc_le (s : State) (h : Half) (f : FcStore → FcStore) : (s.modFc h f).le = s.le := by cases h <;> rfl
@[simp] theorem State.modFc_heads (s : State) (h : Half) (f : FcStore → FcStore) : (s.modFc h f).heads = s.heads := by cases h <;> rfl
@[simp] theorem State.modFc_word (s : State) (h : Half) (f : FcStore → FcStore) (j : Nat) : (s.modFc h f).word j = s.word j := by cases h <;> rfl
@[simp] theorem State.modFc_rd (s : State) (h : Half) (f : FcStore → FcStore) (x : Fld) : (s.modFc h f).rd x = s.rd x := by cases h <;> rfl
@[simp] theorem State.modTh_pending (s : State) (h : Half) (f : Thermal → Thermal) : (s.modTh h f).pending = s.pending := by cases h <;> rfl
@[simp] theorem State.modTh_out (s : State) (h : Half) (f : Thermal → Thermal) : (s.modTh h f).out = s.out := by cases h <;> rfl
@[simp] theorem State.modTh_now (s : State) (h : Half) (f : Thermal → Thermal) : (s.modTh h f).now = s.now := by cases h <;> rfl
@[simp] theorem State.modTh_free (s : State) (h : Half) (f : Thermal → Thermal) : (s.modTh h f).free = s.free := by cases h <;> rfl
@[simp] theorem State.modTh_regs (s : State) (h : Half) (f : Thermal → Thermal) : (s.modTh h f).regs = s.regs := by cases h <;> rfl
@[simp] theorem State.modTh_mem (s : State) (h : Half) (f : Thermal → Thermal) : (s.modTh h f).mem = s.mem := by cases h <;> rfl
@[simp] theorem State.modTh_flash (s : State) (h : Half) (f : Thermal → Thermal) : (s.modTh h f).flash = s.flash := by cases h <;> rfl
@[simp] theorem State.modTh_fcA (s : State) (h : Half) (f : Thermal → Thermal) : (s.modTh h f).fcA = s.fcA := by cases h <;> rfl
@[simp] theorem State.modTh_fcB (s : State) (h : Half) (f : Thermal → Thermal) : (s.modTh h f).fcB = s.fcB := by cases h <;> rfl
@[simp] theorem State.modTh_tb (s : State) (h : Half) (f : Thermal → Thermal) : (s.modTh h f).tb = s.tb := by cases h <;> rfl
@[simp] theorem State.modTh_pwr (s : State) (h : Half) (f : Thermal → Thermal) : (s.modTh h f).pwr = s.pwr := by cases h <;> rfl
@[simp] theorem State.modTh_wl (s : State) (h : Half) (f : Thermal → Thermal) : (s.modTh h f).wl = s.wl := by cases h <;> rfl
@[simp] theorem State.modTh_ckA (s : State) (h : Half) (f : Thermal → Thermal) : (s.modTh h f).ckA = s.ckA := by cases h <;> rfl
@[simp] theorem State.modTh_ckB (s : State) (h : Half) (f : Thermal → Thermal) : (s.modTh h f).ckB = s.ckB := by cases h <;> rfl
@[simp] theorem State.modTh_mg (s : State) (h : Half) (f : Thermal → Thermal) : (s.modTh h f).mg = s.mg := by cases h <;> rfl
@[simp] theorem State.modTh_sched (s : State) (h : Half) (f : Thermal → Thermal) : (s.modTh h f).sched = s.sched := by cases h <;> rfl
@[simp] theorem State.modTh_sched2 (s : State) (h : Half) (f : Thermal → Thermal) : (s.modTh h f).sched2 = s.sched2 := by cases h <;> rfl
@[simp] theorem State.modTh_tb2 (s : State) (h : Half) (f : Thermal → Thermal) : (s.modTh h f).tb2 = s.tb2 := by cases h <;> rfl
@[simp] theorem State.modTh_lasts (s : State) (h : Half) (f : Thermal → Thermal) : (s.modTh h f).lasts = s.lasts := by cases h <;> rfl
@[simp] theorem State.modTh_admQueue (s : State) (h : Half) (f : Thermal → Thermal) : (s.modTh h f).admQueue = s.admQueue := by cases h <;> rfl
@[simp] theorem State.modTh_admitting (s : State) (h : Half) (f : Thermal → Thermal) : (s.modTh h f).admitting = s.admitting := by cases h <;> rfl
@[simp] theorem State.modTh_admStart (s : State) (h : Half) (f : Thermal → Thermal) : (s.modTh h f).admStart = s.admStart := by cases h <;> rfl
@[simp] theorem State.modTh_admTouched (s : State) (h : Half) (f : Thermal → Thermal) : (s.modTh h f).admTouched = s.admTouched := by cases h <;> rfl
@[simp] theorem State.modTh_admBy (s : State) (h : Half) (f : Thermal → Thermal) : (s.modTh h f).admBy = s.admBy := by cases h <;> rfl
@[simp] theorem State.modTh_twUsed (s : State) (h : Half) (f : Thermal → Thermal) : (s.modTh h f).twUsed = s.twUsed := by cases h <;> rfl
@[simp] theorem State.modTh_dm (s : State) (h : Half) (f : Thermal → Thermal) : (s.modTh h f).dm = s.dm := by cases h <;> rfl
@[simp] theorem State.modTh_le (s : State) (h : Half) (f : Thermal → Thermal) : (s.modTh h f).le = s.le := by cases h <;> rfl
@[simp] theorem State.modTh_heads (s : State) (h : Half) (f : Thermal → Thermal) : (s.modTh h f).heads = s.heads := by cases h <;> rfl
@[simp] theorem State.modTh_word (s : State) (h : Half) (f : Thermal → Thermal) (j : Nat) : (s.modTh h f).word j = s.word j := by cases h <;> rfl
@[simp] theorem State.modTh_rd (s : State) (h : Half) (f : Thermal → Thermal) (x : Fld) : (s.modTh h f).rd x = s.rd x := by cases h <;> rfl
@[simp] theorem State.modCk_pending (s : State) (h : Half) (f : ClockHalf → ClockHalf) : (s.modCk h f).pending = s.pending := by cases h <;> rfl
@[simp] theorem State.modCk_out (s : State) (h : Half) (f : ClockHalf → ClockHalf) : (s.modCk h f).out = s.out := by cases h <;> rfl
@[simp] theorem State.modCk_now (s : State) (h : Half) (f : ClockHalf → ClockHalf) : (s.modCk h f).now = s.now := by cases h <;> rfl
@[simp] theorem State.modCk_free (s : State) (h : Half) (f : ClockHalf → ClockHalf) : (s.modCk h f).free = s.free := by cases h <;> rfl
@[simp] theorem State.modCk_regs (s : State) (h : Half) (f : ClockHalf → ClockHalf) : (s.modCk h f).regs = s.regs := by cases h <;> rfl
@[simp] theorem State.modCk_mem (s : State) (h : Half) (f : ClockHalf → ClockHalf) : (s.modCk h f).mem = s.mem := by cases h <;> rfl
@[simp] theorem State.modCk_flash (s : State) (h : Half) (f : ClockHalf → ClockHalf) : (s.modCk h f).flash = s.flash := by cases h <;> rfl
@[simp] theorem State.modCk_fcA (s : State) (h : Half) (f : ClockHalf → ClockHalf) : (s.modCk h f).fcA = s.fcA := by cases h <;> rfl
@[simp] theorem State.modCk_fcB (s : State) (h : Half) (f : ClockHalf → ClockHalf) : (s.modCk h f).fcB = s.fcB := by cases h <;> rfl
@[simp] theorem State.modCk_tb (s : State) (h : Half) (f : ClockHalf → ClockHalf) : (s.modCk h f).tb = s.tb := by cases h <;> rfl
@[simp] theorem State.modCk_pwr (s : State) (h : Half) (f : ClockHalf → ClockHalf) : (s.modCk h f).pwr = s.pwr := by cases h <;> rfl
@[simp] theorem State.modCk_thA (s : State) (h : Half) (f : ClockHalf → ClockHalf) : (s.modCk h f).thA = s.thA := by cases h <;> rfl
@[simp] theorem State.modCk_thB (s : State) (h : Half) (f : ClockHalf → ClockHalf) : (s.modCk h f).thB = s.thB := by cases h <;> rfl
@[simp] theorem State.modCk_wl (s : State) (h : Half) (f : ClockHalf → ClockHalf) : (s.modCk h f).wl = s.wl := by cases h <;> rfl
@[simp] theorem State.modCk_mg (s : State) (h : Half) (f : ClockHalf → ClockHalf) : (s.modCk h f).mg = s.mg := by cases h <;> rfl
@[simp] theorem State.modCk_sched (s : State) (h : Half) (f : ClockHalf → ClockHalf) : (s.modCk h f).sched = s.sched := by cases h <;> rfl
@[simp] theorem State.modCk_sched2 (s : State) (h : Half) (f : ClockHalf → ClockHalf) : (s.modCk h f).sched2 = s.sched2 := by cases h <;> rfl
@[simp] theorem State.modCk_tb2 (s : State) (h : Half) (f : ClockHalf → ClockHalf) : (s.modCk h f).tb2 = s.tb2 := by cases h <;> rfl
@[simp] theorem State.modCk_lasts (s : State) (h : Half) (f : ClockHalf → ClockHalf) : (s.modCk h f).lasts = s.lasts := by cases h <;> rfl
@[simp] theorem State.modCk_admQueue (s : State) (h : Half) (f : ClockHalf → ClockHalf) : (s.modCk h f).admQueue = s.admQueue := by cases h <;> rfl
@[simp] theorem State.modCk_admitting (s : State) (h : Half) (f : ClockHalf → ClockHalf) : (s.modCk h f).admitting = s.admitting := by cases h <;> rfl
@[simp] theorem State.modCk_admStart (s : State) (h : Half) (f : ClockHalf → ClockHalf) : (s.modCk h f).admStart = s.admStart := by cases h <;> rfl
@[simp] theorem State.modCk_admTouched (s : State) (h : Half) (f : ClockHalf → ClockHalf) : (s.modCk h f).admTouched = s.admTouched := by cases h <;> rfl
@[simp] theorem State.modCk_admBy (s : State) (h : Half) (f : ClockHalf → ClockHalf) : (s.modCk h f).admBy = s.admBy := by cases h <;> rfl
@[simp] theorem State.modCk_twUsed (s : State) (h : Half) (f : ClockHalf → ClockHalf) : (s.modCk h f).twUsed = s.twUsed := by cases h <;> rfl
@[simp] theorem State.modCk_dm (s : State) (h : Half) (f : ClockHalf → ClockHalf) : (s.modCk h f).dm = s.dm := by cases h <;> rfl
@[simp] theorem State.modCk_le (s : State) (h : Half) (f : ClockHalf → ClockHalf) : (s.modCk h f).le = s.le := by cases h <;> rfl
@[simp] theorem State.modCk_heads (s : State) (h : Half) (f : ClockHalf → ClockHalf) : (s.modCk h f).heads = s.heads := by cases h <;> rfl
@[simp] theorem State.modCk_word (s : State) (h : Half) (f : ClockHalf → ClockHalf) (j : Nat) : (s.modCk h f).word j = s.word j := by cases h <;> rfl
@[simp] theorem State.modCk_rd (s : State) (h : Half) (f : ClockHalf → ClockHalf) (x : Fld) : (s.modCk h f).rd x = s.rd x := by cases h <;> rfl
@[simp] theorem State.modWh_pending (s : State) (h : Half) (f : WeltHalf → WeltHalf) : (s.modWh h f).pending = s.pending := by cases h <;> rfl
@[simp] theorem State.modWh_out (s : State) (h : Half) (f : WeltHalf → WeltHalf) : (s.modWh h f).out = s.out := by cases h <;> rfl
@[simp] theorem State.modWh_now (s : State) (h : Half) (f : WeltHalf → WeltHalf) : (s.modWh h f).now = s.now := by cases h <;> rfl
@[simp] theorem State.modWh_free (s : State) (h : Half) (f : WeltHalf → WeltHalf) : (s.modWh h f).free = s.free := by cases h <;> rfl
@[simp] theorem State.modWh_regs (s : State) (h : Half) (f : WeltHalf → WeltHalf) : (s.modWh h f).regs = s.regs := by cases h <;> rfl
@[simp] theorem State.modWh_mem (s : State) (h : Half) (f : WeltHalf → WeltHalf) : (s.modWh h f).mem = s.mem := by cases h <;> rfl
@[simp] theorem State.modWh_flash (s : State) (h : Half) (f : WeltHalf → WeltHalf) : (s.modWh h f).flash = s.flash := by cases h <;> rfl
@[simp] theorem State.modWh_fcA (s : State) (h : Half) (f : WeltHalf → WeltHalf) : (s.modWh h f).fcA = s.fcA := by cases h <;> rfl
@[simp] theorem State.modWh_fcB (s : State) (h : Half) (f : WeltHalf → WeltHalf) : (s.modWh h f).fcB = s.fcB := by cases h <;> rfl
@[simp] theorem State.modWh_tb (s : State) (h : Half) (f : WeltHalf → WeltHalf) : (s.modWh h f).tb = s.tb := by cases h <;> rfl
@[simp] theorem State.modWh_pwr (s : State) (h : Half) (f : WeltHalf → WeltHalf) : (s.modWh h f).pwr = s.pwr := by cases h <;> rfl
@[simp] theorem State.modWh_thA (s : State) (h : Half) (f : WeltHalf → WeltHalf) : (s.modWh h f).thA = s.thA := by cases h <;> rfl
@[simp] theorem State.modWh_thB (s : State) (h : Half) (f : WeltHalf → WeltHalf) : (s.modWh h f).thB = s.thB := by cases h <;> rfl
@[simp] theorem State.modWh_ckA (s : State) (h : Half) (f : WeltHalf → WeltHalf) : (s.modWh h f).ckA = s.ckA := by cases h <;> rfl
@[simp] theorem State.modWh_ckB (s : State) (h : Half) (f : WeltHalf → WeltHalf) : (s.modWh h f).ckB = s.ckB := by cases h <;> rfl
@[simp] theorem State.modWh_mg (s : State) (h : Half) (f : WeltHalf → WeltHalf) : (s.modWh h f).mg = s.mg := by cases h <;> rfl
@[simp] theorem State.modWh_sched (s : State) (h : Half) (f : WeltHalf → WeltHalf) : (s.modWh h f).sched = s.sched := by cases h <;> rfl
@[simp] theorem State.modWh_sched2 (s : State) (h : Half) (f : WeltHalf → WeltHalf) : (s.modWh h f).sched2 = s.sched2 := by cases h <;> rfl
@[simp] theorem State.modWh_tb2 (s : State) (h : Half) (f : WeltHalf → WeltHalf) : (s.modWh h f).tb2 = s.tb2 := by cases h <;> rfl
@[simp] theorem State.modWh_lasts (s : State) (h : Half) (f : WeltHalf → WeltHalf) : (s.modWh h f).lasts = s.lasts := by cases h <;> rfl
@[simp] theorem State.modWh_admQueue (s : State) (h : Half) (f : WeltHalf → WeltHalf) : (s.modWh h f).admQueue = s.admQueue := by cases h <;> rfl
@[simp] theorem State.modWh_admitting (s : State) (h : Half) (f : WeltHalf → WeltHalf) : (s.modWh h f).admitting = s.admitting := by cases h <;> rfl
@[simp] theorem State.modWh_admStart (s : State) (h : Half) (f : WeltHalf → WeltHalf) : (s.modWh h f).admStart = s.admStart := by cases h <;> rfl
@[simp] theorem State.modWh_admTouched (s : State) (h : Half) (f : WeltHalf → WeltHalf) : (s.modWh h f).admTouched = s.admTouched := by cases h <;> rfl
@[simp] theorem State.modWh_admBy (s : State) (h : Half) (f : WeltHalf → WeltHalf) : (s.modWh h f).admBy = s.admBy := by cases h <;> rfl
@[simp] theorem State.modWh_twUsed (s : State) (h : Half) (f : WeltHalf → WeltHalf) : (s.modWh h f).twUsed = s.twUsed := by cases h <;> rfl
@[simp] theorem State.modWh_dm (s : State) (h : Half) (f : WeltHalf → WeltHalf) : (s.modWh h f).dm = s.dm := by cases h <;> rfl
@[simp] theorem State.modWh_le (s : State) (h : Half) (f : WeltHalf → WeltHalf) : (s.modWh h f).le = s.le := by cases h <;> rfl
@[simp] theorem State.modWh_heads (s : State) (h : Half) (f : WeltHalf → WeltHalf) : (s.modWh h f).heads = s.heads := by cases h <;> rfl
@[simp] theorem State.modWh_word (s : State) (h : Half) (f : WeltHalf → WeltHalf) (j : Nat) : (s.modWh h f).word j = s.word j := by cases h <;> rfl
@[simp] theorem State.modWh_rd (s : State) (h : Half) (f : WeltHalf → WeltHalf) (x : Fld) : (s.modWh h f).rd x = s.rd x := by cases h <;> rfl
@[simp] theorem State.modTb_pending (s : State) (f : TimeBase → TimeBase) : (s.modTb f).pending = s.pending := rfl
@[simp] theorem State.modTb_out (s : State) (f : TimeBase → TimeBase) : (s.modTb f).out = s.out := rfl
@[simp] theorem State.modTb_now (s : State) (f : TimeBase → TimeBase) : (s.modTb f).now = s.now := rfl
@[simp] theorem State.modTb_free (s : State) (f : TimeBase → TimeBase) : (s.modTb f).free = s.free := rfl
@[simp] theorem State.modTb_regs (s : State) (f : TimeBase → TimeBase) : (s.modTb f).regs = s.regs := rfl
@[simp] theorem State.modTb_mem (s : State) (f : TimeBase → TimeBase) : (s.modTb f).mem = s.mem := rfl
@[simp] theorem State.modTb_flash (s : State) (f : TimeBase → TimeBase) : (s.modTb f).flash = s.flash := rfl
@[simp] theorem State.modTb_fcA (s : State) (f : TimeBase → TimeBase) : (s.modTb f).fcA = s.fcA := rfl
@[simp] theorem State.modTb_fcB (s : State) (f : TimeBase → TimeBase) : (s.modTb f).fcB = s.fcB := rfl
@[simp] theorem State.modTb_tb (s : State) (f : TimeBase → TimeBase) : (s.modTb f).tb = f s.tb := rfl
@[simp] theorem State.modTb_pwr (s : State) (f : TimeBase → TimeBase) : (s.modTb f).pwr = s.pwr := rfl
@[simp] theorem State.modTb_thA (s : State) (f : TimeBase → TimeBase) : (s.modTb f).thA = s.thA := rfl
@[simp] theorem State.modTb_thB (s : State) (f : TimeBase → TimeBase) : (s.modTb f).thB = s.thB := rfl
@[simp] theorem State.modTb_wl (s : State) (f : TimeBase → TimeBase) : (s.modTb f).wl = s.wl := rfl
@[simp] theorem State.modTb_ckA (s : State) (f : TimeBase → TimeBase) : (s.modTb f).ckA = s.ckA := rfl
@[simp] theorem State.modTb_ckB (s : State) (f : TimeBase → TimeBase) : (s.modTb f).ckB = s.ckB := rfl
@[simp] theorem State.modTb_mg (s : State) (f : TimeBase → TimeBase) : (s.modTb f).mg = s.mg := rfl
@[simp] theorem State.modTb_sched (s : State) (f : TimeBase → TimeBase) : (s.modTb f).sched = s.sched := rfl
@[simp] theorem State.modTb_sched2 (s : State) (f : TimeBase → TimeBase) : (s.modTb f).sched2 = s.sched2 := rfl
@[simp] theorem State.modTb_tb2 (s : State) (f : TimeBase → TimeBase) : (s.modTb f).tb2 = s.tb2 := rfl
@[simp] theorem State.modTb_lasts (s : State) (f : TimeBase → TimeBase) : (s.modTb f).lasts = s.lasts := rfl
@[simp] theorem State.modTb_admQueue (s : State) (f : TimeBase → TimeBase) : (s.modTb f).admQueue = s.admQueue := rfl
@[simp] theorem State.modTb_admitting (s : State) (f : TimeBase → TimeBase) : (s.modTb f).admitting = s.admitting := rfl
@[simp] theorem State.modTb_admStart (s : State) (f : TimeBase → TimeBase) : (s.modTb f).admStart = s.admStart := rfl
@[simp] theorem State.modTb_admTouched (s : State) (f : TimeBase → TimeBase) : (s.modTb f).admTouched = s.admTouched := rfl
@[simp] theorem State.modTb_admBy (s : State) (f : TimeBase → TimeBase) : (s.modTb f).admBy = s.admBy := rfl
@[simp] theorem State.modTb_twUsed (s : State) (f : TimeBase → TimeBase) : (s.modTb f).twUsed = s.twUsed := rfl
@[simp] theorem State.modTb_dm (s : State) (f : TimeBase → TimeBase) : (s.modTb f).dm = s.dm := rfl
@[simp] theorem State.modTb_le (s : State) (f : TimeBase → TimeBase) : (s.modTb f).le = s.le := rfl
@[simp] theorem State.modTb_heads (s : State) (f : TimeBase → TimeBase) : (s.modTb f).heads = s.heads := rfl
@[simp] theorem State.modTb_word (s : State) (f : TimeBase → TimeBase) (j : Nat) : (s.modTb f).word j = s.word j := rfl
@[simp] theorem State.modTb_rd (s : State) (f : TimeBase → TimeBase) (x : Fld) : (s.modTb f).rd x = s.rd x := rfl
@[simp] theorem State.modPwr_pending (s : State) (f : Power → Power) : (s.modPwr f).pending = s.pending := rfl
@[simp] theorem State.modPwr_out (s : State) (f : Power → Power) : (s.modPwr f).out = s.out := rfl
@[simp] theorem State.modPwr_now (s : State) (f : Power → Power) : (s.modPwr f).now = s.now := rfl
@[simp] theorem State.modPwr_free (s : State) (f : Power → Power) : (s.modPwr f).free = s.free := rfl
@[simp] theorem State.modPwr_regs (s : State) (f : Power → Power) : (s.modPwr f).regs = s.regs := rfl
@[simp] theorem State.modPwr_mem (s : State) (f : Power → Power) : (s.modPwr f).mem = s.mem := rfl
@[simp] theorem State.modPwr_flash (s : State) (f : Power → Power) : (s.modPwr f).flash = s.flash := rfl
@[simp] theorem State.modPwr_fcA (s : State) (f : Power → Power) : (s.modPwr f).fcA = s.fcA := rfl
@[simp] theorem State.modPwr_fcB (s : State) (f : Power → Power) : (s.modPwr f).fcB = s.fcB := rfl
@[simp] theorem State.modPwr_tb (s : State) (f : Power → Power) : (s.modPwr f).tb = s.tb := rfl
@[simp] theorem State.modPwr_pwr (s : State) (f : Power → Power) : (s.modPwr f).pwr = f s.pwr := rfl
@[simp] theorem State.modPwr_thA (s : State) (f : Power → Power) : (s.modPwr f).thA = s.thA := rfl
@[simp] theorem State.modPwr_thB (s : State) (f : Power → Power) : (s.modPwr f).thB = s.thB := rfl
@[simp] theorem State.modPwr_wl (s : State) (f : Power → Power) : (s.modPwr f).wl = s.wl := rfl
@[simp] theorem State.modPwr_ckA (s : State) (f : Power → Power) : (s.modPwr f).ckA = s.ckA := rfl
@[simp] theorem State.modPwr_ckB (s : State) (f : Power → Power) : (s.modPwr f).ckB = s.ckB := rfl
@[simp] theorem State.modPwr_mg (s : State) (f : Power → Power) : (s.modPwr f).mg = s.mg := rfl
@[simp] theorem State.modPwr_sched (s : State) (f : Power → Power) : (s.modPwr f).sched = s.sched := rfl
@[simp] theorem State.modPwr_sched2 (s : State) (f : Power → Power) : (s.modPwr f).sched2 = s.sched2 := rfl
@[simp] theorem State.modPwr_tb2 (s : State) (f : Power → Power) : (s.modPwr f).tb2 = s.tb2 := rfl
@[simp] theorem State.modPwr_lasts (s : State) (f : Power → Power) : (s.modPwr f).lasts = s.lasts := rfl
@[simp] theorem State.modPwr_admQueue (s : State) (f : Power → Power) : (s.modPwr f).admQueue = s.admQueue := rfl
@[simp] theorem State.modPwr_admitting (s : State) (f : Power → Power) : (s.modPwr f).admitting = s.admitting := rfl
@[simp] theorem State.modPwr_admStart (s : State) (f : Power → Power) : (s.modPwr f).admStart = s.admStart := rfl
@[simp] theorem State.modPwr_admTouched (s : State) (f : Power → Power) : (s.modPwr f).admTouched = s.admTouched := rfl
@[simp] theorem State.modPwr_admBy (s : State) (f : Power → Power) : (s.modPwr f).admBy = s.admBy := rfl
@[simp] theorem State.modPwr_twUsed (s : State) (f : Power → Power) : (s.modPwr f).twUsed = s.twUsed := rfl
@[simp] theorem State.modPwr_dm (s : State) (f : Power → Power) : (s.modPwr f).dm = s.dm := rfl
@[simp] theorem State.modPwr_le (s : State) (f : Power → Power) : (s.modPwr f).le = s.le := rfl
@[simp] theorem State.modPwr_heads (s : State) (f : Power → Power) : (s.modPwr f).heads = s.heads := rfl
@[simp] theorem State.modPwr_word (s : State) (f : Power → Power) (j : Nat) : (s.modPwr f).word j = s.word j := rfl
@[simp] theorem State.modPwr_rd (s : State) (f : Power → Power) (x : Fld) : (s.modPwr f).rd x = s.rd x := rfl
@[simp] theorem State.modMg_pending (s : State) (f : Manage → Manage) : (s.modMg f).pending = s.pending := rfl
@[simp] theorem State.modMg_out (s : State) (f : Manage → Manage) : (s.modMg f).out = s.out := rfl
@[simp] theorem State.modMg_now (s : State) (f : Manage → Manage) : (s.modMg f).now = s.now := rfl
@[simp] theorem State.modMg_free (s : State) (f : Manage → Manage) : (s.modMg f).free = s.free := rfl
@[simp] theorem State.modMg_regs (s : State) (f : Manage → Manage) : (s.modMg f).regs = s.regs := rfl
@[simp] theorem State.modMg_mem (s : State) (f : Manage → Manage) : (s.modMg f).mem = s.mem := rfl
@[simp] theorem State.modMg_flash (s : State) (f : Manage → Manage) : (s.modMg f).flash = s.flash := rfl
@[simp] theorem State.modMg_fcA (s : State) (f : Manage → Manage) : (s.modMg f).fcA = s.fcA := rfl
@[simp] theorem State.modMg_fcB (s : State) (f : Manage → Manage) : (s.modMg f).fcB = s.fcB := rfl
@[simp] theorem State.modMg_tb (s : State) (f : Manage → Manage) : (s.modMg f).tb = s.tb := rfl
@[simp] theorem State.modMg_pwr (s : State) (f : Manage → Manage) : (s.modMg f).pwr = s.pwr := rfl
@[simp] theorem State.modMg_thA (s : State) (f : Manage → Manage) : (s.modMg f).thA = s.thA := rfl
@[simp] theorem State.modMg_thB (s : State) (f : Manage → Manage) : (s.modMg f).thB = s.thB := rfl
@[simp] theorem State.modMg_wl (s : State) (f : Manage → Manage) : (s.modMg f).wl = s.wl := rfl
@[simp] theorem State.modMg_ckA (s : State) (f : Manage → Manage) : (s.modMg f).ckA = s.ckA := rfl
@[simp] theorem State.modMg_ckB (s : State) (f : Manage → Manage) : (s.modMg f).ckB = s.ckB := rfl
@[simp] theorem State.modMg_mg (s : State) (f : Manage → Manage) : (s.modMg f).mg = f s.mg := rfl
@[simp] theorem State.modMg_sched (s : State) (f : Manage → Manage) : (s.modMg f).sched = s.sched := rfl
@[simp] theorem State.modMg_sched2 (s : State) (f : Manage → Manage) : (s.modMg f).sched2 = s.sched2 := rfl
@[simp] theorem State.modMg_tb2 (s : State) (f : Manage → Manage) : (s.modMg f).tb2 = s.tb2 := rfl
@[simp] theorem State.modMg_lasts (s : State) (f : Manage → Manage) : (s.modMg f).lasts = s.lasts := rfl
@[simp] theorem State.modMg_admQueue (s : State) (f : Manage → Manage) : (s.modMg f).admQueue = s.admQueue := rfl
@[simp] theorem State.modMg_admitting (s : State) (f : Manage → Manage) : (s.modMg f).admitting = s.admitting := rfl
@[simp] theorem State.modMg_admStart (s : State) (f : Manage → Manage) : (s.modMg f).admStart = s.admStart := rfl
@[simp] theorem State.modMg_admTouched (s : State) (f : Manage → Manage) : (s.modMg f).admTouched = s.admTouched := rfl
@[simp] theorem State.modMg_admBy (s : State) (f : Manage → Manage) : (s.modMg f).admBy = s.admBy := rfl
@[simp] theorem State.modMg_twUsed (s : State) (f : Manage → Manage) : (s.modMg f).twUsed = s.twUsed := rfl
@[simp] theorem State.modMg_dm (s : State) (f : Manage → Manage) : (s.modMg f).dm = s.dm := rfl
@[simp] theorem State.modMg_le (s : State) (f : Manage → Manage) : (s.modMg f).le = s.le := rfl
@[simp] theorem State.modMg_heads (s : State) (f : Manage → Manage) : (s.modMg f).heads = s.heads := rfl
@[simp] theorem State.modMg_word (s : State) (f : Manage → Manage) (j : Nat) : (s.modMg f).word j = s.word j := rfl
@[simp] theorem State.modMg_rd (s : State) (f : Manage → Manage) (x : Fld) : (s.modMg f).rd x = s.rd x := rfl
@[simp] theorem State.modWl_pending (s : State) (f : Welt → Welt) : (s.modWl f).pending = s.pending := rfl
@[simp] theorem State.modWl_out (s : State) (f : Welt → Welt) : (s.modWl f).out = s.out := rfl
@[simp] theorem State.modWl_now (s : State) (f : Welt → Welt) : (s.modWl f).now = s.now := rfl
@[simp] theorem State.modWl_free (s : State) (f : Welt → Welt) : (s.modWl f).free = s.free := rfl
@[simp] theorem State.modWl_regs (s : State) (f : Welt → Welt) : (s.modWl f).regs = s.regs := rfl
@[simp] theorem State.modWl_mem (s : State) (f : Welt → Welt) : (s.modWl f).mem = s.mem := rfl
@[simp] theorem State.modWl_flash (s : State) (f : Welt → Welt) : (s.modWl f).flash = s.flash := rfl
@[simp] theorem State.modWl_fcA (s : State) (f : Welt → Welt) : (s.modWl f).fcA = s.fcA := rfl
@[simp] theorem State.modWl_fcB (s : State) (f : Welt → Welt) : (s.modWl f).fcB = s.fcB := rfl
@[simp] theorem State.modWl_tb (s : State) (f : Welt → Welt) : (s.modWl f).tb = s.tb := rfl
@[simp] theorem State.modWl_pwr (s : State) (f : Welt → Welt) : (s.modWl f).pwr = s.pwr := rfl
@[simp] theorem State.modWl_thA (s : State) (f : Welt → Welt) : (s.modWl f).thA = s.thA := rfl
@[simp] theorem State.modWl_thB (s : State) (f : Welt → Welt) : (s.modWl f).thB = s.thB := rfl
@[simp] theorem State.modWl_wl (s : State) (f : Welt → Welt) : (s.modWl f).wl = f s.wl := rfl
@[simp] theorem State.modWl_ckA (s : State) (f : Welt → Welt) : (s.modWl f).ckA = s.ckA := rfl
@[simp] theorem State.modWl_ckB (s : State) (f : Welt → Welt) : (s.modWl f).ckB = s.ckB := rfl
@[simp] theorem State.modWl_mg (s : State) (f : Welt → Welt) : (s.modWl f).mg = s.mg := rfl
@[simp] theorem State.modWl_sched (s : State) (f : Welt → Welt) : (s.modWl f).sched = s.sched := rfl
@[simp] theorem State.modWl_sched2 (s : State) (f : Welt → Welt) : (s.modWl f).sched2 = s.sched2 := rfl
@[simp] theorem State.modWl_tb2 (s : State) (f : Welt → Welt) : (s.modWl f).tb2 = s.tb2 := rfl
@[simp] theorem State.modWl_lasts (s : State) (f : Welt → Welt) : (s.modWl f).lasts = s.lasts := rfl
@[simp] theorem State.modWl_admQueue (s : State) (f : Welt → Welt) : (s.modWl f).admQueue = s.admQueue := rfl
@[simp] theorem State.modWl_admitting (s : State) (f : Welt → Welt) : (s.modWl f).admitting = s.admitting := rfl
@[simp] theorem State.modWl_admStart (s : State) (f : Welt → Welt) : (s.modWl f).admStart = s.admStart := rfl
@[simp] theorem State.modWl_admTouched (s : State) (f : Welt → Welt) : (s.modWl f).admTouched = s.admTouched := rfl
@[simp] theorem State.modWl_admBy (s : State) (f : Welt → Welt) : (s.modWl f).admBy = s.admBy := rfl
@[simp] theorem State.modWl_twUsed (s : State) (f : Welt → Welt) : (s.modWl f).twUsed = s.twUsed := rfl
@[simp] theorem State.modWl_dm (s : State) (f : Welt → Welt) : (s.modWl f).dm = s.dm := rfl
@[simp] theorem State.modWl_le (s : State) (f : Welt → Welt) : (s.modWl f).le = s.le := rfl
@[simp] theorem State.modWl_heads (s : State) (f : Welt → Welt) : (s.modWl f).heads = s.heads := rfl
@[simp] theorem State.modWl_word (s : State) (f : Welt → Welt) (j : Nat) : (s.modWl f).word j = s.word j := rfl
@[simp] theorem State.modWl_rd (s : State) (f : Welt → Welt) (x : Fld) : (s.modWl f).rd x = s.rd x := rfl
@[simp] theorem State.advance_pending (s : State) (n : Nat) : (s.advance n).pending = s.pending := rfl
@[simp] theorem State.advance_out (s : State) (n : Nat) : (s.advance n).out = s.out := rfl
@[simp] theorem State.advance_now (s : State) (n : Nat) : (s.advance n).now = s.now + n := rfl
@[simp] theorem State.advance_free (s : State) (n : Nat) : (s.advance n).free = s.free := rfl
@[simp] theorem State.advance_regs (s : State) (n : Nat) : (s.advance n).regs = s.regs := rfl
@[simp] theorem State.advance_mem (s : State) (n : Nat) : (s.advance n).mem = s.mem := rfl
@[simp] theorem State.advance_flash (s : State) (n : Nat) : (s.advance n).flash = s.flash := rfl
@[simp] theorem State.advance_fcA (s : State) (n : Nat) : (s.advance n).fcA = s.fcA := rfl
@[simp] theorem State.advance_fcB (s : State) (n : Nat) : (s.advance n).fcB = s.fcB := rfl
@[simp] theorem State.advance_tb (s : State) (n : Nat) : (s.advance n).tb = s.tb.pass n := rfl
@[simp] theorem State.advance_pwr (s : State) (n : Nat) : (s.advance n).pwr = s.pwr := rfl
@[simp] theorem State.advance_thA (s : State) (n : Nat) : (s.advance n).thA = s.thA := rfl
@[simp] theorem State.advance_thB (s : State) (n : Nat) : (s.advance n).thB = s.thB := rfl
@[simp] theorem State.advance_wl (s : State) (n : Nat) : (s.advance n).wl = s.wl := rfl
@[simp] theorem State.advance_ckA (s : State) (n : Nat) : (s.advance n).ckA = s.ckA := rfl
@[simp] theorem State.advance_ckB (s : State) (n : Nat) : (s.advance n).ckB = s.ckB := rfl
@[simp] theorem State.advance_mg (s : State) (n : Nat) : (s.advance n).mg = s.mg := rfl
@[simp] theorem State.advance_sched (s : State) (n : Nat) : (s.advance n).sched = s.sched := rfl
@[simp] theorem State.advance_sched2 (s : State) (n : Nat) : (s.advance n).sched2 = s.sched2 := rfl
@[simp] theorem State.advance_tb2 (s : State) (n : Nat) : (s.advance n).tb2 = s.tb2.map fun x => (x.1.pass n, x.2) := rfl
@[simp] theorem State.advance_lasts (s : State) (n : Nat) : (s.advance n).lasts = s.lasts := rfl
@[simp] theorem State.advance_admQueue (s : State) (n : Nat) : (s.advance n).admQueue = s.admQueue := rfl
@[simp] theorem State.advance_admitting (s : State) (n : Nat) : (s.advance n).admitting = s.admitting := rfl
@[simp] theorem State.advance_admStart (s : State) (n : Nat) : (s.advance n).admStart = s.admStart := rfl
@[simp] theorem State.advance_admTouched (s : State) (n : Nat) : (s.advance n).admTouched = s.admTouched := rfl
@[simp] theorem State.advance_admBy (s : State) (n : Nat) : (s.advance n).admBy = s.admBy := rfl
@[simp] theorem State.advance_twUsed (s : State) (n : Nat) : (s.advance n).twUsed = s.twUsed := rfl
@[simp] theorem State.advance_dm (s : State) (n : Nat) : (s.advance n).dm = s.dm := rfl
@[simp] theorem State.advance_le (s : State) (n : Nat) : (s.advance n).le = s.le := rfl
@[simp] theorem State.advance_heads (s : State) (n : Nat) : (s.advance n).heads = s.heads := rfl
@[simp] theorem State.advance_word (s : State) (n : Nat) (j : Nat) : (s.advance n).word j = s.word j := rfl
@[simp] theorem State.advance_rd (s : State) (n : Nat) (x : Fld) : (s.advance n).rd x = s.rd x := rfl
@[simp] theorem State.modScheds_pending (s : State) (f : Sched → Sched) : (s.modScheds f).pending = s.pending := rfl
@[simp] theorem State.modScheds_out (s : State) (f : Sched → Sched) : (s.modScheds f).out = s.out := rfl
@[simp] theorem State.modScheds_now (s : State) (f : Sched → Sched) : (s.modScheds f).now = s.now := rfl
@[simp] theorem State.modScheds_free (s : State) (f : Sched → Sched) : (s.modScheds f).free = s.free := rfl
@[simp] theorem State.modScheds_regs (s : State) (f : Sched → Sched) : (s.modScheds f).regs = s.regs := rfl
@[simp] theorem State.modScheds_mem (s : State) (f : Sched → Sched) : (s.modScheds f).mem = s.mem := rfl
@[simp] theorem State.modScheds_flash (s : State) (f : Sched → Sched) : (s.modScheds f).flash = s.flash := rfl
@[simp] theorem State.modScheds_fcA (s : State) (f : Sched → Sched) : (s.modScheds f).fcA = s.fcA := rfl
@[simp] theorem State.modScheds_fcB (s : State) (f : Sched → Sched) : (s.modScheds f).fcB = s.fcB := rfl
@[simp] theorem State.modScheds_tb (s : State) (f : Sched → Sched) : (s.modScheds f).tb = s.tb := rfl
@[simp] theorem State.modScheds_pwr (s : State) (f : Sched → Sched) : (s.modScheds f).pwr = s.pwr := rfl
@[simp] theorem State.modScheds_thA (s : State) (f : Sched → Sched) : (s.modScheds f).thA = s.thA := rfl
@[simp] theorem State.modScheds_thB (s : State) (f : Sched → Sched) : (s.modScheds f).thB = s.thB := rfl
@[simp] theorem State.modScheds_wl (s : State) (f : Sched → Sched) : (s.modScheds f).wl = s.wl := rfl
@[simp] theorem State.modScheds_ckA (s : State) (f : Sched → Sched) : (s.modScheds f).ckA = s.ckA := rfl
@[simp] theorem State.modScheds_ckB (s : State) (f : Sched → Sched) : (s.modScheds f).ckB = s.ckB := rfl
@[simp] theorem State.modScheds_mg (s : State) (f : Sched → Sched) : (s.modScheds f).mg = s.mg := rfl
@[simp] theorem State.modScheds_sched (s : State) (f : Sched → Sched) : (s.modScheds f).sched = f s.sched := rfl
@[simp] theorem State.modScheds_tb2 (s : State) (f : Sched → Sched) : (s.modScheds f).tb2 = s.tb2 := rfl
@[simp] theorem State.modScheds_lasts (s : State) (f : Sched → Sched) : (s.modScheds f).lasts = s.lasts := rfl
@[simp] theorem State.modScheds_admQueue (s : State) (f : Sched → Sched) : (s.modScheds f).admQueue = s.admQueue := rfl
@[simp] theorem State.modScheds_admitting (s : State) (f : Sched → Sched) : (s.modScheds f).admitting = s.admitting := rfl
@[simp] theorem State.modScheds_admStart (s : State) (f : Sched → Sched) : (s.modScheds f).admStart = s.admStart := rfl
@[simp] theorem State.modScheds_admTouched (s : State) (f : Sched → Sched) : (s.modScheds f).admTouched = s.admTouched := rfl
@[simp] theorem State.modScheds_admBy (s : State) (f : Sched → Sched) : (s.modScheds f).admBy = s.admBy := rfl
@[simp] theorem State.modScheds_twUsed (s : State) (f : Sched → Sched) : (s.modScheds f).twUsed = s.twUsed := rfl
@[simp] theorem State.modScheds_dm (s : State) (f : Sched → Sched) : (s.modScheds f).dm = s.dm := rfl
@[simp] theorem State.modScheds_le (s : State) (f : Sched → Sched) : (s.modScheds f).le = s.le := rfl
@[simp] theorem State.modScheds_heads (s : State) (f : Sched → Sched) : (s.modScheds f).heads = s.heads := rfl
@[simp] theorem State.modScheds_word (s : State) (f : Sched → Sched) (j : Nat) : (s.modScheds f).word j = s.word j := rfl
@[simp] theorem State.modScheds_rd (s : State) (f : Sched → Sched) (x : Fld) : (s.modScheds f).rd x = s.rd x := rfl
@[simp] theorem State.modDm_pending (s : State) (f : Mem → Mem) : (s.modDm f).pending = s.pending := rfl
@[simp] theorem State.modDm_out (s : State) (f : Mem → Mem) : (s.modDm f).out = s.out := rfl
@[simp] theorem State.modDm_now (s : State) (f : Mem → Mem) : (s.modDm f).now = s.now := rfl
@[simp] theorem State.modDm_free (s : State) (f : Mem → Mem) : (s.modDm f).free = s.free := rfl
@[simp] theorem State.modDm_regs (s : State) (f : Mem → Mem) : (s.modDm f).regs = s.regs := rfl
@[simp] theorem State.modDm_mem (s : State) (f : Mem → Mem) : (s.modDm f).mem = s.mem := rfl
@[simp] theorem State.modDm_flash (s : State) (f : Mem → Mem) : (s.modDm f).flash = s.flash := rfl
@[simp] theorem State.modDm_fcA (s : State) (f : Mem → Mem) : (s.modDm f).fcA = s.fcA := rfl
@[simp] theorem State.modDm_fcB (s : State) (f : Mem → Mem) : (s.modDm f).fcB = s.fcB := rfl
@[simp] theorem State.modDm_tb (s : State) (f : Mem → Mem) : (s.modDm f).tb = s.tb := rfl
@[simp] theorem State.modDm_pwr (s : State) (f : Mem → Mem) : (s.modDm f).pwr = s.pwr := rfl
@[simp] theorem State.modDm_thA (s : State) (f : Mem → Mem) : (s.modDm f).thA = s.thA := rfl
@[simp] theorem State.modDm_thB (s : State) (f : Mem → Mem) : (s.modDm f).thB = s.thB := rfl
@[simp] theorem State.modDm_wl (s : State) (f : Mem → Mem) : (s.modDm f).wl = s.wl := rfl
@[simp] theorem State.modDm_ckA (s : State) (f : Mem → Mem) : (s.modDm f).ckA = s.ckA := rfl
@[simp] theorem State.modDm_ckB (s : State) (f : Mem → Mem) : (s.modDm f).ckB = s.ckB := rfl
@[simp] theorem State.modDm_mg (s : State) (f : Mem → Mem) : (s.modDm f).mg = s.mg := rfl
@[simp] theorem State.modDm_sched (s : State) (f : Mem → Mem) : (s.modDm f).sched = s.sched := rfl
@[simp] theorem State.modDm_sched2 (s : State) (f : Mem → Mem) : (s.modDm f).sched2 = s.sched2 := rfl
@[simp] theorem State.modDm_tb2 (s : State) (f : Mem → Mem) : (s.modDm f).tb2 = s.tb2 := rfl
@[simp] theorem State.modDm_lasts (s : State) (f : Mem → Mem) : (s.modDm f).lasts = s.lasts := rfl
@[simp] theorem State.modDm_admQueue (s : State) (f : Mem → Mem) : (s.modDm f).admQueue = s.admQueue := rfl
@[simp] theorem State.modDm_admitting (s : State) (f : Mem → Mem) : (s.modDm f).admitting = s.admitting := rfl
@[simp] theorem State.modDm_admStart (s : State) (f : Mem → Mem) : (s.modDm f).admStart = s.admStart := rfl
@[simp] theorem State.modDm_admTouched (s : State) (f : Mem → Mem) : (s.modDm f).admTouched = s.admTouched := rfl
@[simp] theorem State.modDm_admBy (s : State) (f : Mem → Mem) : (s.modDm f).admBy = s.admBy := rfl
@[simp] theorem State.modDm_twUsed (s : State) (f : Mem → Mem) : (s.modDm f).twUsed = s.twUsed := rfl
@[simp] theorem State.modDm_dm (s : State) (f : Mem → Mem) : (s.modDm f).dm = f s.dm := rfl
@[simp] theorem State.modDm_le (s : State) (f : Mem → Mem) : (s.modDm f).le = s.le := rfl
@[simp] theorem State.modDm_heads (s : State) (f : Mem → Mem) : (s.modDm f).heads = s.heads := rfl
@[simp] theorem State.modDm_word (s : State) (f : Mem → Mem) (j : Nat) : (s.modDm f).word j = s.word j := rfl
@[simp] theorem State.modDm_rd (s : State) (f : Mem → Mem) (x : Fld) : (s.modDm f).rd x = s.rd x := rfl
@[simp] theorem State.modHead_pending (s : State) (n : Nat) (f : Head → Head) : (s.modHead n f).pending = s.pending := rfl
@[simp] theorem State.modHead_out (s : State) (n : Nat) (f : Head → Head) : (s.modHead n f).out = s.out := rfl
@[simp] theorem State.modHead_now (s : State) (n : Nat) (f : Head → Head) : (s.modHead n f).now = s.now := rfl
@[simp] theorem State.modHead_free (s : State) (n : Nat) (f : Head → Head) : (s.modHead n f).free = s.free := rfl
@[simp] theorem State.modHead_regs (s : State) (n : Nat) (f : Head → Head) : (s.modHead n f).regs = s.regs := rfl
@[simp] theorem State.modHead_mem (s : State) (n : Nat) (f : Head → Head) : (s.modHead n f).mem = s.mem := rfl
@[simp] theorem State.modHead_flash (s : State) (n : Nat) (f : Head → Head) : (s.modHead n f).flash = s.flash := rfl
@[simp] theorem State.modHead_fcA (s : State) (n : Nat) (f : Head → Head) : (s.modHead n f).fcA = s.fcA := rfl
@[simp] theorem State.modHead_fcB (s : State) (n : Nat) (f : Head → Head) : (s.modHead n f).fcB = s.fcB := rfl
@[simp] theorem State.modHead_tb (s : State) (n : Nat) (f : Head → Head) : (s.modHead n f).tb = s.tb := rfl
@[simp] theorem State.modHead_pwr (s : State) (n : Nat) (f : Head → Head) : (s.modHead n f).pwr = s.pwr := rfl
@[simp] theorem State.modHead_thA (s : State) (n : Nat) (f : Head → Head) : (s.modHead n f).thA = s.thA := rfl
@[simp] theorem State.modHead_thB (s : State) (n : Nat) (f : Head → Head) : (s.modHead n f).thB = s.thB := rfl
@[simp] theorem State.modHead_wl (s : State) (n : Nat) (f : Head → Head) : (s.modHead n f).wl = s.wl := rfl
@[simp] theorem State.modHead_ckA (s : State) (n : Nat) (f : Head → Head) : (s.modHead n f).ckA = s.ckA := rfl
@[simp] theorem State.modHead_ckB (s : State) (n : Nat) (f : Head → Head) : (s.modHead n f).ckB = s.ckB := rfl
@[simp] theorem State.modHead_mg (s : State) (n : Nat) (f : Head → Head) : (s.modHead n f).mg = s.mg := rfl
@[simp] theorem State.modHead_sched (s : State) (n : Nat) (f : Head → Head) : (s.modHead n f).sched = s.sched := rfl
@[simp] theorem State.modHead_sched2 (s : State) (n : Nat) (f : Head → Head) : (s.modHead n f).sched2 = s.sched2 := rfl
@[simp] theorem State.modHead_tb2 (s : State) (n : Nat) (f : Head → Head) : (s.modHead n f).tb2 = s.tb2 := rfl
@[simp] theorem State.modHead_lasts (s : State) (n : Nat) (f : Head → Head) : (s.modHead n f).lasts = s.lasts := rfl
@[simp] theorem State.modHead_admQueue (s : State) (n : Nat) (f : Head → Head) : (s.modHead n f).admQueue = s.admQueue := rfl
@[simp] theorem State.modHead_admitting (s : State) (n : Nat) (f : Head → Head) : (s.modHead n f).admitting = s.admitting := rfl
@[simp] theorem State.modHead_admStart (s : State) (n : Nat) (f : Head → Head) : (s.modHead n f).admStart = s.admStart := rfl
@[simp] theorem State.modHead_admTouched (s : State) (n : Nat) (f : Head → Head) : (s.modHead n f).admTouched = s.admTouched := rfl
@[simp] theorem State.modHead_admBy (s : State) (n : Nat) (f : Head → Head) : (s.modHead n f).admBy = s.admBy := rfl
@[simp] theorem State.modHead_twUsed (s : State) (n : Nat) (f : Head → Head) : (s.modHead n f).twUsed = s.twUsed := rfl
@[simp] theorem State.modHead_dm (s : State) (n : Nat) (f : Head → Head) : (s.modHead n f).dm = s.dm := rfl
@[simp] theorem State.modHead_le (s : State) (n : Nat) (f : Head → Head) : (s.modHead n f).le = s.le := rfl
@[simp] theorem State.modHead_heads (s : State) (n : Nat) (f : Head → Head) : (s.modHead n f).heads = s.heads.setIfInBounds n (f (s.head n)) := rfl
@[simp] theorem State.modHead_word (s : State) (n : Nat) (f : Head → Head) (j : Nat) : (s.modHead n f).word j = s.word j := rfl
@[simp] theorem State.modHead_rd (s : State) (n : Nat) (f : Head → Head) (x : Fld) : (s.modHead n f).rd x = s.rd x := rfl
@[simp] theorem State.modLe_pending (s : State) (f : Lamps → Lamps) : (s.modLe f).pending = s.pending := rfl
@[simp] theorem State.modLe_out (s : State) (f : Lamps → Lamps) : (s.modLe f).out = s.out := rfl
@[simp] theorem State.modLe_now (s : State) (f : Lamps → Lamps) : (s.modLe f).now = s.now := rfl
@[simp] theorem State.modLe_free (s : State) (f : Lamps → Lamps) : (s.modLe f).free = s.free := rfl
@[simp] theorem State.modLe_regs (s : State) (f : Lamps → Lamps) : (s.modLe f).regs = s.regs := rfl
@[simp] theorem State.modLe_mem (s : State) (f : Lamps → Lamps) : (s.modLe f).mem = s.mem := rfl
@[simp] theorem State.modLe_flash (s : State) (f : Lamps → Lamps) : (s.modLe f).flash = s.flash := rfl
@[simp] theorem State.modLe_fcA (s : State) (f : Lamps → Lamps) : (s.modLe f).fcA = s.fcA := rfl
@[simp] theorem State.modLe_fcB (s : State) (f : Lamps → Lamps) : (s.modLe f).fcB = s.fcB := rfl
@[simp] theorem State.modLe_tb (s : State) (f : Lamps → Lamps) : (s.modLe f).tb = s.tb := rfl
@[simp] theorem State.modLe_pwr (s : State) (f : Lamps → Lamps) : (s.modLe f).pwr = s.pwr := rfl
@[simp] theorem State.modLe_thA (s : State) (f : Lamps → Lamps) : (s.modLe f).thA = s.thA := rfl
@[simp] theorem State.modLe_thB (s : State) (f : Lamps → Lamps) : (s.modLe f).thB = s.thB := rfl
@[simp] theorem State.modLe_wl (s : State) (f : Lamps → Lamps) : (s.modLe f).wl = s.wl := rfl
@[simp] theorem State.modLe_ckA (s : State) (f : Lamps → Lamps) : (s.modLe f).ckA = s.ckA := rfl
@[simp] theorem State.modLe_ckB (s : State) (f : Lamps → Lamps) : (s.modLe f).ckB = s.ckB := rfl
@[simp] theorem State.modLe_mg (s : State) (f : Lamps → Lamps) : (s.modLe f).mg = s.mg := rfl
@[simp] theorem State.modLe_sched (s : State) (f : Lamps → Lamps) : (s.modLe f).sched = s.sched := rfl
@[simp] theorem State.modLe_sched2 (s : State) (f : Lamps → Lamps) : (s.modLe f).sched2 = s.sched2 := rfl
@[simp] theorem State.modLe_tb2 (s : State) (f : Lamps → Lamps) : (s.modLe f).tb2 = s.tb2 := rfl
@[simp] theorem State.modLe_lasts (s : State) (f : Lamps → Lamps) : (s.modLe f).lasts = s.lasts := rfl
@[simp] theorem State.modLe_admQueue (s : State) (f : Lamps → Lamps) : (s.modLe f).admQueue = s.admQueue := rfl
@[simp] theorem State.modLe_admitting (s : State) (f : Lamps → Lamps) : (s.modLe f).admitting = s.admitting := rfl
@[simp] theorem State.modLe_admStart (s : State) (f : Lamps → Lamps) : (s.modLe f).admStart = s.admStart := rfl
@[simp] theorem State.modLe_admTouched (s : State) (f : Lamps → Lamps) : (s.modLe f).admTouched = s.admTouched := rfl
@[simp] theorem State.modLe_admBy (s : State) (f : Lamps → Lamps) : (s.modLe f).admBy = s.admBy := rfl
@[simp] theorem State.modLe_twUsed (s : State) (f : Lamps → Lamps) : (s.modLe f).twUsed = s.twUsed := rfl
@[simp] theorem State.modLe_dm (s : State) (f : Lamps → Lamps) : (s.modLe f).dm = s.dm := rfl
@[simp] theorem State.modLe_le (s : State) (f : Lamps → Lamps) : (s.modLe f).le = f s.le := rfl
@[simp] theorem State.modLe_heads (s : State) (f : Lamps → Lamps) : (s.modLe f).heads = s.heads := rfl
@[simp] theorem State.modLe_word (s : State) (f : Lamps → Lamps) (j : Nat) : (s.modLe f).word j = s.word j := rfl
@[simp] theorem State.modLe_rd (s : State) (f : Lamps → Lamps) (x : Fld) : (s.modLe f).rd x = s.rd x := rfl

@[simp] theorem State.modFc_fc (s : State) (h : Half) (f : FcStore → FcStore) : (s.modFc h f).fc h = f (s.fc h) := by cases h <;> rfl
@[simp] theorem State.modFc_fc_other (s : State) (h : Half) (f : FcStore → FcStore) : (s.modFc h f).fc h.other = s.fc h.other := by cases h <;> rfl
@[simp] theorem State.modTh_th (s : State) (h : Half) (f : Thermal → Thermal) : (s.modTh h f).th h = f (s.th h) := by cases h <;> rfl
@[simp] theorem State.modCk_ck (s : State) (h : Half) (f : ClockHalf → ClockHalf) : (s.modCk h f).ck h = f (s.ck h) := by cases h <;> rfl
@[simp] theorem State.modWh_wh (s : State) (h : Half) (f : WeltHalf → WeltHalf) : (s.modWh h f).wh h = f (s.wh h) := by cases h <;> rfl
end Sys2Proof.Machine
end

