-- ==== Sys2Proof/Laws/Dram.lean ====
section
/-! SUPPORT. What an ACTIVATE can do: only the neighbour LFSR, the activate counts and counter registers move, so a line reads as before. -/
namespace Sys2Proof.Machine

theorem State.sub_modSub_self (s : State) {n : Nat} (f : Sub → Sub) (h : n < 16) : (s.modSub n f).sub n = f (s.sub n) := by
  simp [State.modSub, State.modDm, State.sub, h]

theorem State.sub_modSub_ne (s : State) {n m : Nat} (f : Sub → Sub) (h : m ≠ n) : (s.modSub n f).sub m = s.sub m := by
  simp [State.modSub, State.modDm, State.sub, Ne.symm h]

theorem State.modSub_modSub (s : State) (n : Nat) (f g : Sub → Sub) : (s.modSub n f).modSub n g = s.modSub n fun u => g (f u) := by
  by_cases h : n < 16
  · have e := s.sub_modSub_self f h
    unfold State.modSub State.modDm at e ⊢
    simp [e]
  · have e : ∀ (t : State) (k : Sub → Sub), t.modSub n k = t := by
      intro t k
      have : t.dm.subs.setIfInBounds n (k (t.sub n)) = t.dm.subs := Vector.ext fun i hi => by simp [Vector.getElem_setIfInBounds]; omega
      simp [State.modSub, State.modDm, this]
    rw [e, e, e]

/-- An update of a subchannel that keeps its seal key leaves what every symbol reads as. -/
theorem State.blank_modSub (s : State) (n : Nat) (f : Sub → Sub) (hf : (f (s.sub n)).sealKey = (s.sub n).sealKey) :
    (s.modSub n f).dm.blank = s.dm.blank := by
  have key : ∀ j : Nat, ((s.modSub n f).sub j).sealKey = (s.sub j).sealKey := by
    intro j
    by_cases hj : j = n
    · subst hj
      by_cases hn : j < 16
      · rw [s.sub_modSub_self f hn, hf]
      · simp [State.modSub, State.modDm, State.sub, hn]
    · rw [s.sub_modSub_ne f hj]
  exact funext fun k => by
    show Mem.blank { s.dm with subs := (s.modSub n f).dm.subs } k = _
    have := key (k / 128 / 2 ^ 32)
    simp only [State.sub] at this
    simp only [Mem.blank, this]

/-- A state with the neighbour LFSR and the activate counts of a subchannel, and registers, moved. -/
def State.Acted (s t : State) (n : Nat) : Prop :=
  ∃ x raa regs, t = { s.modSub n (fun u => { u with lfsr := x, raa := raa }) with regs := regs }

theorem State.Acted.modSub {s t : State} {n : Nat} (h : s.Acted t n) (x : Sub → Nat) (raa : Sub → Sparse Nat) :
    s.Acted (t.modSub n fun u => { u with lfsr := x u, raa := raa u }) n := by
  obtain ⟨y, c, regs, rfl⟩ := h
  exact ⟨_, _, regs, congrArg (fun t : State => { t with regs := regs })
    (s.modSub_modSub n (fun u => { u with lfsr := y, raa := c }) fun u => { u with lfsr := x u, raa := raa u })⟩

theorem State.Acted.bump {s t : State} {n : Nat} (h : s.Acted t n) (f : Fld) (k : Nat) : s.Acted (t.bump f k) n := by
  obtain ⟨x, c, regs, rfl⟩ := h
  exact ⟨x, c, _, rfl⟩

/-- What an ACTIVATE can do to the state (R234 to R236). -/
theorem State.activate_acted (s : State) (n g : Nat) : s.Acted (s.activate n g) n := by
  have counts : ∀ {t : State}, s.Acted t n → ∀ r bg ba c, s.Acted (t.countActs n r bg ba c) n := by
    intro t h r bg ba c
    unfold State.countActs
    dsimp only
    split
    · have k := h.modSub (·.lfsr) fun u => Sparse.put (fun _ => 0) u.raa (bankKey r bg ba)
        (min (Sparse.get (fun _ => 0) (t.sub n).raa (bankKey r bg ba) + c) ((Config.refreshManagement n r).max - 1))
      split
      · exact (k.modSub (·.lfsr) fun u => (u.raaLess r ba _).raa).bump _ _
      · exact k
    · exact h
  have first : ∀ c f, s.Acted (if c = true then s.modSub n (fun u => { u with lfsr := lfsrStep (s.sub n).lfsr })
      else (s.modSub n fun u => { u with lfsr := lfsrStep (s.sub n).lfsr }).bump f 1) n := by
    intro c f
    have k : s.Acted (s.modSub n fun u => { u with lfsr := lfsrStep (s.sub n).lfsr }) n := ⟨_, (s.sub n).raa, s.regs, rfl⟩
    split
    · exact k
    · exact k.bump _ _
  exact counts (first _ _) _ _ _ _

/-- A line reads after an ACTIVATE, with the errors it comes back with, as it would have read before (R234, R290). -/
theorem State.decode_activate (s : State) {n g line : Nat} (err : SymErr) (h : n < 16) :
    ((s.activate n g).disturb n line err).decodeLine n line = (s.disturb n line err).decodeLine n line := by
  obtain ⟨x, raa, regs, e⟩ := s.activate_acted n g
  have b := s.blank_modSub n (fun u => { u with lfsr := x, raa := raa }) rfl
  have u := s.sub_modSub_self (fun u => { u with lfsr := x, raa := raa }) h
  generalize ht : ({ s.modSub n (fun u => { u with lfsr := x, raa := raa }) with regs := regs } : State) = t at e
  have b : t.dm.blank = s.dm.blank := by rw [← ht]; exact b
  have u : t.sub n = { s.sub n with lfsr := x, raa := raa } := by rw [← ht]; exact u
  have m : t.mem = s.mem := by rw [← ht]; rfl
  have d : t.dm.density = s.dm.density := by rw [← ht]; rfl
  have key : ∀ c, ({ t with mem := c } : State).decodeLine n line = ({ s with mem := c } : State).decodeLine n line := by
    intro c
    have hu : ∀ w : State, ({ w with mem := c } : State).sub n = w.sub n := fun _ => rfl
    simp only [State.decodeLine, State.decodeRow, State.erasedLanes, State.symbols, State.symbol, State.rankOf, State.bankOf, hu, u, b, d]
  rw [e]
  have p : t.symbols n line = s.symbols n line := by simp only [State.symbols, State.symbol, m, b]
  have none : t.decodeLine n line = s.decodeLine n line := by
    have := key s.mem
    rw [← m] at this
    exact this.trans (by rw [m])
  have some : ∀ sym, (t.putSymbols n line sym).decodeLine n line = (s.putSymbols n line sym).decodeLine n line := by
    intro sym
    have c : (t.putSymbols n line sym).mem = (s.putSymbols n line sym).mem := by simp only [State.putSymbols, m, b]
    have := key (s.putSymbols n line sym).mem
    rw [← c] at this
    exact this.trans (by rw [c]; rfl)
  unfold State.disturb
  rw [p]
  split
  · exact none
  · exact some _

end Sys2Proof.Machine
end

