-- ==== Sys2Proof/Laws/Exec.lean ====
section
/-! SUPPORT. The next state of every command, by the function of its family that gives it. -/
set_option Elab.async false
namespace Sys2Proof.Machine

theorem exec_auxUp (testEn : Bool) (s : State) :
    exec (.auxUp testEn) s = .next (auxUp testEn s) := rfl

theorem exec_eyeletEntry (env : EyeletEnv) (s : State) :
    exec (.eyeletEntry env) s = .next (eyeletEntry env s) := rfl

theorem exec_passportRetry (pp : PpRead) (s : State) :
    exec (.passportRetry pp) s = .next (passportRetry pp s) := rfl

theorem exec_trainingDone (n : Fin 16) (lanes0 lanes1 : List LaneSweep) (ca0 ca1 : List CaSweep) (zq0 zq1 : Bool) (s : State) :
    exec (.trainingDone n lanes0 lanes1 ca0 ca1 zq0 zq1) s = .next (trainingDone n (lanes0 ++ lanes1) (ca0 ++ ca1) (zq0 && zq1) s) := rfl

theorem exec_fillDone (s : State) :
    exec .fillDone s = .next (fillDone s) := rfl

theorem exec_eyeletComplete (s : State) :
    exec .eyeletComplete s = .next (eyeletComplete s) := rfl

theorem exec_laceRise (s : State) :
    exec .laceRise s = .next (laceRise s) := rfl

theorem exec_eyeWarn (s : State) :
    exec .eyeWarn s = .next (eyeWarn s) := rfl

theorem exec_laceAbort (s : State) :
    exec .laceAbort s = .next (laceAbort s) := rfl

theorem exec_laceGlitch (s : State) :
    exec .laceGlitch s = .next (laceGlitch s) := rfl

theorem exec_laceAbortWrite (p : Path) (s : State) :
    exec (.laceAbortWrite p) s = .next (laceAbortCmd p s) := rfl

theorem exec_softStartFail (r : Fin 12) (overCurrent : Bool) (mv : Nat) (s : State) :
    exec (.softStartFail r overCurrent mv) s = .next (softStartFail r overCurrent mv s) := rfl

theorem exec_softStartRetry (r : Fin 12) (s : State) :
    exec (.softStartRetry r) s = .next (softStartRetry r s) := rfl

theorem exec_railGood (r : Fin 12) (s : State) :
    exec (.railGood r) s = .next (railGood r s) := rfl

theorem exec_railFail (r : Fin 12) (cause : RailCause) (mv : Nat) (s : State) :
    exec (.railFail r cause mv) s = .next (railFail r cause mv s) := rfl

theorem exec_transitionStart (p : Path) (v : Word) (s : State) :
    exec (.transitionStart p v) s = .next (transitionStart p v s) := rfl

theorem exec_transitionBlankEnd (s : State) :
    exec .transitionBlankEnd s = .next (transitionBlankEnd s) := rfl

theorem exec_pfwAssert (vinMv : Nat) (s : State) :
    exec (.pfwAssert vinMv) s = .next (pfwAssert vinMv s) := rfl

theorem exec_pfwRide (s : State) :
    exec .pfwRide s = .next (pfwRide s) := rfl

theorem exec_pfwDelayEnd (s : State) :
    exec .pfwDelayEnd s = .next (pfwDelayEnd s) := rfl

theorem exec_railGroupDrop (s : State) :
    exec .railGroupDrop s = .next (railGroupDrop s) := rfl

theorem exec_powerFailRecord (byVrec : Bool) (vinMv : Nat) (samples : List (BitVec 12)) (tShedUs tRecUs : Nat) (s : State) :
    exec (.powerFailRecord byVrec vinMv samples tShedUs tRecUs) s = .next (powerFailRecord byVrec vinMv samples tShedUs tRecUs s) := rfl

theorem exec_recordWritten (ok : Bool) (s : State) :
    exec (.recordWritten ok) s = .next (recordWritten ok s) := rfl

theorem exec_vauxFail (vauxc : Bool) (mv : Nat) (s : State) :
    exec (.vauxFail vauxc mv) s = .next (vauxFail vauxc mv s) := rfl

theorem exec_auxReset (s : State) :
    exec .auxReset s = .next (auxReset s) := rfl

theorem exec_vinReturnOff (vinMv : Nat) (s : State) :
    exec (.vinReturnOff vinMv) s = .next (vinReturnOff vinMv s) := rfl

theorem exec_shortPress (s : State) :
    exec .shortPress s = .next (shortPress s) := rfl

theorem exec_forcedOff (s : State) :
    exec .forcedOff s = .next (forcedOff s) := rfl

theorem exec_svcStart (s : State) :
    exec .svcStart s = .next (svcStart s) := rfl

theorem exec_warmReset (s : State) :
    exec .warmReset s = .next (mgWarmReset s) := rfl

theorem exec_watchdogExpiry (h : Half) (s : State) :
    exec (.watchdogExpiry h) s = .next (watchdogExpiry h s) := rfl

theorem exec_tickStart (h : Half) (s : State) :
    exec (.tickStart h) s = .next ((tickStart h s).ioOn) := rfl

theorem exec_tickOutEnd (s : State) :
    exec .tickOutEnd s = .next (tickOutEnd s) := rfl

theorem exec_cutOff (h : Half) (s : State) :
    exec (.cutOff h) s = .next (cutOff h s) := rfl

theorem exec_productionEnd (h : Half) (s : State) :
    exec (.productionEnd h) s = .next (productionEnd h s) := rfl

theorem exec_idleCycleEnd (h : Half) (s : State) :
    exec (.idleCycleEnd h) s = .next ((idleCycleEnd h s).ioOn) := rfl

theorem exec_freeze (p : Path) (s : State) :
    exec (.freeze p) s = .next (freeze p s) := rfl

theorem exec_release (p : Path) (s : State) :
    exec (.release p) s = .next (release p s) := rfl

theorem exec_setDelay (p : Path) (s : State) :
    exec (.setDelay p) s = .next (setDelay p s) := rfl

theorem exec_setGain (p : Path) (s : State) :
    exec (.setGain p) s = .next (setGain p s) := rfl

theorem exec_streamOn (p : Path) (s : State) :
    exec (.streamOn p) s = .next (streamOn p s) := rfl

theorem exec_streamOff (p : Path) (s : State) :
    exec (.streamOff p) s = .next (streamOff p s) := rfl

theorem exec_switchLast (p : Path) (s : State) :
    exec (.switchLast p) s = .next (switchLast p s) := rfl

theorem exec_opcodeInvalid (p : Path) (op : BitVec 4) (s : State) :
    exec (.opcodeInvalid p op) s = .next (opcodeInvalid p op s) := rfl

theorem exec_admitLast (p : Path) (sel : Fin 4) (s : State) :
    exec (.admitLast p sel) s = .next (admitLast p sel s) := rfl

theorem exec_admissionDone (s : State) :
    exec .admissionDone s = .next (admissionDone s) := rfl

theorem exec_activate (p : Path) (s : State) :
    exec (.activate p) s = .next (activate p s) := rfl

theorem exec_cancel (p : Path) (s : State) :
    exec (.cancel p) s = .next (cancel p s) := rfl

theorem exec_commit (p : Path) (s : State) :
    exec (.commit p) s = .next (commit p s) := rfl

theorem exec_lutCopyDone (s : State) :
    exec .lutCopyDone s = .next (lutCopyDone s) := rfl

theorem exec_lutDataAccess (p : Path) (w : Option Word) (s : State) :
    exec (.lutDataAccess p w) s = .next (lutDataVia p w s) := rfl

theorem exec_frameLoRead (p : Path) (doorbell : Bool) (s : State) :
    exec (.frameLoRead p doorbell) s = .next (frameLoVia p doorbell s) := rfl

theorem exec_publishDoorbell (h : Fin 4) (src : Fin 16) (slot tag : BitVec 16) (s : State) :
    exec (.publishDoorbell h src slot tag) s = .next (publishDoorbell h src slot tag s) := rfl

theorem exec_publicationCount (src : Fin 16) (s : State) :
    exec (.publicationCount src) s = .next (publicationCount src s) := rfl

theorem exec_slotSelect (h : Fin 4) (src : Fin 16) (slot : BitVec 16) (s : State) :
    exec (.slotSelect h src slot) s = .next (slotSelect h src slot s) := rfl

theorem exec_pixelWindowWrite (h : Fin 4) (offset : BitVec 35) (bytes : List Byte) (allEnabled : Bool) (s : State) :
    exec (.pixelWindowWrite h offset bytes allEnabled) s = .next (pixelWindowWrite h offset bytes allEnabled s) := rfl

theorem exec_blockRowEncoded (src : Fin 16) (s : State) :
    exec (.blockRowEncoded src) s = .next (blockRowEncoded src s) := rfl

theorem exec_sizeMapMerge (src : Fin 16) (err : SymErr) (s : State) :
    exec (.sizeMapMerge src err) s = .next (sizeMapMerge src err s) := rfl

theorem exec_pixelWindowRead (h : Fin 4) (offset : BitVec 35) (lines : Nat) (s : State) :
    exec (.pixelWindowRead h offset lines) s = .next (pixelWindowRead h offset lines s) := rfl

theorem exec_slotCopyToArchive (h : Fin 4) (src : Fin 16) (slot : BitVec 16) (s : State) :
    exec (.slotCopyToArchive h src slot) s = .next (slotCopyToArchive h src slot s) := rfl

theorem exec_slotCopyFromArchive (h : Fin 4) (src : Fin 16) (s : State) :
    exec (.slotCopyFromArchive h src) s = .next (slotCopyFromArchive h src s) := rfl

theorem exec_slotCopyDone (h : Fin 4) (s : State) :
    exec (.slotCopyDone h) s = .next (slotCopyDone h s) := rfl

theorem exec_fenceRead (h : Fin 4) (s : State) :
    exec (.fenceRead h) s = .next (fenceRead h s) := rfl

theorem exec_fenceReadComplete (h : Fin 4) (waited10ns : Nat) (s : State) :
    exec (.fenceReadComplete h waited10ns) s = .next (fenceReadComplete h waited10ns s) := rfl

theorem exec_ringDescriptorWrite (h : Fin 4) (r : Fin 512) (w : RdWord) (v : Word) (s : State) :
    exec (.ringDescriptorWrite h r w v) s = .next (ringDescriptorWrite h r w v s) := rfl

theorem exec_arm (h : Fin 4) (r : Fin 512) (log2 : BitVec 5) (s : State) :
    exec (.arm h r log2) s = .next (arm h r log2 s) := rfl

theorem exec_disarm (h : Fin 4) (r : Fin 512) (log2 : BitVec 5) (s : State) :
    exec (.disarm h r log2) s = .next (disarm h r log2 s) := rfl

theorem exec_armEffect (r : Fin 512) (s : State) :
    exec (.armEffect r) s = .next (armEffect r s) := rfl

theorem exec_consumedWrite (h : Fin 4) (r : Fin 512) (v : Word) (s : State) :
    exec (.consumedWrite h r v) s = .next (consumedWrite h r v s) := rfl

theorem exec_chunkStaged (e : Fin 16) (lutErrs : List LutErr) (s : State) :
    exec (.chunkStaged e lutErrs) s = .next (chunkStaged e lutErrs s) := rfl

theorem exec_streamOpen (e : Fin 16) (s : State) :
    exec (.streamOpen e) s = .next (streamOpen e s) := rfl

theorem exec_chunkRecordWrite (r : Fin 512) (s : State) :
    exec (.chunkRecordWrite r) s = .next (chunkRecordWrite r s) := rfl

theorem exec_chunkSkip (x : SkipOf) (s : State) :
    exec (.chunkSkip x) s = .next (chunkSkip x.ring x.noCredits s) := rfl

theorem exec_recordAbandon (r : Fin 512) (s : State) :
    exec (.recordAbandon r) s = .next (recordAbandon r s) := rfl

theorem exec_panicAssert (e : Fin 16) (level : Nat) (s : State) :
    exec (.panicAssert e level) s = .next (panicAssert e level s) := rfl

theorem exec_panicRelease (e : Fin 16) (level : Nat) (s : State) :
    exec (.panicRelease e level) s = .next (panicRelease e level s) := rfl

theorem exec_panicMaxExpiry (e : Fin 16) (s : State) :
    exec (.panicMaxExpiry e) s = .next (panicMaxExpiry e s) := rfl

theorem exec_engineStart (e : Fin 16) (s : State) :
    exec (.engineStart e) s = .next (engineStart e s) := rfl

theorem exec_fence (p : Path) (e : Fin 16) (s : State) :
    exec (.fence p e) s = .next (fence p e s) := rfl

theorem exec_enable (p : Path) (e : Fin 16) (s : State) :
    exec (.enable p e) s = .next (enable p e s) := rfl

theorem exec_engineSelfCheckFail (e : Fin 16) (s : State) :
    exec (.engineSelfCheckFail e) s = .next (engineSelfCheckFail e s) := rfl

theorem exec_memRd (h : Fin 4) (hpa : Nat) (s : State) :
    exec (.memRd h hpa) s = .next (memRd h hpa s) := rfl

theorem exec_memRdData (h : Fin 4) (hpa : Nat) (s : State) :
    exec (.memRdData h hpa) s = .next (memRdData h hpa s) := rfl

theorem exec_memSpecRd (h : Fin 4) (hpa : Nat) (s : State) :
    exec (.memSpecRd h hpa) s = .next (memSpecRd h hpa s) := rfl

theorem exec_memInv (h : Fin 4) (hpa : Nat) (s : State) :
    exec (.memInv h hpa) s = .next (memInv h hpa s) := rfl

theorem exec_memInvNt (h : Fin 4) (hpa : Nat) (s : State) :
    exec (.memInvNt h hpa) s = .next (memInvNt h hpa s) := rfl

theorem exec_memWr (h : Fin 4) (hpa : Nat) (data : LineData) (poison : Bool) (s : State) :
    exec (.memWr h hpa data poison) s = .next (memWr h hpa data poison s) := rfl

theorem exec_memWrPtl (h : Fin 4) (hpa : Nat) (x : PtlData) (enables : BitVec 64) (s : State) :
    exec (.memWrPtl h hpa x enables) s = .next (memWrPtl h hpa x.data enables x.poison s) := rfl

theorem exec_dramReadReturn (n : Fin 16) (x : ReadBurst) (s : State) :
    exec (.dramReadReturn n x) s = .next (dramReadReturn n x.err x.gates s) := rfl

theorem exec_blockDecode (who : DecodeFor) (src : Fin 16) (slot block : Nat) (s : State) :
    exec (.blockDecode who src slot block) s = .next ((blockDecode who src slot block s).ioOn) := rfl

theorem exec_getEventRecords (h : Fin 4) (log : Fin 4) (s : State) :
    exec (.getEventRecords h log) s = .next (getEventRecords h log s) := rfl

theorem exec_clearEventRecords (h : Fin 4) (log : Fin 4) (count : Nat) (s : State) :
    exec (.clearEventRecords h log count) s = .next (clearEventRecords h log count s) := rfl

theorem exec_getTimestamp (h : Fin 4) (s : State) :
    exec (.getTimestamp h) s = .next (getTimestamp h s) := rfl

theorem exec_setTimestamp (h : Fin 4) (v : BitVec 64) (s : State) :
    exec (.setTimestamp h v) s = .next (setTimestamp h v s) := rfl

theorem exec_getSupportedLogs (h : Fin 4) (s : State) :
    exec (.getSupportedLogs h) s = .next (getSupportedLogs h s) := rfl

theorem exec_getLog (h : Fin 4) (s : State) :
    exec (.getLog h) s = .next (getLog h s) := rfl

theorem exec_identifyMemoryDevice (h : Fin 4) (s : State) :
    exec (.identifyMemoryDevice h) s = .next (identifyMemoryDevice h s) := rfl

theorem exec_getPoisonList (h : Fin 4) (dpa length : Nat) (s : State) :
    exec (.getPoisonList h dpa length) s = .next (getPoisonList h dpa length s) := rfl

theorem exec_getHeadSummary (h : Fin 4) (s : State) :
    exec (.getHeadSummary h) s = .next (getHeadSummary h s) := rfl

theorem exec_getRingStatus (h : Fin 4) (first count : Nat) (s : State) :
    exec (.getRingStatus h first count) s = .next (getRingStatus h first count s) := rfl

theorem exec_getAdmissionResult (h : Fin 4) (s : State) :
    exec (.getAdmissionResult h) s = .next (getAdmissionResult h s) := rfl

theorem exec_readSelvedgeLog (h : Fin 4) (first count : Nat) (s : State) :
    exec (.readSelvedgeLog h first count) s = .next (readSelvedgeLog h first count s) := rfl

theorem exec_roleChallenge (h : Fin 4) (role : Nat) (s : State) :
    exec (.roleChallenge h role) s = .next (roleChallenge h role s) := rfl

theorem exec_roleResponse (h : Fin 4) (resp : BitVec 256) (s : State) :
    exec (.roleResponse h resp) s = .next (roleResponse h resp s) := rfl

theorem exec_dropRole (h : Fin 4) (s : State) :
    exec (.dropRole h) s = .next (dropRole h s) := rfl

theorem exec_unsupportedOpcode (h : Fin 4) (opcode : BitVec 16) (s : State) :
    exec (.unsupportedOpcode h opcode) s = .next (unsupportedOpcode h opcode s) := rfl

theorem exec_linkTraining (h : Fin 4) (s : State) :
    exec (.linkTraining h) s = .next (linkTraining h s) := rfl

theorem exec_linkUp (h : Fin 4) (rate width : Fin 3) (flit68 : Bool) (s : State) :
    exec (.linkUp h rate width flit68) s = .next ((linkUp h rate width flit68 s).ioOn) := rfl

theorem exec_linkRecovery (h : Recovery) (s : State) :
    exec (.linkRecovery h) s = .next (linkRecovery h.head h.ras s) := rfl

theorem exec_linkDown (h : Fin 4) (partialWrites partialLines : Nat) (s : State) :
    exec (.linkDown h partialWrites partialLines) s = .next (linkDown h partialWrites partialLines s) := rfl

theorem exec_perstAssert (h : Fin 4) (partialWrites partialLines : Nat) (s : State) :
    exec (.perstAssert h partialWrites partialLines) s = .next (perstAssert h partialWrites partialLines s) := rfl

theorem exec_busMasterEnableClear (h : Fin 4) (s : State) :
    exec (.busMasterEnableClear h) s = .next (busMasterEnableClear h s) := rfl

theorem exec_hdmDecoderCommit (h : Fin 4) (d : Fin 4) (prog : HdmProg) (s : State) :
    exec (.hdmDecoderCommit h d prog) s = .next (hdmDecoderCommit h d prog s) := rfl

theorem exec_visit (n : Fin 16) (s : State) :
    exec (.visit n) s = .next (visit n s) := rfl

theorem exec_refresh (n : Fin 16) (rank : Fin 2) (s : State) :
    exec (.refresh n rank) s = .next (refresh n rank s) := rfl

theorem exec_refreshKeeper (n : Fin 16) (x : KeeperRank) (s : State) :
    exec (.refreshKeeper n x) s = .next (refreshKeeper n x.rank x.pathFailed s) := rfl

theorem exec_mr4Poll (n : Fin 16) (codes : List (Fin 8)) (aboveRated : Bool) (s : State) :
    exec (.mr4Poll n codes aboveRated) s = .next (mr4Poll n codes aboveRated s) := rfl

theorem exec_bulkAgePromotion (n : Fin 16) (s : State) :
    exec (.bulkAgePromotion n) s = .next (bulkAgePromotion n s) := rfl

theorem exec_alertWindowExpiry (n : Fin 16) (s : State) :
    exec (.alertWindowExpiry n) s = .next (alertWindowExpiry n s) := rfl

theorem exec_writeCrcAlert (n : Fin 16) (s : State) :
    exec (.writeCrcAlert n) s = .next (writeCrcAlert n s) := rfl

theorem exec_verifyReadback (n : Fin 16) (err : SymErr) (s : State) :
    exec (.verifyReadback n err) s = .next (verifyReadback n err s) := rfl

theorem exec_tsReqWrite (p : Path) (n : Fin 16) (v : Word) (s : State) :
    exec (.tsReqWrite p n v) s = .next (tsReqWrite p n v s) := rfl

theorem exec_tsSwitch (n : Fin 16) (s : State) :
    exec (.tsSwitch n) s = .next (tsSwitch n s) := rfl

theorem exec_frequencyChange (n : Fin 16) (rampUs relockUs trackUs : Nat) (s : State) :
    exec (.frequencyChange n rampUs relockUs trackUs) s = .next (frequencyChange n (rampUs + relockUs + trackUs) s) := rfl

theorem exec_rampEnd (n : Fin 16) (s : State) :
    exec (.rampEnd n) s = .next (rampEnd n s) := rfl

theorem exec_dllLock (x : DllLocked) (s : State) :
    exec (.dllLock x) s = .next (dllLock x.sub x.quick s) := rfl

theorem exec_frequencyChangeDone (s : State) :
    exec .frequencyChangeDone s = .next ((frequencyChangeDone s).ioOn) := rfl

theorem exec_archiveSleep (n : Fin 16) (s : State) :
    exec (.archiveSleep n) s = .next (archiveSleep n s) := rfl

theorem exec_archiveWake (n : Fin 16) (s : State) :
    exec (.archiveWake n) s = .next (archiveWake n s) := rfl

theorem exec_wakeEventStart (h : Half) (s : State) :
    exec (.wakeEventStart h) s = .next (wakeEventStart h s) := rfl

theorem exec_retire (p : Path) (n : Fin 16) (s : State) :
    exec (.retire p n) s = .next (retire p n s) := rfl

theorem exec_retrain (p : Path) (n : Fin 16) (s : State) :
    exec (.retrain p n) s = .next (retrain p n s) := rfl

theorem exec_clearMarks (p : Path) (n : Fin 16) (s : State) :
    exec (.clearMarks p n) s = .next (clearMarks p n s) := rfl

theorem exec_trackingMeasurement (n : Fin 16) (rank : Fin 2) (counts : List (Fin 10 × Nat)) (s : State) :
    exec (.trackingMeasurement n rank counts) s = .next (trackingMeasurement n rank counts s) := rfl

theorem exec_readStep (n : Fin 16) (lanes : List LaneSweep) (x : StepRun) (s : State) :
    exec (.readStep n lanes x) s = .next (readStep n lanes x.us x.cut s) := rfl

theorem exec_writeStep (n : Fin 16) (lanes : List LaneSweep) (x : BorrowRun) (s : State) :
    exec (.writeStep n lanes x) s = .next (writeStep n lanes x.us x.granule x.cut s) := rfl

theorem exec_vrefStep (n : Fin 16) (lanes : List LaneSweep) (x : StepRun) (s : State) :
    exec (.vrefStep n lanes x) s = .next (vrefStep n lanes x.us x.cut s) := rfl

theorem exec_checkStep (n : Fin 16) (lanes : List LaneSweep) (x : BorrowRun) (s : State) :
    exec (.checkStep n lanes x) s = .next (checkStep n lanes x.us x.granule x.cut s) := rfl

theorem exec_rebuildGranule (h : Half) (s : State) :
    exec (.rebuildGranule h) s = .next (rebuildGranule h s) := rfl

theorem exec_regionFillDone (h : Half) (s : State) :
    exec (.regionFillDone h) s = .next (regionFillDone h s) := rfl

theorem exec_fastClose (p : Path) (s : State) :
    exec (.fastClose p) s = .next (fastClose p s) := rfl

theorem exec_scrubStart (p : Path) (s : State) :
    exec (.scrubStart p) s = .next (scrubStart p s) := rfl

theorem exec_scrubAbort (p : Path) (s : State) :
    exec (.scrubAbort p) s = .next (scrubAbort p s) := rfl

theorem exec_scrubStep (x : ScrubRun) (s : State) :
    exec (.scrubStep x) s = .next (scrubStep x.half x.us s) := rfl

theorem exec_weltLost (cause : Fin 3) (s : State) :
    exec (.weltLost cause) s = .next (weltLost cause s) := rfl

theorem exec_flitReplay (repaired : Option Half) (s : State) :
    exec (.flitReplay repaired) s = .next (flitReplay repaired s) := rfl

theorem exec_weltRetrain (x : WeltTrained) (s : State) :
    exec (.weltRetrain x) s = .next (weltRetrain x.ok x.deadAB x.deadBA s) := rfl

theorem exec_rejoin (s : State) :
    exec .rejoin s = .next ((rejoin s).ioOn) := rfl

theorem exec_rejoinWrite (p : Path) (s : State) :
    exec (.rejoinWrite p) s = .next (rejoinWrite p s) := rfl

theorem exec_heelFrameSend (h : Half) (s : State) :
    exec (.heelFrameSend h) s = .next (heelFrameSend h s) := rfl

theorem exec_heelFrame (sender : Half) (frame : Word) (s : State) :
    exec (.heelFrame sender frame) s = .next (heelFrame sender frame s) := rfl

theorem exec_heelSilent (sender : Half) (s : State) :
    exec (.heelSilent sender) s = .next (heelSilent sender s) := rfl

theorem exec_heartbeat (s : State) :
    exec .heartbeat s = .next (heartbeat s) := rfl

theorem exec_leadershipTakeover (s : State) :
    exec .leadershipTakeover s = .next (leadershipTakeover s) := rfl

theorem exec_claimDrop (s : State) :
    exec .claimDrop s = .next (claimDrop s) := rfl

theorem exec_wlFence (p : Path) (fenceA fenceB : Bool) (s : State) :
    exec (.wlFence p fenceA fenceB) s = .next (wlFence p fenceA fenceB s) := rfl

theorem exec_refclkLoss (s : State) :
    exec .refclkLoss s = .next (refclkLoss s) := rfl

theorem exec_refclkReturn (quick : List (Fin 16 × QuickTrack)) (s : State) :
    exec (.refclkReturn quick) s = .next (refclkReturn quick s) := rfl

theorem exec_refclkLossTimeout (s : State) :
    exec .refclkLossTimeout s = .next (refclkLossTimeout s) := rfl

theorem exec_corePllLockLost (h : Half) (s : State) :
    exec (.corePllLockLost h) s = .next (corePllLockLost h s) := rfl

theorem exec_memoryPllLockLost (h : Half) (s : State) :
    exec (.memoryPllLockLost h) s = .next (memoryPllLockLost h s) := rfl

theorem exec_lockWindow (h : Half) (pll : Pll) (count : Nat) (quick : List (Fin 16 × QuickTrack)) (s : State) :
    exec (.lockWindow h pll count quick) s = .next (lockWindow h pll count quick s) := rfl

theorem exec_lockmonFallback (h : Half) (s : State) :
    exec (.lockmonFallback h) s = .next (lockmonFallback h s) := rfl

theorem exec_dllLockLost (n : Fin 16) (s : State) :
    exec (.dllLockLost n) s = .next (dllLockLost n s) := rfl

theorem exec_dllRelockStep (n : Fin 16) (x : Relock) (s : State) :
    exec (.dllRelockStep n x) s = .next (dllRelockStep n x.locked x.quick s) := rfl

theorem exec_auxckConfigWrite (p : Path) (n : Fin 4) (tick : Bool) (v : Word) (s : State) :
    exec (.auxckConfigWrite p n tick v) s = .next (auxckConfigWrite p n tick v s) := rfl

theorem exec_ppsEdge (s : State) :
    exec .ppsEdge s = .next (ppsEdge s) := rfl

theorem exec_ppsGlitch (s : State) :
    exec .ppsGlitch s = .next (ppsGlitch s) := rfl

theorem exec_ppsLost (s : State) :
    exec .ppsLost s = .next (ppsLost s) := rfl

theorem exec_todSentence (bytes : List Byte) (s : State) :
    exec (.todSentence bytes) s = .next (todSentence bytes s) := rfl

theorem exec_todByteTimeout (s : State) :
    exec .todByteTimeout s = .next (todByteTimeout s) := rfl

theorem exec_todStale (s : State) :
    exec .todStale s = .next (todStale s) := rfl

theorem exec_masterLost (s : State) :
    exec .masterLost s = .next (masterLost s) := rfl

theorem exec_ftickEdge (s : State) :
    exec .ftickEdge s = .next (ftickEdge s) := rfl

theorem exec_ftickLost (s : State) :
    exec .ftickLost s = .next (ftickLost s) := rfl

theorem exec_set (p : Path) (s : State) :
    exec (.set p) s = .next (calSet p s) := rfl

theorem exec_stepNow (p : Path) (s : State) :
    exec (.stepNow p) s = .next (stepNow p s) := rfl

theorem exec_tbCaptureWrite (p : Path) (v : Word) (s : State) :
    exec (.tbCaptureWrite p v) s = .next (tbCaptureWrite p v s) := rfl

theorem exec_tsqPop (p : Path) (s : State) :
    exec (.tsqPop p) s = .next (tsqPopVia p s) := rfl

theorem exec_sensorRead (h : Half) (readings : List Int) (s : State) :
    exec (.sensorRead h readings) s = .next (sensorRead h readings s) := rfl

theorem exec_modelUpdate (h : Half) (busyPermille : Nat) (samples : List (BitVec 12)) (s : State) :
    exec (.modelUpdate h busyPermille samples) s = .next (modelUpdate h busyPermille samples s) := rfl

theorem exec_stepEvaluation (h : Half) (s : State) :
    exec (.stepEvaluation h) s = .next (stepEvaluation h s) := rfl

theorem exec_warmingEnd (h : Half) (s : State) :
    exec (.warmingEnd h) s = .next (warmingEnd h s) := rfl

theorem exec_messageCollect (h : Half) (source : Taken) (s : State) :
    exec (.messageCollect h source) s = .next (messageCollect h source.source source.parity s) := rfl

theorem exec_stickyClear (p : Path) (w : Fin 10) (bits : Word) (s : State) :
    exec (.stickyClear p w bits) s = .next (stickyClear p w bits s) := rfl

theorem exec_force (p : Path) (w : Fin 10) (bits : Word) (s : State) :
    exec (.force p w bits) s = .next (force p w bits s) := rfl

theorem exec_read (t : ReadTarget) (count : Nat) (partialWord : Bool) (s : State) :
    exec (.read t count partialWord) s = .next (readAny t count partialWord s) := rfl

theorem exec_write (addr : BitVec 24) (words : List Word) (partialWord : Bool) (s : State) :
    exec (.write addr words partialWord) s = .next (spiWrite addr words partialWord s) := rfl

theorem exec_fetch (addr : BitVec 24) (count : BitVec 7) (excess : Bool) (s : State) :
    exec (.fetch addr count excess) s = .next (fetch addr count excess s) := rfl

theorem exec_fetchDone (unanswered : List Nat) (s : State) :
    exec (.fetchDone unanswered) s = .next (fetchDone unanswered s) := rfl

theorem exec_rdbuf (addr : BitVec 24) (words : Nat) (partialWord : Bool) (s : State) :
    exec (.rdbuf addr words partialWord) s = .next (rdbuf addr words partialWord s) := rfl

theorem exec_shortFrame (addr : BitVec 24) (s : State) :
    exec (.shortFrame addr) s = .next (shortFrame addr s) := rfl

theorem exec_chal (role : Fin 4) (s : State) :
    exec (.chal role) s = .next (chal role s) := rfl

theorem exec_resp (s : State) :
    exec .resp s = .next (resp s) := rfl

theorem exec_drop (s : State) :
    exec .drop s = .next (drop s) := rfl

theorem exec_roleLockEnd (p : Path) (s : State) :
    exec (.roleLockEnd p) s = .next (roleLockEnd p s) := rfl

theorem exec_flashRead (p : Path) (lenM1 : BitVec 6) (s : State) :
    exec (.flashRead p lenM1) s = .next (flashRead p lenM1 s) := rfl

theorem exec_flashProgram (p : Path) (lenM1 : BitVec 6) (s : State) :
    exec (.flashProgram p lenM1) s = .next (flashProgram p lenM1 s) := rfl

theorem exec_flashEraseSector (p : Path) (s : State) :
    exec (.flashEraseSector p) s = .next (flashEraseSector p s) := rfl

theorem exec_flashOpDone (deviceError : Bool) (s : State) :
    exec (.flashOpDone deviceError) s = .next (flashOpDone deviceError s) := rfl

theorem exec_nextBankWrite (p : Path) (bank : Bool) (s : State) :
    exec (.nextBankWrite p bank) s = .next (nextBankWrite p bank s) := rfl

theorem exec_warmResetWrite (p : Path) (s : State) :
    exec (.warmResetWrite p) s = .next (warmResetWrite p s) := rfl

theorem exec_auditEntryWrite (flashError fieldAsserted : Bool) (s : State) :
    exec (.auditEntryWrite flashError fieldAsserted) s = .next (auditEntryWrite flashError fieldAsserted s) := rfl

theorem exec_passportWriteTimeout (s : State) :
    exec .passportWriteTimeout s = .next (passportWriteTimeout s) := rfl

theorem exec_fieldRelease (s : State) :
    exec .fieldRelease s = .next (fieldRelease s) := rfl

theorem exec_registerWrite (t : WriteTarget) (v : BitVec 64) (s : State) :
    exec (.registerWrite t v) s = .next (registerWrite t v s) := rfl

theorem exec_lockmonLock (h : Half) (quick : List (Fin 16 × QuickTrack)) (s : State) :
    exec (.lockmonLock h quick) s = .next (lockmonLock h quick s) := rfl

theorem exec_memoryPllRelockTimeout (h : Half) (s : State) :
    exec (.memoryPllRelockTimeout h) s = .next (memoryPllRelockTimeout h s) := rfl

theorem exec_alertNRelease (n : Fin 16) (s : State) :
    exec (.alertNRelease n) s = .next (alertNRelease n s) := rfl

theorem exec_todFramingError (s : State) :
    exec .todFramingError s = .next (todFramingError s) := rfl

theorem exec_tapInstruction (instr : TapInstr) (s : State) :
    exec (.tapInstruction instr) s = .next (tapInstruction instr s) := rfl

theorem exec_busMasterEnableSet (h : Fin 4) (s : State) :
    exec (.busMasterEnableSet h) s = .next (busMasterEnableSet h s) := rfl

end Sys2Proof.Machine
end

