-- ==== Sys2Proof/Laws/Regs.lean ====
section
/-! SUPPORT. Laws of register words and fields: a field reads what was written to it (modulo its size), and a write leaves every other field of its
word, and every other word, alone. -/
namespace Sys2Proof.Machine

theorem State.word_setWord (s : State) (k j : Nat) (w : Word) (h : Sparse.rising s.regs = true) :
    (s.setWord k w).word j = if j = k then w else s.word j := Sparse.get_put _ _ _ _ _ h

theorem State.rising_setWord (s : State) (k : Nat) (w : Word) (h : Sparse.rising s.regs = true) : Sparse.rising (s.setWord k w).regs = true :=
  Sparse.rising_put _ _ h

theorem State.rising_wr (s : State) (f : Fld) (v : Nat) (h : Sparse.rising s.regs = true) : Sparse.rising (s.wr f v).regs = true :=
  s.rising_setWord _ _ h

/-- A number in three pieces: above a field, the field, below it. -/
theorem bits_parts (w hi lo : Nat) (hl : lo ≤ hi) : w = w / 2 ^ (hi + 1) * 2 ^ (hi + 1) + bits w hi lo * 2 ^ lo + w % 2 ^ lo := by
  have e : (2 : Nat) ^ (hi + 1) = 2 ^ lo * 2 ^ (hi + 1 - lo) := by rw [← Nat.pow_add]; congr 1; omega
  have h1 := Nat.div_add_mod w (2 ^ lo)
  have h2 := Nat.div_add_mod (w / 2 ^ lo) (2 ^ (hi + 1 - lo))
  rw [Nat.div_div_eq_div_mul, ← e] at h2
  unfold bits
  calc w = 2 ^ lo * (w / 2 ^ lo) + w % 2 ^ lo := h1.symm
    _ = 2 ^ lo * (2 ^ (hi + 1 - lo) * (w / 2 ^ (hi + 1)) + w / 2 ^ lo % 2 ^ (hi + 1 - lo)) + w % 2 ^ lo := by rw [h2]
    _ = _ := by rw [e]; ring

/-- The number that `setBits` forms. -/
theorem setBits_toNat (w : Word) (hi lo v : Nat) (hl : lo ≤ hi) (hh : hi < 32) :
    (setBits w hi lo v).toNat = w.toNat / 2 ^ (hi + 1) * 2 ^ (hi + 1) + v % 2 ^ (hi + 1 - lo) * 2 ^ lo + w.toNat % 2 ^ lo := by
  have hp := bits_parts w.toNat hi lo hl
  have e : (2 : Nat) ^ (hi + 1) = 2 ^ (hi + 1 - lo) * 2 ^ lo := by rw [← Nat.pow_add]; congr 1; omega
  have hv : v % 2 ^ (hi + 1 - lo) < 2 ^ (hi + 1 - lo) := Nat.mod_lt _ (by positivity)
  have hm : w.toNat % 2 ^ lo < 2 ^ lo := Nat.mod_lt _ (by positivity)
  have hw := w.isLt
  have hd : w.toNat / 2 ^ (hi + 1) < 2 ^ (32 - (hi + 1)) := by
    rw [Nat.div_lt_iff_lt_mul (by positivity), ← Nat.pow_add]
    have : 32 - (hi + 1) + (hi + 1) = 32 := by omega
    rw [this]; exact hw
  have hb : v % 2 ^ (hi + 1 - lo) * 2 ^ lo + w.toNat % 2 ^ lo < 2 ^ (hi + 1) := by
    rw [e]
    calc _ < v % 2 ^ (hi + 1 - lo) * 2 ^ lo + 2 ^ lo := by omega
      _ = (v % 2 ^ (hi + 1 - lo) + 1) * 2 ^ lo := by ring
      _ ≤ _ := Nat.mul_le_mul_right _ hv
  have ht : w.toNat / 2 ^ (hi + 1) * 2 ^ (hi + 1) + (v % 2 ^ (hi + 1 - lo) * 2 ^ lo + w.toNat % 2 ^ lo) < 2 ^ 32 := by
    calc _ < w.toNat / 2 ^ (hi + 1) * 2 ^ (hi + 1) + 2 ^ (hi + 1) := by omega
      _ = (w.toNat / 2 ^ (hi + 1) + 1) * 2 ^ (hi + 1) := by ring
      _ ≤ 2 ^ (32 - (hi + 1)) * 2 ^ (hi + 1) := Nat.mul_le_mul_right _ hd
      _ = 2 ^ 32 := by rw [← Nat.pow_add]; congr 1; omega
  unfold setBits
  rw [BitVec.toNat_ofNat, Nat.mod_eq_of_lt]
  · omega
  · omega

/-- A field reads what was written, modulo its size. -/
theorem bits_setBits (w : Word) (hi lo v : Nat) (hl : lo ≤ hi) (hh : hi < 32) : bits (setBits w hi lo v).toNat hi lo = v % 2 ^ (hi + 1 - lo) := by
  have e : (2 : Nat) ^ (hi + 1) = 2 ^ (hi + 1 - lo) * 2 ^ lo := by rw [← Nat.pow_add]; congr 1; omega
  rw [setBits_toNat w hi lo v hl hh, bits, e, ← Nat.mul_assoc, ← Nat.add_mul, Nat.add_comm _ (w.toNat % 2 ^ lo),
    Nat.add_mul_div_right _ _ (by positivity), Nat.div_eq_of_lt (Nat.mod_lt _ (by positivity)), Nat.zero_add, Nat.mul_comm, Nat.mul_add_mod,
    Nat.mod_mod]

/-- A field above the one written is unchanged. -/
theorem bits_setBits_above (w : Word) (hi lo v hi' lo' : Nat) (hl : lo ≤ hi) (hh : hi < 32) (ha : hi < lo') :
    bits (setBits w hi lo v).toNat hi' lo' = bits w.toNat hi' lo' := by
  have key : (setBits w hi lo v).toNat / 2 ^ (hi + 1) = w.toNat / 2 ^ (hi + 1) := by
    have e : (2 : Nat) ^ (hi + 1) = 2 ^ (hi + 1 - lo) * 2 ^ lo := by rw [← Nat.pow_add]; congr 1; omega
    have hv : v % 2 ^ (hi + 1 - lo) < 2 ^ (hi + 1 - lo) := Nat.mod_lt _ (by positivity)
    have hm : w.toNat % 2 ^ lo < 2 ^ lo := Nat.mod_lt _ (by positivity)
    have hb : v % 2 ^ (hi + 1 - lo) * 2 ^ lo + w.toNat % 2 ^ lo < 2 ^ (hi + 1) := by
      rw [e]
      calc _ < v % 2 ^ (hi + 1 - lo) * 2 ^ lo + 2 ^ lo := by omega
        _ = (v % 2 ^ (hi + 1 - lo) + 1) * 2 ^ lo := by ring
        _ ≤ _ := Nat.mul_le_mul_right _ hv
    rw [setBits_toNat w hi lo v hl hh, Nat.add_assoc, Nat.add_comm, Nat.add_mul_div_right _ _ (by positivity), Nat.div_eq_of_lt hb, Nat.zero_add]
  have e' : (2 : Nat) ^ lo' = 2 ^ (hi + 1) * 2 ^ (lo' - (hi + 1)) := by rw [← Nat.pow_add]; congr 1; omega
  unfold bits
  rw [e', ← Nat.div_div_eq_div_mul, ← Nat.div_div_eq_div_mul, key]

/-- A field below the one written is unchanged. -/
theorem bits_setBits_below (w : Word) (hi lo v hi' lo' : Nat) (hl : lo ≤ hi) (hh : hi < 32) (hb : hi' < lo) (hl' : lo' ≤ hi') :
    bits (setBits w hi lo v).toNat hi' lo' = bits w.toNat hi' lo' := by
  have low : ∀ n : Nat, bits n hi' lo' = n % 2 ^ (hi' + 1) / 2 ^ lo' := by
    intro n
    have e : (2 : Nat) ^ (hi' + 1) = 2 ^ lo' * 2 ^ (hi' + 1 - lo') := by rw [← Nat.pow_add]; congr 1; omega
    rw [bits, e, Nat.mod_mul_right_div_self]
  have d1 : (2 : Nat) ^ (hi' + 1) ∣ 2 ^ lo := Nat.pow_dvd_pow 2 (by omega)
  have d2 : (2 : Nat) ^ (hi' + 1) ∣ 2 ^ (hi + 1) := Nat.pow_dvd_pow 2 (by omega)
  rw [low, low, setBits_toNat w hi lo v hl hh]
  congr 1
  rw [Nat.add_mod, Nat.add_mod (w.toNat / 2 ^ (hi + 1) * 2 ^ (hi + 1)), Nat.mod_eq_zero_of_dvd (Dvd.dvd.mul_left d2 _),
    Nat.mod_eq_zero_of_dvd (Dvd.dvd.mul_left d1 _), Nat.zero_add, Nat.zero_mod, Nat.zero_add, Nat.mod_mod, Nat.mod_mod_of_dvd _ d1]

/-- A field reads what was written to it, modulo its size. -/
theorem State.rd_wr (s : State) (f : Fld) (v : Nat) (h : Sparse.rising s.regs = true) (hl : f.lo ≤ f.hi) (hh : f.hi < 32) :
    (s.wr f v).rd f = v % 2 ^ (f.hi + 1 - f.lo) := by
  unfold State.rd State.wr
  rw [s.word_setWord _ _ _ h, if_pos rfl, bits_setBits _ _ _ _ hl hh]

/-- A field of another word is unchanged. -/
theorem State.rd_wr_word (s : State) (f g : Fld) (v : Nat) (h : Sparse.rising s.regs = true) (ha : g.a ≠ f.a) : (s.wr f v).rd g = s.rd g := by
  unfold State.rd State.wr
  rw [s.word_setWord _ _ _ h, if_neg ha]

/-- A field of the same word that shares no bit is unchanged. -/
theorem State.rd_wr_field (s : State) (f g : Fld) (v : Nat) (h : Sparse.rising s.regs = true) (hl : f.lo ≤ f.hi) (hh : f.hi < 32)
    (hg : g.lo ≤ g.hi) (hd : f.hi < g.lo ∨ g.hi < f.lo) : (s.wr f v).rd g = s.rd g := by
  by_cases ha : g.a = f.a
  · unfold State.rd State.wr
    rw [s.word_setWord _ _ _ h, if_pos ha, ha]
    rcases hd with hd | hd
    · exact bits_setBits_above _ _ _ _ _ _ hl hh hd
    · exact bits_setBits_below _ _ _ _ _ _ hl hh hd hg
  · exact s.rd_wr_word f g v h ha

/-- A whole register of another address is unchanged. -/
theorem State.word_wr (s : State) (f : Fld) (v j : Nat) (h : Sparse.rising s.regs = true) (ha : j ≠ f.a) : (s.wr f v).word j = s.word j := by
  unfold State.wr
  rw [s.word_setWord _ _ _ h, if_neg ha]

end Sys2Proof.Machine
end

