-- ==== Sys2Proof/Laws/Keeps.lean ====
section
/-! SUPPORT. What every operation keeps: the queue of commands is left alone, the clock and the draw counter never go back, the output trace only
grows, programmed OTP words stay programmed, the bounds of `State.Inv` hold on, and every part of the state outside the permitted ones is
unchanged. The primitive updates and the combinators are here; the files beside this one carry it through every function of the model. -/
set_option Elab.async false
namespace Sys2Proof.Machine

/-- What leads from r to s kept everything named above; `p` says which parts it may change. -/
structure Keeps (p : Part → Prop) (r s : State) : Prop where
  queue : s.pending = r.pending
  clock : r.now ≤ s.now
  draws : r.free ≤ s.free
  out : r.out <+: s.out
  otp : r.mg.otp.done <:+ s.mg.otp.done
  rising : Sparse.rising r.regs = true → Sparse.rising s.regs = true
  inv : r.Inv → s.Inv
  frame : ∀ x, ¬ p x → x.Same r s

theorem Part.Same.regs {b : Block} {s t : State} (h : t.regs = s.regs) : Part.Same (.regs b) s t :=
  fun _ k _ => congrArg (fun m => Sparse.get regPowerOn m k) h

theorem Part.Same.refl (x : Part) (s : State) : x.Same s s := by cases x <;> first | rfl | exact Part.Same.regs rfl

theorem Part.Same.trans {x : Part} {r s t : State} (hr : Sparse.rising r.regs = true → Sparse.rising s.regs = true) (h : x.Same r s)
    (g : x.Same s t) : x.Same r t := by
  cases x <;> first | exact Eq.trans g h | exact fun c k hk => (g (hr c) k hk).trans (h c k hk)

variable {p : Part → Prop}

theorem Keeps.refl (s : State) : Keeps p s s := ⟨rfl, le_rfl, le_rfl, List.prefix_rfl, List.suffix_rfl, id, id, fun x _ => Part.Same.refl x s⟩

theorem Keeps.trans {r s t : State} (h : Keeps p r s) (g : Keeps p s t) : Keeps p r t :=
  ⟨g.queue.trans h.queue, h.clock.trans g.clock, h.draws.trans g.draws, h.out.trans g.out, h.otp.trans g.otp, g.rising ∘ h.rising, g.inv ∘ h.inv,
    fun x hx => (h.frame x hx).trans h.rising (g.frame x hx)⟩

variable {r s : State}

/-! Combinators -/

/-- Through a state on the way. -/
theorem Keeps.via {x t : State} (hx : Keeps p r x) (ht : Keeps p r x → Keeps p r t) : Keeps p r t := ht hx

/-- Through a family of states on the way. -/
theorem Keeps.viaFun {β : Type} {x : β → State} {t : State} (hx : ∀ b, Keeps p r (x b)) (ht : (∀ b, Keeps p r (x b)) → Keeps p r t) : Keeps p r t := ht hx

/-- Through an operation defined on the way. -/
theorem Keeps.viaAct {x : State → State} {t : State} (hx : ∀ s, Keeps p r s → Keeps p r (x s)) (ht : (∀ s, Keeps p r s → Keeps p r (x s)) → Keeps p r t) :
    Keeps p r t := ht hx

/-- The state of a pair that a match took apart. -/
theorem Keeps.ofSnd {β : Type} {x : β × State} {b : β} {t : State} (e : x = (b, t)) (h : Keeps p r x.2) : Keeps p r t := by subst e; exact h

theorem Keeps.ofFst {β : Type} {x : State × β} {b : β} {t : State} (e : x = (t, b)) (h : Keeps p r x.1) : Keeps p r t := by subst e; exact h

theorem Keeps.ite {c : Prop} [Decidable c] {a b : State} (ha : Keeps p r a) (hb : Keeps p r b) : Keeps p r (if c then a else b) := by
  split <;> assumption

theorem Keeps.iteAct {c : Prop} [Decidable c] {a b : Bool × (State → State)} (ha : Keeps p r (a.2 s)) (hb : Keeps p r (b.2 s)) :
    Keeps p r ((if c then a else b).2 s) := by
  split <;> assumption

theorem Keeps.foldl {α : Type} {g : State → α → State} (l : List α) (h : Keeps p r s) (hg : ∀ s a, Keeps p r s → Keeps p r (g s a)) :
    Keeps p r (l.foldl g s) := by
  induction l generalizing s with
  | nil => exact h
  | cons a t ih => exact ih (hg s a h)

theorem Keeps.foldlSnd {α β : Type} {g : β × State → α → β × State} (l : List α) {b : β × State} (h : Keeps p r b.2)
    (hg : ∀ b a, Keeps p r b.2 → Keeps p r (g b a).2) : Keeps p r (l.foldl g b).2 := by
  induction l generalizing b with
  | nil => exact h
  | cons a t ih => exact ih (hg b a h)

theorem Keeps.foldlFst {α β : Type} {g : State × β → α → State × β} (l : List α) {b : State × β} (h : Keeps p r b.1)
    (hg : ∀ b a, Keeps p r b.1 → Keeps p r (g b a).1) : Keeps p r (l.foldl g b).1 := by
  induction l generalizing b with
  | nil => exact h
  | cons a t ih => exact ih (hg b a h)

/-! Primitive updates -/

/-- An update of fields outside every bound. -/
theorem Keeps.of_eq {t : State} (h : Keeps p r s) (hq : t.pending = s.pending) (hn : s.now ≤ t.now) (hf : s.free ≤ t.free) (ho : s.out <+: t.out)
    (hr : t.regs = s.regs) (hfl : t.flash = s.flash) (hm : t.mem = s.mem) (hd : t.dm = s.dm) (hmg : t.mg = s.mg) (htb : t.tb.tsq = s.tb.tsq)
    (ha : t.fcA = s.fcA) (hb : t.fcB = s.fcB) (frame : ∀ x, ¬ p x → x.Same s t)
    (hs : s.Sorted → t.Sorted := by exact fun i => ⟨i.1, i.2.1, i.2.2.1, i.2.2.2⟩)
    (h2 : (∀ x ∈ s.tb2, x.1.tsq.length ≤ 32) → ∀ x ∈ t.tb2, x.1.tsq.length ≤ 32 := by exact id) : Keeps p r t :=
  h.trans ⟨hq, hn, hf, ho, hmg ▸ List.suffix_rfl, fun c => hr ▸ c, fun i =>
    ⟨hr ▸ i.regs, hfl ▸ i.flash, by rw [hm, hd]; exact i.cells, hmg ▸ i.audit, htb ▸ i.stamps, h2 i.stamps2, ha ▸ i.storeA, hb ▸ i.storeB, hd ▸ i.poison, hs i.sorted⟩, frame⟩

/-- The block of a field's key. -/
theorem blockOf_fld (f : Fld) : blockOf f.a = some f.blk := by
  have h : f.a % 0x1000000 / 0x10000 = f.blk.page := by unfold Fld.a Block.page; split <;> omega
  unfold blockOf
  rw [h]
  cases f.blk <;> rfl

theorem blockOf_page {k : Nat} {c : Block} (h : k % 0x1000000 / 0x10000 = c.page) : blockOf k = some c := by
  unfold blockOf
  rw [h]
  cases c <;> rfl

/-- A key in a block that may change. -/
theorem blockOf_is {k : Nat} {c : Block} (h : blockOf k = some c) (hp : p (.regs c)) : ∀ b, blockOf k = some b → p (.regs b) :=
  fun _ hb => Option.some.inj (h.symm.trans hb) ▸ hp

theorem setWord_keeps (h : Keeps p r s) (k : Nat) (w : Word) (hb : ∀ b, blockOf k = some b → p (.regs b)) : Keeps p r (s.setWord k w) :=
  h.trans ⟨rfl, le_rfl, le_rfl, List.prefix_rfl, List.suffix_rfl, Sparse.rising_put k w, fun i =>
    ⟨Sparse.wf_put k w i.regs, i.flash, i.cells, i.audit, i.stamps, i.stamps2, i.storeA, i.storeB, i.poison, i.sorted⟩, fun x hx => by
    cases x
    case regs b =>
      intro hr j hj
      have : j ≠ k := fun e => hx (hb b (e ▸ hj))
      exact (s.word_setWord k j w hr).trans (if_neg this)
    all_goals rfl⟩

theorem emit_keeps (h : Keeps p r s) (o : Out) (hp : p .outputs := by assumption) : Keeps p r (s.emit o) :=
  Keeps.of_eq h rfl le_rfl le_rfl (List.prefix_append _ _) rfl rfl rfl rfl rfl rfl rfl rfl fun x hx => by
    cases x <;> first | rfl | exact Part.Same.regs rfl | exact absurd hp hx

theorem draw_keeps (h : Keeps p r s) (hp : p .draws := by assumption) : Keeps p r s.draw.2 :=
  Keeps.of_eq h rfl le_rfl (Nat.le_succ _) List.prefix_rfl rfl rfl rfl rfl rfl rfl rfl rfl fun x hx => by
    cases x <;> first | rfl | exact Part.Same.regs rfl | exact absurd hp hx

theorem free_keeps (h : Keeps p r s) (n : Nat) (hp : p .draws := by assumption) : Keeps p r { s with free := s.free + n } :=
  Keeps.of_eq h rfl le_rfl (Nat.le_add_right _ _) List.prefix_rfl rfl rfl rfl rfl rfl rfl rfl rfl fun x hx => by
    cases x <;> first | rfl | exact Part.Same.regs rfl | exact absurd hp hx

theorem advance_keeps (h : Keeps p r s) (n : Nat) (hc : p .clock := by assumption) (ht : p .timebase := by assumption) : Keeps p r (s.advance n) :=
  Keeps.of_eq h rfl (Nat.le_add_right _ _) le_rfl List.prefix_rfl rfl rfl rfl rfl rfl rfl rfl rfl (fun x hx => by
    cases x <;> first | rfl | exact Part.Same.regs rfl | exact absurd hc hx | exact absurd ht hx)
    (fun i => i) (fun i x hx => by
      obtain ⟨y, hy, rfl⟩ := Option.mem_map.1 hx
      exact i y hy)

theorem State.Sorted.modMg {f : Manage → Manage} (h1 : (f s.mg).fetchBuf = s.mg.fetchBuf) (h2 : (f s.mg).passport = s.mg.passport) (i : s.Sorted) :
    (s.modMg f).Sorted := ⟨i.1, i.2.1, (congrArg Sparse.rising h1).trans i.2.2.1, (congrArg Sparse.rising h2).trans i.2.2.2⟩

theorem State.Sorted.modLe {f : Lamps → Lamps} (h1 : (f s.le).rings = s.le.rings) (h2 : (f s.le).lut = s.le.lut) (i : s.Sorted) :
    (s.modLe f).Sorted := ⟨(congrArg Sparse.rising h1).trans i.1, (congrArg Sparse.rising h2).trans i.2.1, i.2.2⟩

/-- An update of one store that may change what it has collected. -/
theorem modFc_keeps (h : Keeps p r s) (x : Half) (f : FcStore → FcStore) (hf : ∀ c, c.Ok → (f c).Ok) (hs : p .store := by assumption)
    (hw : p .waiting := by assumption) : Keeps p r (s.modFc x f) := by
  refine h.trans ?_
  have frame : ∀ y, ¬ p y → y.Same s (s.modFc x f) := fun y hy => by
    cases x <;> cases y <;> first | rfl | exact Part.Same.regs rfl | exact absurd hs hy | exact absurd hw hy
  cases x
  · exact ⟨rfl, le_rfl, le_rfl, List.prefix_rfl, List.suffix_rfl, id, fun i => ⟨i.regs, i.flash, i.cells, i.audit, i.stamps, i.stamps2, hf _ i.storeA, i.storeB, i.poison, i.sorted⟩, frame⟩
  · exact ⟨rfl, le_rfl, le_rfl, List.prefix_rfl, List.suffix_rfl, id, fun i => ⟨i.regs, i.flash, i.cells, i.audit, i.stamps, i.stamps2, i.storeA, hf _ i.storeB, i.poison, i.sorted⟩, frame⟩

/-- An update of what waits before one store. -/
theorem modPend_keeps (h : Keeps p r s) (x : Half) (f : FcStore → FcStore) (hf : ∀ c, c.Ok → (f c).Ok) (hc : ∀ c, (f c).core = c.core)
    (hw : p .waiting := by assumption) : Keeps p r (s.modFc x f) := by
  refine h.trans ?_
  have frame : ∀ y, ¬ p y → y.Same s (s.modFc x f) := fun y hy => by
    cases x <;> cases y <;> first | rfl | exact Part.Same.regs rfl | exact absurd hw hy | (show (_, _) = (_, _); simp only [State.modFc, hc])
  cases x
  · exact ⟨rfl, le_rfl, le_rfl, List.prefix_rfl, List.suffix_rfl, id, fun i => ⟨i.regs, i.flash, i.cells, i.audit, i.stamps, i.stamps2, hf _ i.storeA, i.storeB, i.poison, i.sorted⟩, frame⟩
  · exact ⟨rfl, le_rfl, le_rfl, List.prefix_rfl, List.suffix_rfl, id, fun i => ⟨i.regs, i.flash, i.cells, i.audit, i.stamps, i.stamps2, i.storeA, hf _ i.storeB, i.poison, i.sorted⟩, frame⟩

theorem modTh_keeps (h : Keeps p r s) (y : Half) (f : Thermal → Thermal) (hp : p .thermal := by assumption) : Keeps p r (s.modTh y f) := by
  cases y <;> exact Keeps.of_eq h rfl le_rfl le_rfl List.prefix_rfl rfl rfl rfl rfl rfl rfl rfl rfl fun x hx => by
    cases x <;> first | rfl | exact Part.Same.regs rfl | exact absurd hp hx

theorem modCk_keeps (h : Keeps p r s) (y : Half) (f : ClockHalf → ClockHalf) (hp : p .clocks := by assumption) : Keeps p r (s.modCk y f) := by
  cases y <;> exact Keeps.of_eq h rfl le_rfl le_rfl List.prefix_rfl rfl rfl rfl rfl rfl rfl rfl rfl fun x hx => by
    cases x <;> first | rfl | exact Part.Same.regs rfl | exact absurd hp hx

theorem modWh_keeps (h : Keeps p r s) (y : Half) (f : WeltHalf → WeltHalf) (hp : p .welt := by assumption) : Keeps p r (s.modWh y f) := by
  cases y <;> exact Keeps.of_eq h rfl le_rfl le_rfl List.prefix_rfl rfl rfl rfl rfl rfl rfl rfl rfl fun x hx => by
    cases x <;> first | rfl | exact Part.Same.regs rfl | exact absurd hp hx

theorem modPwr_keeps (h : Keeps p r s) (f : Power → Power) (hp : p .power := by assumption) : Keeps p r (s.modPwr f) :=
  Keeps.of_eq h rfl le_rfl le_rfl List.prefix_rfl rfl rfl rfl rfl rfl rfl rfl rfl fun x hx => by
    cases x <;> first | rfl | exact Part.Same.regs rfl | exact absurd hp hx

theorem modWl_keeps (h : Keeps p r s) (f : Welt → Welt) (hl : p .leader ∨ (f s.wl).leader = s.wl.leader := by exact Or.inr rfl)
    (hp : p .welt := by assumption) : Keeps p r (s.modWl f) :=
  Keeps.of_eq h rfl le_rfl le_rfl List.prefix_rfl rfl rfl rfl rfl rfl rfl rfl rfl fun x hx => by
    cases x
    case leader => exact hl.resolve_left hx
    all_goals first | rfl | exact Part.Same.regs rfl | exact absurd hp hx

theorem modLe_keeps (h : Keeps p r s) (f : Lamps → Lamps) (hp : p .lamps := by assumption)
    (hs : s.Sorted → (s.modLe f).Sorted := by exact State.Sorted.modLe rfl rfl) : Keeps p r (s.modLe f) :=
  Keeps.of_eq h rfl le_rfl le_rfl List.prefix_rfl rfl rfl rfl rfl rfl rfl rfl rfl (fun x hx => by
    cases x <;> first | rfl | exact Part.Same.regs rfl | exact absurd hp hx) hs

theorem modEng_keeps (h : Keeps p r s) (e : Nat) (f : Engine → Engine) (hp : p .lamps := by assumption) : Keeps p r (s.modEng e f) := modLe_keeps h _

theorem modRing_keeps (h : Keeps p r s) (e : Nat) (f : Ring → Ring) (hp : p .lamps := by assumption) : Keeps p r (s.modRing e f) :=
  modLe_keeps h _ hp fun i => ⟨show Sparse.rising (Sparse.put (fun _ => {}) s.le.rings e (f (s.ring e))) = true from Sparse.rising_put _ _ i.1, i.2⟩

/-- A part of the heads that an update leaves is left of all of them. -/
theorem modHead_map {β : Type} (s : State) (n : Nat) (f : Head → Head) (g : Head → β) (hg : g (f (s.head n)) = g (s.head n)) :
    (s.modHead n f).heads.map g = s.heads.map g := by
  refine Vector.ext fun i hi => ?_
  show ((s.heads.setIfInBounds n (f (s.head n))).map g)[i] = _
  rw [Vector.getElem_map, Vector.getElem_map, Vector.getElem_setIfInBounds]
  split
  · rename_i e
    subst e
    have hd : s.head n = s.heads[n] := by simp [State.head, hi]
    rw [hg, hd]
  · rfl

theorem modHead_keeps (h : Keeps p r s) (n : Nat) (f : Head → Head) (hp : p .heads := by assumption)
    (hi : p .access ∨ ∀ x, (f x).io = x.io := by exact Or.inr fun _ => rfl) : Keeps p r (s.modHead n f) :=
  Keeps.of_eq h rfl le_rfl le_rfl List.prefix_rfl rfl rfl rfl rfl rfl rfl rfl rfl fun x hx => by
    cases x
    case access => exact modHead_map s n f _ (hi.resolve_left hx _)
    all_goals first | rfl | exact Part.Same.regs rfl | exact absurd hp hx

/-- An update of the accesses of a head that wait. -/
theorem modAccess_keeps (h : Keeps p r s) (n : Nat) (f : Head → Head) (hf : ∀ x, (f x).rest = x.rest) (hp : p .access := by assumption) :
    Keeps p r (s.modHead n f) :=
  Keeps.of_eq h rfl le_rfl le_rfl List.prefix_rfl rfl rfl rfl rfl rfl rfl rfl rfl fun x hx => by
    cases x
    case heads => exact modHead_map s n f _ (hf _)
    all_goals first | rfl | exact Part.Same.regs rfl | exact absurd hp hx

theorem modSched_keeps (h : Keeps p r s) (y : Half) (f : Sched → Sched) (hp : p .schedule := by assumption) : Keeps p r (s.modSched y f) := by
  unfold State.modSched
  split <;> exact Keeps.of_eq h rfl le_rfl le_rfl List.prefix_rfl rfl rfl rfl rfl rfl rfl rfl rfl fun x hx => by
    cases x <;> first | rfl | exact Part.Same.regs rfl | exact absurd hp hx

theorem modScheds_keeps (h : Keeps p r s) (f : Sched → Sched) (hp : p .schedule := by assumption) : Keeps p r (s.modScheds f) :=
  Keeps.of_eq h rfl le_rfl le_rfl List.prefix_rfl rfl rfl rfl rfl rfl rfl rfl rfl fun x hx => by
    cases x <;> first | rfl | exact Part.Same.regs rfl | exact absurd hp hx

theorem modRt_keeps (h : Keeps p r s) (n : Nat) (f : SrcRt → SrcRt) (hp : p .schedule := by assumption) : Keeps p r (s.modRt n f) :=
  modSched_keeps h _ _

theorem modTb_keeps (h : Keeps p r s) (f : TimeBase → TimeBase) (hf : s.tb.tsq.length ≤ 32 → (f s.tb).tsq.length ≤ 32)
    (hc : p .clock ∨ ((f s.tb).time, (f s.tb).rate) = (s.tb.time, s.tb.rate)) (hp : p .timebase := by assumption) : Keeps p r (s.modTb f) :=
  h.trans ⟨rfl, le_rfl, le_rfl, List.prefix_rfl, List.suffix_rfl, id, fun i =>
    ⟨i.regs, i.flash, i.cells, i.audit, hf i.stamps, i.stamps2, i.storeA, i.storeB, i.poison, i.sorted⟩, fun x hx => by
      cases x
      case clock =>
        have e := hc.resolve_left hx
        exact congrArg (fun q => (s.now, q)) e
      all_goals first | rfl | exact Part.Same.regs rfl | exact absurd hp hx⟩

theorem modMg_keeps (h : Keeps p r s) (f : Manage → Manage) (hf : s.mg.audit.length ≤ 64 → (f s.mg).audit.length ≤ 64)
    (ho : s.mg.otp.done <:+ (f s.mg).otp.done) (h1 : p .otp ∨ (f s.mg).otp = s.mg.otp) (h2 : p .passport ∨ (f s.mg).passport = s.mg.passport)
    (h3 : p .roles ∨ (f s.mg).roles = s.mg.roles)
    (h4 : p .audit ∨ ((f s.mg).audit, (f s.mg).auditSeq, (f s.mg).auditWait, (f s.mg).refusals) =
      (s.mg.audit, s.mg.auditSeq, s.mg.auditWait, s.mg.refusals))
    (h5 : p .manage ∨ (f s.mg).rest = s.mg.rest) (h6 : p .flash ∨ (f s.mg).torn = s.mg.torn := by exact Or.inr rfl)
    (h7 : p .start ∨ (f s.mg).taken = s.mg.taken := by exact Or.inr rfl)
    (hs : s.Sorted → (s.modMg f).Sorted := by exact State.Sorted.modMg rfl rfl) : Keeps p r (s.modMg f) :=
  h.trans ⟨rfl, le_rfl, le_rfl, List.prefix_rfl, ho, id, fun i =>
    ⟨i.regs, i.flash, i.cells, hf i.audit, i.stamps, i.stamps2, i.storeA, i.storeB, i.poison, hs i.sorted⟩, fun x hx => by
      cases x
      case flash => exact congrArg (fun q => (s.flash, q)) (h6.resolve_left hx)
      case start => exact h7.resolve_left hx
      all_goals first
        | rfl | exact Part.Same.regs rfl | exact h1.resolve_left hx | exact h2.resolve_left hx | exact h3.resolve_left hx | exact h4.resolve_left hx | exact h5.resolve_left hx⟩

theorem modDm_keeps (h : Keeps p r s) (f : Mem → Mem) (hb : (f s.dm).blank = s.dm.blank)
    (hl : s.dm.poison.length ≤ 256 → (f s.dm).poison.length ≤ 256) (hp : p .memory := by assumption) : Keeps p r (s.modDm f) :=
  h.trans ⟨rfl, le_rfl, le_rfl, List.prefix_rfl, List.suffix_rfl, id, fun i =>
    ⟨i.regs, i.flash, by show Sparse.wf (f s.dm).blank s.mem = true; rw [hb]; exact i.cells, i.audit, i.stamps, i.stamps2, i.storeA, i.storeB, hl i.poison, i.sorted⟩,
    fun x hx => by
      cases x
      case cells => exact congrArg (fun q => (s.mem, q)) hb
      all_goals first | rfl | exact Part.Same.regs rfl | exact absurd hp hx⟩

theorem modMh_keeps (h : Keeps p r s) (x : Half) (f : MemHalf → MemHalf) (hp : p .memory := by assumption) : Keeps p r (s.modMh x f) := by
  cases x <;> exact modDm_keeps h _ rfl id

theorem modSub_keeps (h : Keeps p r s) (n : Nat) (f : Sub → Sub) (hf : (f (s.sub n)).sealKey = (s.sub n).sealKey)
    (hp : p .memory := by assumption) : Keeps p r (s.modSub n f) := modDm_keeps h _ (s.blank_modSub n f hf) id

theorem wr_keeps (h : Keeps p r s) (f : Fld) (v : Nat) (hp : p (.regs f.blk) := by assumption) : Keeps p r (s.wr f v) :=
  setWord_keeps h _ _ (blockOf_is (blockOf_fld f) hp)
theorem flag_keeps (h : Keeps p r s) (f : Fld) (b : Bool) (hp : p (.regs f.blk) := by assumption) : Keeps p r (s.flag f b) :=
  setWord_keeps h _ _ (blockOf_is (blockOf_fld f) hp)
theorem bump_keeps (h : Keeps p r s) (f : Fld) (n : Nat) (hp : p (.regs f.blk) := by assumption) : Keeps p r (s.bump f n) :=
  setWord_keeps h _ _ (blockOf_is (blockOf_fld f) hp)
theorem wrap_keeps (h : Keeps p r s) (f : Fld) (n : Nat) (hp : p (.regs f.blk) := by assumption) : Keeps p r (s.wrap f n) :=
  setWord_keeps h _ _ (blockOf_is (blockOf_fld f) hp)
theorem peak_keeps (h : Keeps p r s) (f : Fld) (n : Nat) (hp : p (.regs f.blk) := by assumption) : Keeps p r (s.peak f n) :=
  setWord_keeps h _ _ (blockOf_is (blockOf_fld f) hp)
theorem wrS_keeps (h : Keeps p r s) (f : Fld) (n : Int) (hp : p (.regs f.blk) := by assumption) : Keeps p r (s.wrS f n) :=
  setWord_keeps h _ _ (blockOf_is (blockOf_fld f) hp)

/-! The two time bases of split mode -/

/-- Writing the TB fields of which each half has a copy changes those registers only. -/
theorem baseRegs_keeps (h : Keeps p r s) (l : List (Fld × Nat)) (hl : ∀ x ∈ l, x.1.blk = .tb) (hp : p (.regs .tb) := by assumption) :
    Keeps p r (l.foldl (fun s f => s.wr f.1 f.2) s) := by
  induction l generalizing s with
  | nil => exact h
  | cons a t ih =>
    exact ih (wr_keeps h a.1 a.2 (by rw [hl a List.mem_cons_self]; exact hp)) fun x hx => hl x (List.mem_cons_of_mem _ hx)

theorem baseRegs_eq (s : State) (l : List (Fld × Nat)) : ∃ R, l.foldl (fun s f => s.wr f.1 f.2) s = { s with regs := R } := by
  induction l generalizing s with
  | nil => exact ⟨_, rfl⟩
  | cons a t ih =>
    obtain ⟨R, hR⟩ := ih (s.wr a.1 a.2)
    exact ⟨R, hR⟩

/-- Every field of which each half has a copy is a TB field. -/
theorem baseFields_tb : ∀ f ∈ baseFields, f.blk = .tb := by decide

theorem baseZip_tb (v : List Nat) : ∀ x ∈ List.zip baseFields v, x.1.blk = .tb := fun x hx => baseFields_tb x.1 (List.of_mem_zip (a := x.1) (b := x.2) hx).1

/-- The state in which the other half's time base and schedule stand in front, but for the registers. -/
theorem State.flip_eq (s : State) : ∃ R, s.flip =
    { s with regs := R, wl := { s.wl with leader := s.wl.leader.other }, sched := s.sched2.getD s.sched, sched2 := s.sched2.map fun _ => s.sched
             tb := (s.tb2.getD (s.tb, s.baseValues)).1, tb2 := some (s.tb, s.baseValues) } := by
  obtain ⟨R, hR⟩ := baseRegs_eq s (List.zip baseFields (s.tb2.getD (s.tb, s.baseValues)).2)
  exact ⟨R, by unfold State.flip; dsimp only; rw [hR]⟩

/-- Of the registers, flip changes TB registers only. -/
theorem State.flip_regs (s : State) :
    (Sparse.rising s.regs = true → Sparse.rising s.flip.regs = true) ∧ (Sparse.wf regPowerOn s.regs = true → Sparse.wf regPowerOn s.flip.regs = true) ∧
      ∀ b, b ≠ Block.tb → (Part.regs b).Same s s.flip := by
  have k := baseRegs_keeps (p := fun x => x = .regs .tb) (Keeps.refl s) _ (baseZip_tb (s.tb2.getD (s.tb, s.baseValues)).2) rfl
  refine ⟨k.rising, ?_, fun b hb => k.frame (.regs b) fun e => hb (Part.regs.inj e)⟩
  intro hw
  show Sparse.wf regPowerOn (List.foldl (fun s f => s.wr f.1 f.2) s (List.zip baseFields (s.tb2.getD (s.tb, s.baseValues)).2)).regs = true
  generalize List.zip baseFields (s.tb2.getD (s.tb, s.baseValues)).2 = l
  clear k
  induction l generalizing s with
  | nil => exact hw
  | cons a t ih => exact ih (s.wr a.1 a.2) (Sparse.wf_put _ _ hw)

theorem State.Inv.flip (i : s.Inv) : s.flip.Inv := by
  obtain ⟨R, hR⟩ := s.flip_eq
  have hw := s.flip_regs.2.1 i.regs
  rw [hR] at hw ⊢
  refine ⟨hw, i.flash, i.cells, i.audit, ?_, ?_, i.storeA, i.storeB, i.poison, i.sorted⟩
  · show (s.tb2.getD (s.tb, s.baseValues)).1.tsq.length ≤ 32
    cases e : s.tb2 with
    | none => exact i.stamps
    | some y => exact i.stamps2 y (by rw [e]; rfl)
  · intro x hx
    obtain rfl := Option.some.inj hx
    exact i.stamps

/-- Bringing the other half's time base and schedule to the front. -/
theorem flip_keeps (h : Keeps p r s) (hc : p .clock := by assumption) (ht : p .timebase := by assumption) (hs : p .schedule := by assumption)
    (hw : p .welt := by assumption) (hl : p .leader := by assumption) (hr : p (.regs .tb) := by assumption) : Keeps p r s.flip := by
  refine h.trans ?_
  obtain ⟨R, hR⟩ := s.flip_eq
  have k := s.flip_regs
  have i := State.Inv.flip (s := s)
  rw [hR] at k i ⊢
  refine ⟨rfl, le_rfl, le_rfl, List.prefix_rfl, List.suffix_rfl, k.1, i, fun x hx => ?_⟩
  cases x
  case regs b => exact k.2.2 b fun e => hx (e ▸ hr)
  all_goals first | rfl | exact absurd (by assumption) hx

/-- What is done with the other half's time base in front, and then with its own again: the schedules and the leader are what they were, but for what
was done. -/
theorem flipFlip_keeps {u : State} (h : Keeps p r s) (g : Keeps p s.flip u) (hc : p .clock := by assumption) (ht : p .timebase := by assumption)
    (hr : p (.regs .tb) := by assumption) : Keeps p r u.flip := by
  refine h.trans ?_
  obtain ⟨R, hR⟩ := s.flip_eq
  obtain ⟨Q, hQ⟩ := u.flip_eq
  have ks := s.flip_regs
  have ku := u.flip_regs
  have is := State.Inv.flip (s := s)
  have iu := State.Inv.flip (s := u)
  have gq := g.queue
  have gc := g.clock
  have gd := g.draws
  have go := g.out
  have gp := g.otp
  have gr := g.rising
  have gi := g.inv
  have gf := g.frame
  rw [hR] at ks is gq gc gd go gp gr gi gf
  rw [hQ] at ku iu ⊢
  refine ⟨gq, gc, gd, go, gp, fun a => ku.1 (gr (ks.1 a)), fun a => iu (gi (is a)), fun x hx => ?_⟩
  cases x
  case regs b =>
    have hb : b ≠ .tb := fun e => hx (e ▸ hr)
    exact Part.Same.trans (fun a => gr (ks.1 a)) (Part.Same.trans ks.1 (ks.2.2 b hb) (gf (.regs b) hx)) (ku.2.2 b hb)
  case clock => exact absurd hc hx
  case timebase => exact absurd ht hx
  case schedule =>
    have e := gf .schedule hx
    simp only [Part.Same, Prod.mk.injEq] at e ⊢
    rw [e.1, e.2]
    cases s.sched2 <;> exact ⟨rfl, rfl⟩
  case welt =>
    have e : u.wl = _ := gf .welt hx
    show ({ u.wl with leader := u.wl.leader.other } : Welt) = s.wl
    rw [e]
    show ({ s.wl with leader := s.wl.leader.other.other } : Welt) = s.wl
    rw [show s.wl.leader.other.other = s.wl.leader by cases s.wl.leader <;> rfl]
  case leader =>
    have e : u.wl.leader = s.wl.leader.other := gf .leader hx
    show u.wl.leader.other = s.wl.leader
    rw [e]
    cases s.wl.leader <;> rfl
  all_goals exact gf _ hx

/-- Each half takes its own schedule and time base as split mode begins (R323). -/
theorem splitOff_keeps (h : Keeps p r s) (v : List Nat) (hs : p .schedule := by assumption) (ht : p .timebase := by assumption) :
    Keeps p r { s with sched2 := some s.sched, tb2 := some (s.tb, v) } :=
  h.trans ⟨rfl, le_rfl, le_rfl, List.prefix_rfl, List.suffix_rfl, id, fun i =>
    ⟨i.regs, i.flash, i.cells, i.audit, i.stamps, fun x hx => (Option.some.inj hx) ▸ i.stamps, i.storeA, i.storeB, i.poison, i.sorted⟩, fun x hx => by
      cases x <;> first | rfl | exact Part.Same.regs rfl | exact absurd hs hx | exact absurd ht hx⟩

/-- Something that befalls both time bases (R323). -/
theorem onBases_keeps (h : Keeps p r s) (f : State → State) (hf : ∀ r s, Keeps p r s → Keeps p r (f s)) (hc : p .clock := by assumption)
    (ht : p .timebase := by assumption) (hr : p (.regs .tb) := by assumption) : Keeps p r (s.onBases f) := by
  unfold State.onBases
  have k := hf r s h
  dsimp only
  split
  · exact flipFlip_keeps k (hf _ _ (Keeps.refl _))
  · exact k

end Sys2Proof.Machine
end

