-- ==== Sys2Proof/Laws/KeepsOps.lean ====
section
/-! SUPPORT. What every function keeps (Sys2Proof/Laws/Keeps.lean), carried through the shared operations of registers, DRAM, time, heads, reads, engines and stops. -/
set_option Elab.async false
set_option linter.unusedTactic false
set_option linter.unreachableTactic false
set_option linter.unusedVariables false
namespace Sys2Proof.Machine

variable {p : Part → Prop} {r s : State}

theorem jumpTo_keeps (h : Keeps p r s) (t : Nat) (_ : p .clock := by assumption) (_ : p .timebase := by assumption) :
    Keeps p r (State.jumpTo s t) := by
  unfold State.jumpTo
  repeat' first
    | with_reducible assumption
    | with_reducible apply Keeps.ite
    | with_reducible apply advance_keeps
    | (with_reducible refine Keeps.via ?_ id; split)

theorem FcStore.Ok.merge {c : FcStore} (h : c.Ok) (src n : Nat) : (c.merge src n).Ok := ⟨h.single, h.ring⟩

theorem raise_keeps (h : Keeps p r s) (hh : Half) (src kind detail extra : Nat) (_ : p .waiting := by assumption) : Keeps p r (State.raise s hh src kind detail extra) := by
  unfold State.raise
  split
  · exact h
  · refine modPend_keeps h _ _ (fun c hc => ?_) (fun c => by split <;> rfl)
    split
    · exact hc.merge src 1
    · rename_i hn
      refine ⟨?_, hc.ring⟩
      show (List.map Msg.src (c.pend ++ [_])).Nodup
      rw [List.map_append, List.nodup_append]
      refine ⟨hc.single, List.nodup_singleton _, fun a ha b hb e => hn ?_⟩
      obtain ⟨m, hm, rfl⟩ := List.mem_map.1 ha
      simp only [List.map_cons, List.map_nil, List.mem_singleton] at hb
      exact List.any_eq_true.2 ⟨m, hm, by simp [e, hb]⟩

theorem raiseL_keeps (h : Keeps p r s) (src kind detail extra : Nat) (_ : p .waiting := by assumption) :
    Keeps p r (State.raiseL s src kind detail extra) := by
  unfold State.raiseL
  repeat' first
    | with_reducible assumption
    | with_reducible apply raise_keeps

theorem modRole_keeps (h : Keeps p r s) (pp : Path) (f : PathRole → PathRole) (_ : p .roles := by assumption) :
    Keeps p r (State.modRole s pp f) := by
  unfold State.modRole
  repeat' first
    | with_reducible assumption
    | with_reducible apply modMg_keeps
    | exact Or.inl (by assumption)
    | exact Or.inr rfl
    | exact rfl
    | exact State.Sorted.modMg rfl rfl
    | exact State.Sorted.modLe rfl rfl
    | exact id
    | exact List.suffix_rfl
    | exact fun _ => Nat.zero_le _
    | with_reducible apply_assumption

theorem clearRole_keeps (h : Keeps p r s) (pp : Path) (_ : p .roles := by assumption) :
    Keeps p r (State.clearRole s pp) := by
  unfold State.clearRole
  repeat' first
    | with_reducible assumption
    | with_reducible apply modRole_keeps
    | with_reducible apply_assumption

theorem queueAudit_keeps (h : Keeps p r s) (e : AuditEntry) (hn : ¬ s.auditFull = true) (_ : p .audit := by assumption) (_ : p (.regs .mg) := by assumption) : Keeps p r (State.queueAudit s e) := by
  unfold State.queueAudit
  simp only [State.auditFull, decide_eq_true_eq] at hn
  refine wr_keeps (modMg_keeps h _ (fun _ => ?_) List.suffix_rfl (Or.inr rfl) (Or.inr rfl) (Or.inr rfl) (Or.inl (by assumption)) (Or.inr rfl)) _ _
  show (s.mg.audit ++ [_]).length ≤ 64
  simp only [List.length_append, List.length_singleton]; omega


theorem audit_keeps (h : Keeps p r s) (role path kind target old new : Nat) (sp : Bool) (_ : p .audit := by assumption) (_ : p (.regs .mg) := by assumption) :
    Keeps p r (State.audit s role path kind target old new sp) := by
  unfold State.audit
  dsimp only
  split
  · exact modMg_keeps h _ id List.suffix_rfl (Or.inr rfl) (Or.inr rfl) (Or.inr rfl) (Or.inl (by assumption)) (Or.inr rfl)
  · rename_i hn
    exact queueAudit_keeps h _ hn

theorem refillAudit_keeps (h : Keeps p r s) (_ : p .audit := by assumption) (_ : p (.regs .mg) := by assumption) : Keeps p r (State.refillAudit s) := by
  unfold State.refillAudit
  split
  · exact h
  · split
    · exact h
    · rename_i hn
      exact queueAudit_keeps (modMg_keeps h _ id List.suffix_rfl (Or.inr rfl) (Or.inr rfl) (Or.inr rfl) (Or.inl (by assumption)) (Or.inr rfl)) _ hn


theorem auditRefusal_keeps (h : Keeps p r s) (pp : Path) (target old new : Nat) (kind : Nat) (_ : p .audit := by assumption) (_ : p (.regs .mg) := by assumption) :
    Keeps p r (State.auditRefusal s pp target old new kind) := by
  unfold State.auditRefusal
  repeat' first
    | with_reducible assumption
    | (show p (.regs _); assumption)
    | with_reducible apply Keeps.ite
    | with_reducible apply bump_keeps
    | with_reducible apply modMg_keeps
    | with_reducible apply audit_keeps
    | (with_reducible refine Keeps.via ?_ id; split)
    | exact Or.inl (by assumption)
    | exact Or.inr rfl
    | exact rfl
    | exact State.Sorted.modMg rfl rfl
    | exact State.Sorted.modLe rfl rfl
    | exact id
    | exact List.suffix_rfl
    | exact fun _ => Nat.zero_le _
    | (dsimp only; split)
    | with_reducible apply_assumption

/-- The copies of a register for its paths are in its block. -/
theorem blockOf_key (t : RegTpl) (pp : Path) (a : Nat) : blockOf (t.key pp a) = blockOf a := by
  unfold RegTpl.key
  split <;> first | rfl | (unfold blockOf; rw [Nat.add_mul_mod_self_left])

theorem storeWrite_keeps (h : Keeps p r s) (pp : Path) (t : RegTpl) (a : Nat) (v : Nat) (hb : ∀ b, blockOf a = some b → p (.regs b)) :
    Keeps p r (State.storeWrite s pp t a v) :=
  setWord_keeps h _ _ fun b e => hb b (by rwa [blockOf_key] at e)

theorem farAccess_keeps (h : Keeps p r s) (pp : Path) (a : Nat) (write : Bool) (_ : p .waiting := by assumption) :
    Keeps p r (State.farAccess s pp a write) := by
  unfold State.farAccess
  repeat' first
    | with_reducible assumption
    | with_reducible apply raise_keeps

theorem set_setIfInBounds {α : Type} {n : Nat} (v : Vector α n) (i : Nat) (x : α) (hi : i < n) : v.set i x hi = v.setIfInBounds i x :=
  Vector.ext fun j hj => by rw [Vector.getElem_set, Vector.getElem_setIfInBounds]

theorem deferWrite_keeps (h : Keeps p r s) (pp : Path) (a v : Nat) (_ : p .access := by assumption) : Keeps p r (State.deferWrite s pp a v) := by
  cases pp with
  | spi => exact h
  | head n =>
    have hd : s.head n.val = s.heads[n] := by simp [State.head]
    have e : State.deferWrite s (.head n) a v = s.modHead n.val fun x => { x with io := x.io ++ [.write a v] } := by
      unfold State.deferWrite State.modHead
      rw [hd]
      exact congrArg (fun q => { s with heads := q }) (set_setIfInBounds _ _ _ _)
    exact e ▸ modAccess_keeps h n.val _ fun _ => rfl


theorem gatedNow_keeps (h : Keeps p r s) (pp : Path) (a v : Nat) (ownAudit : Bool) (act : State → State) (hf : ∀ s, Keeps p r s → Keeps p r (act s)) (hb : ∀ b, blockOf a = some b → p (.regs b)) (_ : p .audit := by assumption) (_ : p .waiting := by assumption) (_ : p (.regs .mg) := by assumption) :
    Keeps p r (State.gatedNow s pp a v ownAudit act) := by
  unfold State.gatedNow
  repeat' first
    | with_reducible assumption
    | exact hb
    | (show p (.regs _); assumption)
    | (extract_lets +onlyGivenNames y; refine Keeps.via (x := y) ?_ (fun _ => ?_); subst y; rotate_left; clear_value y)
    | (extract_lets +onlyGivenNames y; clear_value y)
    | with_reducible apply Keeps.ite
    | with_reducible apply farAccess_keeps
    | with_reducible apply auditRefusal_keeps
    | with_reducible apply bump_keeps
    | with_reducible apply storeWrite_keeps
    | with_reducible apply audit_keeps
    | (with_reducible refine Keeps.via ?_ id; split)
    | with_reducible apply_assumption

theorem gatedWrite_keeps (h : Keeps p r s) (pp : Path) (a v : Nat) (ownAudit : Bool) (act : State → State) (hf : ∀ s, Keeps p r s → Keeps p r (act s)) (hb : ∀ b, blockOf a = some b → p (.regs b)) (_ : p .audit := by assumption) (_ : p .waiting := by assumption) (_ : p .access := by assumption) (_ : p (.regs .mg) := by assumption) :
    Keeps p r (State.gatedWrite s pp a v ownAudit act) := by
  unfold State.gatedWrite
  repeat' first
    | with_reducible assumption
    | exact hb
    | with_reducible apply Keeps.ite
    | with_reducible apply deferWrite_keeps
    | with_reducible apply gatedNow_keeps
    | (with_reducible refine Keeps.via ?_ id; split)
    | with_reducible refine fun _ _ => ?_
    | with_reducible apply_assumption

theorem putSymbols_wf (n line : Nat) (sym : List Nat) (h : Sparse.wf s.dm.blank s.mem = true) :
    Sparse.wf s.dm.blank (s.putSymbols n line sym).mem = true := by
  unfold State.putSymbols
  show Sparse.wf s.dm.blank (List.foldl _ s.mem _) = true
  generalize (List.range 80).zip sym = l
  generalize s.mem = m at h
  induction l generalizing m with
  | nil => exact h
  | cons a t ih => exact ih _ (Sparse.wf_put _ _ h)

theorem putSymbols_keeps (h : Keeps p r s) (n line : Nat) (sym : List Nat) (_ : p .cells := by assumption) : Keeps p r (State.putSymbols s n line sym) :=
  h.trans ⟨rfl, le_rfl, le_rfl, List.prefix_rfl, List.suffix_rfl, id, fun i =>
    ⟨i.regs, i.flash, putSymbols_wf n line sym i.cells, i.audit, i.stamps, i.stamps2, i.storeA, i.storeB, i.poison, i.sorted⟩, fun x hx => by
    cases x <;> first | rfl | exact Part.Same.regs rfl | exact absurd ‹p .cells› hx⟩

theorem storeLine_keeps (h : Keeps p r s) (n line : Nat) (d : LineData) (poison : Bool) (_ : p .cells := by assumption) :
    Keeps p r (State.storeLine s n line d poison) := by
  unfold State.storeLine
  repeat' first
    | with_reducible assumption
    | with_reducible apply putSymbols_keeps

theorem fill_blank (n line cnt k : Nat) (hk : k < symKey n line 0 ∨ symKey n line 0 + cnt * 128 ≤ k) :
    (s.fill n line cnt).dm.blank k = s.dm.blank k := by
  have key : (decide (n = k / 128 / 2 ^ 32) && decide (line ≤ k / 128 % 2 ^ 32) && decide (k / 128 % 2 ^ 32 < line + cnt)) = false := by
    unfold symKey at hk
    by_contra hc
    simp only [Bool.not_eq_false, Bool.and_eq_true, decide_eq_true_eq] at hc
    omega
  unfold State.fill Mem.blank
  simp only [List.any_append, List.any_cons, List.any_nil, Bool.or_false, beq_eq_decide, key]

/-- A fill keeps the canonical form under what it makes unlisted symbols read as (R295). -/
theorem fill_wf (n line cnt : Nat) (h : Sparse.wf s.dm.blank s.mem = true) :
    Sparse.wf (s.fill n line cnt).dm.blank (s.fill n line cnt).mem = true := by
  have hw := Sparse.wf_delRange (symKey n line 0) (cnt * 128) h
  unfold Sparse.wf at hw ⊢
  simp only [Bool.and_eq_true, List.all_eq_true, decide_eq_true_eq] at hw ⊢
  refine ⟨hw.1, fun q hq => ?_⟩
  have hr := (List.mem_filter.1 hq).2
  simp only [Bool.or_eq_true, decide_eq_true_eq] at hr
  rw [fill_blank n line cnt q.1 hr]
  exact hw.2 q hq

theorem fill_keeps (h : Keeps p r s) (n line cnt : Nat) (_ : p .cells := by assumption) (_ : p .memory := by assumption) : Keeps p r (State.fill s n line cnt) :=
  h.trans ⟨rfl, le_rfl, le_rfl, List.prefix_rfl, List.suffix_rfl, id, fun i =>
    ⟨i.regs, i.flash, fill_wf n line cnt i.cells, i.audit, i.stamps, i.stamps2, i.storeA, i.storeB, i.poison, i.sorted⟩, fun x hx => by
    cases x <;> first | rfl | exact Part.Same.regs rfl | exact absurd ‹p .cells› hx | exact absurd ‹p .memory› hx⟩

theorem disturb_keeps (h : Keeps p r s) (n line : Nat) (err : SymErr) (_ : p .cells := by assumption) :
    Keeps p r (State.disturb s n line err) := by
  unfold State.disturb
  repeat' first
    | with_reducible assumption
    | with_reducible apply Keeps.ite
    | with_reducible apply putSymbols_keeps
    | (with_reducible refine Keeps.via ?_ id; split)
    | with_reducible apply_assumption

theorem countActs_keeps (h : Keeps p r s) (n rank bg ba cnt : Nat) (_ : p .memory := by assumption) (_ : p (.regs .dc) := by assumption) :
    Keeps p r (State.countActs s n rank bg ba cnt) := by
  unfold State.countActs
  repeat' first
    | with_reducible assumption
    | (show p (.regs _); assumption)
    | (refine (foldSub_sealKey ?_ _ _).trans ?_; exact fun _ _ => rfl; exact rfl)
    | (extract_lets +onlyGivenNames y; refine Keeps.via (x := y) ?_ (fun _ => ?_); subst y; rotate_left; clear_value y)
    | (extract_lets +onlyGivenNames y; clear_value y)
    | with_reducible apply Keeps.ite
    | with_reducible apply modSub_keeps
    | with_reducible apply bump_keeps
    | (with_reducible refine Keeps.via ?_ id; split)
    | exact rfl
    | exact State.Sorted.modMg rfl rfl
    | exact State.Sorted.modLe rfl rfl
    | exact id
    | (dsimp only; split)
    | with_reducible apply_assumption

theorem activateOnly_keeps (h : Keeps p r s) (n g : Nat) (_ : p .memory := by assumption) (_ : p (.regs .dc) := by assumption) :
    Keeps p r (State.activateOnly s n g) := by
  unfold State.activateOnly
  repeat' first
    | with_reducible assumption
    | (extract_lets +onlyGivenNames y; refine Keeps.via (x := y) ?_ (fun _ => ?_); subst y; rotate_left; clear_value y)
    | (extract_lets +onlyGivenNames y; refine Keeps.via (x := y.2) ?_ (fun _ => ?_); subst y; rotate_left; clear_value y)
    | (extract_lets +onlyGivenNames y; refine Keeps.via (x := y.1) ?_ (fun _ => ?_); subst y; rotate_left; clear_value y)
    | (extract_lets +onlyGivenNames y; clear_value y)
    | with_reducible apply countActs_keeps

theorem activate_keeps (h : Keeps p r s) (n g : Nat) (_ : p .memory := by assumption) (_ : p (.regs .dc) := by assumption) :
    Keeps p r (State.activate s n g) := by
  unfold State.activate
  repeat' first
    | with_reducible assumption
    | (show p (.regs _); assumption)
    | (extract_lets +onlyGivenNames y; refine Keeps.via (x := y) ?_ (fun _ => ?_); subst y; rotate_left; clear_value y)
    | (extract_lets +onlyGivenNames y; refine Keeps.via (x := y.2) ?_ (fun _ => ?_); subst y; rotate_left; clear_value y)
    | (extract_lets +onlyGivenNames y; refine Keeps.via (x := y.1) ?_ (fun _ => ?_); subst y; rotate_left; clear_value y)
    | (extract_lets +onlyGivenNames y; clear_value y)
    | with_reducible apply Keeps.ite
    | with_reducible apply modSub_keeps
    | with_reducible apply bump_keeps
    | with_reducible apply countActs_keeps
    | (with_reducible refine Keeps.via ?_ id; split)
    | exact rfl
    | exact State.Sorted.modMg rfl rfl
    | exact State.Sorted.modLe rfl rfl
    | exact id
    | (dsimp only; split)
    | with_reducible apply_assumption

theorem burst_keeps (h : Keeps p r s) (n : Nat) (b : Burst) (_ : p .cells := by assumption) (_ : p .memory := by assumption) :
    Keeps p r (State.burst s n b) := by
  unfold State.burst
  repeat' first
    | with_reducible assumption
    | with_reducible apply modSub_keeps
    | with_reducible apply storeLine_keeps
    | exact rfl
    | exact State.Sorted.modMg rfl rfl
    | exact State.Sorted.modLe rfl rfl
    | exact id
    | with_reducible apply_assumption

theorem writeVisit_keeps (h : Keeps p r s) (n : Nat) (e : WrEntry) (_ : p .cells := by assumption) (_ : p .memory := by assumption) (_ : p (.regs .dc) := by assumption) :
    Keeps p r (State.writeVisit s n e) := by
  unfold State.writeVisit
  repeat' first
    | with_reducible assumption
    | with_reducible apply burst_keeps
    | with_reducible apply activate_keeps
    | with_reducible refine Keeps.foldl _ ?_ (fun _ _ _ => ?_)
    | with_reducible apply_assumption

theorem fetchLine_keeps (h : Keeps p r s) (n line : Nat) (_ : p .memory := by assumption) (_ : p (.regs .dc) := by assumption) :
    Keeps p r (State.fetchLine s n line).2 := by
  unfold State.fetchLine
  repeat' first
    | with_reducible assumption
    | with_reducible apply activate_keeps
    | (with_reducible refine Keeps.via ?_ id; split)

/-! Changes of a subchannel's queues leave its seal alone. -/

@[simp] theorem Sub.putWrite_sealKey (u : Sub) (w : WrWait) : (u.putWrite w).sealKey = u.sealKey := by unfold Sub.putWrite; split <;> rfl

@[simp] theorem Sub.enterWrite_sealKey (u : Sub) (w : WrWait) : (u.enterWrite w).sealKey = u.sealKey := by unfold Sub.enterWrite; split <;> rfl

@[simp] theorem Sub.bookBulk_sealKey (u : Sub) (now : Nat) (cap : Option Nat) (b : Bool) : (u.bookBulk now cap b).sealKey = u.sealKey := by
  unfold Sub.bookBulk; split <;> rfl

theorem foldSub_sealKey {α : Type} {f : Sub → α → Sub} (hf : ∀ u a, (f u a).sealKey = u.sealKey) (l : List α) (u : Sub) :
    (l.foldl f u).sealKey = u.sealKey := by
  induction l generalizing u with
  | nil => rfl
  | cons a t ih => exact (ih (f u a)).trans (hf u a)

@[simp] theorem Sub.enterAll_sealKey (u : Sub) (l : List WrWait) : (l.foldl Sub.enterWrite u).sealKey = u.sealKey := foldSub_sealKey Sub.enterWrite_sealKey l u

theorem Sub.admitRead_sealKey (u v : Sub) (now : Nat) (cap : Option Nat) (w : RdWait) (h : u.admitRead now cap w = some v) : v.sealKey = u.sealKey := by
  unfold Sub.admitRead at h
  cases hf : w.frame <;> simp only [hf, if_true, Bool.false_eq_true, if_false] at h <;> split at h
  iterate 2
    · exact (Option.some.inj h) ▸ rfl
    · split at h
      · exact absurd h (by simp)
      · exact (Option.some.inj h) ▸ Sub.bookBulk_sealKey _ _ _ _

theorem Sub.admitWrite_sealKey (u v : Sub) (now : Nat) (cap : Option Nat) (w : WrWait) (h : u.admitWrite now cap w = some v) : v.sealKey = u.sealKey := by
  unfold Sub.admitWrite at h
  split at h
  · obtain rfl := Option.some.inj h
    exact u.enterWrite_sealKey w
  · split at h
    · exact absurd h (by simp)
    · obtain rfl := Option.some.inj h
      simp only [Sub.bookBulk_sealKey, Sub.enterWrite_sealKey]

theorem getD_sealKey {o : Option Sub} {u w : Sub} (h : ∀ v, o = some v → v.sealKey = u.sealKey) (hw : w.sealKey = u.sealKey) :
    (o.getD w).sealKey = u.sealKey := by
  cases o with
  | none => exact hw
  | some v => exact h v rfl

@[simp] theorem Sub.admitAll_sealKey (u : Sub) (now : Nat) (cap : Option Nat) : (u.admitAll now cap).sealKey = u.sealKey := by
  unfold Sub.admitAll
  dsimp only
  rw [foldSub_sealKey]
  · exact foldSub_sealKey (fun v w => by refine getD_sealKey (fun x hx => ?_) ?_; exacts [Sub.admitRead_sealKey v x now cap w hx, rfl]) _ _
  · intro v w
    refine getD_sealKey (fun x hx => ?_) ?_
    exacts [Sub.admitWrite_sealKey v x now cap w hx, rfl]

@[simp] theorem Sub.raaLess_sealKey (u : Sub) (rank ba n : Nat) : (u.raaLess rank ba n).sealKey = u.sealKey := rfl


theorem noteQueue_keeps (h : Keeps p r s) (n : Nat) (_ : p (.regs .dc) := by assumption) :
    Keeps p r (State.noteQueue s n) := by
  unfold State.noteQueue
  repeat' first
    | with_reducible assumption
    | (show p (.regs _); assumption)
    | (extract_lets +onlyGivenNames y; refine Keeps.via (x := y) ?_ (fun _ => ?_); subst y; rotate_left; clear_value y)
    | (extract_lets +onlyGivenNames y; clear_value y)
    | with_reducible apply Keeps.ite
    | with_reducible apply peak_keeps
    | with_reducible apply wr_keeps
    | (with_reducible refine Keeps.via ?_ id; split)

theorem modWrites_keeps (h : Keeps p r s) (n : Nat) (f : Sub → Sub) (hf : (f (s.sub n)).sealKey = (s.sub n).sealKey) (_ : p .memory := by assumption) (_ : p (.regs .dc) := by assumption) :
    Keeps p r (State.modWrites s n f) := by
  unfold State.modWrites
  repeat' first
    | with_reducible assumption
    | exact hf
    | with_reducible apply noteQueue_keeps
    | with_reducible apply modSub_keeps
    | exact rfl
    | exact State.Sorted.modMg rfl rfl
    | exact State.Sorted.modLe rfl rfl
    | exact id

theorem letIn_keeps (h : Keeps p r s) (n : Nat) (_ : p .memory := by assumption) (_ : p (.regs .dc) := by assumption) :
    Keeps p r (State.letIn s n) := by
  unfold State.letIn
  repeat' first
    | with_reducible assumption
    | with_reducible apply Keeps.ite
    | with_reducible apply modWrites_keeps
    | (with_reducible refine Keeps.via ?_ id; split)
    | exact rfl
    | exact Sub.admitAll_sealKey _ _ _
    | with_reducible apply_assumption

theorem queueWrite_keeps (h : Keeps p r s) (n sa : Nat) (w : WrLine) (bulk : Bool) (_ : p .memory := by assumption) (_ : p (.regs .dc) := by assumption) :
    Keeps p r (State.queueWrite s n sa w bulk) := by
  unfold State.queueWrite
  repeat' first
    | with_reducible assumption
    | with_reducible apply Keeps.ite
    | with_reducible apply letIn_keeps
    | with_reducible apply modSub_keeps
    | (with_reducible refine Keeps.via ?_ id; split)
    | exact rfl
    | exact Sub.putWrite_sealKey _ _
    | exact State.Sorted.modMg rfl rfl
    | exact State.Sorted.modLe rfl rfl
    | exact id
    | (dsimp only; split)
    | with_reducible apply_assumption

theorem queueRead_keeps (h : Keeps p r s) (n sa : Nat) (dpa : Option Nat) (frame : Bool) (rr : Reader) (_ : p .memory := by assumption) (_ : p (.regs .dc) := by assumption) :
    Keeps p r (State.queueRead s n sa dpa frame rr) := by
  unfold State.queueRead
  repeat' first
    | with_reducible assumption
    | with_reducible apply letIn_keeps
    | with_reducible apply modSub_keeps
    | exact rfl
    | exact State.Sorted.modMg rfl rfl
    | exact State.Sorted.modLe rfl rfl
    | exact id
    | with_reducible apply_assumption

theorem writeAt_keeps (h : Keeps p r s) (n sa : Nat) (w : WrLine) (bulk : Bool) (_ : p .memory := by assumption) (_ : p (.regs .dc) := by assumption) (_ : p (.regs .di) := by assumption) :
    Keeps p r (State.writeAt s n sa w bulk) := by
  unfold State.writeAt
  repeat' first
    | with_reducible assumption
    | (show p (.regs _); assumption)
    | (extract_lets +onlyGivenNames y; refine Keeps.via (x := y) ?_ (fun _ => ?_); subst y; rotate_left; clear_value y)
    | (extract_lets +onlyGivenNames y; refine Keeps.via (x := y.2) ?_ (fun _ => ?_); subst y; rotate_left; clear_value y)
    | (extract_lets +onlyGivenNames y; refine Keeps.via (x := y.1) ?_ (fun _ => ?_); subst y; rotate_left; clear_value y)
    | (extract_lets +onlyGivenNames y; clear_value y)
    | with_reducible apply Keeps.ite
    | with_reducible apply modMh_keeps
    | with_reducible apply bump_keeps
    | with_reducible apply queueWrite_keeps
    | with_reducible refine Keeps.foldl _ ?_ (fun _ _ _ => ?_)
    | (with_reducible refine Keeps.via ?_ id; split)
    | with_reducible refine Keeps.foldlFst _ ?_ (fun _ _ _ => ?_)
    | with_reducible refine Keeps.foldlSnd _ ?_ (fun _ _ _ => ?_)
    | with_reducible apply_assumption

theorem listPoison_keeps (h : Keeps p r s) (line : Nat) (ext : Bool) (_ : p .memory := by assumption) : Keeps p r (State.listPoison s line ext) := by
  unfold State.listPoison
  split
  · exact h
  · split
    · exact modDm_keeps h _ rfl id
    · refine modDm_keeps h _ rfl fun _ => ?_
      show (s.dm.poison ++ [_]).length ≤ 256
      simp only [List.length_append, List.length_singleton]; omega

theorem unlistPoison_keeps (h : Keeps p r s) (line : Nat) (_ : p .memory := by assumption) : Keeps p r (State.unlistPoison s line) := by
  unfold State.unlistPoison
  split
  · exact modDm_keeps h _ rfl fun i => le_trans (List.length_filter_le _ _) i
  · exact h

theorem lineMsg_keeps (h : Keeps p r s) (n k kind dev : Nat) (dpa : Option Nat) (sa extra : Nat) (_ : p .waiting := by assumption) :
    Keeps p r (State.lineMsg s n k kind dev dpa sa extra) := by
  unfold State.lineMsg
  repeat' first
    | with_reducible assumption
    | (extract_lets +onlyGivenNames y; refine Keeps.via (x := y) ?_ (fun _ => ?_); subst y; rotate_left; clear_value y)
    | (extract_lets +onlyGivenNames y; refine Keeps.via (x := y.2) ?_ (fun _ => ?_); subst y; rotate_left; clear_value y)
    | (extract_lets +onlyGivenNames y; refine Keeps.via (x := y.1) ?_ (fun _ => ?_); subst y; rotate_left; clear_value y)
    | (extract_lets +onlyGivenNames y; clear_value y)
    | with_reducible apply raise_keeps

theorem subMsg_keeps (h : Keeps p r s) (n k kind unit value extra : Nat) (_ : p .waiting := by assumption) :
    Keeps p r (State.subMsg s n k kind unit value extra) := by
  unfold State.subMsg
  repeat' first
    | with_reducible assumption
    | with_reducible apply raise_keeps

theorem demandOutcome_keeps (h : Keeps p r s) (n line : Nat) (dpa : Option Nat) (o : LineOut) (_ : p .waiting := by assumption) (_ : p (.regs .mi) := by assumption) :
    Keeps p r (State.demandOutcome s n line dpa o) := by
  unfold State.demandOutcome
  repeat' first
    | with_reducible assumption
    | (show p (.regs _); assumption)
    | (extract_lets +onlyGivenNames y; refine Keeps.via (x := y) ?_ (fun _ => ?_); subst y; rotate_left; clear_value y)
    | (extract_lets +onlyGivenNames y; clear_value y)
    | with_reducible apply lineMsg_keeps
    | with_reducible apply bump_keeps
    | (with_reducible refine Keeps.via ?_ id; split)

theorem tsqPush_keeps (h : Keeps p r s) (kind id : Nat) (_ : p .waiting := by assumption) (_ : p .timebase := by assumption) (_ : p (.regs .tb) := by assumption) : Keeps p r (State.tsqPush s kind id) := by
  unfold State.tsqPush
  split
  · dsimp only
    split
    · exact wr_keeps (bump_keeps h _ _) _ _
    · exact modTb_keeps (raiseL_keeps (wr_keeps (bump_keeps h _ _) _ _) _ _ _ _) _ (fun i => i) (Or.inr rfl)
  · refine modTb_keeps h _ (fun _ => ?_) (Or.inr rfl)
    show (s.tb.tsq ++ [_]).length ≤ 32
    simp only [List.length_append, List.length_singleton]; omega

theorem setTime_keeps (h : Keeps p r s) (t96 : Nat) (_ : p .clock := by assumption) (_ : p .timebase := by assumption) :
    Keeps p r (State.setTime s t96) := by
  unfold State.setTime
  repeat' first
    | with_reducible assumption
    | with_reducible apply modTb_keeps
    | exact Or.inl (by assumption)
    | exact Or.inr rfl
    | exact rfl
    | exact State.Sorted.modMg rfl rfl
    | exact State.Sorted.modLe rfl rfl
    | exact id
    | with_reducible apply_assumption

theorem step365_keeps (h : Keeps p r s) (x : Nat) (_ : p .waiting := by assumption) (_ : p .clock := by assumption) (_ : p .timebase := by assumption) (_ : p (.regs .tb) := by assumption) :
    Keeps p r (State.step365 s x) := by
  unfold State.step365
  repeat' first
    | with_reducible assumption
    | (show p (.regs _); assumption)
    | (extract_lets +onlyGivenNames y; refine Keeps.via (x := y) ?_ (fun _ => ?_); subst y; rotate_left; clear_value y)
    | (extract_lets +onlyGivenNames y; clear_value y)
    | with_reducible apply wrap_keeps
    | with_reducible apply wr_keeps
    | with_reducible apply setTime_keeps
    | with_reducible apply raiseL_keeps
    | with_reducible apply tsqPush_keeps

theorem actOnOffset_keeps (h : Keeps p r s) (x : Nat) (sentence : Bool) (_ : p .waiting := by assumption) (_ : p .clock := by assumption) (_ : p .timebase := by assumption) (_ : p (.regs .tb) := by assumption) :
    Keeps p r (State.actOnOffset s x sentence) := by
  unfold State.actOnOffset
  repeat' first
    | with_reducible assumption
    | (show p (.regs _); assumption)
    | (extract_lets +onlyGivenNames y; refine Keeps.via (x := y) ?_ (fun _ => ?_); subst y; rotate_left; clear_value y)
    | (extract_lets +onlyGivenNames y; clear_value y)
    | with_reducible apply Keeps.ite
    | with_reducible apply wr_keeps
    | with_reducible apply wrS_keeps
    | with_reducible apply step365_keeps
    | with_reducible apply modTb_keeps
    | with_reducible apply raiseL_keeps
    | (with_reducible refine Keeps.via ?_ id; split)
    | exact Or.inl (by assumption)
    | exact Or.inr rfl
    | exact rfl
    | exact State.Sorted.modMg rfl rfl
    | exact State.Sorted.modLe rfl rfl
    | exact id
    | (dsimp only; split)
    | with_reducible apply_assumption

theorem applySentence_keeps (h : Keeps p r s) (pp : Sentence) (_ : p .waiting := by assumption) (_ : p .timebase := by assumption) (_ : p (.regs .tb) := by assumption) :
    Keeps p r (State.applySentence s pp) := by
  unfold State.applySentence
  repeat' first
    | with_reducible assumption
    | (show p (.regs _); assumption)
    | (extract_lets +onlyGivenNames y; refine Keeps.via (x := y) ?_ (fun _ => ?_); subst y; rotate_left; clear_value y)
    | (extract_lets +onlyGivenNames y; clear_value y)
    | with_reducible apply Keeps.ite
    | with_reducible apply modTb_keeps
    | with_reducible apply wr_keeps
    | with_reducible apply tsqPush_keeps
    | with_reducible apply bump_keeps
    | (with_reducible refine Keeps.via ?_ id; split)
    | exact Or.inl (by assumption)
    | exact Or.inr rfl
    | exact rfl
    | exact State.Sorted.modMg rfl rfl
    | exact State.Sorted.modLe rfl rfl
    | exact id
    | (dsimp only; split)
    | with_reducible apply_assumption

theorem glitch_keeps (h : Keeps p r s) (_ : p (.regs .tb) := by assumption) :
    Keeps p r (State.glitch s) := by
  unfold State.glitch
  repeat' first
    | with_reducible assumption
    | (show p (.regs _); assumption)
    | with_reducible apply bump_keeps

theorem takeMaster_keeps (h : Keeps p r s) (_ : p .timebase := by assumption) (_ : p (.regs .tb) := by assumption) :
    Keeps p r (State.takeMaster s) := by
  unfold State.takeMaster
  repeat' first
    | with_reducible assumption
    | (show p (.regs _); assumption)
    | with_reducible apply flag_keeps
    | with_reducible apply wr_keeps
    | with_reducible apply modTb_keeps
    | exact Or.inl (by assumption)
    | exact Or.inr rfl
    | exact rfl
    | exact State.Sorted.modMg rfl rfl
    | exact State.Sorted.modLe rfl rfl
    | exact id
    | with_reducible apply_assumption

theorem acceptPps_keeps (h : Keeps p r s) (_ : p .waiting := by assumption) (_ : p .clock := by assumption) (_ : p .timebase := by assumption) (_ : p .draws := by assumption) (_ : p (.regs .tb) := by assumption) :
    Keeps p r (State.acceptPps s) := by
  unfold State.acceptPps
  repeat' first
    | with_reducible assumption
    | (show p (.regs _); assumption)
    | (extract_lets +onlyGivenNames y; refine Keeps.via (x := y) ?_ (fun _ => ?_); subst y; rotate_left; clear_value y)
    | (extract_lets +onlyGivenNames y; clear_value y)
    | with_reducible apply Keeps.ite
    | with_reducible apply bump_keeps
    | with_reducible apply modTb_keeps
    | with_reducible apply wrS_keeps
    | with_reducible apply wr_keeps
    | with_reducible apply tsqPush_keeps
    | with_reducible apply applySentence_keeps
    | with_reducible apply actOnOffset_keeps
    | with_reducible apply takeMaster_keeps
    | with_reducible apply free_keeps
    | (with_reducible refine Keeps.via ?_ id; split)
    | (rename Keeps p r _ => hk; exact Keeps.of_eq hk rfl le_rfl le_rfl List.prefix_rfl rfl rfl rfl rfl rfl rfl rfl rfl
        fun x hx => by cases x <;> first | rfl | exact Part.Same.regs rfl | exact absurd (by assumption) hx)
    | exact Or.inl (by assumption)
    | exact Or.inr rfl
    | exact rfl
    | exact State.Sorted.modMg rfl rfl
    | exact State.Sorted.modLe rfl rfl
    | exact id
    | (dsimp only; split)
    | with_reducible apply_assumption

theorem calendarSet_keeps (h : Keeps p r s) (pp : Path) (_ : p .audit := by assumption) (_ : p .waiting := by assumption) (_ : p .clock := by assumption) (_ : p .timebase := by assumption) (_ : p (.regs .mg) := by assumption) (_ : p (.regs .tb) := by assumption) :
    Keeps p r (State.calendarSet s pp) := by
  unfold State.calendarSet
  repeat' first
    | with_reducible assumption
    | (show p (.regs _); assumption)
    | (extract_lets +onlyGivenNames y; refine Keeps.via (x := y) ?_ (fun _ => ?_); subst y; rotate_left; clear_value y)
    | (extract_lets +onlyGivenNames y; clear_value y)
    | with_reducible apply Keeps.ite
    | with_reducible apply wr_keeps
    | with_reducible apply modTb_keeps
    | with_reducible apply setTime_keeps
    | with_reducible apply wrap_keeps
    | with_reducible apply tsqPush_keeps
    | with_reducible apply audit_keeps
    | (with_reducible refine Keeps.via ?_ id; split)
    | exact Or.inl (by assumption)
    | exact Or.inr rfl
    | exact rfl
    | exact State.Sorted.modMg rfl rfl
    | exact State.Sorted.modLe rfl rfl
    | exact id
    | (dsimp only; split)
    | with_reducible apply_assumption

theorem setCtrlAct_keeps (h : Keeps p r s) (pp : Path) (v : Nat) (_ : p .audit := by assumption) (_ : p .waiting := by assumption) (_ : p .clock := by assumption) (_ : p .timebase := by assumption) (_ : p (.regs .mg) := by assumption) (_ : p (.regs .tb) := by assumption) :
    Keeps p r (State.setCtrlAct s pp v) := by
  unfold State.setCtrlAct
  repeat' first
    | with_reducible assumption
    | (show p (.regs _); assumption)
    | (extract_lets +onlyGivenNames y; refine Keeps.via (x := y) ?_ (fun _ => ?_); subst y; rotate_left; clear_value y)
    | (extract_lets +onlyGivenNames y; clear_value y)
    | with_reducible apply Keeps.ite
    | with_reducible apply calendarSet_keeps
    | with_reducible apply wr_keeps
    | (with_reducible refine Keeps.via ?_ id; split)

theorem acceptFtick_keeps (h : Keeps p r s) (_ : p .waiting := by assumption) (_ : p .timebase := by assumption) (_ : p (.regs .tb) := by assumption) :
    Keeps p r (State.acceptFtick s) := by
  unfold State.acceptFtick
  repeat' first
    | with_reducible assumption
    | (show p (.regs _); assumption)
    | (extract_lets +onlyGivenNames y; refine Keeps.via (x := y) ?_ (fun _ => ?_); subst y; rotate_left; clear_value y)
    | (extract_lets +onlyGivenNames y; clear_value y)
    | with_reducible apply Keeps.ite
    | with_reducible apply modTb_keeps
    | with_reducible apply tsqPush_keeps
    | with_reducible apply wr_keeps
    | with_reducible apply flag_keeps
    | (with_reducible refine Keeps.via ?_ id; split)
    | exact Or.inl (by assumption)
    | exact Or.inr rfl
    | exact rfl
    | exact State.Sorted.modMg rfl rfl
    | exact State.Sorted.modLe rfl rfl
    | exact id
    | (dsimp only; split)
    | with_reducible apply_assumption

theorem msix_keeps (h : Keeps p r s) (hh v : Nat) (_ : p .heads := by assumption) (_ : p .outputs := by assumption) :
    Keeps p r (State.msix s hh v) := by
  unfold State.msix
  repeat' first
    | with_reducible assumption
    | (extract_lets +onlyGivenNames y; refine Keeps.via (x := y) ?_ (fun _ => ?_); subst y; rotate_left; clear_value y)
    | (extract_lets +onlyGivenNames y; clear_value y)
    | with_reducible apply Keeps.ite
    | with_reducible apply modHead_keeps
    | with_reducible apply emit_keeps
    | (with_reducible refine Keeps.via ?_ id; split)
    | exact Or.inr fun _ => rfl
    | exact Or.inl (by assumption)
    | exact Or.inr fun _ => by dsimp only; split <;> rfl
    | with_reducible apply_assumption

theorem noteCredits_keeps (h : Keeps p r s) (hh : Nat) (_ : p .heads := by assumption) (_ : p (.regs .hp) := by assumption) :
    Keeps p r (State.noteCredits s hh) := by
  unfold State.noteCredits
  repeat' first
    | with_reducible assumption
    | (show p (.regs _); assumption)
    | with_reducible apply modHead_keeps
    | with_reducible apply bump_keeps
    | (with_reducible refine Keeps.via ?_ id; split)
    | exact Or.inr fun _ => rfl
    | exact Or.inl (by assumption)
    | exact Or.inr fun _ => by dsimp only; split <;> rfl
    | with_reducible apply_assumption

theorem noteFlight_keeps (h : Keeps p r s) (hh : Nat) (_ : p .heads := by assumption) (_ : p (.regs .hp) := by assumption) :
    Keeps p r (State.noteFlight s hh) := by
  unfold State.noteFlight
  repeat' first
    | with_reducible assumption
    | (show p (.regs _); assumption)
    | (extract_lets +onlyGivenNames y; refine Keeps.via (x := y) ?_ (fun _ => ?_); subst y; rotate_left; clear_value y)
    | (extract_lets +onlyGivenNames y; clear_value y)
    | with_reducible apply noteCredits_keeps
    | with_reducible apply peak_keeps
    | with_reducible apply wr_keeps

theorem sendResp_keeps (h : Keeps p r s) (hh id : Nat) (x : MemResp) (_ : p .outputs := by assumption) (_ : p (.regs .hp) := by assumption) : Keeps p r (State.sendResp s hh id x) := by
  unfold State.sendResp
  cases x with
  | data d b =>
    cases b
    · exact emit_keeps (wr_keeps h _ _) _
    · exact bump_keeps (emit_keeps (wr_keeps h _ _) _) _ _
  | _ => exact emit_keeps (wr_keeps h _ _) _

theorem sendReady_keeps (h : Keeps p r s) (hh : Nat) (_ : p .heads := by assumption) (_ : p .outputs := by assumption) (_ : p (.regs .hp) := by assumption) :
    Keeps p r (State.sendReady s hh) := by
  unfold State.sendReady
  repeat' first
    | with_reducible assumption
    | (extract_lets +onlyGivenNames y; refine Keeps.via (x := y) ?_ (fun _ => ?_); subst y; rotate_left; clear_value y)
    | (extract_lets +onlyGivenNames y; refine Keeps.via (x := y.2) ?_ (fun _ => ?_); subst y; rotate_left; clear_value y)
    | (extract_lets +onlyGivenNames y; refine Keeps.via (x := y.1) ?_ (fun _ => ?_); subst y; rotate_left; clear_value y)
    | (extract_lets +onlyGivenNames y; clear_value y)
    | with_reducible apply Keeps.ite
    | with_reducible apply modHead_keeps
    | with_reducible apply sendResp_keeps
    | with_reducible apply noteFlight_keeps
    | with_reducible refine Keeps.foldl _ ?_ (fun _ _ _ => ?_)
    | (with_reducible refine Keeps.via ?_ id; split)
    | exact Or.inr fun _ => rfl
    | exact Or.inl (by assumption)
    | exact Or.inr fun _ => by dsimp only; split <;> rfl
    | with_reducible refine Keeps.foldlFst _ ?_ (fun _ _ _ => ?_)
    | with_reducible refine Keeps.foldlSnd _ ?_ (fun _ _ _ => ?_)
    | with_reducible apply_assumption
    | assumption

theorem answer_keeps (h : Keeps p r s) (hh id : Nat) (rr : MemResp) (_ : p .heads := by assumption) (_ : p .outputs := by assumption) (_ : p (.regs .hp) := by assumption) :
    Keeps p r (State.answer s hh id rr) := by
  unfold State.answer
  repeat' first
    | with_reducible assumption
    | with_reducible apply Keeps.ite
    | with_reducible apply sendReady_keeps
    | with_reducible apply modHead_keeps
    | (with_reducible refine Keeps.via ?_ id; split)
    | exact Or.inr fun _ => rfl
    | exact Or.inl (by assumption)
    | exact Or.inr fun _ => by dsimp only; split <;> rfl
    | with_reducible apply_assumption
    | assumption

theorem poisonResp_keeps (h : Keeps p r s) (hh id : Nat) (_ : p .heads := by assumption) (_ : p .outputs := by assumption) (_ : p .draws := by assumption) (_ : p (.regs .hp) := by assumption) :
    Keeps p r (State.poisonResp s hh id) := by
  unfold State.poisonResp
  repeat' first
    | with_reducible assumption
    | with_reducible apply answer_keeps
    | with_reducible apply free_keeps
    | (rename Keeps p r _ => hk; exact Keeps.of_eq hk rfl le_rfl le_rfl List.prefix_rfl rfl rfl rfl rfl rfl rfl rfl rfl
        fun x hx => by cases x <;> first | rfl | exact Part.Same.regs rfl | exact absurd (by assumption) hx)
    | assumption

theorem refusedMsg_keeps (h : Keeps p r s) (hh src cause : Nat) (write : Bool) (dpa : Nat) (unit : Nat) (_ : p .waiting := by assumption) :
    Keeps p r (State.refusedMsg s hh src cause write dpa unit) := by
  unfold State.refusedMsg
  repeat' first
    | with_reducible assumption
    | with_reducible apply raise_keeps

theorem takeRecord_keeps (h : Keeps p r s) (m : Msg) (packed : Nat) (hh : Nat) (_ : p .waiting := by assumption) (_ : p .heads := by assumption) (_ : p .outputs := by assumption) (_ : p (.regs .hp) := by assumption) :
    Keeps p r (State.takeRecord s m packed hh) := by
  unfold State.takeRecord
  repeat' first
    | with_reducible assumption
    | (show p (.regs _); assumption)
    | (extract_lets +onlyGivenNames y; refine Keeps.via (x := y) ?_ (fun _ => ?_); subst y; rotate_left; clear_value y)
    | (extract_lets +onlyGivenNames y; refine Keeps.viaFun (x := y) (fun _ => ?_) (fun _ => ?_); subst y; rotate_left; clear_value y)
    | (extract_lets +onlyGivenNames y; clear_value y)
    | with_reducible apply Keeps.ite
    | with_reducible apply modHead_keeps
    | with_reducible apply msix_keeps
    | with_reducible apply bump_keeps
    | with_reducible apply wr_keeps
    | with_reducible apply raise_keeps
    | (with_reducible refine Keeps.via ?_ id; split)
    | exact Or.inr fun _ => rfl
    | exact Or.inl (by assumption)
    | exact Or.inr fun _ => by dsimp only; split <;> rfl
    | with_reducible apply_assumption

theorem eventRecord_keeps (h : Keeps p r s) (m : Msg) (heads : List Nat) (_ : p .waiting := by assumption) (_ : p .heads := by assumption) (_ : p .outputs := by assumption) (_ : p (.regs .hp) := by assumption) :
    Keeps p r (State.eventRecord s m heads) := by
  unfold State.eventRecord
  repeat' first
    | with_reducible assumption
    | with_reducible apply takeRecord_keeps
    | with_reducible refine Keeps.foldl _ ?_ (fun _ _ _ => ?_)
    | with_reducible apply_assumption

theorem dropRole_keeps (h : Keeps p r s) (pp : Path) (cause : Nat) (_ : p .roles := by assumption) (_ : p .audit := by assumption) (_ : p (.regs .mg) := by assumption) :
    Keeps p r (State.dropRole s pp cause) := by
  unfold State.dropRole
  repeat' first
    | with_reducible assumption
    | (extract_lets +onlyGivenNames y; refine Keeps.via (x := y) ?_ (fun _ => ?_); subst y; rotate_left; clear_value y)
    | (extract_lets +onlyGivenNames y; clear_value y)
    | with_reducible apply Keeps.ite
    | with_reducible apply audit_keeps
    | with_reducible apply modRole_keeps
    | (with_reducible refine Keeps.via ?_ id; split)
    | with_reducible apply_assumption

theorem complete_keeps (h : Keeps p r s) (hh code : Nat) (payload : List Byte) (_ : p .heads := by assumption) (_ : p .outputs := by assumption) :
    Keeps p r (State.complete s hh code payload) := by
  unfold State.complete
  repeat' first
    | with_reducible assumption
    | with_reducible apply msix_keeps
    | with_reducible apply emit_keeps
    | with_reducible apply modHead_keeps
    | exact Or.inr fun _ => rfl
    | exact Or.inl (by assumption)
    | exact Or.inr fun _ => by dsimp only; split <;> rfl
    | with_reducible apply_assumption

theorem mediaError_keeps (h : Keeps p r s) (hh : Half) (_ : p (.regs .hp) := by assumption) :
    Keeps p r (State.mediaError s hh) := by
  unfold State.mediaError
  repeat' first
    | with_reducible assumption
    | (show p (.regs _); assumption)
    | with_reducible apply Keeps.ite
    | with_reducible apply wr_keeps
    | with_reducible refine Keeps.foldl _ ?_ (fun _ _ _ => ?_)
    | (with_reducible refine Keeps.via ?_ id; split)
    | with_reducible apply_assumption

theorem answerWrites_keeps (h : Keeps p r s) (n : Nat) (_ : p .memory := by assumption) (_ : p .heads := by assumption) (_ : p .outputs := by assumption) (_ : p (.regs .hp) := by assumption) :
    Keeps p r (State.answerWrites s n) := by
  unfold State.answerWrites
  repeat' first
    | with_reducible assumption
    | (extract_lets +onlyGivenNames y; refine Keeps.via (x := y) ?_ (fun _ => ?_); subst y; rotate_left; clear_value y)
    | (extract_lets +onlyGivenNames y; refine Keeps.via (x := y.2) ?_ (fun _ => ?_); subst y; rotate_left; clear_value y)
    | (extract_lets +onlyGivenNames y; refine Keeps.via (x := y.1) ?_ (fun _ => ?_); subst y; rotate_left; clear_value y)
    | (extract_lets +onlyGivenNames y; clear_value y)
    | with_reducible apply modSub_keeps
    | with_reducible apply answer_keeps
    | with_reducible refine Keeps.foldl _ ?_ (fun _ _ _ => ?_)
    | exact rfl
    | exact State.Sorted.modMg rfl rfl
    | exact State.Sorted.modLe rfl rfl
    | exact id
    | with_reducible refine Keeps.foldlFst _ ?_ (fun _ _ _ => ?_)
    | with_reducible refine Keeps.foldlSnd _ ?_ (fun _ _ _ => ?_)
    | with_reducible apply_assumption

theorem settle_keeps (h : Keeps p r s) (n : Nat) (_ : p .memory := by assumption) (_ : p .heads := by assumption) (_ : p .outputs := by assumption) (_ : p (.regs .dc) := by assumption) (_ : p (.regs .hp) := by assumption) :
    Keeps p r (State.settle s n) := by
  unfold State.settle
  repeat' first
    | with_reducible assumption
    | with_reducible apply answerWrites_keeps
    | with_reducible apply letIn_keeps

theorem hostWrite_keeps (h : Keeps p r s) (hh id dpa : Nat) (rr : Region) (n sa : Nat) (d : LineData) (poison : Bool) (_ : p .memory := by assumption) (_ : p .heads := by assumption) (_ : p .outputs := by assumption) (_ : p (.regs .dc) := by assumption) (_ : p (.regs .di) := by assumption) (_ : p (.regs .hp) := by assumption) :
    Keeps p r (State.hostWrite s hh id dpa rr n sa d poison) := by
  unfold State.hostWrite
  repeat' first
    | with_reducible assumption
    | (extract_lets +onlyGivenNames y; refine Keeps.via (x := y) ?_ (fun _ => ?_); subst y; rotate_left; clear_value y)
    | (extract_lets +onlyGivenNames y; refine Keeps.via (x := y.1) ?_ (fun _ => ?_); subst y; rotate_left; clear_value y)
    | (extract_lets +onlyGivenNames y; clear_value y)
    | with_reducible apply Keeps.ite
    | with_reducible apply writeAt_keeps
    | with_reducible apply answerWrites_keeps
    | with_reducible apply listPoison_keeps
    | with_reducible apply unlistPoison_keeps
    | (with_reducible refine Keeps.via ?_ id; split)
    | assumption
    | exact fun h => (List.length_filter_le _ _).trans h

theorem hostLine_keeps (h : Keeps p r s) (x id : Nat) (o : LineOut) (_ : p .memory := by assumption) (_ : p .heads := by assumption) (_ : p .outputs := by assumption) (_ : p .draws := by assumption) (_ : p (.regs .dc) := by assumption) (_ : p (.regs .di) := by assumption) (_ : p (.regs .hp) := by assumption) : Keeps p r (State.hostLine s x id o) := by
  unfold State.hostLine
  split
  · exact h
  · extract_lets y
    have hy : Keeps p r y := modHead_keeps h _ _
    clear_value y
    repeat' first
      | assumption
      | with_reducible apply Keeps.ite
      | with_reducible apply answer_keeps
      | with_reducible apply bump_keeps
      | with_reducible apply poisonResp_keeps
      | with_reducible apply hostWrite_keeps
      | split


theorem engineLine_keeps (h : Keeps p r s) (e epoch line : Nat) (d : Option LineData) (degraded : Bool) (_ : p .lamps := by assumption) :
    Keeps p r (State.engineLine s e epoch line d degraded) := by
  unfold State.engineLine
  repeat' first
    | with_reducible assumption
    | with_reducible apply Keeps.ite
    | with_reducible apply modEng_keeps
    | (with_reducible refine Keeps.via ?_ id; split)
    | with_reducible apply_assumption

theorem retiredMsg_keeps (h : Keeps p r s) (n sa dpa : Nat) (moved : Bool) (_ : p .waiting := by assumption) :
    Keeps p r (State.retiredMsg s n sa dpa moved) := by
  unfold State.retiredMsg
  repeat' first
    | with_reducible assumption
    | with_reducible apply Keeps.ite
    | with_reducible apply lineMsg_keeps
    | (with_reducible refine Keeps.via ?_ id; split)

theorem fillingNoted_keeps (h : Keeps p r s) (hh : Half) (region cause : Nat) (write : Bool) (dpa unit : Nat) (_ : p .waiting := by assumption) (_ : p .schedule := by assumption) :
    Keeps p r (State.fillingNoted s hh region cause write dpa unit) := by
  unfold State.fillingNoted
  repeat' first
    | with_reducible assumption
    | with_reducible apply Keeps.ite
    | with_reducible apply modSched_keeps
    | with_reducible apply refusedMsg_keeps
    | (with_reducible refine Keeps.via ?_ id; split)
    | with_reducible apply_assumption

theorem writeDpa_keeps (h : Keeps p r s) (hh : Half) (dpa : Nat) (d : LineData) (poison : Bool) (tag : Nat) (bulk : Bool) (_ : p .memory := by assumption) (_ : p .waiting := by assumption) (_ : p .schedule := by assumption) (_ : p (.regs .dc) := by assumption) (_ : p (.regs .di) := by assumption) :
    Keeps p r (State.writeDpa s hh dpa d poison tag bulk).2 := by
  unfold State.writeDpa
  repeat' first
    | with_reducible assumption
    | (extract_lets +onlyGivenNames y; refine Keeps.via (x := y) ?_ (fun _ => ?_); subst y; rotate_left; clear_value y)
    | (extract_lets +onlyGivenNames y; refine Keeps.via (x := y.2) ?_ (fun _ => ?_); subst y; rotate_left; clear_value y)
    | (extract_lets +onlyGivenNames y; refine Keeps.via (x := y.1) ?_ (fun _ => ?_); subst y; rotate_left; clear_value y)
    | (extract_lets +onlyGivenNames y; clear_value y)
    | with_reducible apply Keeps.ite
    | with_reducible apply fillingNoted_keeps
    | with_reducible apply refusedMsg_keeps
    | with_reducible apply retiredMsg_keeps
    | with_reducible apply writeAt_keeps
    | with_reducible apply unlistPoison_keeps
    | (with_reducible refine Keeps.via ?_ id; split)
    | exact fun h => (List.length_filter_le _ _).trans h

theorem copyArrives_keeps (h : Keeps p r s) (hh id line : Nat) (o : LineOut) (_ : p .memory := by assumption) (_ : p .waiting := by assumption) (_ : p .schedule := by assumption) (_ : p .heads := by assumption) (_ : p (.regs .dc) := by assumption) (_ : p (.regs .di) := by assumption) : Keeps p r (State.copyArrives s hh id line o) := by
  unfold State.copyArrives
  cases (s.head hh).copy with
  | none => exact h
  | some c =>
    dsimp only
    refine Keeps.ite h (modHead_keeps ?_ _ _)
    split
    · exact h
    · split
      · exact h
      · exact writeDpa_keeps h _ _ _ _ _ _

theorem histBump_keeps (h : Keeps p r s) (n dev : Nat) (erased : Bool) (_ : p .memory := by assumption) :
    Keeps p r (State.histBump s n dev erased) := by
  unfold State.histBump
  repeat' first
    | with_reducible assumption
    | (extract_lets +onlyGivenNames y; refine Keeps.via (x := y) ?_ (fun _ => ?_); subst y; rotate_left; clear_value y)
    | (extract_lets +onlyGivenNames y; clear_value y)
    | with_reducible apply modDm_keeps
    | exact rfl
    | exact State.Sorted.modMg rfl rfl
    | exact State.Sorted.modLe rfl rfl
    | exact id
    | with_reducible apply_assumption

theorem scrubLine_keeps (h : Keeps p r s) (n sa line : Nat) (moved : Bool) (o : LineOut) (_ : p .memory := by assumption) (_ : p .waiting := by assumption) (_ : p (.regs .mi) := by assumption) (_ : p (.regs .dc) := by assumption) :
    Keeps p r (State.scrubLine s n sa line moved o) := by
  unfold State.scrubLine
  repeat' first
    | with_reducible assumption
    | (show p (.regs _); assumption)
    | (extract_lets +onlyGivenNames y; refine Keeps.via (x := y) ?_ (fun _ => ?_); subst y; rotate_left; clear_value y)
    | (extract_lets +onlyGivenNames y; clear_value y)
    | with_reducible apply Keeps.ite
    | with_reducible apply modDm_keeps
    | with_reducible apply bump_keeps
    | with_reducible apply queueWrite_keeps
    | with_reducible apply histBump_keeps
    | with_reducible apply lineMsg_keeps
    | with_reducible apply listPoison_keeps
    | with_reducible refine Keeps.foldl _ ?_ (fun _ _ _ => ?_)
    | (with_reducible refine Keeps.via ?_ id; split)
    | exact rfl
    | exact State.Sorted.modMg rfl rfl
    | exact State.Sorted.modLe rfl rfl
    | exact id
    | with_reducible apply_assumption

theorem scrubOver_keeps (h : Keeps p r s) (_ : p (.regs .mi) := by assumption) :
    Keeps p r (State.scrubOver s) := by
  unfold State.scrubOver
  repeat' first
    | with_reducible assumption
    | (show p (.regs _); assumption)
    | with_reducible apply Keeps.ite
    | with_reducible apply wr_keeps
    | (with_reducible refine Keeps.via ?_ id; split)

theorem scrubArrives_keeps (h : Keeps p r s) (pass n sa line : Nat) (moved : Bool) (o : LineOut) (_ : p .memory := by assumption) (_ : p .waiting := by assumption) (_ : p (.regs .mi) := by assumption) (_ : p (.regs .dc) := by assumption) :
    Keeps p r (State.scrubArrives s pass n sa line moved o) := by
  unfold State.scrubArrives
  repeat' first
    | with_reducible assumption
    | (show p (.regs _); assumption)
    | (extract_lets +onlyGivenNames y; refine Keeps.via (x := y) ?_ (fun _ => ?_); subst y; rotate_left; clear_value y)
    | (extract_lets +onlyGivenNames y; clear_value y)
    | with_reducible apply Keeps.ite
    | with_reducible apply modDm_keeps
    | with_reducible apply bump_keeps
    | with_reducible apply scrubLine_keeps
    | with_reducible apply scrubOver_keeps
    | (with_reducible refine Keeps.via ?_ id; split)
    | exact rfl
    | exact State.Sorted.modMg rfl rfl
    | exact State.Sorted.modLe rfl rfl
    | exact id
    | with_reducible apply_assumption

theorem deliver_keeps (h : Keeps p r s) (rr : Reader) (dpaLine : Nat) (o : LineOut) (degraded : Bool) (_ : p .memory := by assumption) (_ : p .waiting := by assumption) (_ : p .schedule := by assumption) (_ : p .heads := by assumption) (_ : p .lamps := by assumption) (_ : p .outputs := by assumption) (_ : p .draws := by assumption) (_ : p (.regs .mi) := by assumption) (_ : p (.regs .dc) := by assumption) (_ : p (.regs .di) := by assumption) (_ : p (.regs .hp) := by assumption) :
    Keeps p r (State.deliver s rr dpaLine o degraded) := by
  unfold State.deliver
  repeat' first
    | with_reducible assumption
    | with_reducible apply Keeps.ite
    | with_reducible apply hostLine_keeps
    | with_reducible apply engineLine_keeps
    | with_reducible apply modHead_keeps
    | with_reducible apply copyArrives_keeps
    | with_reducible apply scrubArrives_keeps
    | (with_reducible refine Keeps.via ?_ id; split)
    | exact Or.inr fun _ => rfl
    | exact Or.inl (by assumption)
    | exact Or.inr fun _ => by dsimp only; split <;> rfl
    | with_reducible apply_assumption
    | assumption

theorem readAt_keeps (h : Keeps p r s) (n sa dpa : Nat) (frame : Bool) (x : Reader) (_ : p .memory := by assumption) (_ : p .waiting := by assumption) (_ : p .schedule := by assumption) (_ : p .heads := by assumption) (_ : p .lamps := by assumption) (_ : p .outputs := by assumption) (_ : p .draws := by assumption) (_ : p (.regs .mi) := by assumption) (_ : p (.regs .dc) := by assumption) (_ : p (.regs .di) := by assumption) (_ : p (.regs .hp) := by assumption) : Keeps p r (State.readAt s n sa dpa frame x) := by
  unfold State.readAt
  generalize s.route n sa = t
  obtain ⟨n', sa', moved⟩ := t
  dsimp only
  refine Keeps.ite (deliver_keeps (retiredMsg_keeps h _ _ _ _) _ _ _ _) (Keeps.ite (deliver_keeps h _ _ _ _) ?_)
  split
  · exact deliver_keeps h _ _ _ _
  · exact queueRead_keeps h _ _ _ _ _

theorem readDpa_keeps (h : Keeps p r s) (hh : Half) (dpa : Nat) (frame : Bool) (rr : Reader) (_ : p .memory := by assumption) (_ : p .waiting := by assumption) (_ : p .schedule := by assumption) (_ : p .heads := by assumption) (_ : p .lamps := by assumption) (_ : p .outputs := by assumption) (_ : p .draws := by assumption) (_ : p (.regs .mi) := by assumption) (_ : p (.regs .dc) := by assumption) (_ : p (.regs .di) := by assumption) (_ : p (.regs .hp) := by assumption) :
    Keeps p r (State.readDpa s hh dpa frame rr) := by
  unfold State.readDpa
  repeat' first
    | with_reducible assumption
    | with_reducible apply Keeps.ite
    | with_reducible apply deliver_keeps
    | with_reducible apply fillingNoted_keeps
    | with_reducible apply refusedMsg_keeps
    | with_reducible apply readAt_keeps
    | (with_reducible refine Keeps.via ?_ id; split)

theorem copyOn_keeps (h : Keeps p r s) (hh : Nat) (_ : p .memory := by assumption) (_ : p .waiting := by assumption) (_ : p .schedule := by assumption) (_ : p .heads := by assumption) (_ : p .lamps := by assumption) (_ : p .outputs := by assumption) (_ : p .draws := by assumption) (_ : p (.regs .mi) := by assumption) (_ : p (.regs .dc) := by assumption) (_ : p (.regs .di) := by assumption) (_ : p (.regs .hp) := by assumption) :
    Keeps p r (State.copyOn s hh) := by
  unfold State.copyOn
  repeat' first
    | with_reducible assumption
    | (extract_lets +onlyGivenNames y; refine Keeps.via (x := y) ?_ (fun _ => ?_); subst y; rotate_left; clear_value y)
    | (extract_lets +onlyGivenNames y; refine Keeps.via (x := y.2) ?_ (fun _ => ?_); subst y; rotate_left; clear_value y)
    | (extract_lets +onlyGivenNames y; refine Keeps.via (x := y.1) ?_ (fun _ => ?_); subst y; rotate_left; clear_value y)
    | (extract_lets +onlyGivenNames y; clear_value y)
    | with_reducible apply Keeps.ite
    | with_reducible apply modHead_keeps
    | with_reducible apply readDpa_keeps
    | with_reducible refine Keeps.foldl _ ?_ (fun _ _ _ => ?_)
    | (with_reducible refine Keeps.via ?_ id; split)
    | exact Or.inr fun _ => rfl
    | exact Or.inl (by assumption)
    | exact Or.inr fun _ => by dsimp only; split <;> rfl
    | with_reducible refine Keeps.foldlFst _ ?_ (fun _ _ _ => ?_)
    | with_reducible refine Keeps.foldlSnd _ ?_ (fun _ _ _ => ?_)
    | with_reducible apply_assumption
    | assumption

theorem copiesOn_keeps (h : Keeps p r s) (_ : p .memory := by assumption) (_ : p .waiting := by assumption) (_ : p .schedule := by assumption) (_ : p .heads := by assumption) (_ : p .lamps := by assumption) (_ : p .outputs := by assumption) (_ : p .draws := by assumption) (_ : p (.regs .mi) := by assumption) (_ : p (.regs .dc) := by assumption) (_ : p (.regs .di) := by assumption) (_ : p (.regs .hp) := by assumption) :
    Keeps p r (State.copiesOn s) := by
  unfold State.copiesOn
  repeat' first
    | with_reducible assumption
    | with_reducible apply copyOn_keeps
    | with_reducible refine Keeps.foldl _ ?_ (fun _ _ _ => ?_)

theorem countWake_keeps (h : Keeps p r s) (hh : Half) (_ : p .memory := by assumption) :
    Keeps p r (State.countWake s hh) := by
  unfold State.countWake
  repeat' first
    | with_reducible assumption
    | with_reducible apply modMh_keeps
    | with_reducible apply_assumption

theorem wakeEffect_keeps (h : Keeps p r s) (e : WakeEv) (_ : p .memory := by assumption) (_ : p .heads := by assumption) (_ : p .lamps := by assumption) (_ : p (.regs .le) := by assumption) (_ : p (.regs .dc) := by assumption) : Keeps p r (State.wakeEffect s e) := by
  cases e with
  | engine e => exact wr_keeps (modEng_keeps h e fun g => { g with waiting := false }) _ _
  | link x => unfold State.wakeEffect; exact modHead_keeps h x _
  | archive n => exact wr_keeps (modSub_keeps h n (fun u => { u with sr := u.sr &&& 1, woke := true, refPos := u.refPos.setIfInBounds 1 0 }) rfl) _ _
  | exit n x => exact modSub_keeps h n (fun u => { u with sr := u.sr &&& ~~~(1#2 <<< x), refPos := u.refPos.setIfInBounds x 0 }) rfl

theorem askWake_keeps (h : Keeps p r s) (e : WakeEv) (_ : p .memory := by assumption) (_ : p .heads := by assumption) (_ : p .lamps := by assumption) (_ : p (.regs .le) := by assumption) (_ : p (.regs .dc) := by assumption) : Keeps p r (State.askWake s e) := by
  unfold State.askWake
  dsimp only
  split
  · exact h
  · split
    · exact wakeEffect_keeps (countWake_keeps h _) e
    · exact Keeps.ite (modMh_keeps h _ _) (bump_keeps (modMh_keeps h _ _) _ _)

theorem startWake_keeps (h : Keeps p r s) (hh : Half) (want : Option WakeEv) (_ : p .memory := by assumption) (_ : p .heads := by assumption) (_ : p .lamps := by assumption) (_ : p (.regs .le) := by assumption) (_ : p (.regs .dc) := by assumption) :
    Keeps p r (State.startWake s hh want) := by
  unfold State.startWake
  repeat' first
    | with_reducible assumption
    | with_reducible apply Keeps.ite
    | with_reducible apply wakeEffect_keeps
    | with_reducible apply countWake_keeps
    | with_reducible apply modMh_keeps
    | (with_reducible refine Keeps.via ?_ id; split)
    | with_reducible apply_assumption

theorem dropExits_keeps (h : Keeps p r s) (n : Nat) (_ : p .memory := by assumption) :
    Keeps p r (State.dropExits s n) := by
  unfold State.dropExits
  repeat' first
    | with_reducible assumption
    | with_reducible apply modMh_keeps
    | (with_reducible refine Keeps.via ?_ id; split)
    | with_reducible apply_assumption

theorem dropWakes_keeps (h : Keeps p r s) (n : Nat) (_ : p .memory := by assumption) :
    Keeps p r (State.dropWakes s n) := by
  unfold State.dropWakes
  repeat' first
    | with_reducible assumption
    | with_reducible apply modMh_keeps
    | (with_reducible refine Keeps.via ?_ id; split)
    | with_reducible apply_assumption

theorem noteEngine_keeps (h : Keeps p r s) (e : Nat) (_ : p .lamps := by assumption) (_ : p (.regs .le) := by assumption) :
    Keeps p r (State.noteEngine s e) := by
  unfold State.noteEngine
  repeat' first
    | with_reducible assumption
    | (show p (.regs _); assumption)
    | (extract_lets +onlyGivenNames y; refine Keeps.via (x := y) ?_ (fun _ => ?_); subst y; rotate_left; clear_value y)
    | (extract_lets +onlyGivenNames y; clear_value y)
    | with_reducible apply modEng_keeps
    | with_reducible apply wr_keeps
    | with_reducible apply flag_keeps
    | (with_reducible refine Keeps.via ?_ id; split)
    | with_reducible refine Keeps.ofSnd (by assumption) ?_
    | with_reducible refine Keeps.ofFst (by assumption) ?_
    | with_reducible apply_assumption

theorem ringMsg_keeps (h : Keeps p r s) (rr why : Nat) (_ : p .waiting := by assumption) :
    Keeps p r (State.ringMsg s rr why) := by
  unfold State.ringMsg
  repeat' first
    | with_reducible assumption
    | with_reducible apply raise_keeps
    | (with_reducible refine Keeps.via ?_ id; split)

theorem skipFirst_keeps (h : Keeps p r s) (rr : Nat) (_ : p .lamps := by assumption) (_ : p (.regs .le) := by assumption) :
    Keeps p r (State.skipFirst s rr) := by
  unfold State.skipFirst
  repeat' first
    | with_reducible assumption
    | (show p (.regs _); assumption)
    | (extract_lets +onlyGivenNames y; refine Keeps.via (x := y) ?_ (fun _ => ?_); subst y; rotate_left; clear_value y)
    | (extract_lets +onlyGivenNames y; clear_value y)
    | with_reducible apply modRing_keeps
    | with_reducible apply noteEngine_keeps
    | with_reducible apply bump_keeps
    | (with_reducible refine Keeps.via ?_ id; split)
    | with_reducible apply_assumption

theorem skipAll_keeps (h : Keeps p r s) (rr : Nat) (_ : p .lamps := by assumption) (_ : p (.regs .le) := by assumption) :
    Keeps p r (State.skipAll s rr) := by
  unfold State.skipAll
  repeat' first
    | with_reducible assumption
    | with_reducible apply skipFirst_keeps
    | with_reducible refine Keeps.foldl _ ?_ (fun _ _ _ => ?_)
    | with_reducible apply_assumption

theorem enterSkipping_keeps (h : Keeps p r s) (rr : Nat) (_ : p .waiting := by assumption) (_ : p .heads := by assumption) (_ : p .lamps := by assumption) (_ : p .outputs := by assumption) :
    Keeps p r (State.enterSkipping s rr) := by
  unfold State.enterSkipping
  repeat' first
    | with_reducible assumption
    | (extract_lets +onlyGivenNames y; refine Keeps.via (x := y) ?_ (fun _ => ?_); subst y; rotate_left; clear_value y)
    | (extract_lets +onlyGivenNames y; clear_value y)
    | with_reducible apply Keeps.ite
    | with_reducible apply ringMsg_keeps
    | with_reducible apply modRing_keeps
    | with_reducible apply msix_keeps
    | (with_reducible refine Keeps.via ?_ id; split)
    | with_reducible apply_assumption

theorem disarmRing_keeps (h : Keeps p r s) (rr : Nat) (_ : p .waiting := by assumption) (_ : p .heads := by assumption) (_ : p .lamps := by assumption) (_ : p .outputs := by assumption) (_ : p (.regs .le) := by assumption) :
    Keeps p r (State.disarmRing s rr) := by
  unfold State.disarmRing
  repeat' first
    | with_reducible assumption
    | (extract_lets +onlyGivenNames y; refine Keeps.via (x := y) ?_ (fun _ => ?_); subst y; rotate_left; clear_value y)
    | (extract_lets +onlyGivenNames y; clear_value y)
    | with_reducible apply Keeps.ite
    | with_reducible apply modRing_keeps
    | with_reducible apply ringMsg_keeps
    | with_reducible apply skipAll_keeps
    | with_reducible apply msix_keeps
    | (with_reducible refine Keeps.via ?_ id; split)
    | with_reducible apply_assumption

theorem disarmHead_keeps (h : Keeps p r s) (hh : Nat) (clear : Bool) (_ : p .waiting := by assumption) (_ : p .heads := by assumption) (_ : p .lamps := by assumption) (_ : p .outputs := by assumption) (_ : p (.regs .le) := by assumption) :
    Keeps p r (State.disarmHead s hh clear) := by
  unfold State.disarmHead
  repeat' first
    | with_reducible assumption
    | (extract_lets +onlyGivenNames y; refine Keeps.via (x := y) ?_ (fun _ => ?_); subst y; rotate_left; clear_value y)
    | (extract_lets +onlyGivenNames y; clear_value y)
    | with_reducible apply Keeps.ite
    | with_reducible apply disarmRing_keeps
    | with_reducible apply modRing_keeps
    | with_reducible refine Keeps.foldl _ ?_ (fun _ _ _ => ?_)
    | (with_reducible refine Keeps.via ?_ id; split)
    | with_reducible apply_assumption

theorem applyArm_keeps (h : Keeps p r s) (rr : Nat) (_ : p .waiting := by assumption) (_ : p .lamps := by assumption) (_ : p (.regs .le) := by assumption) :
    Keeps p r (State.applyArm s rr) := by
  unfold State.applyArm
  repeat' first
    | with_reducible assumption
    | (extract_lets +onlyGivenNames y; refine Keeps.via (x := y) ?_ (fun _ => ?_); subst y; rotate_left; clear_value y)
    | (extract_lets +onlyGivenNames y; clear_value y)
    | with_reducible apply Keeps.ite
    | with_reducible apply ringMsg_keeps
    | with_reducible apply modRing_keeps
    | with_reducible apply skipAll_keeps
    | (with_reducible refine Keeps.via ?_ id; split)
    | with_reducible apply_assumption

theorem writeRecord_keeps (h : Keeps p r s) (rr hh : Nat) (_ : p .heads := by assumption) (_ : p .lamps := by assumption) (_ : p .outputs := by assumption) (_ : p (.regs .le) := by assumption) :
    Keeps p r (State.writeRecord s rr hh) := by
  unfold State.writeRecord
  repeat' first
    | with_reducible assumption
    | (extract_lets +onlyGivenNames y; refine Keeps.via (x := y) ?_ (fun _ => ?_); subst y; rotate_left; clear_value y)
    | (extract_lets +onlyGivenNames y; clear_value y)
    | with_reducible apply Keeps.ite
    | with_reducible apply emit_keeps
    | with_reducible apply modRing_keeps
    | with_reducible apply noteEngine_keeps
    | with_reducible apply msix_keeps
    | with_reducible refine Keeps.foldl _ ?_ (fun _ _ _ => ?_)
    | (with_reducible refine Keeps.via ?_ id; split)
    | with_reducible apply_assumption

theorem dropStaging_keeps (h : Keeps p r s) (e frame : Nat) (maint : Bool) (_ : p .lamps := by assumption) (_ : p (.regs .fs) := by assumption) (_ : p (.regs .le) := by assumption) :
    Keeps p r (State.dropStaging s e frame maint) := by
  unfold State.dropStaging
  repeat' first
    | with_reducible assumption
    | (show p (.regs _); assumption)
    | (extract_lets +onlyGivenNames y; refine Keeps.via (x := y) ?_ (fun _ => ?_); subst y; rotate_left; clear_value y)
    | (extract_lets +onlyGivenNames y; refine Keeps.via (x := y.1) ?_ (fun _ => ?_); subst y; rotate_left; clear_value y)
    | (extract_lets +onlyGivenNames y; clear_value y)
    | with_reducible apply Keeps.ite
    | with_reducible apply modRing_keeps
    | with_reducible apply bump_keeps
    | with_reducible refine Keeps.foldl _ ?_ (fun _ _ _ => ?_)
    | (with_reducible refine Keeps.via ?_ id; split)
    | with_reducible refine Keeps.foldlFst _ ?_ (fun _ _ _ => ?_)
    | with_reducible apply_assumption

theorem startMoved_keeps (h : Keeps p r s) (e : Nat) (_ : p .memory := by assumption) (_ : p .heads := by assumption) (_ : p .lamps := by assumption) (_ : p (.regs .le) := by assumption) (_ : p (.regs .dc) := by assumption) :
    Keeps p r (State.startMoved s e) := by
  unfold State.startMoved
  repeat' first
    | with_reducible assumption
    | (show p (.regs _); assumption)
    | (extract_lets +onlyGivenNames y; refine Keeps.via (x := y) ?_ (fun _ => ?_); subst y; rotate_left; clear_value y)
    | (extract_lets +onlyGivenNames y; clear_value y)
    | with_reducible apply Keeps.ite
    | with_reducible apply askWake_keeps
    | with_reducible apply modEng_keeps
    | with_reducible apply wr_keeps
    | (with_reducible refine Keeps.via ?_ id; split)
    | with_reducible apply_assumption

theorem migrate_keeps (h : Keeps p r s) (e : Nat) (sts : List StreamCfg) (frame : Nat) (maint : Bool) (_ : p .memory := by assumption) (_ : p .waiting := by assumption) (_ : p .heads := by assumption) (_ : p .lamps := by assumption) (_ : p (.regs .le) := by assumption) (_ : p (.regs .dc) := by assumption) :
    Keeps p r (State.migrate s e sts frame maint) := by
  unfold State.migrate
  extract_lets go s1 ids s2 s3
  have h1 : Keeps p r s1 := by
    refine Keeps.foldlFst _ (b := (s, 0)) h fun b a hb => ?_
    dsimp only
    split
    · dsimp only
      exact modLe_keeps hb _
    · dsimp only
      exact modEng_keeps (modLe_keeps hb _) _ _
  have h2 : Keeps p r s2 := Keeps.foldl _ h1 fun _ _ hx => modEng_keeps hx _ _
  have h3 : Keeps p r s3 := Keeps.foldl _ h2 fun _ _ hx => noteEngine_keeps (startMoved_keeps hx _) _
  split
  · exact h3
  · exact raise_keeps h3 _ _ _ _ _

theorem fenceEngine_keeps (h : Keeps p r s) (e cause : Nat) (_ : p .memory := by assumption) (_ : p .waiting := by assumption) (_ : p .heads := by assumption) (_ : p .lamps := by assumption) (_ : p (.regs .fs) := by assumption) (_ : p (.regs .le) := by assumption) (_ : p (.regs .dc) := by assumption) :
    Keeps p r (State.fenceEngine s e cause) := by
  unfold State.fenceEngine
  repeat' first
    | with_reducible assumption
    | (show p (.regs _); assumption)
    | (extract_lets +onlyGivenNames y; refine Keeps.via (x := y) ?_ (fun _ => ?_); subst y; rotate_left; clear_value y)
    | (extract_lets +onlyGivenNames y; clear_value y)
    | with_reducible apply Keeps.ite
    | with_reducible apply modEng_keeps
    | with_reducible apply modMh_keeps
    | with_reducible apply wr_keeps
    | with_reducible apply wrap_keeps
    | with_reducible apply raise_keeps
    | with_reducible apply dropStaging_keeps
    | with_reducible apply migrate_keeps
    | (with_reducible refine Keeps.via ?_ id; split)
    | with_reducible apply_assumption

theorem drainSub_keeps (h : Keeps p r s) (n : Nat) (_ : p .cells := by assumption) (_ : p .memory := by assumption) (_ : p (.regs .dc) := by assumption) :
    Keeps p r (State.drainSub s n) := by
  unfold State.drainSub
  repeat' first
    | with_reducible assumption
    | (extract_lets +onlyGivenNames y; refine Keeps.via (x := y) ?_ (fun _ => ?_); subst y; rotate_left; clear_value y)
    | (extract_lets +onlyGivenNames y; clear_value y)
    | with_reducible apply writeVisit_keeps
    | with_reducible apply modWrites_keeps
    | with_reducible refine Keeps.foldl _ ?_ (fun _ _ _ => ?_)
    | exact rfl
    | with_reducible apply_assumption

theorem restSub_keeps (h : Keeps p r s) (n : Nat) (_ : p .cells := by assumption) (_ : p .memory := by assumption) (_ : p (.regs .dc) := by assumption) :
    Keeps p r (State.restSub s n) := by
  unfold State.restSub
  repeat' first
    | with_reducible assumption
    | (extract_lets +onlyGivenNames y; refine Keeps.via (x := y) ?_ (fun _ => ?_); subst y; rotate_left; clear_value y)
    | (extract_lets +onlyGivenNames y; clear_value y)
    | with_reducible apply Keeps.ite
    | with_reducible apply drainSub_keeps
    | with_reducible apply modSub_keeps
    | with_reducible apply dropWakes_keeps
    | with_reducible apply dropExits_keeps
    | (with_reducible refine Keeps.via ?_ id; split)
    | exact rfl
    | exact State.Sorted.modMg rfl rfl
    | exact State.Sorted.modLe rfl rfl
    | exact id
    | (dsimp only; split)
    | with_reducible apply_assumption

theorem stopChange_keeps (h : Keeps p r s) (n : Nat) (_ : p .cells := by assumption) (_ : p .memory := by assumption) (_ : p (.regs .dc) := by assumption) :
    Keeps p r (State.stopChange s n) := by
  unfold State.stopChange
  repeat' first
    | with_reducible assumption
    | (show p (.regs _); assumption)
    | (extract_lets +onlyGivenNames y; refine Keeps.via (x := y) ?_ (fun _ => ?_); subst y; rotate_left; clear_value y)
    | (extract_lets +onlyGivenNames y; clear_value y)
    | with_reducible apply Keeps.ite
    | with_reducible apply drainSub_keeps
    | with_reducible apply modSub_keeps
    | with_reducible apply wr_keeps
    | (with_reducible refine Keeps.via ?_ id; split)
    | exact rfl
    | exact State.Sorted.modMg rfl rfl
    | exact State.Sorted.modLe rfl rfl
    | exact id
    | (dsimp only; split)
    | with_reducible apply_assumption

theorem selfRefreshHalf_keeps (h : Keeps p r s) (hh : Half) (_ : p .cells := by assumption) (_ : p .memory := by assumption) (_ : p (.regs .dc) := by assumption) :
    Keeps p r (State.selfRefreshHalf s hh) := by
  unfold State.selfRefreshHalf
  repeat' first
    | with_reducible assumption
    | (show p (.regs _); assumption)
    | (extract_lets +onlyGivenNames y; refine Keeps.via (x := y) ?_ (fun _ => ?_); subst y; rotate_left; clear_value y)
    | (extract_lets +onlyGivenNames y; clear_value y)
    | with_reducible apply Keeps.ite
    | with_reducible apply restSub_keeps
    | with_reducible apply modSub_keeps
    | with_reducible apply wr_keeps
    | with_reducible refine Keeps.foldl _ ?_ (fun _ _ _ => ?_)
    | (with_reducible refine Keeps.via ?_ id; split)
    | exact rfl
    | exact State.Sorted.modMg rfl rfl
    | exact State.Sorted.modLe rfl rfl
    | exact id
    | (dsimp only; split)
    | with_reducible refine Keeps.ofSnd (by assumption) ?_
    | with_reducible refine Keeps.ofFst (by assumption) ?_
    | with_reducible apply_assumption

theorem shakeDither_keeps (h : Keeps p r s) (hh : Half) (k : Nat) (_ : p .clocks := by assumption) :
    Keeps p r (State.shakeDither s hh k) := by
  unfold State.shakeDither
  repeat' first
    | with_reducible assumption
    | with_reducible apply Keeps.ite
    | with_reducible apply modCk_keeps
    | with_reducible refine Keeps.foldl _ ?_ (fun _ _ _ => ?_)
    | (with_reducible refine Keeps.via ?_ id; split)
    | with_reducible apply_assumption

theorem setDev_keeps (h : Keeps p r s) (n rate m : Nat) (d : DevSet) (_ : p .memory := by assumption) :
    Keeps p r (State.setDev s n rate m d) := by
  unfold State.setDev
  repeat' first
    | with_reducible assumption
    | (extract_lets +onlyGivenNames y; refine Keeps.via (x := y) ?_ (fun _ => ?_); subst y; rotate_left; clear_value y)
    | (extract_lets +onlyGivenNames y; clear_value y)
    | with_reducible apply Keeps.ite
    | with_reducible apply modSub_keeps
    | (with_reducible refine Keeps.via ?_ id; split)
    | exact rfl
    | exact State.Sorted.modMg rfl rfl
    | exact State.Sorted.modLe rfl rfl
    | exact id
    | (dsimp only; split)
    | with_reducible apply_assumption

theorem showDev_keeps (h : Keeps p r s) (n m : Nat) (_ : p (.regs .di) := by assumption) :
    Keeps p r (State.showDev s n m) := by
  unfold State.showDev
  repeat' first
    | with_reducible assumption
    | (show p (.regs _); assumption)
    | (extract_lets +onlyGivenNames y; refine Keeps.via (x := y) ?_ (fun _ => ?_); subst y; rotate_left; clear_value y)
    | (extract_lets +onlyGivenNames y; clear_value y)
    | with_reducible apply flag_keeps
    | with_reducible apply wr_keeps
    | with_reducible apply wrS_keeps

theorem showSub_keeps (h : Keeps p r s) (n : Nat) (_ : p (.regs .di) := by assumption) :
    Keeps p r (State.showSub s n) := by
  unfold State.showSub
  repeat' first
    | with_reducible assumption
    | (show p (.regs _); assumption)
    | (extract_lets +onlyGivenNames y; refine Keeps.via (x := y) ?_ (fun _ => ?_); subst y; rotate_left; clear_value y)
    | (extract_lets +onlyGivenNames y; clear_value y)
    | with_reducible apply wr_keeps
    | with_reducible apply showDev_keeps
    | with_reducible refine Keeps.foldl _ ?_ (fun _ _ _ => ?_)
    | with_reducible apply_assumption

theorem flushReads_keeps (h : Keeps p r s) (n : Nat) (_ : p .memory := by assumption) (_ : p .waiting := by assumption) (_ : p .schedule := by assumption) (_ : p .heads := by assumption) (_ : p .lamps := by assumption) (_ : p .outputs := by assumption) (_ : p .draws := by assumption) (_ : p (.regs .mi) := by assumption) (_ : p (.regs .dc) := by assumption) (_ : p (.regs .di) := by assumption) (_ : p (.regs .hp) := by assumption) : Keeps p r (State.flushReads s n) := by
  unfold State.flushReads
  dsimp only
  have go : ∀ {t : State} (dpa : Option Nat) (l : List Reader), Keeps p r t → Keeps p r (l.foldl (fun s r => s.deliver r (dpaLine dpa) .poison true) t) :=
    fun _ _ ht => Keeps.foldl _ ht fun _ _ hx => deliver_keeps hx _ _ _ _
  refine Keeps.foldl _ (Keeps.foldl _ (Keeps.foldl _ ?_ fun _ _ hx => Keeps.foldl _ hx fun _ _ hy => go _ _ hy) fun _ _ hx => go _ _ hx)
    fun _ _ hx => go _ _ hx
  exact modWrites_keeps (answerWrites_keeps (modSub_keeps h n _ (Sub.enterAll_sealKey _ _)) n) n _ rfl

theorem flashPut_keeps (h : Keeps p r s) (a : Nat) (bs : List Byte) (_ : p .flash := by assumption) : Keeps p r (State.flashPut s a bs) := by
  refine h.trans ⟨rfl, le_rfl, le_rfl, List.prefix_rfl, List.suffix_rfl, id, fun i =>
    ⟨i.regs, ?_, i.cells, i.audit, i.stamps, i.stamps2, i.storeA, i.storeB, i.poison, i.sorted⟩, fun x hx => by
    cases x <;> first | rfl | exact Part.Same.regs rfl | exact absurd ‹p .flash› hx⟩
  show Sparse.wf _ (List.foldl _ s.flash _) = true
  generalize (List.range bs.length).zip bs = l
  have hf := i.flash
  generalize s.flash = m at hf
  induction l generalizing m with
  | nil => exact hf
  | cons b t ih => exact ih _ (Sparse.wf_put _ _ hf)

theorem flashErase_keeps (h : Keeps p r s) (a n : Nat) (_ : p .flash := by assumption) : Keeps p r (State.flashErase s a n) :=
  h.trans ⟨rfl, le_rfl, le_rfl, List.prefix_rfl, List.suffix_rfl, id, fun i =>
    ⟨i.regs, Sparse.wf_delRange _ _ i.flash, i.cells, i.audit, i.stamps, i.stamps2, i.storeA, i.storeB, i.poison, i.sorted⟩, fun x hx => by
    cases x <;> first | rfl | exact Part.Same.regs rfl | exact absurd ‹p .flash› hx⟩

theorem flashCut_keeps (h : Keeps p r s) (a n : Nat) (_ : p .flash := by assumption) (_ : p .draws := by assumption) : Keeps p r (State.flashCut s a n) :=
  modMg_keeps (free_keeps (flashPut_keeps h a ((List.range n).map fun i => Config.cutFlashByte s.free (a + i))) 1)
    (fun m => { m with torn := (a, n) :: m.torn }) id List.suffix_rfl (Or.inr rfl) (Or.inr rfl) (Or.inr rfl) (Or.inr rfl) (Or.inr rfl)
    (Or.inl (by assumption))

theorem putCopy_keeps (h : Keeps p r s) (base seq : Nat) (bs : List Byte) (_ : p .flash := by assumption) :
    Keeps p r (State.putCopy s base seq bs) := by
  unfold State.putCopy
  repeat' first
    | with_reducible assumption
    | with_reducible apply flashPut_keeps
    | with_reducible apply flashErase_keeps

theorem recordHealth_keeps (h : Keeps p r s) (n : Nat) (f : HealthRec → HealthRec) (_ : p .flash := by assumption) (_ : p .manage := by assumption) (_ : p .waiting := by assumption) (_ : p .draws := by assumption) :
    Keeps p r (State.recordHealth s n f) := by
  unfold State.recordHealth
  repeat' first
    | with_reducible assumption
    | (extract_lets +onlyGivenNames y; refine Keeps.via (x := y) ?_ (fun _ => ?_); subst y; rotate_left; clear_value y)
    | (extract_lets +onlyGivenNames y; clear_value y)
    | with_reducible apply Keeps.ite
    | with_reducible apply raiseL_keeps
    | with_reducible apply modMg_keeps
    | with_reducible apply flashCut_keeps
    | with_reducible apply putCopy_keeps
    | with_reducible apply free_keeps
    | (with_reducible refine Keeps.via ?_ id; split)
    | (rename Keeps p r _ => hk; exact Keeps.of_eq hk rfl le_rfl le_rfl List.prefix_rfl rfl rfl rfl rfl rfl rfl rfl rfl
        fun x hx => by cases x <;> first | rfl | exact Part.Same.regs rfl | exact absurd (by assumption) hx)
    | exact Or.inl (by assumption)
    | exact Or.inr rfl
    | exact rfl
    | exact State.Sorted.modMg rfl rfl
    | exact State.Sorted.modLe rfl rfl
    | exact id
    | exact List.suffix_rfl
    | exact fun _ => Nat.zero_le _
    | (dsimp only; split)
    | with_reducible apply_assumption

theorem unlistRetired_keeps (h : Keeps p r s) (n : Nat) (_ : p .memory := by assumption) :
    Keeps p r (State.unlistRetired s n) := by
  unfold State.unlistRetired
  repeat' first
    | with_reducible assumption
    | (extract_lets +onlyGivenNames y; refine Keeps.via (x := y) ?_ (fun _ => ?_); subst y; rotate_left; clear_value y)
    | (extract_lets +onlyGivenNames y; refine Keeps.via (x := y.1) ?_ (fun _ => ?_); subst y; rotate_left; clear_value y)
    | (extract_lets +onlyGivenNames y; refine Keeps.viaFun (x := y) (fun _ => ?_) (fun _ => ?_); subst y; rotate_left; clear_value y)
    | (extract_lets +onlyGivenNames y; clear_value y)
    | with_reducible apply Keeps.ite
    | with_reducible apply modDm_keeps
    | (with_reducible refine Keeps.via ?_ id; split)
    | exact rfl
    | exact State.Sorted.modMg rfl rfl
    | exact State.Sorted.modLe rfl rfl
    | exact id
    | with_reducible apply_assumption
    | exact fun h => (List.length_filter_le _ _).trans h

theorem retireSub_keeps (h : Keeps p r s) (n cause : Nat) (_ : p .memory := by assumption) (_ : p .flash := by assumption) (_ : p .manage := by assumption) (_ : p .waiting := by assumption) (_ : p .schedule := by assumption) (_ : p .heads := by assumption) (_ : p .lamps := by assumption) (_ : p .outputs := by assumption) (_ : p .draws := by assumption) (_ : p (.regs .mi) := by assumption) (_ : p (.regs .dc) := by assumption) (_ : p (.regs .di) := by assumption) (_ : p (.regs .hp) := by assumption) :
    Keeps p r (State.retireSub s n cause) := by
  unfold State.retireSub
  repeat' first
    | with_reducible assumption
    | (show p (.regs _); assumption)
    | (extract_lets +onlyGivenNames y; refine Keeps.via (x := y) ?_ (fun _ => ?_); subst y; rotate_left; clear_value y)
    | (extract_lets +onlyGivenNames y; clear_value y)
    | with_reducible apply Keeps.ite
    | with_reducible apply modSub_keeps
    | with_reducible apply recordHealth_keeps
    | with_reducible apply modDm_keeps
    | with_reducible apply dropWakes_keeps
    | with_reducible apply wr_keeps
    | with_reducible apply unlistRetired_keeps
    | with_reducible apply flushReads_keeps
    | with_reducible apply modMh_keeps
    | with_reducible apply subMsg_keeps
    | (with_reducible refine Keeps.via ?_ id; split)
    | exact rfl
    | exact State.Sorted.modMg rfl rfl
    | exact State.Sorted.modLe rfl rfl
    | exact id
    | (dsimp only; split)
    | with_reducible apply_assumption

theorem endSleep_keeps (h : Keeps p r s) (n : Nat) (_ : p .memory := by assumption) (_ : p .heads := by assumption) (_ : p .lamps := by assumption) (_ : p (.regs .le) := by assumption) (_ : p (.regs .dc) := by assumption) :
    Keeps p r (State.endSleep s n) := by
  unfold State.endSleep
  repeat' first
    | with_reducible assumption
    | with_reducible apply Keeps.ite
    | with_reducible apply askWake_keeps
    | (with_reducible refine Keeps.via ?_ id; split)

theorem startRebuild_keeps (h : Keeps p r s) (n : Nat) (_ : p .memory := by assumption) (_ : p .heads := by assumption) (_ : p .lamps := by assumption) (_ : p (.regs .le) := by assumption) (_ : p (.regs .dc) := by assumption) (_ : p (.regs .di) := by assumption) :
    Keeps p r (State.startRebuild s n) := by
  unfold State.startRebuild
  repeat' first
    | with_reducible assumption
    | (show p (.regs _); assumption)
    | (extract_lets +onlyGivenNames y; refine Keeps.via (x := y) ?_ (fun _ => ?_); subst y; rotate_left; clear_value y)
    | (extract_lets +onlyGivenNames y; clear_value y)
    | with_reducible apply Keeps.ite
    | with_reducible apply modMh_keeps
    | with_reducible apply wr_keeps
    | with_reducible apply endSleep_keeps
    | with_reducible refine Keeps.foldl _ ?_ (fun _ _ _ => ?_)
    | (with_reducible refine Keeps.via ?_ id; split)
    | with_reducible apply_assumption

theorem markOne_keeps (h : Keeps p r s) (n m cause : Nat) (_ : p .memory := by assumption) (_ : p .flash := by assumption) (_ : p .manage := by assumption) (_ : p .waiting := by assumption) (_ : p .draws := by assumption) (_ : p (.regs .di) := by assumption) :
    Keeps p r (State.markOne s n m cause) := by
  unfold State.markOne
  repeat' first
    | with_reducible assumption
    | (show p (.regs _); assumption)
    | (extract_lets +onlyGivenNames y; refine Keeps.via (x := y) ?_ (fun _ => ?_); subst y; rotate_left; clear_value y)
    | (extract_lets +onlyGivenNames y; clear_value y)
    | with_reducible apply Keeps.ite
    | with_reducible apply modSub_keeps
    | with_reducible apply recordHealth_keeps
    | with_reducible apply wr_keeps
    | with_reducible apply subMsg_keeps
    | (with_reducible refine Keeps.via ?_ id; split)
    | exact rfl
    | exact State.Sorted.modMg rfl rfl
    | exact State.Sorted.modLe rfl rfl
    | exact id
    | (dsimp only; split)
    | with_reducible apply_assumption

theorem markDevices_keeps (h : Keeps p r s) (n : Nat) (ms : List Nat) (cause : Nat) (_ : p .memory := by assumption) (_ : p .flash := by assumption) (_ : p .manage := by assumption) (_ : p .waiting := by assumption) (_ : p .schedule := by assumption) (_ : p .heads := by assumption) (_ : p .lamps := by assumption) (_ : p .outputs := by assumption) (_ : p .draws := by assumption) (_ : p (.regs .le) := by assumption) (_ : p (.regs .mi) := by assumption) (_ : p (.regs .dc) := by assumption) (_ : p (.regs .di) := by assumption) (_ : p (.regs .hp) := by assumption) :
    Keeps p r (State.markDevices s n ms cause) := by
  unfold State.markDevices
  repeat' first
    | with_reducible assumption
    | (extract_lets +onlyGivenNames y; refine Keeps.via (x := y) ?_ (fun _ => ?_); subst y; rotate_left; clear_value y)
    | (extract_lets +onlyGivenNames y; clear_value y)
    | with_reducible apply Keeps.ite
    | with_reducible apply markOne_keeps
    | with_reducible apply retireSub_keeps
    | with_reducible apply startRebuild_keeps
    | with_reducible refine Keeps.foldl _ ?_ (fun _ _ _ => ?_)
    | (with_reducible refine Keeps.via ?_ id; split)
    | with_reducible refine Keeps.ofSnd (by assumption) ?_
    | with_reducible refine Keeps.ofFst (by assumption) ?_
    | with_reducible apply_assumption

theorem pendFreq_keeps (h : Keeps p r s) (n : Nat) (_ : p .memory := by assumption) :
    Keeps p r (State.pendFreq s n) := by
  unfold State.pendFreq
  repeat' first
    | with_reducible assumption
    | (extract_lets +onlyGivenNames y; refine Keeps.via (x := y) ?_ (fun _ => ?_); subst y; rotate_left; clear_value y)
    | (extract_lets +onlyGivenNames y; clear_value y)
    | with_reducible apply Keeps.ite
    | with_reducible apply modDm_keeps
    | (with_reducible refine Keeps.via ?_ id; split)
    | exact rfl
    | exact State.Sorted.modMg rfl rfl
    | exact State.Sorted.modLe rfl rfl
    | exact id
    | with_reducible apply_assumption

theorem requestTs_keeps (h : Keeps p r s) (n m : Nat) (_ : p .memory := by assumption) (_ : p (.regs .dc) := by assumption) :
    Keeps p r (State.requestTs s n m) := by
  unfold State.requestTs
  repeat' first
    | with_reducible assumption
    | (show p (.regs _); assumption)
    | (extract_lets +onlyGivenNames y; refine Keeps.via (x := y) ?_ (fun _ => ?_); subst y; rotate_left; clear_value y)
    | (extract_lets +onlyGivenNames y; clear_value y)
    | with_reducible apply Keeps.ite
    | with_reducible apply wr_keeps
    | with_reducible apply modSub_keeps
    | with_reducible apply modDm_keeps
    | with_reducible apply pendFreq_keeps
    | (with_reducible refine Keeps.via ?_ id; split)
    | exact rfl
    | exact State.Sorted.modMg rfl rfl
    | exact State.Sorted.modLe rfl rfl
    | exact id
    | (dsimp only; split)
    | with_reducible apply_assumption

theorem switchTs_keeps (h : Keeps p r s) (n m : Nat) (_ : p .memory := by assumption) (_ : p (.regs .ck) := by assumption) (_ : p (.regs .dc) := by assumption) (_ : p (.regs .di) := by assumption) :
    Keeps p r (State.switchTs s n m) := by
  unfold State.switchTs
  repeat' first
    | with_reducible assumption
    | (show p (.regs _); assumption)
    | (extract_lets +onlyGivenNames y; refine Keeps.via (x := y) ?_ (fun _ => ?_); subst y; rotate_left; clear_value y)
    | (extract_lets +onlyGivenNames y; clear_value y)
    | with_reducible apply wr_keeps
    | with_reducible apply modSub_keeps
    | with_reducible apply showSub_keeps
    | exact rfl
    | exact State.Sorted.modMg rfl rfl
    | exact State.Sorted.modLe rfl rfl
    | exact id
    | with_reducible apply_assumption

theorem notePending_keeps (h : Keeps p r s) (n : Nat) (_ : p (.regs .di) := by assumption) :
    Keeps p r (State.notePending s n) := by
  unfold State.notePending
  repeat' first
    | with_reducible assumption
    | (show p (.regs _); assumption)
    | with_reducible apply wr_keeps

theorem putStep_keeps (h : Keeps p r s) (kind n rank : Nat) (_ : p .memory := by assumption) (_ : p (.regs .di) := by assumption) :
    Keeps p r (State.putStep s kind n rank) := by
  unfold State.putStep
  repeat' first
    | with_reducible assumption
    | (extract_lets +onlyGivenNames y; refine Keeps.via (x := y) ?_ (fun _ => ?_); subst y; rotate_left; clear_value y)
    | (extract_lets +onlyGivenNames y; clear_value y)
    | with_reducible apply notePending_keeps
    | with_reducible apply modDm_keeps
    | exact rfl
    | exact State.Sorted.modMg rfl rfl
    | exact State.Sorted.modLe rfl rfl
    | exact id
    | with_reducible apply_assumption

theorem askStep_keeps (h : Keeps p r s) (kind n rank : Nat) (_ : p .memory := by assumption) (_ : p (.regs .di) := by assumption) :
    Keeps p r (State.askStep s kind n rank) := by
  unfold State.askStep
  repeat' first
    | with_reducible assumption
    | with_reducible apply Keeps.ite
    | with_reducible apply putStep_keeps
    | (with_reducible refine Keeps.via ?_ id; split)

theorem askRetrain_keeps (h : Keeps p r s) (n rank : Nat) (_ : p .memory := by assumption) (_ : p (.regs .di) := by assumption) :
    Keeps p r (State.askRetrain s n rank) := by
  unfold State.askRetrain
  repeat' first
    | with_reducible assumption
    | with_reducible apply Keeps.ite
    | with_reducible apply putStep_keeps
    | (with_reducible refine Keeps.via ?_ id; split)

theorem applyDrift_keeps (h : Keeps p r s) (n rate m count : Nat) (_ : p .memory := by assumption) (_ : p (.regs .di) := by assumption) :
    Keeps p r (State.applyDrift s n rate m count).1 := by
  unfold State.applyDrift
  repeat' first
    | with_reducible assumption
    | (show p (.regs _); assumption)
    | (extract_lets +onlyGivenNames y; refine Keeps.via (x := y) ?_ (fun _ => ?_); subst y; rotate_left; clear_value y)
    | (extract_lets +onlyGivenNames y; clear_value y)
    | with_reducible apply Keeps.ite
    | with_reducible apply bump_keeps
    | with_reducible apply setDev_keeps
    | (with_reducible refine Keeps.via ?_ id; split)

theorem trackAsks_keeps (h : Keeps p r s) (n rank : Nat) (_ : p .memory := by assumption) (_ : p (.regs .di) := by assumption) :
    Keeps p r (State.trackAsks s n rank) := by
  unfold State.trackAsks
  repeat' first
    | with_reducible assumption
    | (show p (.regs _); assumption)
    | with_reducible apply askRetrain_keeps
    | with_reducible apply bump_keeps

theorem quickRank_keeps (h : Keeps p r s) (n rate rank : Nat) (q : QuickTrack) (_ : p .memory := by assumption) (_ : p (.regs .di) := by assumption) :
    Keeps p r (State.quickRank s n rate rank q).1 := by
  unfold State.quickRank
  repeat' first
    | with_reducible assumption
    | (extract_lets +onlyGivenNames y; refine Keeps.via (x := y) ?_ (fun _ => ?_); subst y; rotate_left; clear_value y)
    | (extract_lets +onlyGivenNames y; refine Keeps.via (x := y.2) ?_ (fun _ => ?_); subst y; rotate_left; clear_value y)
    | (extract_lets +onlyGivenNames y; refine Keeps.via (x := y.1) ?_ (fun _ => ?_); subst y; rotate_left; clear_value y)
    | (extract_lets +onlyGivenNames y; clear_value y)
    | with_reducible apply Keeps.ite
    | with_reducible apply applyDrift_keeps
    | with_reducible apply trackAsks_keeps
    | with_reducible refine Keeps.foldl _ ?_ (fun _ _ _ => ?_)
    | (with_reducible refine Keeps.via ?_ id; split)
    | with_reducible refine Keeps.foldlFst _ ?_ (fun _ _ _ => ?_)
    | with_reducible refine Keeps.foldlSnd _ ?_ (fun _ _ _ => ?_)
    | with_reducible apply_assumption

theorem quickTrack_keeps (h : Keeps p r s) (n rate : Nat) (ranks : List Nat) (q : QuickTrack) (_ : p .memory := by assumption) (_ : p (.regs .di) := by assumption) :
    Keeps p r (State.quickTrack s n rate ranks q).1 := by
  unfold State.quickTrack
  repeat' first
    | with_reducible assumption
    | (show p (.regs _); assumption)
    | (extract_lets +onlyGivenNames y; refine Keeps.via (x := y) ?_ (fun _ => ?_); subst y; rotate_left; clear_value y)
    | (extract_lets +onlyGivenNames y; refine Keeps.via (x := y.2) ?_ (fun _ => ?_); subst y; rotate_left; clear_value y)
    | (extract_lets +onlyGivenNames y; refine Keeps.via (x := y.1) ?_ (fun _ => ?_); subst y; rotate_left; clear_value y)
    | (extract_lets +onlyGivenNames y; clear_value y)
    | with_reducible apply quickRank_keeps
    | with_reducible apply bump_keeps
    | with_reducible refine Keeps.foldl _ ?_ (fun _ _ _ => ?_)
    | with_reducible refine Keeps.foldlFst _ ?_ (fun _ _ _ => ?_)
    | with_reducible refine Keeps.foldlSnd _ ?_ (fun _ _ _ => ?_)
    | with_reducible apply_assumption

theorem beginHold_keeps (h : Keeps p r s) (hh : Half) (_ : p .memory := by assumption) (_ : p .heads := by assumption) (_ : p (.regs .hp) := by assumption) :
    Keeps p r (State.beginHold s hh) := by
  unfold State.beginHold
  repeat' first
    | with_reducible assumption
    | with_reducible apply noteCredits_keeps
    | with_reducible apply modMh_keeps
    | with_reducible refine Keeps.foldl _ ?_ (fun _ _ _ => ?_)
    | with_reducible apply_assumption

theorem takeOffline_keeps (h : Keeps p r s) (n : Nat) (_ : p .memory := by assumption) :
    Keeps p r (State.takeOffline s n) := by
  unfold State.takeOffline
  repeat' first
    | with_reducible assumption
    | with_reducible apply modMh_keeps
    | with_reducible apply_assumption

theorem stopRebuild_keeps (h : Keeps p r s) (hh : Half) (_ : p .memory := by assumption) (_ : p (.regs .di) := by assumption) :
    Keeps p r (State.stopRebuild s hh) := by
  unfold State.stopRebuild
  repeat' first
    | with_reducible assumption
    | (show p (.regs _); assumption)
    | with_reducible apply wr_keeps
    | with_reducible apply modMh_keeps
    | (with_reducible refine Keeps.via ?_ id; split)
    | with_reducible apply_assumption

theorem stopServices_keeps (h : Keeps p r s) (hh : Half) (_ : p .memory := by assumption) (_ : p (.regs .di) := by assumption) :
    Keeps p r (State.stopServices s hh) := by
  unfold State.stopServices
  repeat' first
    | with_reducible assumption
    | with_reducible apply modDm_keeps
    | with_reducible apply stopRebuild_keeps
    | exact rfl
    | exact State.Sorted.modMg rfl rfl
    | exact State.Sorted.modLe rfl rfl
    | exact id
    | with_reducible apply_assumption

theorem endScrub_keeps (h : Keeps p r s) (result : Nat) (_ : p .memory := by assumption) (_ : p (.regs .mi) := by assumption) :
    Keeps p r (State.endScrub s result) := by
  unfold State.endScrub
  repeat' first
    | with_reducible assumption
    | (show p (.regs _); assumption)
    | with_reducible apply Keeps.ite
    | with_reducible apply modDm_keeps
    | with_reducible apply wr_keeps
    | (with_reducible refine Keeps.via ?_ id; split)
    | exact rfl
    | exact State.Sorted.modMg rfl rfl
    | exact State.Sorted.modLe rfl rfl
    | exact id
    | with_reducible apply_assumption

theorem fsIdle_keeps (h : Keeps p r s) (hh : Half) (_ : p .timebase := by assumption) (_ : p .schedule := by assumption) (_ : p .welt := by assumption) :
    Keeps p r (State.fsIdle s hh) := by
  unfold State.fsIdle
  repeat' first
    | with_reducible assumption
    | (extract_lets +onlyGivenNames y; refine Keeps.via (x := y) ?_ (fun _ => ?_); subst y; rotate_left; clear_value y)
    | (extract_lets +onlyGivenNames y; clear_value y)
    | with_reducible apply Keeps.ite
    | with_reducible apply modWl_keeps
    | with_reducible apply modTb_keeps
    | with_reducible apply modSched_keeps
    | (with_reducible refine Keeps.via ?_ id; split)
    | exact Or.inl (by assumption)
    | exact Or.inr rfl
    | exact rfl
    | exact State.Sorted.modMg rfl rfl
    | exact State.Sorted.modLe rfl rfl
    | exact id
    | (dsimp only; split)
    | with_reducible apply_assumption
    | exact Or.inr rfl
    | exact Or.inl (by assumption)

theorem stopLamps_keeps (h : Keeps p r s) (hh : Half) (_ : p .memory := by assumption) (_ : p .lamps := by assumption) (_ : p (.regs .le) := by assumption) :
    Keeps p r (State.stopLamps s hh) := by
  unfold State.stopLamps
  repeat' first
    | with_reducible assumption
    | (show p (.regs _); assumption)
    | (extract_lets +onlyGivenNames y; refine Keeps.via (x := y) ?_ (fun _ => ?_); subst y; rotate_left; clear_value y)
    | (extract_lets +onlyGivenNames y; refine Keeps.via (x := y.1) ?_ (fun _ => ?_); subst y; rotate_left; clear_value y)
    | (extract_lets +onlyGivenNames y; clear_value y)
    | with_reducible apply Keeps.ite
    | with_reducible apply modEng_keeps
    | with_reducible apply wr_keeps
    | with_reducible apply modMh_keeps
    | with_reducible apply modRing_keeps
    | with_reducible refine Keeps.foldl _ ?_ (fun _ _ _ => ?_)
    | (with_reducible refine Keeps.via ?_ id; split)
    | with_reducible refine Keeps.foldlFst _ ?_ (fun _ _ _ => ?_)
    | with_reducible apply_assumption

theorem fatalAnswer_keeps (h : Keeps p r s) (hh id kind : Nat) (_ : p .outputs := by assumption) (_ : p .draws := by assumption) (_ : p (.regs .hp) := by assumption) :
    Keeps p r (State.fatalAnswer s hh id kind) := by
  unfold State.fatalAnswer
  repeat' first
    | with_reducible assumption
    | with_reducible apply Keeps.ite
    | with_reducible apply sendResp_keeps
    | with_reducible apply free_keeps
    | (with_reducible refine Keeps.via ?_ id; split)
    | (rename Keeps p r _ => hk; exact Keeps.of_eq hk rfl le_rfl le_rfl List.prefix_rfl rfl rfl rfl rfl rfl rfl rfl rfl
        fun x hx => by cases x <;> first | rfl | exact Part.Same.regs rfl | exact absurd (by assumption) hx)
    | assumption

theorem fatalHead_keeps (h : Keeps p r s) (hh : Nat) (_ : p .heads := by assumption) (_ : p .outputs := by assumption) (_ : p .draws := by assumption) (_ : p (.regs .hp) := by assumption) :
    Keeps p r (State.fatalHead s hh) := by
  unfold State.fatalHead
  repeat' first
    | with_reducible assumption
    | (extract_lets +onlyGivenNames y; refine Keeps.via (x := y) ?_ (fun _ => ?_); subst y; rotate_left; clear_value y)
    | (extract_lets +onlyGivenNames y; refine Keeps.via (x := y.2) ?_ (fun _ => ?_); subst y; rotate_left; clear_value y)
    | (extract_lets +onlyGivenNames y; refine Keeps.via (x := y.1) ?_ (fun _ => ?_); subst y; rotate_left; clear_value y)
    | (extract_lets +onlyGivenNames y; clear_value y)
    | with_reducible apply Keeps.ite
    | with_reducible apply modHead_keeps
    | with_reducible apply sendResp_keeps
    | with_reducible apply fatalAnswer_keeps
    | with_reducible apply noteFlight_keeps
    | with_reducible refine Keeps.foldl _ ?_ (fun _ _ _ => ?_)
    | (with_reducible refine Keeps.via ?_ id; split)
    | exact Or.inr fun _ => rfl
    | exact Or.inl (by assumption)
    | exact Or.inr fun _ => by dsimp only; split <;> rfl
    | with_reducible refine Keeps.foldlFst _ ?_ (fun _ _ _ => ?_)
    | with_reducible refine Keeps.foldlSnd _ ?_ (fun _ _ _ => ?_)
    | with_reducible apply_assumption
    | assumption

theorem resetHead_keeps (h : Keeps p r s) (hh : Nat) (_ : p .heads := by assumption) (_ : p .access := by assumption) (_ : p (.regs .hp) := by assumption) :
    Keeps p r (State.resetHead s hh) := by
  unfold State.resetHead
  repeat' first
    | with_reducible assumption
    | (show p (.regs _); assumption)
    | (extract_lets +onlyGivenNames y; refine Keeps.via (x := y) ?_ (fun _ => ?_); subst y; rotate_left; clear_value y)
    | (extract_lets +onlyGivenNames y; clear_value y)
    | with_reducible apply modHead_keeps
    | with_reducible apply wr_keeps
    | with_reducible apply noteFlight_keeps
    | exact Or.inr fun _ => rfl
    | exact Or.inl (by assumption)
    | exact Or.inr fun _ => by dsimp only; split <;> rfl
    | with_reducible apply_assumption

theorem dropHead_keeps (h : Keeps p r s) (hh : Nat) (_ : p .roles := by assumption) (_ : p .audit := by assumption) (_ : p .waiting := by assumption) (_ : p .schedule := by assumption) (_ : p .heads := by assumption) (_ : p .access := by assumption) (_ : p .lamps := by assumption) (_ : p .outputs := by assumption) (_ : p (.regs .mg) := by assumption) (_ : p (.regs .le) := by assumption) (_ : p (.regs .hp) := by assumption) :
    Keeps p r (State.dropHead s hh) := by
  unfold State.dropHead
  repeat' first
    | with_reducible assumption
    | (extract_lets +onlyGivenNames y; refine Keeps.via (x := y) ?_ (fun _ => ?_); subst y; rotate_left; clear_value y)
    | (extract_lets +onlyGivenNames y; clear_value y)
    | with_reducible apply modHead_keeps
    | with_reducible apply disarmHead_keeps
    | with_reducible apply modRt_keeps
    | with_reducible apply modRole_keeps
    | with_reducible apply dropRole_keeps
    | with_reducible apply resetHead_keeps
    | with_reducible refine Keeps.foldl _ ?_ (fun _ _ _ => ?_)
    | exact Or.inr fun _ => rfl
    | exact Or.inl (by assumption)
    | exact Or.inr fun _ => by dsimp only; split <;> rfl
    | with_reducible apply_assumption

theorem downHead_keeps (h : Keeps p r s) (hh partialWrites partialLines : Nat) (_ : p .roles := by assumption) (_ : p .audit := by assumption) (_ : p .waiting := by assumption) (_ : p .schedule := by assumption) (_ : p .heads := by assumption) (_ : p .access := by assumption) (_ : p .lamps := by assumption) (_ : p .outputs := by assumption) (_ : p (.regs .mg) := by assumption) (_ : p (.regs .le) := by assumption) (_ : p (.regs .hp) := by assumption) :
    Keeps p r (State.downHead s hh partialWrites partialLines) := by
  unfold State.downHead
  repeat' first
    | with_reducible assumption
    | (show p (.regs _); assumption)
    | (extract_lets +onlyGivenNames y; refine Keeps.via (x := y) ?_ (fun _ => ?_); subst y; rotate_left; clear_value y)
    | (extract_lets +onlyGivenNames y; clear_value y)
    | with_reducible apply Keeps.ite
    | with_reducible apply wr_keeps
    | with_reducible apply raise_keeps
    | with_reducible apply bump_keeps
    | with_reducible apply dropHead_keeps
    | with_reducible apply modHead_keeps
    | (with_reducible refine Keeps.via ?_ id; split)
    | exact Or.inr fun _ => rfl
    | exact Or.inl (by assumption)
    | exact Or.inr fun _ => by dsimp only; split <;> rfl
    | with_reducible apply_assumption

theorem headsOff_keeps (h : Keeps p r s) (hh : Half) (_ : p .roles := by assumption) (_ : p .audit := by assumption) (_ : p .waiting := by assumption) (_ : p .schedule := by assumption) (_ : p .heads := by assumption) (_ : p .access := by assumption) (_ : p .lamps := by assumption) (_ : p .outputs := by assumption) (_ : p (.regs .mg) := by assumption) (_ : p (.regs .le) := by assumption) (_ : p (.regs .hp) := by assumption) :
    Keeps p r (State.headsOff s hh) := by
  unfold State.headsOff
  repeat' first
    | with_reducible assumption
    | with_reducible apply downHead_keeps
    | with_reducible refine Keeps.foldl _ ?_ (fun _ _ _ => ?_)
    | with_reducible apply_assumption

theorem headsLost_keeps (h : Keeps p r s) (hh : Half) (_ : p .roles := by assumption) (_ : p .audit := by assumption) (_ : p .waiting := by assumption) (_ : p .schedule := by assumption) (_ : p .heads := by assumption) (_ : p .access := by assumption) (_ : p .lamps := by assumption) (_ : p .outputs := by assumption) (_ : p (.regs .mg) := by assumption) (_ : p (.regs .le) := by assumption) (_ : p (.regs .hp) := by assumption) :
    Keeps p r (State.headsLost s hh) := by
  unfold State.headsLost
  repeat' first
    | with_reducible assumption
    | with_reducible apply Keeps.ite
    | with_reducible apply dropHead_keeps
    | with_reducible apply modHead_keeps
    | with_reducible refine Keeps.foldl _ ?_ (fun _ _ _ => ?_)
    | (with_reducible refine Keeps.via ?_ id; split)
    | exact Or.inr fun _ => rfl
    | exact Or.inl (by assumption)
    | exact Or.inr fun _ => by dsimp only; split <;> rfl
    | with_reducible apply_assumption

theorem recoverHeads_keeps (h : Keeps p r s) (hh : Half) (_ : p (.regs .hp) := by assumption) :
    Keeps p r (State.recoverHeads s hh) := by
  unfold State.recoverHeads
  repeat' first
    | with_reducible assumption
    | (show p (.regs _); assumption)
    | with_reducible apply Keeps.ite
    | with_reducible apply wr_keeps
    | with_reducible refine Keeps.foldl _ ?_ (fun _ _ _ => ?_)
    | (with_reducible refine Keeps.via ?_ id; split)
    | with_reducible apply_assumption

theorem poisonReads_keeps (h : Keeps p r s) (n : Nat) (which : Reader → Bool) (_ : p .memory := by assumption) (_ : p .waiting := by assumption) (_ : p .schedule := by assumption) (_ : p .heads := by assumption) (_ : p .lamps := by assumption) (_ : p .outputs := by assumption) (_ : p .draws := by assumption) (_ : p (.regs .mi) := by assumption) (_ : p (.regs .dc) := by assumption) (_ : p (.regs .di) := by assumption) (_ : p (.regs .hp) := by assumption) : Keeps p r (State.poisonReads s n which) := by
  unfold State.poisonReads
  dsimp only
  have go : ∀ {t : State} (dpa : Option Nat) (l : List Reader), Keeps p r t → Keeps p r (l.foldl (fun s r => s.deliver r (dpaLine dpa) .poison true) t) :=
    fun _ _ ht => Keeps.foldl _ ht fun _ _ hx => deliver_keeps hx _ _ _ _
  exact Keeps.foldl _ (Keeps.foldl _ (Keeps.foldl _ (modSub_keeps h n _ rfl) fun _ _ hx => Keeps.foldl _ hx fun _ _ hy => go _ _ hy) fun _ _ hx => go _ _ hx)
    fun _ _ hx => go _ _ hx

theorem freezeCopies_keeps (h : Keeps p r s) (hh : Half) (_ : p .heads := by assumption) :
    Keeps p r (State.freezeCopies s hh) := by
  unfold State.freezeCopies
  repeat' first
    | with_reducible assumption
    | with_reducible apply modHead_keeps
    | with_reducible refine Keeps.foldl _ ?_ (fun _ _ _ => ?_)
    | exact Or.inr fun _ => rfl
    | exact Or.inl (by assumption)
    | exact Or.inr fun _ => by dsimp only; split <;> rfl
    | with_reducible apply_assumption

theorem fatalHalf_keeps (h : Keeps p r s) (hh : Half) (_ : p .cells := by assumption) (_ : p .memory := by assumption) (_ : p .store := by assumption) (_ : p .waiting := by assumption) (_ : p .timebase := by assumption) (_ : p .schedule := by assumption) (_ : p .heads := by assumption) (_ : p .lamps := by assumption) (_ : p .welt := by assumption) (_ : p .outputs := by assumption) (_ : p .draws := by assumption) (_ : p (.regs .le) := by assumption) (_ : p (.regs .mi) := by assumption) (_ : p (.regs .dc) := by assumption) (_ : p (.regs .di) := by assumption) (_ : p (.regs .hp) := by assumption) :
    Keeps p r (State.fatalHalf s hh) := by
  unfold State.fatalHalf
  repeat' first
    | with_reducible assumption
    | (extract_lets +onlyGivenNames y; refine Keeps.via (x := y) ?_ (fun _ => ?_); subst y; rotate_left; clear_value y)
    | (extract_lets +onlyGivenNames y; clear_value y)
    | with_reducible apply modFc_keeps
    | with_reducible apply fsIdle_keeps
    | with_reducible apply stopLamps_keeps
    | with_reducible apply endScrub_keeps
    | with_reducible apply freezeCopies_keeps
    | with_reducible apply fatalHead_keeps
    | with_reducible apply modSub_keeps
    | with_reducible apply poisonReads_keeps
    | with_reducible apply modMh_keeps
    | with_reducible apply stopServices_keeps
    | with_reducible apply mediaError_keeps
    | with_reducible apply selfRefreshHalf_keeps
    | with_reducible apply noteCredits_keeps
    | with_reducible refine Keeps.foldl _ ?_ (fun _ _ _ => ?_)
    | exact fun _ h => h.merge _ _
    | exact fun _ h => h.push _ _ _
    | exact fun _ h => h.enter _ _ _
    | exact fun _ h => h.clear _
    | exact fun _ h => h.unpend _
    | exact fun _ h => ⟨h.single, h.ring⟩
    | exact rfl
    | exact State.Sorted.modMg rfl rfl
    | exact State.Sorted.modLe rfl rfl
    | exact id
    | with_reducible apply_assumption

theorem eyeletFail_keeps (h : Keeps p r s) (_ : p .power := by assumption) (_ : p (.regs .ps) := by assumption) :
    Keeps p r (State.eyeletFail s) := by
  unfold State.eyeletFail
  repeat' first
    | with_reducible assumption
    | (show p (.regs _); assumption)
    | with_reducible apply modPwr_keeps
    | with_reducible apply wr_keeps
    | with_reducible apply_assumption

theorem checkEyelet_keeps (h : Keeps p r s) (_ : p .power := by assumption) (_ : p (.regs .ps) := by assumption) :
    Keeps p r (State.checkEyelet s) := by
  unfold State.checkEyelet
  repeat' first
    | with_reducible assumption
    | with_reducible apply Keeps.ite
    | with_reducible apply eyeletFail_keeps
    | (with_reducible refine Keeps.via ?_ id; split)

theorem enterFatal_keeps (h : Keeps p r s) (hh : Half) (_ : p .cells := by assumption) (_ : p .memory := by assumption) (_ : p .store := by assumption) (_ : p .waiting := by assumption) (_ : p .timebase := by assumption) (_ : p .schedule := by assumption) (_ : p .heads := by assumption) (_ : p .lamps := by assumption) (_ : p .welt := by assumption) (_ : p .power := by assumption) (_ : p .outputs := by assumption) (_ : p .draws := by assumption) (_ : p (.regs .ps) := by assumption) (_ : p (.regs .le) := by assumption) (_ : p (.regs .mi) := by assumption) (_ : p (.regs .dc) := by assumption) (_ : p (.regs .di) := by assumption) (_ : p (.regs .hp) := by assumption) :
    Keeps p r (State.enterFatal s hh) := by
  unfold State.enterFatal
  repeat' first
    | with_reducible assumption
    | (extract_lets +onlyGivenNames y; refine Keeps.via (x := y) ?_ (fun _ => ?_); subst y; rotate_left; clear_value y)
    | (extract_lets +onlyGivenNames y; clear_value y)
    | with_reducible apply Keeps.ite
    | with_reducible apply fatalHalf_keeps
    | with_reducible apply checkEyelet_keeps
    | with_reducible apply raise_keeps
    | (with_reducible refine Keeps.via ?_ id; split)

theorem resumeHalf_keeps (h : Keeps p r s) (hh : Half) (quick : List (Fin 16 × QuickTrack)) (_ : p .memory := by assumption) (_ : p .heads := by assumption) (_ : p .lamps := by assumption) (_ : p (.regs .le) := by assumption) (_ : p (.regs .dc) := by assumption) (_ : p (.regs .di) := by assumption) :
    Keeps p r (State.resumeHalf s hh quick) := by
  unfold State.resumeHalf
  repeat' first
    | with_reducible assumption
    | (extract_lets +onlyGivenNames y; refine Keeps.via (x := y) ?_ (fun _ => ?_); subst y; rotate_left; clear_value y)
    | (extract_lets +onlyGivenNames y; refine Keeps.via (x := y.2) ?_ (fun _ => ?_); subst y; rotate_left; clear_value y)
    | (extract_lets +onlyGivenNames y; refine Keeps.via (x := y.1) ?_ (fun _ => ?_); subst y; rotate_left; clear_value y)
    | (extract_lets +onlyGivenNames y; clear_value y)
    | with_reducible apply Keeps.ite
    | with_reducible apply askWake_keeps
    | with_reducible apply quickTrack_keeps
    | with_reducible apply showSub_keeps
    | with_reducible apply askRetrain_keeps
    | with_reducible refine Keeps.foldl _ ?_ (fun _ _ _ => ?_)
    | (with_reducible refine Keeps.via ?_ id; split)
    | with_reducible refine Keeps.foldlFst _ ?_ (fun _ _ _ => ?_)
    | with_reducible refine Keeps.foldlSnd _ ?_ (fun _ _ _ => ?_)
    | with_reducible apply_assumption

theorem lastTouched_keeps (h : Keeps p r s) (n : Nat) (_ : p .schedule := by assumption) (_ : p .lasts := by assumption) :
    Keeps p r (State.lastTouched s n) := by
  unfold State.lastTouched
  repeat' first
    | with_reducible assumption
    | (extract_lets +onlyGivenNames y; refine Keeps.via (x := y) ?_ (fun _ => ?_); subst y; rotate_left; clear_value y)
    | (extract_lets +onlyGivenNames y; clear_value y)
    | with_reducible apply Keeps.ite
    | with_reducible apply modScheds_keeps
    | (with_reducible refine Keeps.via ?_ id; split)
    | (rename Keeps p r _ => hk; exact Keeps.of_eq hk rfl le_rfl le_rfl List.prefix_rfl rfl rfl rfl rfl rfl rfl rfl rfl
        fun x hx => by cases x <;> first | rfl | exact Part.Same.regs rfl | exact absurd (by assumption) hx)
    | with_reducible apply_assumption

theorem holdWrites_keeps (h : Keeps p r s) (n : Nat) (_ : p .memory := by assumption) (_ : p .heads := by assumption) (_ : p .welt := by assumption) (_ : p .outputs := by assumption) (_ : p (.regs .hp) := by assumption) :
    Keeps p r (State.holdWrites s n) := by
  unfold State.holdWrites
  repeat' first
    | with_reducible assumption
    | (extract_lets +onlyGivenNames y; refine Keeps.via (x := y) ?_ (fun _ => ?_); subst y; rotate_left; clear_value y)
    | (extract_lets +onlyGivenNames y; refine Keeps.via (x := y.2) ?_ (fun _ => ?_); subst y; rotate_left; clear_value y)
    | (extract_lets +onlyGivenNames y; refine Keeps.via (x := y.1) ?_ (fun _ => ?_); subst y; rotate_left; clear_value y)
    | (extract_lets +onlyGivenNames y; refine Keeps.viaFun (x := y) (fun _ => ?_) (fun _ => ?_); subst y; rotate_left; clear_value y)
    | (extract_lets +onlyGivenNames y; clear_value y)
    | with_reducible apply modSub_keeps
    | with_reducible apply modWh_keeps
    | with_reducible apply answer_keeps
    | with_reducible refine Keeps.foldl _ ?_ (fun _ _ _ => ?_)
    | exact rfl
    | exact State.Sorted.modMg rfl rfl
    | exact State.Sorted.modLe rfl rfl
    | exact id
    | with_reducible refine Keeps.foldlFst _ ?_ (fun _ _ _ => ?_)
    | with_reducible refine Keeps.foldlSnd _ ?_ (fun _ _ _ => ?_)
    | with_reducible apply_assumption

theorem skipCrossing_keeps (h : Keeps p r s) (rr : Nat) (_ : p .lamps := by assumption) (_ : p (.regs .le) := by assumption) :
    Keeps p r (State.skipCrossing s rr) := by
  unfold State.skipCrossing
  repeat' first
    | with_reducible assumption
    | with_reducible apply Keeps.ite
    | with_reducible apply skipFirst_keeps
    | with_reducible refine Keeps.foldl _ ?_ (fun _ _ _ => ?_)
    | (with_reducible refine Keeps.via ?_ id; split)
    | with_reducible apply_assumption

theorem enterSplit_keeps (h : Keeps p r s) (_ : p .memory := by assumption) (_ : p .waiting := by assumption) (_ : p .timebase := by assumption) (_ : p .schedule := by assumption) (_ : p .heads := by assumption) (_ : p .lamps := by assumption) (_ : p .welt := by assumption) (_ : p .outputs := by assumption) (_ : p .draws := by assumption) (_ : p (.regs .le) := by assumption) (_ : p (.regs .mi) := by assumption) (_ : p (.regs .dc) := by assumption) (_ : p (.regs .di) := by assumption) (_ : p (.regs .hp) := by assumption) (_ : p (.regs .wl) := by assumption) :
    Keeps p r (State.enterSplit s) := by
  unfold State.enterSplit
  repeat' first
    | with_reducible assumption
    | (show p (.regs _); assumption)
    | with_reducible apply splitOff_keeps
    | (extract_lets +onlyGivenNames y; refine Keeps.via (x := y) ?_ (fun _ => ?_); subst y; rotate_left; clear_value y)
    | (extract_lets +onlyGivenNames y; refine Keeps.via (x := y.1) ?_ (fun _ => ?_); subst y; rotate_left; clear_value y)
    | (extract_lets +onlyGivenNames y; clear_value y)
    | with_reducible apply Keeps.ite
    | with_reducible apply poisonReads_keeps
    | with_reducible apply holdWrites_keeps
    | with_reducible apply skipCrossing_keeps
    | with_reducible apply wr_keeps
    | with_reducible refine Keeps.foldl _ ?_ (fun _ _ _ => ?_)
    | (with_reducible refine Keeps.via ?_ id; split)
    | (rename Keeps p r _ => hk; exact Keeps.of_eq hk rfl le_rfl le_rfl List.prefix_rfl rfl rfl rfl rfl rfl rfl rfl rfl
        fun x hx => by cases x <;> first | rfl | exact Part.Same.regs rfl | exact absurd (by assumption) hx)
    | with_reducible refine Keeps.foldlFst _ ?_ (fun _ _ _ => ?_)
    | with_reducible apply_assumption

theorem weltDown_keeps (h : Keeps p r s) (cause : Nat) (by' : List Half) (_ : p .memory := by assumption) (_ : p .waiting := by assumption) (_ : p .timebase := by assumption) (_ : p .schedule := by assumption) (_ : p .heads := by assumption) (_ : p .lamps := by assumption) (_ : p .welt := by assumption) (_ : p .outputs := by assumption) (_ : p .draws := by assumption) (_ : p (.regs .le) := by assumption) (_ : p (.regs .mi) := by assumption) (_ : p (.regs .dc) := by assumption) (_ : p (.regs .di) := by assumption) (_ : p (.regs .hp) := by assumption) (_ : p (.regs .wl) := by assumption) :
    Keeps p r (State.weltDown s cause by') := by
  unfold State.weltDown
  repeat' first
    | with_reducible assumption
    | (show p (.regs _); assumption)
    | (extract_lets +onlyGivenNames y; refine Keeps.via (x := y) ?_ (fun _ => ?_); subst y; rotate_left; clear_value y)
    | (extract_lets +onlyGivenNames y; clear_value y)
    | with_reducible apply Keeps.ite
    | with_reducible apply bump_keeps
    | with_reducible apply modWl_keeps
    | with_reducible apply enterSplit_keeps
    | with_reducible apply raise_keeps
    | with_reducible refine Keeps.foldl _ ?_ (fun _ _ _ => ?_)
    | (with_reducible refine Keeps.via ?_ id; split)
    | with_reducible apply_assumption
    | exact Or.inr rfl
    | exact Or.inl (by assumption)

theorem stepChanged_keeps (h : Keeps p r s) (hh : Half) (old new : Nat) (_ : p .memory := by assumption) (_ : p (.regs .dc) := by assumption) :
    Keeps p r (State.stepChanged s hh old new) := by
  unfold State.stepChanged
  repeat' first
    | with_reducible assumption
    | (show p (.regs _); assumption)
    | (extract_lets +onlyGivenNames y; refine Keeps.via (x := y) ?_ (fun _ => ?_); subst y; rotate_left; clear_value y)
    | (extract_lets +onlyGivenNames y; clear_value y)
    | with_reducible apply Keeps.ite
    | with_reducible apply flag_keeps
    | with_reducible apply requestTs_keeps
    | with_reducible refine Keeps.foldl _ ?_ (fun _ _ _ => ?_)
    | (with_reducible refine Keeps.via ?_ id; split)
    | with_reducible apply_assumption

theorem halfLost_keeps (h : Keeps p r s) (hh : Half) (_ : p .memory := by assumption) (_ : p .roles := by assumption) (_ : p .audit := by assumption) (_ : p .waiting := by assumption) (_ : p .timebase := by assumption) (_ : p .schedule := by assumption) (_ : p .heads := by assumption) (_ : p .access := by assumption) (_ : p .lamps := by assumption) (_ : p .welt := by assumption) (_ : p .outputs := by assumption) (_ : p .draws := by assumption) (_ : p (.regs .mg) := by assumption) (_ : p (.regs .fs) := by assumption) (_ : p (.regs .le) := by assumption) (_ : p (.regs .mi) := by assumption) (_ : p (.regs .dc) := by assumption) (_ : p (.regs .di) := by assumption) (_ : p (.regs .hp) := by assumption) (_ : p (.regs .wl) := by assumption) :
    Keeps p r (State.halfLost s hh) := by
  unfold State.halfLost
  repeat' first
    | with_reducible assumption
    | (extract_lets +onlyGivenNames y; refine Keeps.via (x := y) ?_ (fun _ => ?_); subst y; rotate_left; clear_value y)
    | (extract_lets +onlyGivenNames y; clear_value y)
    | with_reducible apply modWh_keeps
    | with_reducible apply weltDown_keeps
    | with_reducible apply freezeCopies_keeps
    | with_reducible apply headsLost_keeps
    | with_reducible apply fenceEngine_keeps
    | with_reducible apply poisonReads_keeps
    | with_reducible apply fsIdle_keeps
    | with_reducible apply stopLamps_keeps
    | with_reducible apply stopServices_keeps
    | with_reducible refine Keeps.foldl _ ?_ (fun _ _ _ => ?_)
    | with_reducible apply_assumption

theorem vddqGone_keeps (h : Keeps p r s) (n : Nat) (_ : p .memory := by assumption) (_ : p .waiting := by assumption) (_ : p .schedule := by assumption) (_ : p .heads := by assumption) (_ : p .lamps := by assumption) (_ : p .outputs := by assumption) (_ : p .draws := by assumption) (_ : p (.regs .mi) := by assumption) (_ : p (.regs .dc) := by assumption) (_ : p (.regs .di) := by assumption) (_ : p (.regs .hp) := by assumption) :
    Keeps p r (State.vddqGone s n) := by
  unfold State.vddqGone
  repeat' first
    | with_reducible assumption
    | (show p (.regs _); assumption)
    | (extract_lets +onlyGivenNames y; refine Keeps.via (x := y) ?_ (fun _ => ?_); subst y; rotate_left; clear_value y)
    | (extract_lets +onlyGivenNames y; clear_value y)
    | with_reducible apply Keeps.ite
    | with_reducible apply modSub_keeps
    | with_reducible apply wr_keeps
    | with_reducible apply unlistRetired_keeps
    | with_reducible apply flushReads_keeps
    | with_reducible apply subMsg_keeps
    | (with_reducible refine Keeps.via ?_ id; split)
    | exact rfl
    | exact State.Sorted.modMg rfl rfl
    | exact State.Sorted.modLe rfl rfl
    | exact id
    | (dsimp only; split)
    | with_reducible apply_assumption

theorem vddqLost_keeps (h : Keeps p r s) (hh : Half) (_ : p .memory := by assumption) (_ : p .waiting := by assumption) (_ : p .schedule := by assumption) (_ : p .heads := by assumption) (_ : p .lamps := by assumption) (_ : p .outputs := by assumption) (_ : p .draws := by assumption) (_ : p (.regs .mi) := by assumption) (_ : p (.regs .dc) := by assumption) (_ : p (.regs .di) := by assumption) (_ : p (.regs .hp) := by assumption) :
    Keeps p r (State.vddqLost s hh) := by
  unfold State.vddqLost
  repeat' first
    | with_reducible assumption
    | with_reducible apply vddqGone_keeps
    | with_reducible apply stopServices_keeps
    | with_reducible refine Keeps.foldl _ ?_ (fun _ _ _ => ?_)

theorem pfwStops_keeps (h : Keeps p r s) (_ : p .memory := by assumption) (_ : p (.regs .mi) := by assumption) (_ : p (.regs .di) := by assumption) :
    Keeps p r (State.pfwStops s) := by
  unfold State.pfwStops
  repeat' first
    | with_reducible assumption
    | with_reducible apply endScrub_keeps
    | with_reducible apply stopRebuild_keeps

end Sys2Proof.Machine
end

