-- ==== Sys2Proof/Laws/KeepsMemory.lean ====
section
/-! SUPPORT. What every function keeps (Sys2Proof/Laws/Keeps.lean), carried through admission, CXL.mem, DRAM, interface training and integrity. -/
set_option Elab.async false
set_option linter.unusedTactic false
set_option linter.unreachableTactic false
set_option linter.unusedVariables false
namespace Sys2Proof.Machine

variable {p : Part → Prop} {r s : State}

theorem showVerdict_keeps (h : Keeps p r s) (n : Nat) (v : Verdict) (_ : p (.regs .fs) := by assumption) :
    Keeps p r (State.showVerdict s n v) := by
  unfold State.showVerdict
  repeat' first
    | with_reducible assumption
    | (show p (.regs _); assumption)
    | (extract_lets +onlyGivenNames y; refine Keeps.via (x := y) ?_ (fun _ => ?_); subst y; rotate_left; clear_value y)
    | (extract_lets +onlyGivenNames y; refine Keeps.via (x := y.2) ?_ (fun _ => ?_); subst y; rotate_left; clear_value y)
    | (extract_lets +onlyGivenNames y; refine Keeps.via (x := y.1) ?_ (fun _ => ?_); subst y; rotate_left; clear_value y)
    | (extract_lets +onlyGivenNames y; clear_value y)
    | with_reducible apply wr_keeps
    | with_reducible apply flag_keeps

theorem verdictMsgs_keeps (h : Keeps p r s) (n : Nat) (v : Verdict) (_ : p .waiting := by assumption) :
    Keeps p r (State.verdictMsgs s n v) := by
  unfold State.verdictMsgs
  repeat' first
    | with_reducible assumption
    | (extract_lets +onlyGivenNames y; refine Keeps.via (x := y) ?_ (fun _ => ?_); subst y; rotate_left; clear_value y)
    | (extract_lets +onlyGivenNames y; refine Keeps.via (x := y.2) ?_ (fun _ => ?_); subst y; rotate_left; clear_value y)
    | (extract_lets +onlyGivenNames y; refine Keeps.via (x := y.1) ?_ (fun _ => ?_); subst y; rotate_left; clear_value y)
    | (extract_lets +onlyGivenNames y; clear_value y)
    | with_reducible apply Keeps.ite
    | with_reducible apply raiseL_keeps
    | (with_reducible refine Keeps.via ?_ id; split)

theorem admissionEnd_keeps (h : Keeps p r s) (n : Nat) (_ : p .audit := by assumption) (_ : p .waiting := by assumption) (_ : p .schedule := by assumption) (_ : p .lasts := by assumption) (_ : p (.regs .mg) := by assumption) (_ : p (.regs .fs) := by assumption) : Keeps p r (State.admissionEnd s n) := by
  unfold State.admissionEnd
  extract_lets v s0 s1 ok s2 s3 s4 s5
  have h0 : Keeps p r s0 := verdictMsgs_keeps (showVerdict_keeps h _ _) _ _
  have h1 : Keeps p r s1 := by
    clear_value s0
    show Keeps p r (match s0.admBy with | some q => _ | none => _)
    cases s0.admBy with
    | none => exact h0
    | some q => exact audit_keeps h0 _ _ _ _ _ _ _
  clear_value s1
  have h2 : Keeps p r s2 := by
    refine Keeps.ite h1 ?_
    exact Keeps.of_eq h1 rfl le_rfl le_rfl List.prefix_rfl rfl rfl rfl rfl rfl rfl rfl rfl fun x hx => by cases x <;> first | rfl | exact Part.Same.regs rfl | exact absurd (by assumption) hx
  have h3 : Keeps p r s3 := Keeps.of_eq h2 rfl le_rfl le_rfl List.prefix_rfl rfl rfl rfl rfl rfl rfl rfl rfl fun x hx => by cases x <;> first | rfl | exact Part.Same.regs rfl | exact absurd (by assumption) hx
  clear_value s3
  have h4 : Keeps p r s4 := by
    refine Keeps.ite ?_ h3
    cases v.map with
    | none => exact h3
    | some t => exact modScheds_keeps h3 _
  clear_value s4
  have h5 : Keeps p r s5 := Keeps.ite (modScheds_keeps h4 _) h4
  clear_value s5
  refine Keeps.ite ?_ (Keeps.ite h3 (Keeps.ite (modSched_keeps h3 _ _) (modSched_keeps h3 _ _)))
  split
  · exact Keeps.of_eq h5 rfl le_rfl le_rfl List.prefix_rfl rfl rfl rfl rfl rfl rfl rfl rfl fun x hx => by cases x <;> first | rfl | exact Part.Same.regs rfl | exact absurd (by assumption) hx
  · exact Keeps.of_eq h5 rfl le_rfl le_rfl List.prefix_rfl rfl rfl rfl rfl rfl rfl rfl rfl fun x hx => by cases x <;> first | rfl | exact Part.Same.regs rfl | exact absurd (by assumption) hx

theorem admissionDone_kept (h : Keeps p r s) (_ : p .audit := by assumption) (_ : p .waiting := by assumption) (_ : p .schedule := by assumption) (_ : p .lasts := by assumption) (_ : p (.regs .mg) := by assumption) (_ : p (.regs .fs) := by assumption) :
    Keeps p r (admissionDone s) := by
  unfold admissionDone
  repeat' first
    | with_reducible assumption
    | with_reducible apply admissionEnd_keeps
    | (with_reducible refine Keeps.via ?_ id; split)

theorem admitStart_keeps (h : Keeps p r s) (n : Nat) (_ : p .lasts := by assumption) :
    Keeps p r (State.admitStart s n) := by
  unfold State.admitStart
  repeat' first
    | with_reducible assumption
    | with_reducible apply Keeps.ite
    | (with_reducible refine Keeps.via ?_ id; split)
    | (rename Keeps p r _ => hk; exact Keeps.of_eq hk rfl le_rfl le_rfl List.prefix_rfl rfl rfl rfl rfl rfl rfl rfl rfl
        fun x hx => by cases x <;> first | rfl | exact Part.Same.regs rfl | exact absurd (by assumption) hx)

theorem takeRequest_keeps (h : Keeps p r s) (hh kind dpa : Nat) (strict : Option Nat) (data : LineData) (mask : BitVec 64) (poison : Bool) (_ : p .heads := by assumption) (_ : p (.regs .hp) := by assumption) :
    Keeps p r (State.takeRequest s hh kind dpa strict data mask poison).2 := by
  unfold State.takeRequest
  repeat' first
    | with_reducible assumption
    | (extract_lets +onlyGivenNames y; refine Keeps.via (x := y) ?_ (fun _ => ?_); subst y; rotate_left; clear_value y)
    | (extract_lets +onlyGivenNames y; clear_value y)
    | with_reducible apply noteFlight_keeps
    | with_reducible apply modHead_keeps
    | exact Or.inr fun _ => rfl
    | exact Or.inl (by assumption)
    | exact Or.inr fun _ => by dsimp only; split <;> rfl
    | with_reducible apply_assumption
    | assumption
    | exact fun h => (List.length_filter_le _ _).trans h

theorem refusedAnswer_keeps (h : Keeps p r s) (hh kind : Nat) (strict : Option Nat) (_ : p .heads := by assumption) (_ : p .outputs := by assumption) (_ : p .draws := by assumption) (_ : p (.regs .hp) := by assumption) :
    Keeps p r (State.refusedAnswer s hh kind strict) := by
  unfold State.refusedAnswer
  repeat' first
    | with_reducible assumption
    | (extract_lets +onlyGivenNames y; refine Keeps.via (x := y) ?_ (fun _ => ?_); subst y; rotate_left; clear_value y)
    | (extract_lets +onlyGivenNames y; clear_value y)
    | with_reducible apply Keeps.ite
    | with_reducible apply takeRequest_keeps
    | with_reducible apply poisonResp_keeps
    | with_reducible apply answer_keeps
    | (with_reducible refine Keeps.via ?_ id; split)
    | with_reducible refine Keeps.ofSnd (by assumption) ?_
    | with_reducible refine Keeps.ofFst (by assumption) ?_
    | assumption

theorem stalePtl_keeps (h : Keeps p r s) (dpa : Nat) (_ : p .heads := by assumption) :
    Keeps p r (State.stalePtl s dpa) := by
  unfold State.stalePtl
  repeat' first
    | with_reducible assumption
    | with_reducible apply Keeps.ite
    | with_reducible apply modHead_keeps
    | with_reducible refine Keeps.foldl _ ?_ (fun _ _ _ => ?_)
    | (with_reducible refine Keeps.via ?_ id; split)
    | exact Or.inr fun _ => rfl
    | exact Or.inl (by assumption)
    | exact Or.inr fun _ => by dsimp only; split <;> rfl
    | with_reducible apply_assumption

theorem serveLine_keeps (h : Keeps p r s) (hh kind dpa i : Nat) (rr : Region) (n sa : Nat) (data : LineData) (poison : Bool) (mask : BitVec 64) (_ : p .memory := by assumption) (_ : p .waiting := by assumption) (_ : p .schedule := by assumption) (_ : p .heads := by assumption) (_ : p .lamps := by assumption) (_ : p .outputs := by assumption) (_ : p .draws := by assumption) (_ : p (.regs .mi) := by assumption) (_ : p (.regs .dc) := by assumption) (_ : p (.regs .di) := by assumption) (_ : p (.regs .hp) := by assumption) :
    Keeps p r (State.serveLine s hh kind dpa i rr n sa data poison mask) := by
  unfold State.serveLine
  repeat' first
    | with_reducible assumption
    | (extract_lets +onlyGivenNames y; refine Keeps.via (x := y) ?_ (fun _ => ?_); subst y; rotate_left; clear_value y)
    | (extract_lets +onlyGivenNames y; clear_value y)
    | with_reducible apply Keeps.ite
    | with_reducible apply takeRequest_keeps
    | with_reducible apply stalePtl_keeps
    | with_reducible apply hostWrite_keeps
    | with_reducible apply readAt_keeps
    | (with_reducible refine Keeps.via ?_ id; split)
    | with_reducible refine Keeps.ofSnd (by assumption) ?_
    | with_reducible refine Keeps.ofFst (by assumption) ?_
    | assumption

theorem serve_keeps (h : Keeps p r s) (hh kind hpa : Nat) (data : LineData) (poison : Bool) (mask : BitVec 64) (_ : p .memory := by assumption) (_ : p .waiting := by assumption) (_ : p .schedule := by assumption) (_ : p .heads := by assumption) (_ : p .lamps := by assumption) (_ : p .outputs := by assumption) (_ : p .draws := by assumption) (_ : p (.regs .am) := by assumption) (_ : p (.regs .mi) := by assumption) (_ : p (.regs .dc) := by assumption) (_ : p (.regs .di) := by assumption) (_ : p (.regs .hp) := by assumption) :
    Keeps p r (State.serve s hh kind hpa data poison mask) := by
  unfold State.serve
  repeat' first
    | with_reducible assumption
    | (show p (.regs _); assumption)
    | (extract_lets +onlyGivenNames y; refine Keeps.via (x := y) ?_ (fun _ => ?_); subst y; rotate_left; clear_value y)
    | (extract_lets +onlyGivenNames y; refine Keeps.via (x := y.2) ?_ (fun _ => ?_); subst y; rotate_left; clear_value y)
    | (extract_lets +onlyGivenNames y; refine Keeps.via (x := y.1) ?_ (fun _ => ?_); subst y; rotate_left; clear_value y)
    | (extract_lets +onlyGivenNames y; clear_value y)
    | with_reducible apply Keeps.ite
    | with_reducible apply refusedAnswer_keeps
    | with_reducible apply refusedMsg_keeps
    | with_reducible apply bump_keeps
    | with_reducible apply modHead_keeps
    | with_reducible apply fillingNoted_keeps
    | with_reducible apply retiredMsg_keeps
    | with_reducible apply serveLine_keeps
    | (with_reducible refine Keeps.via ?_ id; split)
    | exact Or.inr fun _ => rfl
    | exact Or.inl (by assumption)
    | exact Or.inr fun _ => by dsimp only; split <;> rfl
    | with_reducible apply_assumption

theorem serveAny_keeps (h : Keeps p r s) (hh : Nat) (q : HeldReq) (_ : p .memory := by assumption) (_ : p .waiting := by assumption) (_ : p .schedule := by assumption) (_ : p .heads := by assumption) (_ : p .lamps := by assumption) (_ : p .outputs := by assumption) (_ : p .draws := by assumption) (_ : p (.regs .am) := by assumption) (_ : p (.regs .mi) := by assumption) (_ : p (.regs .dc) := by assumption) (_ : p (.regs .di) := by assumption) (_ : p (.regs .hp) := by assumption) :
    Keeps p r (State.serveAny s hh q) := by
  unfold State.serveAny
  repeat' first
    | with_reducible assumption
    | (extract_lets +onlyGivenNames y; refine Keeps.via (x := y) ?_ (fun _ => ?_); subst y; rotate_left; clear_value y)
    | (extract_lets +onlyGivenNames y; clear_value y)
    | with_reducible apply Keeps.ite
    | with_reducible apply takeRequest_keeps
    | with_reducible apply answer_keeps
    | with_reducible apply serve_keeps
    | (with_reducible refine Keeps.via ?_ id; split)
    | with_reducible refine Keeps.ofSnd (by assumption) ?_
    | with_reducible refine Keeps.ofFst (by assumption) ?_
    | assumption

theorem receive_keeps (h : Keeps p r s) (hh : Nat) (q : HeldReq) (_ : p .memory := by assumption) (_ : p .waiting := by assumption) (_ : p .schedule := by assumption) (_ : p .heads := by assumption) (_ : p .lamps := by assumption) (_ : p .outputs := by assumption) (_ : p .draws := by assumption) (_ : p (.regs .am) := by assumption) (_ : p (.regs .mi) := by assumption) (_ : p (.regs .dc) := by assumption) (_ : p (.regs .di) := by assumption) (_ : p (.regs .hp) := by assumption) :
    Keeps p r (State.receive s hh q) := by
  unfold State.receive
  repeat' first
    | with_reducible assumption
    | with_reducible apply Keeps.ite
    | with_reducible apply modHead_keeps
    | with_reducible apply serveAny_keeps
    | (with_reducible refine Keeps.via ?_ id; split)
    | exact Or.inr fun _ => rfl
    | exact Or.inl (by assumption)
    | exact Or.inr fun _ => by dsimp only; split <;> rfl
    | with_reducible apply_assumption

theorem serveHeld_keeps (h : Keeps p r s) (hh : Nat) (_ : p .memory := by assumption) (_ : p .waiting := by assumption) (_ : p .schedule := by assumption) (_ : p .heads := by assumption) (_ : p .lamps := by assumption) (_ : p .outputs := by assumption) (_ : p .draws := by assumption) (_ : p (.regs .am) := by assumption) (_ : p (.regs .mi) := by assumption) (_ : p (.regs .dc) := by assumption) (_ : p (.regs .di) := by assumption) (_ : p (.regs .hp) := by assumption) :
    Keeps p r (State.serveHeld s hh) := by
  unfold State.serveHeld
  repeat' first
    | with_reducible assumption
    | with_reducible apply Keeps.ite
    | with_reducible apply serveAny_keeps
    | with_reducible apply modHead_keeps
    | with_reducible refine Keeps.foldl _ ?_ (fun _ _ _ => ?_)
    | (with_reducible refine Keeps.via ?_ id; split)
    | exact Or.inr fun _ => rfl
    | exact Or.inl (by assumption)
    | exact Or.inr fun _ => by dsimp only; split <;> rfl
    | with_reducible refine Keeps.ofSnd (by assumption) ?_
    | with_reducible refine Keeps.ofFst (by assumption) ?_
    | with_reducible apply_assumption

theorem serveAllHeld_keeps (h : Keeps p r s) (_ : p .memory := by assumption) (_ : p .waiting := by assumption) (_ : p .schedule := by assumption) (_ : p .heads := by assumption) (_ : p .lamps := by assumption) (_ : p .outputs := by assumption) (_ : p .draws := by assumption) (_ : p (.regs .am) := by assumption) (_ : p (.regs .mi) := by assumption) (_ : p (.regs .dc) := by assumption) (_ : p (.regs .di) := by assumption) (_ : p (.regs .hp) := by assumption) :
    Keeps p r (State.serveAllHeld s) := by
  unfold State.serveAllHeld
  repeat' first
    | with_reducible assumption
    | with_reducible apply serveHeld_keeps
    | with_reducible refine Keeps.foldl _ ?_ (fun _ _ _ => ?_)

theorem takeFences_keeps (h : Keeps p r s) (hh : Nat) (_ : p .heads := by assumption) :
    Keeps p r (State.takeFences s hh) := by
  unfold State.takeFences
  repeat' first
    | with_reducible assumption
    | with_reducible apply Keeps.ite
    | with_reducible apply modHead_keeps
    | (with_reducible refine Keeps.via ?_ id; split)
    | exact Or.inr fun _ => rfl
    | exact Or.inl (by assumption)
    | exact Or.inr fun _ => by dsimp only; split <;> rfl
    | with_reducible apply_assumption

theorem returnCredits_keeps (h : Keeps p r s) (hh : Half) (_ : p .memory := by assumption) (_ : p .waiting := by assumption) (_ : p .schedule := by assumption) (_ : p .heads := by assumption) (_ : p .lamps := by assumption) (_ : p .outputs := by assumption) (_ : p .draws := by assumption) (_ : p (.regs .am) := by assumption) (_ : p (.regs .mi) := by assumption) (_ : p (.regs .dc) := by assumption) (_ : p (.regs .di) := by assumption) (_ : p (.regs .hp) := by assumption) :
    Keeps p r (State.returnCredits s hh) := by
  unfold State.returnCredits
  repeat' first
    | with_reducible assumption
    | (extract_lets +onlyGivenNames y; refine Keeps.via (x := y) ?_ (fun _ => ?_); subst y; rotate_left; clear_value y)
    | (extract_lets +onlyGivenNames y; clear_value y)
    | with_reducible apply modMh_keeps
    | with_reducible apply copiesOn_keeps
    | with_reducible apply takeFences_keeps
    | with_reducible apply serveAllHeld_keeps
    | with_reducible apply noteCredits_keeps
    | with_reducible refine Keeps.foldl _ ?_ (fun _ _ _ => ?_)
    | with_reducible apply_assumption

theorem bulkVisit_keeps (h : Keeps p r s) (n g : Nat) (_ : p .memory := by assumption) (_ : p (.regs .dc) := by assumption) :
    Keeps p r (State.bulkVisit s n g) := by
  unfold State.bulkVisit
  repeat' first
    | with_reducible assumption
    | with_reducible apply modSub_keeps
    | with_reducible apply activate_keeps
    | exact rfl
    | exact Sub.bookBulk_sealKey _ _ _ _
    | exact State.Sorted.modMg rfl rfl
    | exact State.Sorted.modLe rfl rfl
    | exact id
    | with_reducible apply_assumption

theorem readVisit_keeps (h : Keeps p r s) (n : Nat) (e : RdEntry) (bulk : Bool) (_ : p .memory := by assumption) (_ : p (.regs .dc) := by assumption) :
    Keeps p r (State.readVisit s n e bulk) := by
  unfold State.readVisit
  repeat' first
    | with_reducible assumption
    | (show p (.regs _); assumption)
    | (extract_lets +onlyGivenNames y; refine Keeps.via (x := y) ?_ (fun _ => ?_); subst y; rotate_left; clear_value y)
    | (extract_lets +onlyGivenNames y; clear_value y)
    | with_reducible apply Keeps.ite
    | with_reducible apply activate_keeps
    | with_reducible apply peak_keeps
    | with_reducible apply modSub_keeps
    | (with_reducible refine Keeps.via ?_ id; split)
    | exact rfl
    | exact State.Sorted.modMg rfl rfl
    | exact State.Sorted.modLe rfl rfl
    | exact id
    | (dsimp only; split)
    | with_reducible apply_assumption

theorem replayVisit_keeps (h : Keeps p r s) (n : Nat) (_ : p .cells := by assumption) (_ : p .memory := by assumption) (_ : p (.regs .dc) := by assumption) :
    Keeps p r (State.replayVisit s n) := by
  unfold State.replayVisit
  repeat' first
    | with_reducible assumption
    | (extract_lets +onlyGivenNames y; refine Keeps.via (x := y) ?_ (fun _ => ?_); subst y; rotate_left; clear_value y)
    | (extract_lets +onlyGivenNames y; clear_value y)
    | with_reducible apply Keeps.ite
    | with_reducible apply storeLine_keeps
    | with_reducible apply activate_keeps
    | with_reducible apply modSub_keeps
    | (with_reducible refine Keeps.via ?_ id; split)
    | exact rfl
    | exact State.Sorted.modMg rfl rfl
    | exact State.Sorted.modLe rfl rfl
    | exact id
    | (dsimp only; split)
    | with_reducible apply_assumption

theorem issueVisit_keeps (h : Keeps p r s) (n : Nat) (v : VisitPick) (_ : p .cells := by assumption) (_ : p .memory := by assumption) (_ : p (.regs .dc) := by assumption) : Keeps p r (State.issueVisit s n v) := by
  cases v with
  | frame i =>
    unfold State.issueVisit
    dsimp only
    split
    · exact readVisit_keeps (modSub_keeps h n _ rfl) _ _ _
    · exact h
  | bulk i =>
    unfold State.issueVisit
    dsimp only
    split
    · exact readVisit_keeps (modSub_keeps h n _ rfl) _ _ _
    · exact h
  | write i =>
    unfold State.issueVisit
    dsimp only
    split
    · exact writeVisit_keeps (modWrites_keeps h n _ rfl) _ _
    · exact h


theorem visit_kept (h : Keeps p r s) (n : Fin 16) (_ : p .cells := by assumption) (_ : p .memory := by assumption) (_ : p .waiting := by assumption) (_ : p .schedule := by assumption) (_ : p .heads := by assumption) (_ : p .lamps := by assumption) (_ : p .outputs := by assumption) (_ : p .draws := by assumption) (_ : p (.regs .am) := by assumption) (_ : p (.regs .mi) := by assumption) (_ : p (.regs .dc) := by assumption) (_ : p (.regs .di) := by assumption) (_ : p (.regs .hp) := by assumption) :
    Keeps p r (visit n s) := by
  unfold visit
  repeat' first
    | with_reducible assumption
    | (extract_lets +onlyGivenNames y; refine Keeps.via (x := y) ?_ (fun _ => ?_); subst y; rotate_left; clear_value y)
    | (extract_lets +onlyGivenNames y; clear_value y)
    | with_reducible apply Keeps.ite
    | with_reducible apply settle_keeps
    | with_reducible apply replayVisit_keeps
    | with_reducible apply modSub_keeps
    | with_reducible apply issueVisit_keeps
    | with_reducible apply copiesOn_keeps
    | with_reducible apply serveAllHeld_keeps
    | (with_reducible refine Keeps.via ?_ id; split)
    | exact rfl
    | exact State.Sorted.modMg rfl rfl
    | exact State.Sorted.modLe rfl rfl
    | exact id
    | (dsimp only; split)
    | with_reducible apply_assumption

theorem dramReadReturn_kept (h : Keeps p r s) (n : Fin 16) (err : SymErr) (gates : List (Fin 10 × Bool)) (_ : p .cells := by assumption) (_ : p .memory := by assumption) (_ : p .waiting := by assumption) (_ : p .schedule := by assumption) (_ : p .heads := by assumption) (_ : p .lamps := by assumption) (_ : p .outputs := by assumption) (_ : p .draws := by assumption) (_ : p (.regs .am) := by assumption) (_ : p (.regs .mi) := by assumption) (_ : p (.regs .dc) := by assumption) (_ : p (.regs .di) := by assumption) (_ : p (.regs .hp) := by assumption) :
    Keeps p r (dramReadReturn n err gates s) := by
  unfold dramReadReturn
  repeat' first
    | with_reducible assumption
    | (extract_lets +onlyGivenNames y; refine Keeps.via (x := y) ?_ (fun _ => ?_); subst y; rotate_left; clear_value y)
    | (extract_lets +onlyGivenNames y; refine Keeps.via (x := y.2) ?_ (fun _ => ?_); subst y; rotate_left; clear_value y)
    | (extract_lets +onlyGivenNames y; refine Keeps.via (x := y.1) ?_ (fun _ => ?_); subst y; rotate_left; clear_value y)
    | (extract_lets +onlyGivenNames y; clear_value y)
    | with_reducible apply Keeps.ite
    | with_reducible apply disturb_keeps
    | with_reducible apply modSub_keeps
    | with_reducible apply setDev_keeps
    | with_reducible apply demandOutcome_keeps
    | with_reducible apply copiesOn_keeps
    | with_reducible apply serveAllHeld_keeps
    | with_reducible apply deliver_keeps
    | with_reducible refine Keeps.foldl _ ?_ (fun _ _ _ => ?_)
    | (with_reducible refine Keeps.via ?_ id; split)
    | exact rfl
    | exact State.Sorted.modMg rfl rfl
    | exact State.Sorted.modLe rfl rfl
    | exact id
    | with_reducible refine Keeps.foldlFst _ ?_ (fun _ _ _ => ?_)
    | with_reducible refine Keeps.foldlSnd _ ?_ (fun _ _ _ => ?_)
    | (dsimp only; split)
    | with_reducible apply_assumption

theorem bulkAgePromotion_kept (h : Keeps p r s) (n : Fin 16) (_ : p .memory := by assumption) (_ : p (.regs .dc) := by assumption) :
    Keeps p r (bulkAgePromotion n s) := by
  unfold bulkAgePromotion
  repeat' first
    | with_reducible assumption
    | (show p (.regs _); assumption)
    | with_reducible apply Keeps.ite
    | with_reducible apply bump_keeps
    | with_reducible apply modSub_keeps
    | (with_reducible refine Keeps.via ?_ id; split)
    | exact rfl
    | exact State.Sorted.modMg rfl rfl
    | exact State.Sorted.modLe rfl rfl
    | exact id
    | (dsimp only; split)
    | with_reducible apply_assumption

theorem refreshRank_keeps (h : Keeps p r s) (n rr : Nat) (_ : p .memory := by assumption) (_ : p (.regs .dc) := by assumption) :
    Keeps p r (State.refreshRank s n rr) := by
  unfold State.refreshRank
  repeat' first
    | with_reducible assumption
    | (show p (.regs _); assumption)
    | (refine (foldSub_sealKey ?_ _ _).trans ?_; exact fun _ _ => rfl; exact rfl)
    | (extract_lets +onlyGivenNames y; refine Keeps.via (x := y) ?_ (fun _ => ?_); subst y; rotate_left; clear_value y)
    | (extract_lets +onlyGivenNames y; clear_value y)
    | with_reducible apply Keeps.ite
    | with_reducible apply modSub_keeps
    | with_reducible apply bump_keeps
    | with_reducible apply flag_keeps
    | with_reducible refine Keeps.foldl _ ?_ (fun _ _ _ => ?_)
    | (with_reducible refine Keeps.via ?_ id; split)
    | exact rfl
    | exact State.Sorted.modMg rfl rfl
    | exact State.Sorted.modLe rfl rfl
    | exact id
    | (dsimp only; split)
    | with_reducible apply_assumption

theorem refresh_kept (h : Keeps p r s) (n : Fin 16) (rank : Fin 2) (_ : p .memory := by assumption) (_ : p (.regs .dc) := by assumption) :
    Keeps p r (refresh n rank s) := by
  unfold refresh
  repeat' first
    | with_reducible assumption
    | with_reducible apply Keeps.ite
    | with_reducible apply refreshRank_keeps
    | (with_reducible refine Keeps.via ?_ id; split)

theorem refreshKeeper_kept (h : Keeps p r s) (n : Fin 16) (rank : Fin 2) (pathFailed : Bool) (_ : p .memory := by assumption) (_ : p (.regs .dc) := by assumption) :
    Keeps p r (refreshKeeper n rank pathFailed s) := by
  unfold refreshKeeper
  repeat' first
    | with_reducible assumption
    | (show p (.regs _); assumption)
    | (extract_lets +onlyGivenNames y; refine Keeps.via (x := y) ?_ (fun _ => ?_); subst y; rotate_left; clear_value y)
    | (extract_lets +onlyGivenNames y; clear_value y)
    | with_reducible apply Keeps.ite
    | with_reducible apply modSub_keeps
    | with_reducible apply bump_keeps
    | with_reducible apply refreshRank_keeps
    | (with_reducible refine Keeps.via ?_ id; split)
    | exact rfl
    | exact State.Sorted.modMg rfl rfl
    | exact State.Sorted.modLe rfl rfl
    | exact id
    | (dsimp only; split)
    | with_reducible apply_assumption

theorem mr4Poll_kept (h : Keeps p r s) (n : Fin 16) (codes : List (Fin 8)) (aboveRated : Bool) (_ : p .memory := by assumption) (_ : p .waiting := by assumption) (_ : p (.regs .dc) := by assumption) : Keeps p r (mr4Poll n codes aboveRated s) := by
  unfold mr4Poll
  refine Keeps.ite h ?_
  extract_lets top s1 s2
  have h2 : Keeps p r s2 := modSub_keeps (wr_keeps h _ _) _ _ (by split <;> rfl)
  exact Keeps.ite (subMsg_keeps h2 _ _ _ _ _ _) h2

theorem alertWindowExpiry_kept (h : Keeps p r s) (n : Fin 16) (_ : p .memory := by assumption) :
    Keeps p r (alertWindowExpiry n s) := by
  unfold alertWindowExpiry
  repeat' first
    | with_reducible assumption
    | (extract_lets +onlyGivenNames y; refine Keeps.via (x := y) ?_ (fun _ => ?_); subst y; rotate_left; clear_value y)
    | (extract_lets +onlyGivenNames y; clear_value y)
    | with_reducible apply Keeps.ite
    | with_reducible apply modSub_keeps
    | (with_reducible refine Keeps.via ?_ id; split)
    | exact rfl
    | exact State.Sorted.modMg rfl rfl
    | exact State.Sorted.modLe rfl rfl
    | exact id
    | (dsimp only; split)
    | with_reducible apply_assumption

theorem enterVerify_keeps (h : Keeps p r s) (n : Nat) (_ : p .memory := by assumption) (_ : p .waiting := by assumption) (_ : p (.regs .dc) := by assumption) (_ : p (.regs .di) := by assumption) :
    Keeps p r (State.enterVerify s n) := by
  unfold State.enterVerify
  repeat' first
    | with_reducible assumption
    | (show p (.regs _); assumption)
    | (extract_lets +onlyGivenNames y; refine Keeps.via (x := y) ?_ (fun _ => ?_); subst y; rotate_left; clear_value y)
    | (extract_lets +onlyGivenNames y; clear_value y)
    | with_reducible apply wr_keeps
    | with_reducible apply modSub_keeps
    | with_reducible apply askStep_keeps
    | with_reducible apply subMsg_keeps
    | exact rfl
    | exact State.Sorted.modMg rfl rfl
    | exact State.Sorted.modLe rfl rfl
    | exact id
    | with_reducible apply_assumption

theorem writeCrcAlert_kept (h : Keeps p r s) (n : Fin 16) (_ : p .memory := by assumption) (_ : p .waiting := by assumption) (_ : p (.regs .dc) := by assumption) (_ : p (.regs .di) := by assumption) :
    Keeps p r (writeCrcAlert n s) := by
  unfold writeCrcAlert
  repeat' first
    | with_reducible assumption
    | (show p (.regs _); assumption)
    | (extract_lets +onlyGivenNames y; refine Keeps.via (x := y) ?_ (fun _ => ?_); subst y; rotate_left; clear_value y)
    | (extract_lets +onlyGivenNames y; clear_value y)
    | with_reducible apply Keeps.ite
    | with_reducible apply bump_keeps
    | with_reducible apply lineMsg_keeps
    | with_reducible apply enterVerify_keeps
    | with_reducible apply modSub_keeps
    | (with_reducible refine Keeps.via ?_ id; split)
    | exact rfl
    | exact State.Sorted.modMg rfl rfl
    | exact State.Sorted.modLe rfl rfl
    | exact id
    | (dsimp only; split)
    | with_reducible apply_assumption

theorem alertNRelease_kept (h : Keeps p r s) (n : Fin 16) (_ : p .memory := by assumption) (_ : p (.regs .dc) := by assumption) :
    Keeps p r (alertNRelease n s) := by
  unfold alertNRelease
  repeat' first
    | with_reducible assumption
    | (show p (.regs _); assumption)
    | with_reducible apply Keeps.ite
    | with_reducible apply bump_keeps
    | with_reducible apply modSub_keeps
    | (with_reducible refine Keeps.via ?_ id; split)
    | exact rfl
    | exact State.Sorted.modMg rfl rfl
    | exact State.Sorted.modLe rfl rfl
    | exact id
    | (dsimp only; split)
    | with_reducible apply_assumption

theorem verifyReadback_kept (h : Keeps p r s) (n : Fin 16) (err : SymErr) (_ : p .cells := by assumption) (_ : p .memory := by assumption) (_ : p .waiting := by assumption) (_ : p (.regs .dc) := by assumption) : Keeps p r (verifyReadback n err s) := by
  unfold verifyReadback
  split
  · split
    · exact h
    extract_lets a done again
    have ha : Keeps p r a := disturb_keeps (bulkVisit_keeps h _ _) _ _ _
    have hd : Keeps p r done := modSub_keeps ha n.val _ rfl
    have hg : ∀ c : Burst, Keeps p r (again done c) := fun c => burst_keeps (activate_keeps hd _ _) _ _
    clear_value again done a
    split
    · exact hd
    · split
      · exact hd
      · exact hd
      · exact Keeps.ite (hg _) hd
      · split
        · exact hg _
        · exact lineMsg_keeps (bump_keeps (hg _) _ _) _ _ _ _ _ _ _
        · exact hd
  · exact h

theorem dcCfgWrite_keeps (h : Keeps p r s) (n oldReq : Nat) (_ : p .memory := by assumption) (_ : p .heads := by assumption) (_ : p .lamps := by assumption) (_ : p (.regs .le) := by assumption) (_ : p (.regs .dc) := by assumption) :
    Keeps p r (State.dcCfgWrite s n oldReq) := by
  unfold State.dcCfgWrite
  repeat' first
    | with_reducible assumption
    | (show p (.regs _); assumption)
    | (extract_lets +onlyGivenNames y; refine Keeps.via (x := y) ?_ (fun _ => ?_); subst y; rotate_left; clear_value y)
    | (extract_lets +onlyGivenNames y; clear_value y)
    | with_reducible apply Keeps.ite
    | with_reducible apply endSleep_keeps
    | with_reducible apply wr_keeps
    | with_reducible apply requestTs_keeps
    | (with_reducible refine Keeps.via ?_ id; split)

theorem tsReqWrite_kept (h : Keeps p r s) (pp : Path) (n : Fin 16) (v : Word) (_ : p .memory := by assumption) (_ : p .audit := by assumption) (_ : p .waiting := by assumption) (_ : p .heads := by assumption) (_ : p .access := by assumption) (_ : p .lamps := by assumption) (_ : p (.regs .mg) := by assumption) (_ : p (.regs .le) := by assumption) (_ : p (.regs .dc) := by assumption) :
    Keeps p r (tsReqWrite pp n v s) := by
  unfold tsReqWrite
  repeat' first
    | with_reducible assumption
    | exact blockOf_is (blockOf_fld _) (by assumption)
    | exact blockOf_is (c := .mg) (blockOf_page (show _ = 0 by omega)) (by assumption)
    | exact blockOf_is (c := .le) (blockOf_page (show _ = 7 by omega)) (by assumption)
    | exact blockOf_is (c := .dc) (blockOf_page (show _ = 16 by omega)) (by assumption)
    | (extract_lets +onlyGivenNames y; refine Keeps.via (x := y) ?_ (fun _ => ?_); subst y; rotate_left; clear_value y)
    | (extract_lets +onlyGivenNames y; clear_value y)
    | with_reducible apply gatedWrite_keeps
    | with_reducible apply dcCfgWrite_keeps
    | with_reducible refine fun _ _ => ?_
    | with_reducible apply_assumption

theorem tsSwitch_kept (h : Keeps p r s) (n : Fin 16) (_ : p .memory := by assumption) (_ : p (.regs .ck) := by assumption) (_ : p (.regs .dc) := by assumption) (_ : p (.regs .di) := by assumption) :
    Keeps p r (tsSwitch n s) := by
  unfold tsSwitch
  repeat' first
    | with_reducible assumption
    | with_reducible apply Keeps.ite
    | with_reducible apply switchTs_keeps
    | (with_reducible refine Keeps.via ?_ id; split)

theorem rampFrom_keeps (h : Keeps p r s) (n : Nat) (_ : p .memory := by assumption) (_ : p (.regs .ck) := by assumption) (_ : p (.regs .dc) := by assumption) :
    Keeps p r (State.rampFrom s n) := by
  unfold State.rampFrom
  repeat' first
    | with_reducible assumption
    | (show p (.regs _); assumption)
    | (extract_lets +onlyGivenNames y; refine Keeps.via (x := y) ?_ (fun _ => ?_); subst y; rotate_left; clear_value y)
    | (extract_lets +onlyGivenNames y; clear_value y)
    | with_reducible apply wr_keeps
    | with_reducible apply modSub_keeps
    | exact rfl
    | exact State.Sorted.modMg rfl rfl
    | exact State.Sorted.modLe rfl rfl
    | exact id
    | with_reducible apply_assumption

theorem wakeSub_keeps (h : Keeps p r s) (n : Nat) (_ : p .memory := by assumption) :
    Keeps p r (State.wakeSub s n) := by
  unfold State.wakeSub
  repeat' first
    | with_reducible assumption
    | (extract_lets +onlyGivenNames y; refine Keeps.via (x := y) ?_ (fun _ => ?_); subst y; rotate_left; clear_value y)
    | (extract_lets +onlyGivenNames y; clear_value y)
    | with_reducible apply Keeps.ite
    | with_reducible apply countWake_keeps
    | with_reducible apply modSub_keeps
    | with_reducible apply dropExits_keeps
    | with_reducible apply dropWakes_keeps
    | with_reducible refine Keeps.foldl _ ?_ (fun _ _ _ => ?_)
    | (with_reducible refine Keeps.via ?_ id; split)
    | exact rfl
    | exact State.Sorted.modMg rfl rfl
    | exact State.Sorted.modLe rfl rfl
    | exact id
    | (dsimp only; split)
    | with_reducible apply_assumption

theorem frequencyChange_kept (h : Keeps p r s) (n : Fin 16) (us : Nat) (_ : p .memory := by assumption) (_ : p (.regs .ck) := by assumption) (_ : p (.regs .dc) := by assumption) :
    Keeps p r (frequencyChange n us s) := by
  unfold frequencyChange
  repeat' first
    | with_reducible assumption
    | (extract_lets +onlyGivenNames y; refine Keeps.via (x := y) ?_ (fun _ => ?_); subst y; rotate_left; clear_value y)
    | (extract_lets +onlyGivenNames y; clear_value y)
    | with_reducible apply Keeps.ite
    | with_reducible apply modDm_keeps
    | with_reducible apply takeOffline_keeps
    | with_reducible apply rampFrom_keeps
    | with_reducible apply modSub_keeps
    | (with_reducible refine Keeps.via ?_ id; split)
    | exact rfl
    | exact State.Sorted.modMg rfl rfl
    | exact State.Sorted.modLe rfl rfl
    | exact id
    | (dsimp only; split)
    | with_reducible apply_assumption

theorem setPhase_keeps (h : Keeps p r s) (n k : Nat) (_ : p .memory := by assumption) :
    Keeps p r (State.setPhase s n k) := by
  unfold State.setPhase
  repeat' first
    | with_reducible assumption
    | with_reducible apply modSub_keeps
    | exact rfl
    | exact State.Sorted.modMg rfl rfl
    | exact State.Sorted.modLe rfl rfl
    | exact id
    | with_reducible apply_assumption

theorem rampEnd_kept (h : Keeps p r s) (n : Fin 16) (_ : p .cells := by assumption) (_ : p .memory := by assumption) (_ : p .clock := by assumption) (_ : p .timebase := by assumption) (_ : p .clocks := by assumption) (_ : p (.regs .ck) := by assumption) (_ : p (.regs .dc) := by assumption) :
    Keeps p r (rampEnd n s) := by
  unfold rampEnd
  repeat' first
    | with_reducible assumption
    | (show p (.regs _); assumption)
    | (extract_lets +onlyGivenNames y; refine Keeps.via (x := y) ?_ (fun _ => ?_); subst y; rotate_left; clear_value y)
    | (extract_lets +onlyGivenNames y; clear_value y)
    | with_reducible apply Keeps.ite
    | with_reducible apply shakeDither_keeps
    | with_reducible apply jumpTo_keeps
    | with_reducible apply bump_keeps
    | with_reducible apply wr_keeps
    | with_reducible apply stopChange_keeps
    | with_reducible apply setPhase_keeps
    | (with_reducible refine Keeps.via ?_ id; split)

theorem endChange_keeps (h : Keeps p r s) (n m us : Nat) (_ : p .memory := by assumption) (_ : p (.regs .ck) := by assumption) (_ : p (.regs .dc) := by assumption) (_ : p (.regs .di) := by assumption) :
    Keeps p r (State.endChange s n m us) := by
  unfold State.endChange
  repeat' first
    | with_reducible assumption
    | (show p (.regs _); assumption)
    | (extract_lets +onlyGivenNames y; refine Keeps.via (x := y) ?_ (fun _ => ?_); subst y; rotate_left; clear_value y)
    | (extract_lets +onlyGivenNames y; clear_value y)
    | with_reducible apply switchTs_keeps
    | with_reducible apply modSub_keeps
    | with_reducible apply wr_keeps
    | with_reducible apply requestTs_keeps
    | (with_reducible refine Keeps.via ?_ id; split)
    | exact rfl
    | exact State.Sorted.modMg rfl rfl
    | exact State.Sorted.modLe rfl rfl
    | exact id
    | (dsimp only; split)
    | with_reducible apply_assumption

theorem lockedNew_keeps (h : Keeps p r s) (n : Nat) (c : Change) (quick : QuickTrack) (_ : p .memory := by assumption) (_ : p .waiting := by assumption) (_ : p (.regs .ck) := by assumption) (_ : p (.regs .dc) := by assumption) (_ : p (.regs .di) := by assumption) :
    Keeps p r (State.lockedNew s n c quick) := by
  unfold State.lockedNew
  repeat' first
    | with_reducible assumption
    | (show p (.regs _); assumption)
    | (extract_lets +onlyGivenNames y; refine Keeps.via (x := y) ?_ (fun _ => ?_); subst y; rotate_left; clear_value y)
    | (extract_lets +onlyGivenNames y; refine Keeps.via (x := y.2) ?_ (fun _ => ?_); subst y; rotate_left; clear_value y)
    | (extract_lets +onlyGivenNames y; refine Keeps.via (x := y.1) ?_ (fun _ => ?_); subst y; rotate_left; clear_value y)
    | (extract_lets +onlyGivenNames y; clear_value y)
    | with_reducible apply Keeps.ite
    | with_reducible apply wakeSub_keeps
    | with_reducible apply quickTrack_keeps
    | with_reducible apply bump_keeps
    | with_reducible apply endChange_keeps
    | with_reducible apply subMsg_keeps
    | with_reducible apply rampFrom_keeps
    | with_reducible apply modSub_keeps
    | (with_reducible refine Keeps.via ?_ id; split)
    | exact rfl
    | exact State.Sorted.modMg rfl rfl
    | exact State.Sorted.modLe rfl rfl
    | exact id
    | (dsimp only; split)
    | with_reducible apply_assumption

theorem lockedOld_keeps (h : Keeps p r s) (n : Nat) (c : Change) (quick : QuickTrack) (_ : p .memory := by assumption) (_ : p .flash := by assumption) (_ : p .manage := by assumption) (_ : p .waiting := by assumption) (_ : p .schedule := by assumption) (_ : p .heads := by assumption) (_ : p .lamps := by assumption) (_ : p .outputs := by assumption) (_ : p .draws := by assumption) (_ : p (.regs .ck) := by assumption) (_ : p (.regs .le) := by assumption) (_ : p (.regs .mi) := by assumption) (_ : p (.regs .dc) := by assumption) (_ : p (.regs .di) := by assumption) (_ : p (.regs .hp) := by assumption) :
    Keeps p r (State.lockedOld s n c quick) := by
  unfold State.lockedOld
  repeat' first
    | with_reducible assumption
    | (extract_lets +onlyGivenNames y; refine Keeps.via (x := y) ?_ (fun _ => ?_); subst y; rotate_left; clear_value y)
    | (extract_lets +onlyGivenNames y; refine Keeps.via (x := y.2) ?_ (fun _ => ?_); subst y; rotate_left; clear_value y)
    | (extract_lets +onlyGivenNames y; refine Keeps.via (x := y.1) ?_ (fun _ => ?_); subst y; rotate_left; clear_value y)
    | (extract_lets +onlyGivenNames y; clear_value y)
    | with_reducible apply wakeSub_keeps
    | with_reducible apply quickTrack_keeps
    | with_reducible apply markDevices_keeps
    | with_reducible apply endChange_keeps

theorem dllLock_kept (h : Keeps p r s) (n : Fin 16) (quick : QuickTrack) (_ : p .cells := by assumption) (_ : p .memory := by assumption) (_ : p .flash := by assumption) (_ : p .manage := by assumption) (_ : p .waiting := by assumption) (_ : p .schedule := by assumption) (_ : p .heads := by assumption) (_ : p .lamps := by assumption) (_ : p .outputs := by assumption) (_ : p .draws := by assumption) (_ : p (.regs .ck) := by assumption) (_ : p (.regs .le) := by assumption) (_ : p (.regs .mi) := by assumption) (_ : p (.regs .dc) := by assumption) (_ : p (.regs .di) := by assumption) (_ : p (.regs .hp) := by assumption) :
    Keeps p r (dllLock n quick s) := by
  unfold dllLock
  repeat' first
    | with_reducible assumption
    | (show p (.regs _); assumption)
    | (extract_lets +onlyGivenNames y; refine Keeps.via (x := y) ?_ (fun _ => ?_); subst y; rotate_left; clear_value y)
    | (extract_lets +onlyGivenNames y; clear_value y)
    | with_reducible apply Keeps.ite
    | with_reducible apply wr_keeps
    | with_reducible apply stopChange_keeps
    | with_reducible apply lockedNew_keeps
    | with_reducible apply lockedOld_keeps
    | (with_reducible refine Keeps.via ?_ id; split)

theorem frequencyChangeDone_kept (h : Keeps p r s) (_ : p .memory := by assumption) (_ : p .waiting := by assumption) (_ : p .schedule := by assumption) (_ : p .heads := by assumption) (_ : p .lamps := by assumption) (_ : p .outputs := by assumption) (_ : p .draws := by assumption) (_ : p (.regs .am) := by assumption) (_ : p (.regs .mi) := by assumption) (_ : p (.regs .dc) := by assumption) (_ : p (.regs .di) := by assumption) (_ : p (.regs .hp) := by assumption) :
    Keeps p r (frequencyChangeDone s) := by
  unfold frequencyChangeDone
  repeat' first
    | with_reducible assumption
    | with_reducible apply Keeps.ite
    | with_reducible apply returnCredits_keeps
    | with_reducible refine Keeps.foldl _ ?_ (fun _ _ _ => ?_)
    | (with_reducible refine Keeps.via ?_ id; split)
    | with_reducible apply_assumption

theorem archiveSleep_kept (h : Keeps p r s) (n : Fin 16) (_ : p .memory := by assumption) (_ : p (.regs .dc) := by assumption) :
    Keeps p r (archiveSleep n s) := by
  unfold archiveSleep
  repeat' first
    | with_reducible assumption
    | (show p (.regs _); assumption)
    | with_reducible apply Keeps.ite
    | with_reducible apply wr_keeps
    | with_reducible apply modSub_keeps
    | (with_reducible refine Keeps.via ?_ id; split)
    | exact rfl
    | exact State.Sorted.modMg rfl rfl
    | exact State.Sorted.modLe rfl rfl
    | exact id
    | (dsimp only; split)
    | with_reducible apply_assumption

theorem wakeArchive_keeps (h : Keeps p r s) (n : Nat) (_ : p .memory := by assumption) (_ : p .heads := by assumption) (_ : p .lamps := by assumption) (_ : p (.regs .le) := by assumption) (_ : p (.regs .dc) := by assumption) :
    Keeps p r (State.wakeArchive s n) := by
  unfold State.wakeArchive
  repeat' first
    | with_reducible assumption
    | with_reducible apply modMh_keeps
    | with_reducible apply wakeEffect_keeps
    | with_reducible apply countWake_keeps
    | with_reducible apply_assumption

theorem archiveWake_kept (h : Keeps p r s) (n : Fin 16) (_ : p .memory := by assumption) (_ : p .heads := by assumption) (_ : p .lamps := by assumption) (_ : p (.regs .le) := by assumption) (_ : p (.regs .dc) := by assumption) :
    Keeps p r (archiveWake n s) := by
  unfold archiveWake
  repeat' first
    | with_reducible assumption
    | with_reducible apply Keeps.ite
    | with_reducible apply wakeArchive_keeps
    | (with_reducible refine Keeps.via ?_ id; split)

theorem wakeEventStart_kept (h : Keeps p r s) (hh : Half) (_ : p .memory := by assumption) (_ : p .heads := by assumption) (_ : p .lamps := by assumption) (_ : p (.regs .le) := by assumption) (_ : p (.regs .dc) := by assumption) :
    Keeps p r (wakeEventStart hh s) := by
  unfold wakeEventStart
  repeat' first
    | with_reducible assumption
    | with_reducible apply startWake_keeps

theorem retireStart_keeps (h : Keeps p r s) (n cause : Nat) (_ : p .memory := by assumption) (_ : p .flash := by assumption) (_ : p .manage := by assumption) (_ : p .waiting := by assumption) (_ : p .draws := by assumption) (_ : p (.regs .dc) := by assumption) (_ : p (.regs .di) := by assumption) :
    Keeps p r (State.retireStart s n cause) := by
  unfold State.retireStart
  repeat' first
    | with_reducible assumption
    | (show p (.regs _); assumption)
    | (extract_lets +onlyGivenNames y; refine Keeps.via (x := y) ?_ (fun _ => ?_); subst y; rotate_left; clear_value y)
    | (extract_lets +onlyGivenNames y; clear_value y)
    | with_reducible apply Keeps.ite
    | with_reducible apply modSub_keeps
    | with_reducible apply recordHealth_keeps
    | with_reducible apply dropWakes_keeps
    | with_reducible apply subMsg_keeps
    | with_reducible apply wr_keeps
    | (with_reducible refine Keeps.via ?_ id; split)
    | exact rfl
    | exact State.Sorted.modMg rfl rfl
    | exact State.Sorted.modLe rfl rfl
    | exact id
    | (dsimp only; split)
    | with_reducible apply_assumption

theorem setRemapped_keeps (h : Keeps p r s) (n : Nat) (_ : p .memory := by assumption) (_ : p (.regs .dc) := by assumption) (_ : p (.regs .di) := by assumption) :
    Keeps p r (State.setRemapped s n) := by
  unfold State.setRemapped
  repeat' first
    | with_reducible assumption
    | (show p (.regs _); assumption)
    | (extract_lets +onlyGivenNames y; refine Keeps.via (x := y) ?_ (fun _ => ?_); subst y; rotate_left; clear_value y)
    | (extract_lets +onlyGivenNames y; clear_value y)
    | with_reducible apply modMh_keeps
    | with_reducible apply dropWakes_keeps
    | with_reducible apply modSub_keeps
    | with_reducible apply wr_keeps
    | exact rfl
    | exact State.Sorted.modMg rfl rfl
    | exact State.Sorted.modLe rfl rfl
    | exact id
    | with_reducible apply_assumption

theorem assignSpare_keeps (h : Keeps p r s) (hh : Half) (_ : p .memory := by assumption) (_ : p (.regs .dc) := by assumption) (_ : p (.regs .di) := by assumption) :
    Keeps p r (State.assignSpare s hh) := by
  unfold State.assignSpare
  repeat' first
    | with_reducible assumption
    | with_reducible apply Keeps.ite
    | with_reducible apply setRemapped_keeps
    | (with_reducible refine Keeps.via ?_ id; split)
    | with_reducible apply_assumption

theorem recordedMarks_keeps (h : Keeps p r s) (n : Nat) (_ : p .memory := by assumption) (_ : p .flash := by assumption) (_ : p .manage := by assumption) (_ : p .waiting := by assumption) (_ : p .draws := by assumption) (_ : p (.regs .di) := by assumption) :
    Keeps p r (State.recordedMarks s n) := by
  unfold State.recordedMarks
  repeat' first
    | with_reducible assumption
    | with_reducible apply markOne_keeps
    | with_reducible refine Keeps.foldl _ ?_ (fun _ _ _ => ?_)
    | with_reducible apply_assumption

theorem zqFails_keeps (h : Keeps p r s) (hh : Half) (_ : p .memory := by assumption) (_ : p .flash := by assumption) (_ : p .manage := by assumption) (_ : p .waiting := by assumption) (_ : p .draws := by assumption) (_ : p (.regs .dc) := by assumption) (_ : p (.regs .di) := by assumption) :
    Keeps p r (State.zqFails s hh) := by
  unfold State.zqFails
  repeat' first
    | with_reducible assumption
    | (extract_lets +onlyGivenNames y; refine Keeps.via (x := y) ?_ (fun _ => ?_); subst y; rotate_left; clear_value y)
    | (extract_lets +onlyGivenNames y; clear_value y)
    | with_reducible apply Keeps.ite
    | with_reducible apply recordedMarks_keeps
    | with_reducible apply retireStart_keeps
    | with_reducible refine Keeps.foldl _ ?_ (fun _ _ _ => ?_)
    | (with_reducible refine Keeps.via ?_ id; split)
    | with_reducible apply_assumption

theorem applyTraining_keeps (h : Keeps p r s) (n : Nat) (found : List (Nat × Option (List DevSet))) (cas : List (Option (Nat × VrefPick))) (_ : p .memory := by assumption) (_ : p .heads := by assumption) (_ : p .lamps := by assumption) (_ : p (.regs .ck) := by assumption) (_ : p (.regs .le) := by assumption) (_ : p (.regs .dc) := by assumption) (_ : p (.regs .di) := by assumption) :
    Keeps p r (State.applyTraining s n found cas) := by
  unfold State.applyTraining
  repeat' first
    | with_reducible assumption
    | (show p (.regs _); assumption)
    | (extract_lets +onlyGivenNames y; refine Keeps.via (x := y) ?_ (fun _ => ?_); subst y; rotate_left; clear_value y)
    | (extract_lets +onlyGivenNames y; refine Keeps.via (x := y.2) ?_ (fun _ => ?_); subst y; rotate_left; clear_value y)
    | (extract_lets +onlyGivenNames y; refine Keeps.via (x := y.1) ?_ (fun _ => ?_); subst y; rotate_left; clear_value y)
    | (extract_lets +onlyGivenNames y; clear_value y)
    | with_reducible apply modSub_keeps
    | with_reducible apply wr_keeps
    | with_reducible apply flag_keeps
    | with_reducible apply showSub_keeps
    | with_reducible apply askWake_keeps
    | with_reducible refine Keeps.foldl _ ?_ (fun _ _ _ => ?_)
    | (with_reducible refine Keeps.via ?_ id; split)
    | exact rfl
    | exact State.Sorted.modMg rfl rfl
    | exact State.Sorted.modLe rfl rfl
    | exact id
    | with_reducible refine Keeps.foldlFst _ ?_ (fun _ _ _ => ?_)
    | with_reducible refine Keeps.foldlSnd _ ?_ (fun _ _ _ => ?_)
    | (dsimp only; split)
    | with_reducible apply_assumption

theorem trainingDone_kept (h : Keeps p r s) (n : Fin 16) (lanes : List LaneSweep) (ca : List CaSweep) (zqOk : Bool) (_ : p .memory := by assumption) (_ : p .flash := by assumption) (_ : p .manage := by assumption) (_ : p .waiting := by assumption) (_ : p .heads := by assumption) (_ : p .lamps := by assumption) (_ : p .draws := by assumption) (_ : p (.regs .ck) := by assumption) (_ : p (.regs .le) := by assumption) (_ : p (.regs .dc) := by assumption) (_ : p (.regs .di) := by assumption) :
    Keeps p r (trainingDone n lanes ca zqOk s) := by
  unfold trainingDone
  repeat' first
    | with_reducible assumption
    | (extract_lets +onlyGivenNames y; refine Keeps.via (x := y) ?_ (fun _ => ?_); subst y; rotate_left; clear_value y)
    | (extract_lets +onlyGivenNames y; refine Keeps.via (x := y.2) ?_ (fun _ => ?_); subst y; rotate_left; clear_value y)
    | (extract_lets +onlyGivenNames y; refine Keeps.via (x := y.1) ?_ (fun _ => ?_); subst y; rotate_left; clear_value y)
    | (extract_lets +onlyGivenNames y; clear_value y)
    | with_reducible apply Keeps.ite
    | with_reducible apply zqFails_keeps
    | with_reducible apply recordedMarks_keeps
    | with_reducible apply markOne_keeps
    | with_reducible apply applyTraining_keeps
    | with_reducible apply retireStart_keeps
    | with_reducible apply assignSpare_keeps
    | with_reducible refine Keeps.foldl _ ?_ (fun _ _ _ => ?_)
    | (with_reducible refine Keeps.via ?_ id; split)
    | with_reducible refine Keeps.foldlFst _ ?_ (fun _ _ _ => ?_)
    | with_reducible refine Keeps.foldlSnd _ ?_ (fun _ _ _ => ?_)
    | with_reducible apply_assumption

theorem trackDevice_keeps (h : Keeps p r s) (n m count : Nat) (_ : p .memory := by assumption) (_ : p (.regs .di) := by assumption) :
    Keeps p r (State.trackDevice s n m count).1 := by
  unfold State.trackDevice
  repeat' first
    | with_reducible assumption
    | (extract_lets +onlyGivenNames y; refine Keeps.via (x := y) ?_ (fun _ => ?_); subst y; rotate_left; clear_value y)
    | (extract_lets +onlyGivenNames y; refine Keeps.via (x := y.2) ?_ (fun _ => ?_); subst y; rotate_left; clear_value y)
    | (extract_lets +onlyGivenNames y; refine Keeps.via (x := y.1) ?_ (fun _ => ?_); subst y; rotate_left; clear_value y)
    | (extract_lets +onlyGivenNames y; clear_value y)
    | with_reducible apply Keeps.ite
    | with_reducible apply applyDrift_keeps
    | with_reducible apply showDev_keeps
    | (with_reducible refine Keeps.via ?_ id; split)

theorem trackingMeasurement_kept (h : Keeps p r s) (n : Fin 16) (rank : Fin 2) (counts : List (Fin 10 × Nat)) (_ : p .memory := by assumption) (_ : p (.regs .di) := by assumption) :
    Keeps p r (trackingMeasurement n rank counts s) := by
  unfold trackingMeasurement
  repeat' first
    | with_reducible assumption
    | (show p (.regs _); assumption)
    | (extract_lets +onlyGivenNames y; refine Keeps.via (x := y) ?_ (fun _ => ?_); subst y; rotate_left; clear_value y)
    | (extract_lets +onlyGivenNames y; refine Keeps.via (x := y.2) ?_ (fun _ => ?_); subst y; rotate_left; clear_value y)
    | (extract_lets +onlyGivenNames y; refine Keeps.via (x := y.1) ?_ (fun _ => ?_); subst y; rotate_left; clear_value y)
    | (extract_lets +onlyGivenNames y; clear_value y)
    | with_reducible apply Keeps.ite
    | with_reducible apply bump_keeps
    | with_reducible apply trackDevice_keeps
    | with_reducible apply trackAsks_keeps
    | with_reducible refine Keeps.foldl _ ?_ (fun _ _ _ => ?_)
    | (with_reducible refine Keeps.via ?_ id; split)
    | with_reducible refine Keeps.foldlFst _ ?_ (fun _ _ _ => ?_)
    | with_reducible refine Keeps.foldlSnd _ ?_ (fun _ _ _ => ?_)
    | with_reducible apply_assumption

theorem borrow_keeps (h : Keeps p r s) (n g : Nat) (_ : p .cells := by assumption) (_ : p .memory := by assumption) (_ : p (.regs .dc) := by assumption) :
    Keeps p r (State.borrow s n g) := by
  unfold State.borrow
  repeat' first
    | with_reducible assumption
    | (extract_lets +onlyGivenNames y; refine Keeps.via (x := y) ?_ (fun _ => ?_); subst y; rotate_left; clear_value y)
    | (extract_lets +onlyGivenNames y; clear_value y)
    | with_reducible apply storeLine_keeps
    | with_reducible apply activateOnly_keeps
    | with_reducible refine Keeps.foldl _ ?_ (fun _ _ _ => ?_)
    | (with_reducible refine Keeps.via ?_ id; split)
    | with_reducible apply_assumption

theorem bookStep_keeps (h : Keeps p r s) (t : TrainStep) (us : Nat) (_ : p .memory := by assumption) (_ : p (.regs .di) := by assumption) :
    Keeps p r (State.bookStep s t us) := by
  unfold State.bookStep
  repeat' first
    | with_reducible assumption
    | (show p (.regs _); assumption)
    | (extract_lets +onlyGivenNames y; refine Keeps.via (x := y) ?_ (fun _ => ?_); subst y; rotate_left; clear_value y)
    | (extract_lets +onlyGivenNames y; clear_value y)
    | with_reducible apply modDm_keeps
    | with_reducible apply takeOffline_keeps
    | with_reducible apply wr_keeps
    | with_reducible apply bump_keeps
    | with_reducible apply notePending_keeps
    | exact rfl
    | exact State.Sorted.modMg rfl rfl
    | exact State.Sorted.modLe rfl rfl
    | exact id
    | with_reducible apply_assumption

theorem applySweep_keeps (h : Keeps p r s) (n : Nat) (found : List (Nat × Option DevSet)) (_ : p .memory := by assumption) (_ : p .flash := by assumption) (_ : p .manage := by assumption) (_ : p .waiting := by assumption) (_ : p .schedule := by assumption) (_ : p .heads := by assumption) (_ : p .lamps := by assumption) (_ : p .outputs := by assumption) (_ : p .draws := by assumption) (_ : p (.regs .le) := by assumption) (_ : p (.regs .mi) := by assumption) (_ : p (.regs .dc) := by assumption) (_ : p (.regs .di) := by assumption) (_ : p (.regs .hp) := by assumption) :
    Keeps p r (State.applySweep s n found) := by
  unfold State.applySweep
  repeat' first
    | with_reducible assumption
    | (extract_lets +onlyGivenNames y; refine Keeps.via (x := y) ?_ (fun _ => ?_); subst y; rotate_left; clear_value y)
    | (extract_lets +onlyGivenNames y; refine Keeps.via (x := y.2) ?_ (fun _ => ?_); subst y; rotate_left; clear_value y)
    | (extract_lets +onlyGivenNames y; refine Keeps.via (x := y.1) ?_ (fun _ => ?_); subst y; rotate_left; clear_value y)
    | (extract_lets +onlyGivenNames y; clear_value y)
    | with_reducible apply Keeps.ite
    | with_reducible apply showDev_keeps
    | with_reducible apply setDev_keeps
    | with_reducible apply markDevices_keeps
    | with_reducible refine Keeps.foldl _ ?_ (fun _ _ _ => ?_)
    | (with_reducible refine Keeps.via ?_ id; split)
    | with_reducible refine Keeps.foldlFst _ ?_ (fun _ _ _ => ?_)
    | with_reducible refine Keeps.foldlSnd _ ?_ (fun _ _ _ => ?_)
    | with_reducible apply_assumption

theorem askVref_keeps (h : Keeps p r s) (n rank : Nat) (widths : List (Option Nat)) (_ : p .memory := by assumption) (_ : p (.regs .di) := by assumption) :
    Keeps p r (State.askVref s n rank widths) := by
  unfold State.askVref
  repeat' first
    | with_reducible assumption
    | with_reducible apply Keeps.ite
    | with_reducible apply askStep_keeps
    | (with_reducible refine Keeps.via ?_ id; split)
    | with_reducible apply_assumption

theorem delayStep_keeps (h : Keeps p r s) (t : TrainStep) (sweep : State → Nat → Option (DevSet × Nat)) (_ : p .memory := by assumption) (_ : p .flash := by assumption) (_ : p .manage := by assumption) (_ : p .waiting := by assumption) (_ : p .schedule := by assumption) (_ : p .heads := by assumption) (_ : p .lamps := by assumption) (_ : p .outputs := by assumption) (_ : p .draws := by assumption) (_ : p (.regs .le) := by assumption) (_ : p (.regs .mi) := by assumption) (_ : p (.regs .dc) := by assumption) (_ : p (.regs .di) := by assumption) (_ : p (.regs .hp) := by assumption) :
    Keeps p r (State.delayStep s t sweep) := by
  unfold State.delayStep
  repeat' first
    | with_reducible assumption
    | (extract_lets +onlyGivenNames y; refine Keeps.via (x := y) ?_ (fun _ => ?_); subst y; rotate_left; clear_value y)
    | (extract_lets +onlyGivenNames y; refine Keeps.via (x := y.2) ?_ (fun _ => ?_); subst y; rotate_left; clear_value y)
    | (extract_lets +onlyGivenNames y; refine Keeps.via (x := y.1) ?_ (fun _ => ?_); subst y; rotate_left; clear_value y)
    | (extract_lets +onlyGivenNames y; clear_value y)
    | with_reducible apply askVref_keeps
    | with_reducible apply applySweep_keeps
    | with_reducible apply_assumption

theorem readStep_kept (h : Keeps p r s) (n : Fin 16) (lanes : List LaneSweep) (us : Nat) (cut : Bool) (_ : p .memory := by assumption) (_ : p .flash := by assumption) (_ : p .manage := by assumption) (_ : p .waiting := by assumption) (_ : p .schedule := by assumption) (_ : p .heads := by assumption) (_ : p .lamps := by assumption) (_ : p .outputs := by assumption) (_ : p .draws := by assumption) (_ : p (.regs .le) := by assumption) (_ : p (.regs .mi) := by assumption) (_ : p (.regs .dc) := by assumption) (_ : p (.regs .di) := by assumption) (_ : p (.regs .hp) := by assumption) :
    Keeps p r (readStep n lanes us cut s) := by
  unfold readStep
  repeat' first
    | with_reducible assumption
    | with_reducible apply Keeps.ite
    | with_reducible apply takeOffline_keeps
    | with_reducible apply delayStep_keeps
    | with_reducible apply bookStep_keeps
    | (with_reducible refine Keeps.via ?_ id; split)
    | with_reducible apply_assumption

theorem writeStep_kept (h : Keeps p r s) (n : Fin 16) (lanes : List LaneSweep) (us granule : Nat) (cut : Bool) (_ : p .cells := by assumption) (_ : p .memory := by assumption) (_ : p .flash := by assumption) (_ : p .manage := by assumption) (_ : p .waiting := by assumption) (_ : p .schedule := by assumption) (_ : p .heads := by assumption) (_ : p .lamps := by assumption) (_ : p .outputs := by assumption) (_ : p .draws := by assumption) (_ : p (.regs .le) := by assumption) (_ : p (.regs .mi) := by assumption) (_ : p (.regs .dc) := by assumption) (_ : p (.regs .di) := by assumption) (_ : p (.regs .hp) := by assumption) :
    Keeps p r (writeStep n lanes us granule cut s) := by
  unfold writeStep
  repeat' first
    | with_reducible assumption
    | (extract_lets +onlyGivenNames y; refine Keeps.via (x := y) ?_ (fun _ => ?_); subst y; rotate_left; clear_value y)
    | (extract_lets +onlyGivenNames y; clear_value y)
    | with_reducible apply Keeps.ite
    | with_reducible apply borrow_keeps
    | with_reducible apply takeOffline_keeps
    | with_reducible apply delayStep_keeps
    | with_reducible apply bookStep_keeps
    | (with_reducible refine Keeps.via ?_ id; split)
    | with_reducible apply_assumption

theorem vrefStep_kept (h : Keeps p r s) (n : Fin 16) (lanes : List LaneSweep) (us : Nat) (cut : Bool) (_ : p .memory := by assumption) (_ : p .flash := by assumption) (_ : p .manage := by assumption) (_ : p .waiting := by assumption) (_ : p .schedule := by assumption) (_ : p .heads := by assumption) (_ : p .lamps := by assumption) (_ : p .outputs := by assumption) (_ : p .draws := by assumption) (_ : p (.regs .le) := by assumption) (_ : p (.regs .mi) := by assumption) (_ : p (.regs .dc) := by assumption) (_ : p (.regs .di) := by assumption) (_ : p (.regs .hp) := by assumption) :
    Keeps p r (vrefStep n lanes us cut s) := by
  unfold vrefStep
  repeat' first
    | with_reducible assumption
    | (extract_lets +onlyGivenNames y; refine Keeps.via (x := y) ?_ (fun _ => ?_); subst y; rotate_left; clear_value y)
    | (extract_lets +onlyGivenNames y; clear_value y)
    | with_reducible apply Keeps.ite
    | with_reducible apply takeOffline_keeps
    | with_reducible apply bookStep_keeps
    | with_reducible apply applySweep_keeps
    | (with_reducible refine Keeps.via ?_ id; split)
    | with_reducible apply_assumption

theorem checkStep_kept (h : Keeps p r s) (n : Fin 16) (lanes : List LaneSweep) (us granule : Nat) (cut : Bool) (_ : p .cells := by assumption) (_ : p .memory := by assumption) (_ : p .flash := by assumption) (_ : p .manage := by assumption) (_ : p .waiting := by assumption) (_ : p .schedule := by assumption) (_ : p .heads := by assumption) (_ : p .lamps := by assumption) (_ : p .outputs := by assumption) (_ : p .draws := by assumption) (_ : p (.regs .le) := by assumption) (_ : p (.regs .mi) := by assumption) (_ : p (.regs .dc) := by assumption) (_ : p (.regs .di) := by assumption) (_ : p (.regs .hp) := by assumption) :
    Keeps p r (checkStep n lanes us granule cut s) := by
  unfold checkStep
  repeat' first
    | with_reducible assumption
    | (show p (.regs _); assumption)
    | (extract_lets +onlyGivenNames y; refine Keeps.via (x := y) ?_ (fun _ => ?_); subst y; rotate_left; clear_value y)
    | (extract_lets +onlyGivenNames y; refine Keeps.via (x := y.2) ?_ (fun _ => ?_); subst y; rotate_left; clear_value y)
    | (extract_lets +onlyGivenNames y; refine Keeps.via (x := y.1) ?_ (fun _ => ?_); subst y; rotate_left; clear_value y)
    | (extract_lets +onlyGivenNames y; clear_value y)
    | with_reducible apply Keeps.ite
    | with_reducible apply borrow_keeps
    | with_reducible apply takeOffline_keeps
    | with_reducible apply bookStep_keeps
    | with_reducible apply modSub_keeps
    | with_reducible apply applySweep_keeps
    | with_reducible apply wr_keeps
    | with_reducible apply subMsg_keeps
    | with_reducible refine Keeps.foldl _ ?_ (fun _ _ _ => ?_)
    | (with_reducible refine Keeps.via ?_ id; split)
    | exact rfl
    | exact State.Sorted.modMg rfl rfl
    | exact State.Sorted.modLe rfl rfl
    | exact id
    | with_reducible refine Keeps.foldlFst _ ?_ (fun _ _ _ => ?_)
    | with_reducible refine Keeps.foldlSnd _ ?_ (fun _ _ _ => ?_)
    | (dsimp only; split)
    | with_reducible apply_assumption

theorem diCtrlWrite_keeps (h : Keeps p r s) (n v : Nat) (_ : p .memory := by assumption) (_ : p (.regs .di) := by assumption) :
    Keeps p r (State.diCtrlWrite s n v) := by
  unfold State.diCtrlWrite
  repeat' first
    | with_reducible assumption
    | (show p (.regs _); assumption)
    | (extract_lets +onlyGivenNames y; refine Keeps.via (x := y) ?_ (fun _ => ?_); subst y; rotate_left; clear_value y)
    | (extract_lets +onlyGivenNames y; clear_value y)
    | with_reducible apply Keeps.ite
    | with_reducible apply askRetrain_keeps
    | with_reducible apply modSub_keeps
    | with_reducible apply wr_keeps
    | with_reducible refine Keeps.foldl _ ?_ (fun _ _ _ => ?_)
    | (with_reducible refine Keeps.via ?_ id; split)
    | exact rfl
    | exact State.Sorted.modMg rfl rfl
    | exact State.Sorted.modLe rfl rfl
    | exact id
    | (dsimp only; split)
    | with_reducible apply_assumption

theorem retire_kept (h : Keeps p r s) (pp : Path) (n : Fin 16) (_ : p .memory := by assumption) (_ : p .audit := by assumption) (_ : p .waiting := by assumption) (_ : p .access := by assumption) (_ : p (.regs .mg) := by assumption) (_ : p (.regs .di) := by assumption) :
    Keeps p r (retire pp n s) := by
  unfold retire
  repeat' first
    | with_reducible assumption
    | exact blockOf_is (blockOf_fld _) (by assumption)
    | exact blockOf_is (c := .mg) (blockOf_page (show _ = 0 by omega)) (by assumption)
    | exact blockOf_is (c := .di) (blockOf_page (show _ = 32 by omega)) (by assumption)
    | with_reducible apply gatedWrite_keeps
    | with_reducible apply diCtrlWrite_keeps
    | with_reducible refine fun _ _ => ?_
    | with_reducible apply_assumption

theorem retrain_kept (h : Keeps p r s) (pp : Path) (n : Fin 16) (_ : p .memory := by assumption) (_ : p .audit := by assumption) (_ : p .waiting := by assumption) (_ : p .access := by assumption) (_ : p (.regs .mg) := by assumption) (_ : p (.regs .di) := by assumption) :
    Keeps p r (retrain pp n s) := by
  unfold retrain
  repeat' first
    | with_reducible assumption
    | exact blockOf_is (blockOf_fld _) (by assumption)
    | exact blockOf_is (c := .mg) (blockOf_page (show _ = 0 by omega)) (by assumption)
    | exact blockOf_is (c := .di) (blockOf_page (show _ = 32 by omega)) (by assumption)
    | with_reducible apply gatedWrite_keeps
    | with_reducible apply diCtrlWrite_keeps
    | with_reducible refine fun _ _ => ?_
    | with_reducible apply_assumption

theorem clearMarks_kept (h : Keeps p r s) (pp : Path) (n : Fin 16) (_ : p .memory := by assumption) (_ : p .audit := by assumption) (_ : p .waiting := by assumption) (_ : p .access := by assumption) (_ : p (.regs .mg) := by assumption) (_ : p (.regs .di) := by assumption) :
    Keeps p r (clearMarks pp n s) := by
  unfold clearMarks
  repeat' first
    | with_reducible assumption
    | exact blockOf_is (blockOf_fld _) (by assumption)
    | exact blockOf_is (c := .mg) (blockOf_page (show _ = 0 by omega)) (by assumption)
    | exact blockOf_is (c := .di) (blockOf_page (show _ = 32 by omega)) (by assumption)
    | with_reducible apply gatedWrite_keeps
    | with_reducible apply diCtrlWrite_keeps
    | with_reducible refine fun _ _ => ?_
    | with_reducible apply_assumption

theorem windowOpens_keeps (h : Keeps p r s) (hh : Half) (_ : p .memory := by assumption) (_ : p .flash := by assumption) (_ : p .manage := by assumption) (_ : p .waiting := by assumption) (_ : p .schedule := by assumption) (_ : p .heads := by assumption) (_ : p .lamps := by assumption) (_ : p .outputs := by assumption) (_ : p .draws := by assumption) (_ : p (.regs .mi) := by assumption) (_ : p (.regs .dc) := by assumption) (_ : p (.regs .di) := by assumption) (_ : p (.regs .hp) := by assumption) :
    Keeps p r (State.windowOpens s hh) := by
  unfold State.windowOpens
  repeat' first
    | with_reducible assumption
    | (extract_lets +onlyGivenNames y; refine Keeps.via (x := y) ?_ (fun _ => ?_); subst y; rotate_left; clear_value y)
    | (extract_lets +onlyGivenNames y; clear_value y)
    | with_reducible apply Keeps.ite
    | with_reducible apply retireSub_keeps
    | with_reducible apply modMh_keeps
    | with_reducible apply beginHold_keeps
    | with_reducible refine Keeps.foldl _ ?_ (fun _ _ _ => ?_)
    | (with_reducible refine Keeps.via ?_ id; split)
    | with_reducible apply_assumption

theorem windowCloses_keeps (h : Keeps p r s) (hh : Half) (_ : p .memory := by assumption) (_ : p .waiting := by assumption) (_ : p .schedule := by assumption) (_ : p .heads := by assumption) (_ : p .lamps := by assumption) (_ : p .outputs := by assumption) (_ : p .draws := by assumption) (_ : p (.regs .am) := by assumption) (_ : p (.regs .mi) := by assumption) (_ : p (.regs .dc) := by assumption) (_ : p (.regs .di) := by assumption) (_ : p (.regs .hp) := by assumption) :
    Keeps p r (State.windowCloses s hh) := by
  unfold State.windowCloses
  repeat' first
    | with_reducible assumption
    | with_reducible apply Keeps.ite
    | with_reducible apply returnCredits_keeps
    | (with_reducible refine Keeps.via ?_ id; split)

theorem copyLine_keeps (h : Keeps p r s) (n g i : Nat) (_ : p .memory := by assumption) (_ : p .waiting := by assumption) (_ : p (.regs .dc) := by assumption) (_ : p (.regs .di) := by assumption) :
    Keeps p r (State.copyLine s n g i) := by
  unfold State.copyLine
  repeat' first
    | with_reducible assumption
    | (show p (.regs _); assumption)
    | (extract_lets +onlyGivenNames y; refine Keeps.via (x := y) ?_ (fun _ => ?_); subst y; rotate_left; clear_value y)
    | (extract_lets +onlyGivenNames y; refine Keeps.via (x := y.2) ?_ (fun _ => ?_); subst y; rotate_left; clear_value y)
    | (extract_lets +onlyGivenNames y; refine Keeps.via (x := y.1) ?_ (fun _ => ?_); subst y; rotate_left; clear_value y)
    | (extract_lets +onlyGivenNames y; clear_value y)
    | with_reducible apply queueWrite_keeps
    | with_reducible apply lineMsg_keeps
    | with_reducible apply bump_keeps
    | (with_reducible refine Keeps.via ?_ id; split)

theorem copyGranule_keeps (h : Keeps p r s) (n g : Nat) (_ : p .memory := by assumption) (_ : p .waiting := by assumption) (_ : p .heads := by assumption) (_ : p .outputs := by assumption) (_ : p (.regs .dc) := by assumption) (_ : p (.regs .di) := by assumption) (_ : p (.regs .hp) := by assumption) :
    Keeps p r (State.copyGranule s n g) := by
  unfold State.copyGranule
  repeat' first
    | with_reducible assumption
    | (extract_lets +onlyGivenNames y; refine Keeps.via (x := y) ?_ (fun _ => ?_); subst y; rotate_left; clear_value y)
    | (extract_lets +onlyGivenNames y; refine Keeps.via (x := y.2) ?_ (fun _ => ?_); subst y; rotate_left; clear_value y)
    | (extract_lets +onlyGivenNames y; refine Keeps.via (x := y.1) ?_ (fun _ => ?_); subst y; rotate_left; clear_value y)
    | (extract_lets +onlyGivenNames y; clear_value y)
    | with_reducible apply bulkVisit_keeps
    | with_reducible apply copyLine_keeps
    | with_reducible apply modWrites_keeps
    | with_reducible apply answerWrites_keeps
    | with_reducible apply queueWrite_keeps
    | with_reducible refine Keeps.foldl _ ?_ (fun _ _ _ => ?_)
    | exact rfl
    | with_reducible refine Keeps.foldlFst _ ?_ (fun _ _ _ => ?_)
    | with_reducible refine Keeps.foldlSnd _ ?_ (fun _ _ _ => ?_)
    | with_reducible apply_assumption

theorem poisonLine_keeps (h : Keeps p r s) (n g i : Nat) (_ : p .memory := by assumption) (_ : p (.regs .dc) := by assumption) (_ : p (.regs .di) := by assumption) :
    Keeps p r (State.poisonLine s n g i) := by
  unfold State.poisonLine
  repeat' first
    | with_reducible assumption
    | (show p (.regs _); assumption)
    | (extract_lets +onlyGivenNames y; refine Keeps.via (x := y) ?_ (fun _ => ?_); subst y; rotate_left; clear_value y)
    | (extract_lets +onlyGivenNames y; refine Keeps.via (x := y.2) ?_ (fun _ => ?_); subst y; rotate_left; clear_value y)
    | (extract_lets +onlyGivenNames y; refine Keeps.via (x := y.1) ?_ (fun _ => ?_); subst y; rotate_left; clear_value y)
    | (extract_lets +onlyGivenNames y; clear_value y)
    | with_reducible apply bump_keeps
    | with_reducible apply queueWrite_keeps

theorem treatGranule_keeps (h : Keeps p r s) (rr : Rebuild) (_ : p .memory := by assumption) (_ : p .waiting := by assumption) (_ : p .heads := by assumption) (_ : p .outputs := by assumption) (_ : p (.regs .dc) := by assumption) (_ : p (.regs .di) := by assumption) (_ : p (.regs .hp) := by assumption) :
    Keeps p r (State.treatGranule s rr) := by
  unfold State.treatGranule
  repeat' first
    | with_reducible assumption
    | with_reducible apply Keeps.ite
    | with_reducible apply poisonLine_keeps
    | with_reducible apply copyGranule_keeps
    | with_reducible refine Keeps.foldl _ ?_ (fun _ _ _ => ?_)
    | (with_reducible refine Keeps.via ?_ id; split)
    | with_reducible apply_assumption

theorem endRebuild_keeps (h : Keeps p r s) (hh : Half) (rr : Rebuild) (_ : p .memory := by assumption) (_ : p .waiting := by assumption) (_ : p (.regs .dc) := by assumption) (_ : p (.regs .di) := by assumption) :
    Keeps p r (State.endRebuild s hh rr) := by
  unfold State.endRebuild
  repeat' first
    | with_reducible assumption
    | (show p (.regs _); assumption)
    | (extract_lets +onlyGivenNames y; refine Keeps.via (x := y) ?_ (fun _ => ?_); subst y; rotate_left; clear_value y)
    | (extract_lets +onlyGivenNames y; clear_value y)
    | with_reducible apply Keeps.ite
    | with_reducible apply setRemapped_keeps
    | with_reducible apply modMh_keeps
    | with_reducible apply wr_keeps
    | with_reducible apply modWrites_keeps
    | with_reducible apply modDm_keeps
    | with_reducible apply dropWakes_keeps
    | with_reducible apply subMsg_keeps
    | (with_reducible refine Keeps.via ?_ id; split)
    | exact rfl
    | exact State.Sorted.modMg rfl rfl
    | exact State.Sorted.modLe rfl rfl
    | exact id
    | with_reducible apply_assumption

theorem rebuildGranule_kept (h : Keeps p r s) (hh : Half) (_ : p .memory := by assumption) (_ : p .waiting := by assumption) (_ : p .heads := by assumption) (_ : p .lamps := by assumption) (_ : p .outputs := by assumption) (_ : p (.regs .le) := by assumption) (_ : p (.regs .dc) := by assumption) (_ : p (.regs .di) := by assumption) (_ : p (.regs .hp) := by assumption) :
    Keeps p r (rebuildGranule hh s) := by
  unfold rebuildGranule
  repeat' first
    | with_reducible assumption
    | (show p (.regs _); assumption)
    | (extract_lets +onlyGivenNames y; refine Keeps.via (x := y) ?_ (fun _ => ?_); subst y; rotate_left; clear_value y)
    | (extract_lets +onlyGivenNames y; clear_value y)
    | with_reducible apply Keeps.ite
    | with_reducible apply treatGranule_keeps
    | with_reducible apply wr_keeps
    | with_reducible apply modMh_keeps
    | with_reducible apply endRebuild_keeps
    | with_reducible apply askWake_keeps
    | (with_reducible refine Keeps.via ?_ id; split)
    | with_reducible apply_assumption

theorem dllLockLost_kept (h : Keeps p r s) (n : Fin 16) (_ : p .memory := by assumption) (_ : p .waiting := by assumption) (_ : p (.regs .ck) := by assumption) (_ : p (.regs .di) := by assumption) :
    Keeps p r (dllLockLost n s) := by
  unfold dllLockLost
  repeat' first
    | with_reducible assumption
    | (show p (.regs _); assumption)
    | (extract_lets +onlyGivenNames y; refine Keeps.via (x := y) ?_ (fun _ => ?_); subst y; rotate_left; clear_value y)
    | (extract_lets +onlyGivenNames y; clear_value y)
    | with_reducible apply Keeps.ite
    | with_reducible apply bump_keeps
    | with_reducible apply wr_keeps
    | with_reducible apply askStep_keeps
    | with_reducible apply subMsg_keeps
    | (with_reducible refine Keeps.via ?_ id; split)

theorem dllRelockStep_kept (h : Keeps p r s) (n : Fin 16) (locked : Bool) (quick : QuickTrack) (_ : p .memory := by assumption) (_ : p .flash := by assumption) (_ : p .manage := by assumption) (_ : p .waiting := by assumption) (_ : p .schedule := by assumption) (_ : p .heads := by assumption) (_ : p .lamps := by assumption) (_ : p .outputs := by assumption) (_ : p .draws := by assumption) (_ : p (.regs .ck) := by assumption) (_ : p (.regs .mi) := by assumption) (_ : p (.regs .dc) := by assumption) (_ : p (.regs .di) := by assumption) (_ : p (.regs .hp) := by assumption) :
    Keeps p r (dllRelockStep n locked quick s) := by
  unfold dllRelockStep
  repeat' first
    | with_reducible assumption
    | (show p (.regs _); assumption)
    | (extract_lets +onlyGivenNames y; refine Keeps.via (x := y) ?_ (fun _ => ?_); subst y; rotate_left; clear_value y)
    | (extract_lets +onlyGivenNames y; refine Keeps.via (x := y.2) ?_ (fun _ => ?_); subst y; rotate_left; clear_value y)
    | (extract_lets +onlyGivenNames y; refine Keeps.via (x := y.1) ?_ (fun _ => ?_); subst y; rotate_left; clear_value y)
    | (extract_lets +onlyGivenNames y; clear_value y)
    | with_reducible apply Keeps.ite
    | with_reducible apply notePending_keeps
    | with_reducible apply modDm_keeps
    | with_reducible apply takeOffline_keeps
    | with_reducible apply bump_keeps
    | with_reducible apply wr_keeps
    | with_reducible apply wakeSub_keeps
    | with_reducible apply quickTrack_keeps
    | with_reducible apply showSub_keeps
    | with_reducible apply askRetrain_keeps
    | with_reducible apply retireSub_keeps
    | with_reducible refine Keeps.foldl _ ?_ (fun _ _ _ => ?_)
    | (with_reducible refine Keeps.via ?_ id; split)
    | exact rfl
    | exact State.Sorted.modMg rfl rfl
    | exact State.Sorted.modLe rfl rfl
    | exact id
    | with_reducible refine Keeps.foldlFst _ ?_ (fun _ _ _ => ?_)
    | with_reducible refine Keeps.foldlSnd _ ?_ (fun _ _ _ => ?_)
    | with_reducible apply_assumption

theorem dropLines_keeps (h : Keeps p r s) (n line cnt : Nat) (_ : p .memory := by assumption) (_ : p .heads := by assumption) (_ : p .outputs := by assumption) (_ : p (.regs .dc) := by assumption) (_ : p (.regs .hp) := by assumption) :
    Keeps p r (State.dropLines s n line cnt) := by
  unfold State.dropLines
  repeat' first
    | with_reducible assumption
    | (extract_lets +onlyGivenNames y; refine Keeps.via (x := y) ?_ (fun _ => ?_); subst y; rotate_left; clear_value y)
    | (extract_lets +onlyGivenNames y; refine Keeps.via (x := y.2) ?_ (fun _ => ?_); subst y; rotate_left; clear_value y)
    | (extract_lets +onlyGivenNames y; refine Keeps.via (x := y.1) ?_ (fun _ => ?_); subst y; rotate_left; clear_value y)
    | (extract_lets +onlyGivenNames y; refine Keeps.viaFun (x := y) (fun _ => ?_) (fun _ => ?_); subst y; rotate_left; clear_value y)
    | (extract_lets +onlyGivenNames y; clear_value y)
    | with_reducible apply modWrites_keeps
    | with_reducible apply answer_keeps
    | with_reducible refine Keeps.foldl _ ?_ (fun _ _ _ => ?_)
    | exact rfl
    | with_reducible refine Keeps.foldlFst _ ?_ (fun _ _ _ => ?_)
    | with_reducible refine Keeps.foldlSnd _ ?_ (fun _ _ _ => ?_)
    | with_reducible apply_assumption

theorem fillVisits_keeps (h : Keeps p r s) (n line cnt : Nat) (_ : p .memory := by assumption) (_ : p (.regs .dc) := by assumption) :
    Keeps p r (State.fillVisits s n line cnt) := by
  unfold State.fillVisits
  repeat' first
    | with_reducible assumption
    | with_reducible apply activate_keeps
    | with_reducible refine Keeps.foldl _ ?_ (fun _ _ _ => ?_)
    | with_reducible apply_assumption

theorem fillExtent_keeps (h : Keeps p r s) (n line cnt : Nat) (_ : p .cells := by assumption) (_ : p .memory := by assumption) (_ : p .heads := by assumption) (_ : p .outputs := by assumption) (_ : p (.regs .dc) := by assumption) (_ : p (.regs .hp) := by assumption) :
    Keeps p r (State.fillExtent s n line cnt) := by
  unfold State.fillExtent
  repeat' first
    | with_reducible assumption
    | with_reducible apply Keeps.ite
    | with_reducible apply fill_keeps
    | with_reducible apply fillVisits_keeps
    | with_reducible apply dropLines_keeps
    | (with_reducible refine Keeps.via ?_ id; split)

theorem fillThrough_keeps (h : Keeps p r s) (n g0 g1 : Nat) (_ : p .cells := by assumption) (_ : p .memory := by assumption) (_ : p .heads := by assumption) (_ : p .outputs := by assumption) (_ : p (.regs .dc) := by assumption) (_ : p (.regs .hp) := by assumption) :
    Keeps p r (State.fillThrough s n g0 g1) := by
  unfold State.fillThrough
  repeat' first
    | with_reducible assumption
    | (extract_lets +onlyGivenNames y; refine Keeps.via (x := y) ?_ (fun _ => ?_); subst y; rotate_left; clear_value y)
    | (extract_lets +onlyGivenNames y; refine Keeps.via (x := y.2) ?_ (fun _ => ?_); subst y; rotate_left; clear_value y)
    | (extract_lets +onlyGivenNames y; refine Keeps.via (x := y.1) ?_ (fun _ => ?_); subst y; rotate_left; clear_value y)
    | (extract_lets +onlyGivenNames y; clear_value y)
    | with_reducible apply fillExtent_keeps
    | with_reducible refine Keeps.foldl _ ?_ (fun _ _ _ => ?_)
    | with_reducible refine Keeps.foldlFst _ ?_ (fun _ _ _ => ?_)
    | with_reducible refine Keeps.foldlSnd _ ?_ (fun _ _ _ => ?_)
    | with_reducible apply_assumption

theorem fillRouted_keeps (h : Keeps p r s) (n line cnt : Nat) (_ : p .cells := by assumption) (_ : p .memory := by assumption) (_ : p .heads := by assumption) (_ : p .outputs := by assumption) (_ : p (.regs .dc) := by assumption) (_ : p (.regs .hp) := by assumption) :
    Keeps p r (State.fillRouted s n line cnt) := by
  unfold State.fillRouted
  repeat' first
    | with_reducible assumption
    | (extract_lets +onlyGivenNames y; refine Keeps.via (x := y) ?_ (fun _ => ?_); subst y; rotate_left; clear_value y)
    | (extract_lets +onlyGivenNames y; clear_value y)
    | with_reducible apply Keeps.ite
    | with_reducible apply fillExtent_keeps
    | with_reducible apply fillThrough_keeps
    | (with_reducible refine Keeps.via ?_ id; split)

theorem fillRow_keeps (h : Keeps p r s) (n : Nat) (e : RowEntry) (_ : p .cells := by assumption) (_ : p .memory := by assumption) (_ : p .heads := by assumption) (_ : p .outputs := by assumption) (_ : p (.regs .dc) := by assumption) (_ : p (.regs .hp) := by assumption) :
    Keeps p r (State.fillRow s n e) := by
  unfold State.fillRow
  repeat' first
    | with_reducible assumption
    | (extract_lets +onlyGivenNames y; refine Keeps.via (x := y) ?_ (fun _ => ?_); subst y; rotate_left; clear_value y)
    | (extract_lets +onlyGivenNames y; clear_value y)
    | with_reducible apply fillExtent_keeps
    | with_reducible refine Keeps.foldl _ ?_ (fun _ _ _ => ?_)
    | with_reducible apply_assumption

theorem fillSub_keeps (h : Keeps p r s) (n : Nat) (_ : p .cells := by assumption) (_ : p .memory := by assumption) (_ : p .heads := by assumption) (_ : p .outputs := by assumption) (_ : p (.regs .dc) := by assumption) (_ : p (.regs .hp) := by assumption) :
    Keeps p r (State.fillSub s n) := by
  unfold State.fillSub
  repeat' first
    | with_reducible assumption
    | with_reducible apply Keeps.ite
    | with_reducible apply fillRow_keeps
    | with_reducible apply fillThrough_keeps
    | with_reducible apply fillExtent_keeps
    | with_reducible refine Keeps.foldl _ ?_ (fun _ _ _ => ?_)
    | (with_reducible refine Keeps.via ?_ id; split)
    | with_reducible apply_assumption

theorem fillDone_kept (h : Keeps p r s) (_ : p .cells := by assumption) (_ : p .memory := by assumption) (_ : p .heads := by assumption) (_ : p .outputs := by assumption) (_ : p (.regs .mi) := by assumption) (_ : p (.regs .dc) := by assumption) (_ : p (.regs .hp) := by assumption) :
    Keeps p r (fillDone s) := by
  unfold fillDone
  repeat' first
    | with_reducible assumption
    | (show p (.regs _); rename Half => hh'; cases hh' <;> assumption)
    | (show p (.regs _); assumption)
    | (extract_lets +onlyGivenNames y; refine Keeps.via (x := y) ?_ (fun _ => ?_); subst y; rotate_left; clear_value y)
    | (extract_lets +onlyGivenNames y; clear_value y)
    | with_reducible apply Keeps.ite
    | with_reducible apply wr_keeps
    | with_reducible apply fillSub_keeps
    | with_reducible refine Keeps.foldl _ ?_ (fun _ _ _ => ?_)
    | (with_reducible refine Keeps.via ?_ id; split)
    | with_reducible apply_assumption

theorem unlistRegion_keeps (h : Keeps p r s) (hh : Half) (i : Nat) (_ : p .memory := by assumption) :
    Keeps p r (State.unlistRegion s hh i) := by
  unfold State.unlistRegion
  repeat' first
    | with_reducible assumption
    | (extract_lets +onlyGivenNames y; refine Keeps.via (x := y) ?_ (fun _ => ?_); subst y; rotate_left; clear_value y)
    | (extract_lets +onlyGivenNames y; refine Keeps.via (x := y.1) ?_ (fun _ => ?_); subst y; rotate_left; clear_value y)
    | (extract_lets +onlyGivenNames y; refine Keeps.viaFun (x := y) (fun _ => ?_) (fun _ => ?_); subst y; rotate_left; clear_value y)
    | (extract_lets +onlyGivenNames y; clear_value y)
    | with_reducible apply Keeps.ite
    | with_reducible apply modDm_keeps
    | (with_reducible refine Keeps.via ?_ id; split)
    | exact rfl
    | exact State.Sorted.modMg rfl rfl
    | exact State.Sorted.modLe rfl rfl
    | exact id
    | with_reducible apply_assumption
    | exact fun h => (List.length_filter_le _ _).trans h

theorem fillWakes_keeps (h : Keeps p r s) (hh : Half) (rr : Region) (_ : p .memory := by assumption) (_ : p .heads := by assumption) (_ : p .lamps := by assumption) (_ : p (.regs .le) := by assumption) (_ : p (.regs .dc) := by assumption) :
    Keeps p r (State.fillWakes s hh rr) := by
  unfold State.fillWakes
  repeat' first
    | with_reducible assumption
    | with_reducible apply wakeArchive_keeps
    | with_reducible refine Keeps.foldl _ ?_ (fun _ _ _ => ?_)
    | with_reducible apply_assumption

theorem regionFillDone_kept (h : Keeps p r s) (hh : Half) (_ : p .cells := by assumption) (_ : p .memory := by assumption) (_ : p .schedule := by assumption) (_ : p .heads := by assumption) (_ : p .lamps := by assumption) (_ : p .outputs := by assumption) (_ : p (.regs .le) := by assumption) (_ : p (.regs .dc) := by assumption) (_ : p (.regs .hp) := by assumption) :
    Keeps p r (regionFillDone hh s) := by
  unfold regionFillDone
  repeat' first
    | with_reducible assumption
    | (extract_lets +onlyGivenNames y; refine Keeps.via (x := y) ?_ (fun _ => ?_); subst y; rotate_left; clear_value y)
    | (extract_lets +onlyGivenNames y; clear_value y)
    | with_reducible apply Keeps.ite
    | with_reducible apply fillWakes_keeps
    | with_reducible apply unlistRegion_keeps
    | with_reducible apply fillRouted_keeps
    | with_reducible apply modSched_keeps
    | with_reducible refine Keeps.foldl _ ?_ (fun _ _ _ => ?_)
    | (with_reducible refine Keeps.via ?_ id; split)
    | with_reducible apply_assumption

theorem fastCloseAct_keeps (h : Keeps p r s) (_ : p .memory := by assumption) (_ : p (.regs .mi) := by assumption) : Keeps p r (State.fastCloseAct s) := by
  refine wr_keeps (modDm_keeps h _ ?_ id) _ _
  funext k
  have key : ∀ j : Nat, (((s.dm.subs.map fun u => { u with fast := false })[j]?).getD ({} : Sub)).sealKey = (s.dm.subs[j]?.getD ({} : Sub)).sealKey := by
    intro j
    rw [Vector.getElem?_map]
    cases s.dm.subs[j]? <;> rfl
  simp only [Mem.blank, key]

theorem fastClose_kept (h : Keeps p r s) (pp : Path) (_ : p .memory := by assumption) (_ : p .audit := by assumption) (_ : p .waiting := by assumption) (_ : p .access := by assumption) (_ : p (.regs .mg) := by assumption) (_ : p (.regs .mi) := by assumption) :
    Keeps p r (fastClose pp s) := by
  unfold fastClose
  repeat' first
    | with_reducible assumption
    | exact blockOf_is (blockOf_fld _) (by assumption)
    | exact blockOf_is (c := .mg) (blockOf_page (show _ = 0 by omega)) (by assumption)
    | exact blockOf_is (c := .mi) (blockOf_page (show _ = 10 by omega)) (by assumption)
    | with_reducible apply gatedWrite_keeps
    | with_reducible apply fastCloseAct_keeps
    | with_reducible refine fun _ _ => ?_

theorem scrubStartAct_keeps (h : Keeps p r s) (_ : p .memory := by assumption) (_ : p (.regs .mi) := by assumption) :
    Keeps p r (State.scrubStartAct s) := by
  unfold State.scrubStartAct
  repeat' first
    | with_reducible assumption
    | (show p (.regs _); assumption)
    | (extract_lets +onlyGivenNames y; refine Keeps.via (x := y) ?_ (fun _ => ?_); subst y; rotate_left; clear_value y)
    | (extract_lets +onlyGivenNames y; refine Keeps.via (x := y.2) ?_ (fun _ => ?_); subst y; rotate_left; clear_value y)
    | (extract_lets +onlyGivenNames y; refine Keeps.via (x := y.1) ?_ (fun _ => ?_); subst y; rotate_left; clear_value y)
    | (extract_lets +onlyGivenNames y; clear_value y)
    | with_reducible apply Keeps.ite
    | with_reducible apply wr_keeps
    | with_reducible apply modDm_keeps
    | (with_reducible refine Keeps.via ?_ id; split)
    | exact rfl
    | exact State.Sorted.modMg rfl rfl
    | exact State.Sorted.modLe rfl rfl
    | exact id
    | with_reducible apply_assumption

theorem scrubWrite_keeps (h : Keeps p r s) (v : Nat) (_ : p .memory := by assumption) (_ : p (.regs .mi) := by assumption) :
    Keeps p r (State.scrubWrite s v) := by
  unfold State.scrubWrite
  repeat' first
    | with_reducible assumption
    | (extract_lets +onlyGivenNames y; refine Keeps.via (x := y) ?_ (fun _ => ?_); subst y; rotate_left; clear_value y)
    | (extract_lets +onlyGivenNames y; clear_value y)
    | with_reducible apply Keeps.ite
    | with_reducible apply scrubStartAct_keeps
    | with_reducible apply endScrub_keeps
    | (with_reducible refine Keeps.via ?_ id; split)

theorem scrubStart_kept (h : Keeps p r s) (pp : Path) (_ : p .memory := by assumption) (_ : p .audit := by assumption) (_ : p .waiting := by assumption) (_ : p .access := by assumption) (_ : p (.regs .mg) := by assumption) (_ : p (.regs .mi) := by assumption) :
    Keeps p r (scrubStart pp s) := by
  unfold scrubStart
  repeat' first
    | with_reducible assumption
    | exact blockOf_is (blockOf_fld _) (by assumption)
    | exact blockOf_is (c := .mg) (blockOf_page (show _ = 0 by omega)) (by assumption)
    | exact blockOf_is (c := .mi) (blockOf_page (show _ = 10 by omega)) (by assumption)
    | with_reducible apply gatedWrite_keeps
    | with_reducible apply scrubWrite_keeps
    | with_reducible refine fun _ _ => ?_
    | with_reducible apply_assumption

theorem scrubAbort_kept (h : Keeps p r s) (pp : Path) (_ : p .memory := by assumption) (_ : p .audit := by assumption) (_ : p .waiting := by assumption) (_ : p .access := by assumption) (_ : p (.regs .mg) := by assumption) (_ : p (.regs .mi) := by assumption) :
    Keeps p r (scrubAbort pp s) := by
  unfold scrubAbort
  repeat' first
    | with_reducible assumption
    | exact blockOf_is (blockOf_fld _) (by assumption)
    | exact blockOf_is (c := .mg) (blockOf_page (show _ = 0 by omega)) (by assumption)
    | exact blockOf_is (c := .mi) (blockOf_page (show _ = 10 by omega)) (by assumption)
    | with_reducible apply gatedWrite_keeps
    | with_reducible apply scrubWrite_keeps
    | with_reducible refine fun _ _ => ?_
    | with_reducible apply_assumption

theorem scrubOne_keeps (h : Keeps p r s) (x : Half) (line : Nat) (q : State × Bool) (hp : State.scrubOne s x line = some q) (_ : p .memory := by assumption) (_ : p (.regs .mi) := by assumption) (_ : p (.regs .dc) := by assumption) : Keeps p r q.1 := by
  have skip : ∀ mine : Bool, Keeps p r (if mine then s.bump F.MI_SCRUB_SKIP.SKIPPED else s) := fun mine =>
    Keeps.ite (bump_keeps h _ _) h
  unfold State.scrubOne at hp
  dsimp only at hp
  split at hp
  · obtain rfl := Option.some.inj hp; exact skip _
  · split at hp
    · obtain rfl := Option.some.inj hp; exact skip _
    · split at hp
      · obtain rfl := Option.some.inj hp; exact skip true
      · split at hp
        · exact absurd hp (by simp)
        · obtain rfl := Option.some.inj hp
          exact queueRead_keeps (modDm_keeps h _ rfl id) _ _ _ _ _

theorem scrubLoop_keeps (x : Half) (fuel own : Nat) (_ : p .memory := by assumption) (_ : p .heads := by assumption) (_ : p .lamps := by assumption) (_ : p (.regs .le) := by assumption) (_ : p (.regs .mi) := by assumption) (_ : p (.regs .dc) := by assumption) : ∀ {s : State}, Keeps p r s → Keeps p r (State.scrubLoop s x fuel own) := by
  induction fuel generalizing own with
  | zero => intro s h; unfold State.scrubLoop; exact h
  | succ fuel ih =>
    intro s h
    cases own with
    | zero => unfold State.scrubLoop; exact h
    | succ own =>
      unfold State.scrubLoop
      dsimp only
      split
      · exact h
      · split
        · split
          · split
            · exact askWake_keeps h _
            · exact h
          · exact h
        · rename_i hp
          exact ih _ (modMh_keeps (scrubOne_keeps h _ _ _ hp) _ _)

theorem scrubStep_kept (h : Keeps p r s) (x : Half) (us : Nat) (_ : p .memory := by assumption) (_ : p .heads := by assumption) (_ : p .lamps := by assumption) (_ : p (.regs .le) := by assumption) (_ : p (.regs .mi) := by assumption) (_ : p (.regs .dc) := by assumption) : Keeps p r (scrubStep x us s) := by
  unfold scrubStep
  split
  · exact h
  · extract_lets lines
    have hl : ∀ {s : State}, Keeps p r s → Keeps p r (s.scrubLoop x (2 * lines) lines) := scrubLoop_keeps x (2 * lines) lines
    exact scrubOver_keeps (hl (modMh_keeps h _ _))

end Sys2Proof.Machine
end

