-- ==== Sys2Proof/Laws/KeepsHalves.lean ====
section
/-! SUPPORT. What every function keeps (Sys2Proof/Laws/Keeps.lean), carried through clocks, the schedule operations, Selvedge, the Welt and the management operations. -/
set_option Elab.async false
set_option linter.unusedTactic false
set_option linter.unreachableTactic false
set_option linter.unusedVariables false
namespace Sys2Proof.Machine

variable {p : Part → Prop} {r s : State}

theorem lockmonMv_keeps (h : Keeps p r s) (hh : Half) (lost : Bool) (_ : p .draws := by assumption) (_ : p (.regs .ck) := by assumption) :
    Keeps p r (State.lockmonMv s hh lost) := by
  unfold State.lockmonMv
  repeat' first
    | with_reducible assumption
    | (show p (.regs _); assumption)
    | with_reducible apply Keeps.ite
    | with_reducible apply wr_keeps
    | with_reducible apply draw_keeps
    | (with_reducible refine Keeps.via ?_ id; split)

theorem lockmonStart_keeps (h : Keeps p r s) (hh : Half) (pll : Pll) (_ : p .draws := by assumption) (_ : p (.regs .ck) := by assumption) :
    Keeps p r (State.lockmonStart s hh pll) := by
  unfold State.lockmonStart
  repeat' first
    | with_reducible assumption
    | (show p (.regs _); assumption)
    | with_reducible apply Keeps.ite
    | with_reducible apply wr_keeps
    | with_reducible apply draw_keeps
    | (with_reducible refine Keeps.via ?_ id; split)

theorem enableCorePll_keeps (h : Keeps p r s) (hh : Half) (_ : p .clocks := by assumption) (_ : p .draws := by assumption) (_ : p (.regs .ck) := by assumption) :
    Keeps p r (State.enableCorePll s hh) := by
  unfold State.enableCorePll
  repeat' first
    | with_reducible assumption
    | (extract_lets +onlyGivenNames y; refine Keeps.via (x := y) ?_ (fun _ => ?_); subst y; rotate_left; clear_value y)
    | (extract_lets +onlyGivenNames y; clear_value y)
    | with_reducible apply lockmonStart_keeps
    | with_reducible apply modCk_keeps
    | with_reducible apply_assumption

theorem coastDlls_keeps (h : Keeps p r s) (hh : Half) (_ : p (.regs .ck) := by assumption) :
    Keeps p r (State.coastDlls s hh) := by
  unfold State.coastDlls
  repeat' first
    | with_reducible assumption
    | (show p (.regs _); assumption)
    | with_reducible apply Keeps.ite
    | with_reducible apply bump_keeps
    | with_reducible apply wr_keeps
    | with_reducible refine Keeps.foldl _ ?_ (fun _ _ _ => ?_)
    | (with_reducible refine Keeps.via ?_ id; split)
    | with_reducible apply_assumption

theorem relockDlls_keeps (h : Keeps p r s) (hh : Half) (_ : p (.regs .ck) := by assumption) :
    Keeps p r (State.relockDlls s hh) := by
  unfold State.relockDlls
  repeat' first
    | with_reducible assumption
    | (show p (.regs _); assumption)
    | with_reducible apply Keeps.ite
    | with_reducible apply wr_keeps
    | with_reducible refine Keeps.foldl _ ?_ (fun _ _ _ => ?_)
    | (with_reducible refine Keeps.via ?_ id; split)
    | with_reducible apply_assumption

theorem holdMemory_keeps (h : Keeps p r s) (hh : Half) (_ : p .cells := by assumption) (_ : p .memory := by assumption) (_ : p (.regs .ck) := by assumption) (_ : p (.regs .dc) := by assumption) :
    Keeps p r (State.holdMemory s hh) := by
  unfold State.holdMemory
  repeat' first
    | with_reducible assumption
    | (show p (.regs _); assumption)
    | (extract_lets +onlyGivenNames y; refine Keeps.via (x := y) ?_ (fun _ => ?_); subst y; rotate_left; clear_value y)
    | (extract_lets +onlyGivenNames y; clear_value y)
    | with_reducible apply wr_keeps
    | with_reducible apply coastDlls_keeps
    | with_reducible apply selfRefreshHalf_keeps

theorem resumeMemory_keeps (h : Keeps p r s) (hh : Half) (quick : List (Fin 16 × QuickTrack)) (_ : p .memory := by assumption) (_ : p .heads := by assumption) (_ : p .lamps := by assumption) (_ : p (.regs .ck) := by assumption) (_ : p (.regs .le) := by assumption) (_ : p (.regs .dc) := by assumption) (_ : p (.regs .di) := by assumption) :
    Keeps p r (State.resumeMemory s hh quick) := by
  unfold State.resumeMemory
  repeat' first
    | with_reducible assumption
    | (show p (.regs _); assumption)
    | (extract_lets +onlyGivenNames y; refine Keeps.via (x := y) ?_ (fun _ => ?_); subst y; rotate_left; clear_value y)
    | (extract_lets +onlyGivenNames y; clear_value y)
    | with_reducible apply wr_keeps
    | with_reducible apply resumeHalf_keeps
    | with_reducible apply relockDlls_keeps

theorem refclkLoss_kept (h : Keeps p r s) (_ : p .cells := by assumption) (_ : p .memory := by assumption) (_ : p .waiting := by assumption) (_ : p (.regs .ck) := by assumption) (_ : p (.regs .dc) := by assumption) (_ : p (.regs .hp) := by assumption) :
    Keeps p r (refclkLoss s) := by
  unfold refclkLoss
  repeat' first
    | with_reducible assumption
    | (show p (.regs _); assumption)
    | (extract_lets +onlyGivenNames y; refine Keeps.via (x := y) ?_ (fun _ => ?_); subst y; rotate_left; clear_value y)
    | (extract_lets +onlyGivenNames y; clear_value y)
    | with_reducible apply Keeps.ite
    | with_reducible apply bump_keeps
    | with_reducible apply wr_keeps
    | with_reducible apply raise_keeps
    | with_reducible apply recoverHeads_keeps
    | with_reducible apply holdMemory_keeps
    | with_reducible refine Keeps.foldl _ ?_ (fun _ _ _ => ?_)
    | (with_reducible refine Keeps.via ?_ id; split)
    | with_reducible apply_assumption

theorem refclkReturn_kept (h : Keeps p r s) (quick : List (Fin 16 × QuickTrack)) (_ : p .memory := by assumption) (_ : p .heads := by assumption) (_ : p .lamps := by assumption) (_ : p .clocks := by assumption) (_ : p .draws := by assumption) (_ : p (.regs .ck) := by assumption) (_ : p (.regs .le) := by assumption) (_ : p (.regs .dc) := by assumption) (_ : p (.regs .di) := by assumption) :
    Keeps p r (refclkReturn quick s) := by
  unfold refclkReturn
  repeat' first
    | with_reducible assumption
    | (show p (.regs _); assumption)
    | (extract_lets +onlyGivenNames y; refine Keeps.via (x := y) ?_ (fun _ => ?_); subst y; rotate_left; clear_value y)
    | (extract_lets +onlyGivenNames y; clear_value y)
    | with_reducible apply Keeps.ite
    | with_reducible apply wr_keeps
    | with_reducible apply resumeMemory_keeps
    | with_reducible apply enableCorePll_keeps
    | with_reducible refine Keeps.foldl _ ?_ (fun _ _ _ => ?_)
    | (with_reducible refine Keeps.via ?_ id; split)
    | with_reducible apply_assumption

theorem refclkLossTimeout_kept (h : Keeps p r s) (_ : p .cells := by assumption) (_ : p .memory := by assumption) (_ : p .store := by assumption) (_ : p .waiting := by assumption) (_ : p .timebase := by assumption) (_ : p .schedule := by assumption) (_ : p .heads := by assumption) (_ : p .lamps := by assumption) (_ : p .welt := by assumption) (_ : p .power := by assumption) (_ : p .outputs := by assumption) (_ : p .draws := by assumption) (_ : p (.regs .ps) := by assumption) (_ : p (.regs .le) := by assumption) (_ : p (.regs .mi) := by assumption) (_ : p (.regs .dc) := by assumption) (_ : p (.regs .di) := by assumption) (_ : p (.regs .hp) := by assumption) :
    Keeps p r (refclkLossTimeout s) := by
  unfold refclkLossTimeout
  repeat' first
    | with_reducible assumption
    | with_reducible apply Keeps.ite
    | with_reducible apply enterFatal_keeps
    | with_reducible apply raise_keeps
    | with_reducible refine Keeps.foldl _ ?_ (fun _ _ _ => ?_)
    | (with_reducible refine Keeps.via ?_ id; split)
    | with_reducible apply_assumption

theorem corePllLost_keeps (h : Keeps p r s) (hh : Half) (_ : p .cells := by assumption) (_ : p .memory := by assumption) (_ : p .store := by assumption) (_ : p .waiting := by assumption) (_ : p .timebase := by assumption) (_ : p .schedule := by assumption) (_ : p .heads := by assumption) (_ : p .lamps := by assumption) (_ : p .welt := by assumption) (_ : p .power := by assumption) (_ : p .outputs := by assumption) (_ : p .draws := by assumption) (_ : p (.regs .ps) := by assumption) (_ : p (.regs .ck) := by assumption) (_ : p (.regs .le) := by assumption) (_ : p (.regs .mi) := by assumption) (_ : p (.regs .dc) := by assumption) (_ : p (.regs .di) := by assumption) (_ : p (.regs .hp) := by assumption) :
    Keeps p r (State.corePllLost s hh) := by
  unfold State.corePllLost
  repeat' first
    | with_reducible assumption
    | (show p (.regs _); assumption)
    | with_reducible apply Keeps.ite
    | with_reducible apply enterFatal_keeps
    | with_reducible apply raise_keeps
    | with_reducible apply wr_keeps
    | (with_reducible refine Keeps.via ?_ id; split)

theorem memoryPllLost_keeps (h : Keeps p r s) (hh : Half) (_ : p .cells := by assumption) (_ : p .memory := by assumption) (_ : p .store := by assumption) (_ : p .waiting := by assumption) (_ : p .timebase := by assumption) (_ : p .schedule := by assumption) (_ : p .heads := by assumption) (_ : p .lamps := by assumption) (_ : p .clocks := by assumption) (_ : p .welt := by assumption) (_ : p .power := by assumption) (_ : p .outputs := by assumption) (_ : p .draws := by assumption) (_ : p (.regs .ps) := by assumption) (_ : p (.regs .ck) := by assumption) (_ : p (.regs .le) := by assumption) (_ : p (.regs .mi) := by assumption) (_ : p (.regs .dc) := by assumption) (_ : p (.regs .di) := by assumption) (_ : p (.regs .hp) := by assumption) :
    Keeps p r (State.memoryPllLost s hh) := by
  unfold State.memoryPllLost
  repeat' first
    | with_reducible assumption
    | (show p (.regs _); assumption)
    | (extract_lets +onlyGivenNames y; refine Keeps.via (x := y) ?_ (fun _ => ?_); subst y; rotate_left; clear_value y)
    | (extract_lets +onlyGivenNames y; clear_value y)
    | with_reducible apply Keeps.ite
    | with_reducible apply bump_keeps
    | with_reducible apply holdMemory_keeps
    | with_reducible apply modCk_keeps
    | with_reducible apply enterFatal_keeps
    | with_reducible apply raise_keeps
    | (with_reducible refine Keeps.via ?_ id; split)
    | with_reducible apply_assumption

theorem noteLoss_keeps (h : Keeps p r s) (hh : Half) (pll : Pll) (_ : p .draws := by assumption) (_ : p (.regs .ck) := by assumption) :
    Keeps p r (State.noteLoss s hh pll) := by
  unfold State.noteLoss
  repeat' first
    | with_reducible assumption
    | with_reducible apply Keeps.ite
    | with_reducible apply lockmonMv_keeps
    | (with_reducible refine Keeps.via ?_ id; split)

theorem corePllLockLost_kept (h : Keeps p r s) (hh : Half) (_ : p .cells := by assumption) (_ : p .memory := by assumption) (_ : p .store := by assumption) (_ : p .waiting := by assumption) (_ : p .timebase := by assumption) (_ : p .schedule := by assumption) (_ : p .heads := by assumption) (_ : p .lamps := by assumption) (_ : p .welt := by assumption) (_ : p .power := by assumption) (_ : p .outputs := by assumption) (_ : p .draws := by assumption) (_ : p (.regs .ps) := by assumption) (_ : p (.regs .ck) := by assumption) (_ : p (.regs .le) := by assumption) (_ : p (.regs .mi) := by assumption) (_ : p (.regs .dc) := by assumption) (_ : p (.regs .di) := by assumption) (_ : p (.regs .hp) := by assumption) :
    Keeps p r (corePllLockLost hh s) := by
  unfold corePllLockLost
  repeat' first
    | with_reducible assumption
    | with_reducible apply corePllLost_keeps
    | with_reducible apply noteLoss_keeps

theorem memoryPllLockLost_kept (h : Keeps p r s) (hh : Half) (_ : p .cells := by assumption) (_ : p .memory := by assumption) (_ : p .store := by assumption) (_ : p .waiting := by assumption) (_ : p .timebase := by assumption) (_ : p .schedule := by assumption) (_ : p .heads := by assumption) (_ : p .lamps := by assumption) (_ : p .clocks := by assumption) (_ : p .welt := by assumption) (_ : p .power := by assumption) (_ : p .outputs := by assumption) (_ : p .draws := by assumption) (_ : p (.regs .ps) := by assumption) (_ : p (.regs .ck) := by assumption) (_ : p (.regs .le) := by assumption) (_ : p (.regs .mi) := by assumption) (_ : p (.regs .dc) := by assumption) (_ : p (.regs .di) := by assumption) (_ : p (.regs .hp) := by assumption) :
    Keeps p r (memoryPllLockLost hh s) := by
  unfold memoryPllLockLost
  repeat' first
    | with_reducible assumption
    | with_reducible apply memoryPllLost_keeps
    | with_reducible apply noteLoss_keeps

theorem memoryPllRelockTimeout_kept (h : Keeps p r s) (hh : Half) (_ : p .cells := by assumption) (_ : p .memory := by assumption) (_ : p .store := by assumption) (_ : p .waiting := by assumption) (_ : p .timebase := by assumption) (_ : p .schedule := by assumption) (_ : p .heads := by assumption) (_ : p .lamps := by assumption) (_ : p .welt := by assumption) (_ : p .power := by assumption) (_ : p .outputs := by assumption) (_ : p .draws := by assumption) (_ : p (.regs .ps) := by assumption) (_ : p (.regs .le) := by assumption) (_ : p (.regs .mi) := by assumption) (_ : p (.regs .dc) := by assumption) (_ : p (.regs .di) := by assumption) (_ : p (.regs .hp) := by assumption) :
    Keeps p r (memoryPllRelockTimeout hh s) := by
  unfold memoryPllRelockTimeout
  repeat' first
    | with_reducible assumption
    | with_reducible apply Keeps.ite
    | with_reducible apply enterFatal_keeps
    | with_reducible apply raise_keeps
    | (with_reducible refine Keeps.via ?_ id; split)

theorem declareLock_keeps (h : Keeps p r s) (hh : Half) (pll : Pll) (quick : List (Fin 16 × QuickTrack)) (_ : p .memory := by assumption) (_ : p .heads := by assumption) (_ : p .lamps := by assumption) (_ : p .clocks := by assumption) (_ : p .draws := by assumption) (_ : p (.regs .ck) := by assumption) (_ : p (.regs .le) := by assumption) (_ : p (.regs .dc) := by assumption) (_ : p (.regs .di) := by assumption) :
    Keeps p r (State.declareLock s hh pll quick) := by
  unfold State.declareLock
  repeat' first
    | with_reducible assumption
    | (show p (.regs _); assumption)
    | with_reducible apply Keeps.ite
    | with_reducible apply lockmonStart_keeps
    | with_reducible apply modCk_keeps
    | with_reducible apply wr_keeps
    | with_reducible apply resumeMemory_keeps
    | (with_reducible refine Keeps.via ?_ id; split)
    | with_reducible apply_assumption

theorem lockWindow_kept (h : Keeps p r s) (hh : Half) (pll : Pll) (count : Nat) (quick : List (Fin 16 × QuickTrack)) (_ : p .cells := by assumption) (_ : p .memory := by assumption) (_ : p .store := by assumption) (_ : p .waiting := by assumption) (_ : p .timebase := by assumption) (_ : p .schedule := by assumption) (_ : p .heads := by assumption) (_ : p .lamps := by assumption) (_ : p .clocks := by assumption) (_ : p .welt := by assumption) (_ : p .power := by assumption) (_ : p .outputs := by assumption) (_ : p .draws := by assumption) (_ : p (.regs .ps) := by assumption) (_ : p (.regs .ck) := by assumption) (_ : p (.regs .le) := by assumption) (_ : p (.regs .mi) := by assumption) (_ : p (.regs .dc) := by assumption) (_ : p (.regs .di) := by assumption) (_ : p (.regs .hp) := by assumption) :
    Keeps p r (lockWindow hh pll count quick s) := by
  unfold lockWindow
  repeat' first
    | with_reducible assumption
    | (extract_lets +onlyGivenNames y; refine Keeps.via (x := y) ?_ (fun _ => ?_); subst y; rotate_left; clear_value y)
    | (extract_lets +onlyGivenNames y; clear_value y)
    | with_reducible apply Keeps.ite
    | with_reducible apply modCk_keeps
    | with_reducible apply corePllLost_keeps
    | with_reducible apply memoryPllLost_keeps
    | with_reducible apply declareLock_keeps
    | (with_reducible refine Keeps.via ?_ id; split)
    | with_reducible apply_assumption

theorem lockmonLock_kept (h : Keeps p r s) (hh : Half) (quick : List (Fin 16 × QuickTrack)) (_ : p .memory := by assumption) (_ : p .heads := by assumption) (_ : p .lamps := by assumption) (_ : p .clocks := by assumption) (_ : p .draws := by assumption) (_ : p (.regs .ck) := by assumption) (_ : p (.regs .le) := by assumption) (_ : p (.regs .dc) := by assumption) (_ : p (.regs .di) := by assumption) :
    Keeps p r (lockmonLock hh quick s) := by
  unfold lockmonLock
  repeat' first
    | with_reducible assumption
    | with_reducible apply Keeps.ite
    | with_reducible apply declareLock_keeps
    | with_reducible apply lockmonMv_keeps
    | (with_reducible refine Keeps.via ?_ id; split)

theorem lockmonFallback_kept (h : Keeps p r s) (hh : Half) (_ : p .waiting := by assumption) (_ : p .clocks := by assumption) (_ : p (.regs .ck) := by assumption) :
    Keeps p r (lockmonFallback hh s) := by
  unfold lockmonFallback
  repeat' first
    | with_reducible assumption
    | (show p (.regs _); assumption)
    | (extract_lets +onlyGivenNames y; refine Keeps.via (x := y) ?_ (fun _ => ?_); subst y; rotate_left; clear_value y)
    | (extract_lets +onlyGivenNames y; clear_value y)
    | with_reducible apply Keeps.ite
    | with_reducible apply wr_keeps
    | with_reducible apply modCk_keeps
    | with_reducible apply raise_keeps
    | (with_reducible refine Keeps.via ?_ id; split)
    | with_reducible apply_assumption

theorem loadRamp_keeps (h : Keeps p r s) (hh : Half) (d : Nat) (_ : p .waiting := by assumption) (_ : p (.regs .ck) := by assumption) :
    Keeps p r (State.loadRamp s hh d) := by
  unfold State.loadRamp
  repeat' first
    | with_reducible assumption
    | (show p (.regs _); assumption)
    | (extract_lets +onlyGivenNames y; refine Keeps.via (x := y) ?_ (fun _ => ?_); subst y; rotate_left; clear_value y)
    | (extract_lets +onlyGivenNames y; refine Keeps.via (x := y.2) ?_ (fun _ => ?_); subst y; rotate_left; clear_value y)
    | (extract_lets +onlyGivenNames y; refine Keeps.via (x := y.1) ?_ (fun _ => ?_); subst y; rotate_left; clear_value y)
    | (extract_lets +onlyGivenNames y; clear_value y)
    | with_reducible apply Keeps.ite
    | with_reducible apply wr_keeps
    | with_reducible apply flag_keeps
    | with_reducible apply raise_keeps
    | with_reducible refine Keeps.foldl _ ?_ (fun _ _ _ => ?_)
    | (with_reducible refine Keeps.via ?_ id; split)
    | with_reducible refine Keeps.foldlFst _ ?_ (fun _ _ _ => ?_)
    | with_reducible refine Keeps.foldlSnd _ ?_ (fun _ _ _ => ?_)
    | with_reducible apply_assumption

theorem auxChange_keeps (h : Keeps p r s) (n : Nat) (cfg tick : Word) (_ : p .clocks := by assumption) :
    Keeps p r (State.auxChange s n cfg tick) := by
  unfold State.auxChange
  repeat' first
    | with_reducible assumption
    | (extract_lets +onlyGivenNames y; refine Keeps.via (x := y) ?_ (fun _ => ?_); subst y; rotate_left; clear_value y)
    | (extract_lets +onlyGivenNames y; clear_value y)
    | with_reducible apply Keeps.ite
    | with_reducible apply modCk_keeps
    | (with_reducible refine Keeps.via ?_ id; split)
    | with_reducible apply_assumption

theorem auxWrite_keeps (h : Keeps p r s) (n : Nat) (old : Word) (v : Nat) (_ : p .clocks := by assumption) (_ : p (.regs .ck) := by assumption) :
    Keeps p r (State.auxWrite s n old v) := by
  unfold State.auxWrite
  repeat' first
    | with_reducible assumption
    | exact blockOf_is (blockOf_fld _) (by assumption)
    | exact blockOf_is (c := .ck) (blockOf_page (show _ = 4 by omega)) (by assumption)
    | (show p (.regs _); assumption)
    | (extract_lets +onlyGivenNames y; refine Keeps.via (x := y) ?_ (fun _ => ?_); subst y; rotate_left; clear_value y)
    | (extract_lets +onlyGivenNames y; clear_value y)
    | with_reducible apply Keeps.ite
    | with_reducible apply wr_keeps
    | with_reducible apply setWord_keeps
    | with_reducible apply auxChange_keeps
    | (with_reducible refine Keeps.via ?_ id; split)

theorem auxckConfigWrite_kept (h : Keeps p r s) (pp : Path) (n : Fin 4) (tick : Bool) (v : Word) (_ : p .audit := by assumption) (_ : p .waiting := by assumption) (_ : p .access := by assumption) (_ : p .clocks := by assumption) (_ : p (.regs .mg) := by assumption) (_ : p (.regs .ck) := by assumption) : Keeps p r (auxckConfigWrite pp n tick v s) := by
  unfold auxckConfigWrite
  refine gatedWrite_keeps h _ _ _ _ _ (fun x hx => ?_) (blockOf_is (c := .ck) (blockOf_page (show _ = 4 by cases tick <;> unfold b2n <;> simp <;> omega)) (by assumption))
  split
  · exact auxChange_keeps (wr_keeps hx _ _) _ _ _
  · exact auxWrite_keeps hx _ _ _

theorem submit_keeps (h : Keeps p r s) (pp : Path) (op : Nat) (_ : p .audit := by assumption) (_ : p .waiting := by assumption) (_ : p .schedule := by assumption) (_ : p (.regs .mg) := by assumption) (_ : p (.regs .fs) := by assumption) :
    Keeps p r (State.submit s pp op) := by
  unfold State.submit
  repeat' first
    | with_reducible assumption
    | (show p (.regs _); assumption)
    | (extract_lets +onlyGivenNames y; refine Keeps.via (x := y) ?_ (fun _ => ?_); subst y; rotate_left; clear_value y)
    | (extract_lets +onlyGivenNames y; clear_value y)
    | with_reducible apply Keeps.ite
    | with_reducible apply wr_keeps
    | with_reducible apply wrap_keeps
    | with_reducible apply raise_keeps
    | with_reducible apply bump_keeps
    | with_reducible apply audit_keeps
    | with_reducible apply modSched_keeps
    | (with_reducible refine Keeps.via ?_ id; split)
    | with_reducible apply_assumption

theorem askTs_keeps (h : Keeps p r s) (n : Nat) (_ : p .memory := by assumption) (_ : p (.regs .dc) := by assumption) :
    Keeps p r (State.askTs n s) := by
  unfold State.askTs
  repeat' first
    | with_reducible assumption
    | with_reducible apply Keeps.ite
    | with_reducible apply requestTs_keeps
    | (with_reducible refine Keeps.via ?_ id; split)

theorem loadTimings_keeps (h : Keeps p r s) (hh : Half) (l : LastCfg) (_ : p .memory := by assumption) (_ : p (.regs .dc) := by assumption) :
    Keeps p r (State.loadTimings s hh l) := by
  unfold State.loadTimings
  repeat' first
    | with_reducible assumption
    | (show p (.regs _); assumption)
    | (extract_lets +onlyGivenNames y; refine Keeps.via (x := y) ?_ (fun _ => ?_); subst y; rotate_left; clear_value y)
    | (extract_lets +onlyGivenNames y; refine Keeps.via (x := y.2) ?_ (fun _ => ?_); subst y; rotate_left; clear_value y)
    | (extract_lets +onlyGivenNames y; refine Keeps.via (x := y.1) ?_ (fun _ => ?_); subst y; rotate_left; clear_value y)
    | (extract_lets +onlyGivenNames y; refine Keeps.viaFun (x := y) (fun _ => ?_) (fun _ => ?_); subst y; rotate_left; clear_value y)
    | (extract_lets +onlyGivenNames y; clear_value y)
    | with_reducible apply askTs_keeps
    | with_reducible apply wr_keeps
    | with_reducible refine Keeps.foldl _ ?_ (fun _ _ _ => ?_)
    | with_reducible refine Keeps.foldlFst _ ?_ (fun _ _ _ => ?_)
    | with_reducible refine Keeps.foldlSnd _ ?_ (fun _ _ _ => ?_)
    | with_reducible apply_assumption

theorem cdatChanged_keeps (h : Keeps p r s) (hh : Half) (_ : p .waiting := by assumption) (_ : p .heads := by assumption) (_ : p .outputs := by assumption) :
    Keeps p r (State.cdatChanged s hh) := by
  unfold State.cdatChanged
  repeat' first
    | with_reducible assumption
    | with_reducible apply Keeps.ite
    | with_reducible apply msix_keeps
    | with_reducible apply raise_keeps
    | with_reducible refine Keeps.foldl _ ?_ (fun _ _ _ => ?_)
    | (with_reducible refine Keeps.via ?_ id; split)
    | with_reducible apply_assumption

theorem activateLast_keeps (h : Keeps p r s) (hh : Half) (n : Nat) (l : LastCfg) (_ : p .memory := by assumption) (_ : p .waiting := by assumption) (_ : p .schedule := by assumption) (_ : p .heads := by assumption) (_ : p .lamps := by assumption) (_ : p .outputs := by assumption) (_ : p (.regs .le) := by assumption) (_ : p (.regs .dc) := by assumption) :
    Keeps p r (State.activateLast s hh n l) := by
  unfold State.activateLast
  repeat' first
    | with_reducible assumption
    | (extract_lets +onlyGivenNames y; refine Keeps.via (x := y) ?_ (fun _ => ?_); subst y; rotate_left; clear_value y)
    | (extract_lets +onlyGivenNames y; refine Keeps.via (x := y.1) ?_ (fun _ => ?_); subst y; rotate_left; clear_value y)
    | (extract_lets +onlyGivenNames y; clear_value y)
    | with_reducible apply Keeps.ite
    | with_reducible apply modSched_keeps
    | with_reducible apply modLe_keeps
    | with_reducible apply endSleep_keeps
    | with_reducible apply loadTimings_keeps
    | with_reducible apply cdatChanged_keeps
    | with_reducible refine Keeps.foldl _ ?_ (fun _ _ _ => ?_)
    | (with_reducible refine Keeps.via ?_ id; split)
    | exact State.Sorted.modMg rfl rfl
    | exact State.Sorted.modLe rfl rfl
    | exact id
    | with_reducible refine Keeps.foldlFst _ ?_ (fun _ _ _ => ?_)
    | with_reducible refine Keeps.ofSnd (by assumption) ?_
    | with_reducible refine Keeps.ofFst (by assumption) ?_
    | with_reducible apply_assumption

theorem applyCmd_keeps (h : Keeps p r s) (hh : Half) (k : Nat) (q : Cmd) (_ : p .memory := by assumption) (_ : p .audit := by assumption) (_ : p .waiting := by assumption) (_ : p .schedule := by assumption) (_ : p .heads := by assumption) (_ : p .lamps := by assumption) (_ : p .outputs := by assumption) (_ : p (.regs .mg) := by assumption) (_ : p (.regs .le) := by assumption) (_ : p (.regs .dc) := by assumption) :
    Keeps p r (State.applyCmd s hh k q) := by
  unfold State.applyCmd
  repeat' first
    | with_reducible assumption
    | (extract_lets +onlyGivenNames y; refine Keeps.via (x := y) ?_ (fun _ => ?_); subst y; rotate_left; clear_value y)
    | (extract_lets +onlyGivenNames y; clear_value y)
    | with_reducible apply Keeps.ite
    | with_reducible apply raise_keeps
    | with_reducible apply audit_keeps
    | with_reducible apply modSched_keeps
    | with_reducible apply activateLast_keeps
    | (with_reducible refine Keeps.via ?_ id; split)
    | with_reducible refine Keeps.ofSnd (by assumption) ?_
    | with_reducible refine Keeps.ofFst (by assumption) ?_
    | with_reducible apply_assumption

theorem applyActivation_keeps (h : Keeps p r s) (hh : Half) (k e : Nat) (_ : p .memory := by assumption) (_ : p .audit := by assumption) (_ : p .waiting := by assumption) (_ : p .schedule := by assumption) (_ : p .heads := by assumption) (_ : p .lamps := by assumption) (_ : p .outputs := by assumption) (_ : p (.regs .mg) := by assumption) (_ : p (.regs .le) := by assumption) (_ : p (.regs .dc) := by assumption) :
    Keeps p r (State.applyActivation s hh k e) := by
  unfold State.applyActivation
  repeat' first
    | with_reducible assumption
    | (extract_lets +onlyGivenNames y; refine Keeps.via (x := y) ?_ (fun _ => ?_); subst y; rotate_left; clear_value y)
    | (extract_lets +onlyGivenNames y; clear_value y)
    | with_reducible apply Keeps.ite
    | with_reducible apply audit_keeps
    | with_reducible apply activateLast_keeps
    | with_reducible apply modSched_keeps
    | (with_reducible refine Keeps.via ?_ id; split)
    | with_reducible apply_assumption

theorem applyDue_keeps (h : Keeps p r s) (hh : Half) (k : Nat) (_ : p .memory := by assumption) (_ : p .audit := by assumption) (_ : p .waiting := by assumption) (_ : p .schedule := by assumption) (_ : p .heads := by assumption) (_ : p .lamps := by assumption) (_ : p .outputs := by assumption) (_ : p (.regs .mg) := by assumption) (_ : p (.regs .le) := by assumption) (_ : p (.regs .dc) := by assumption) :
    Keeps p r (State.applyDue s hh k) := by
  unfold State.applyDue
  repeat' first
    | with_reducible assumption
    | (extract_lets +onlyGivenNames y; refine Keeps.via (x := y) ?_ (fun _ => ?_); subst y; rotate_left; clear_value y)
    | (extract_lets +onlyGivenNames y; clear_value y)
    | with_reducible apply modSched_keeps
    | with_reducible apply applyActivation_keeps
    | with_reducible apply applyCmd_keeps
    | with_reducible refine Keeps.foldl _ ?_ (fun _ _ _ => ?_)
    | (with_reducible refine Keeps.via ?_ id; split)
    | with_reducible apply_assumption

theorem cancelLast_keeps (h : Keeps p r s) (pp : Path) (_ : p .audit := by assumption) (_ : p .schedule := by assumption) (_ : p (.regs .mg) := by assumption) :
    Keeps p r (State.cancelLast s pp) := by
  unfold State.cancelLast
  repeat' first
    | with_reducible assumption
    | (extract_lets +onlyGivenNames y; refine Keeps.via (x := y) ?_ (fun _ => ?_); subst y; rotate_left; clear_value y)
    | (extract_lets +onlyGivenNames y; clear_value y)
    | with_reducible apply audit_keeps
    | with_reducible apply modSched_keeps
    | with_reducible apply_assumption

theorem activateArmed_keeps (h : Keeps p r s) (pp : Path) (_ : p .audit := by assumption) (_ : p .schedule := by assumption) (_ : p (.regs .mg) := by assumption) :
    Keeps p r (State.activateArmed s pp) := by
  unfold State.activateArmed
  repeat' first
    | with_reducible assumption
    | (extract_lets +onlyGivenNames y; refine Keeps.via (x := y) ?_ (fun _ => ?_); subst y; rotate_left; clear_value y)
    | (extract_lets +onlyGivenNames y; clear_value y)
    | with_reducible apply Keeps.ite
    | with_reducible apply audit_keeps
    | with_reducible apply modSched_keeps
    | (with_reducible refine Keeps.via ?_ id; split)
    | with_reducible apply_assumption

theorem admitWrite_keeps (h : Keeps p r s) (pp : Path) (_ : p .audit := by assumption) (_ : p .lasts := by assumption) (_ : p (.regs .mg) := by assumption) : Keeps p r (State.admitWrite s pp) := by
  unfold State.admitWrite
  extract_lets n
  refine Keeps.ite (audit_keeps h _ _ _ _ _ _ _) ?_
  exact Keeps.of_eq (admitStart_keeps h n) rfl le_rfl le_rfl List.prefix_rfl rfl rfl rfl rfl rfl rfl rfl rfl fun x hx => by cases x <;> first | rfl | exact Part.Same.regs rfl | exact absurd (by assumption) hx

theorem lastCtrl_keeps (h : Keeps p r s) (pp : Path) (v : Nat) (_ : p .audit := by assumption) (_ : p .schedule := by assumption) (_ : p .lasts := by assumption) (_ : p (.regs .mg) := by assumption) :
    Keeps p r (State.lastCtrl s pp v) := by
  unfold State.lastCtrl
  repeat' first
    | with_reducible assumption
    | (extract_lets +onlyGivenNames y; refine Keeps.via (x := y) ?_ (fun _ => ?_); subst y; rotate_left; clear_value y)
    | (extract_lets +onlyGivenNames y; clear_value y)
    | with_reducible apply Keeps.ite
    | with_reducible apply cancelLast_keeps
    | with_reducible apply activateArmed_keeps
    | with_reducible apply admitWrite_keeps
    | (with_reducible refine Keeps.via ?_ id; split)

theorem lutSwap_keeps (h : Keeps p r s) (_ : p .lamps := by assumption) (_ : p (.regs .le) := by assumption) :
    Keeps p r (State.lutSwap s) := by
  unfold State.lutSwap
  repeat' first
    | with_reducible assumption
    | (show p (.regs _); assumption)
    | with_reducible apply wr_keeps
    | with_reducible apply modLe_keeps
    | exact State.Sorted.modMg rfl rfl
    | exact State.Sorted.modLe rfl rfl
    | exact id
    | with_reducible apply_assumption

theorem lutDue_keeps (h : Keeps p r s) (hh : Half) (k : Nat) (_ : p .audit := by assumption) (_ : p .lamps := by assumption) (_ : p (.regs .mg) := by assumption) (_ : p (.regs .le) := by assumption) :
    Keeps p r (State.lutDue s hh k) := by
  unfold State.lutDue
  repeat' first
    | with_reducible assumption
    | with_reducible apply Keeps.ite
    | with_reducible apply lutSwap_keeps
    | with_reducible apply audit_keeps
    | (with_reducible refine Keeps.via ?_ id; split)

theorem lutCommit_keeps (h : Keeps p r s) (pp : Path) (_ : p .audit := by assumption) (_ : p .lamps := by assumption) (_ : p (.regs .mg) := by assumption) (_ : p (.regs .le) := by assumption) :
    Keeps p r (State.lutCommit s pp) := by
  unfold State.lutCommit
  repeat' first
    | with_reducible assumption
    | (show p (.regs _); assumption)
    | (extract_lets +onlyGivenNames y; refine Keeps.via (x := y) ?_ (fun _ => ?_); subst y; rotate_left; clear_value y)
    | (extract_lets +onlyGivenNames y; clear_value y)
    | with_reducible apply Keeps.ite
    | with_reducible apply audit_keeps
    | with_reducible apply wr_keeps
    | with_reducible apply modLe_keeps
    | with_reducible apply lutSwap_keeps
    | (with_reducible refine Keeps.via ?_ id; split)
    | exact State.Sorted.modMg rfl rfl
    | exact State.Sorted.modLe rfl rfl
    | exact id
    | with_reducible apply_assumption

theorem lutCtrl_keeps (h : Keeps p r s) (pp : Path) (old : Word) (v : Nat) (_ : p .audit := by assumption) (_ : p .lamps := by assumption) (_ : p (.regs .mg) := by assumption) (_ : p (.regs .le) := by assumption) :
    Keeps p r (State.lutCtrl s pp old v) := by
  unfold State.lutCtrl
  repeat' first
    | with_reducible assumption
    | (show p (.regs _); assumption)
    | (extract_lets +onlyGivenNames y; refine Keeps.via (x := y) ?_ (fun _ => ?_); subst y; rotate_left; clear_value y)
    | (extract_lets +onlyGivenNames y; clear_value y)
    | with_reducible apply Keeps.ite
    | with_reducible apply wr_keeps
    | with_reducible apply lutCommit_keeps
    | (with_reducible refine Keeps.via ?_ id; split)

theorem lutRead_keeps (h : Keeps p r s) (_ : p (.regs .le) := by assumption) :
    Keeps p r (State.lutRead s).2 := by
  unfold State.lutRead
  repeat' first
    | with_reducible assumption
    | (show p (.regs _); assumption)
    | with_reducible apply wrap_keeps
    | (with_reducible refine Keeps.via ?_ id; split)

theorem lutWrite_keeps (h : Keeps p r s) (pp : Path) (v : Nat) (_ : p .audit := by assumption) (_ : p .lamps := by assumption) (_ : p (.regs .mg) := by assumption) (_ : p (.regs .le) := by assumption) :
    Keeps p r (State.lutWrite s pp v) := by
  unfold State.lutWrite
  repeat' first
    | with_reducible assumption
    | exact blockOf_is (blockOf_fld _) (by assumption)
    | exact blockOf_is (c := .mg) (blockOf_page (show _ = 0 by omega)) (by assumption)
    | exact blockOf_is (c := .le) (blockOf_page (show _ = 7 by omega)) (by assumption)
    | (show p (.regs _); assumption)
    | (extract_lets +onlyGivenNames y; refine Keeps.via (x := y) ?_ (fun _ => ?_); subst y; rotate_left; clear_value y)
    | (extract_lets +onlyGivenNames y; clear_value y)
    | with_reducible apply Keeps.ite
    | with_reducible apply setWord_keeps
    | with_reducible apply audit_keeps
    | with_reducible apply auditRefusal_keeps
    | with_reducible apply modLe_keeps
    | with_reducible apply wrap_keeps
    | (with_reducible refine Keeps.via ?_ id; split)
    | exact State.Sorted.modMg rfl rfl
    | exact State.Sorted.modLe rfl rfl
    | exact fun i => ⟨i.1, Sparse.rising_put _ _ i.2.1, i.2.2⟩
    | exact id
    | with_reducible apply_assumption

/-- The two banks after the copy of the active one are in order. -/
theorem lutCopied_rising (b : Nat) {l : Sparse Nat} (hb : b < 2) (h : Sparse.rising l = true) :
    Sparse.rising (if b = 0 then (l.filter fun e => e.1 / 2 ^ 20 == b) ++ (l.filter fun e => e.1 / 2 ^ 20 == b).map fun e =>
        (lutKey (1 - b) 0 0 + e.1 % 2 ^ 20, e.2)
      else ((l.filter fun e => e.1 / 2 ^ 20 == b).map fun e => (lutKey (1 - b) 0 0 + e.1 % 2 ^ 20, e.2)) ++
        (l.filter fun e => e.1 / 2 ^ 20 == b)) = true := by
  rw [Sparse.rising_iff] at *
  have hf : (l.filter fun e => e.1 / 2 ^ 20 == b).Pairwise (fun p q => p.1 < q.1) := h.filter _
  have hk : ∀ e ∈ l.filter (fun e => e.1 / 2 ^ 20 == b), e.1 / 2 ^ 20 = b := fun e he => by simpa using (List.mem_filter.1 he).2
  have hm : ((l.filter fun e => e.1 / 2 ^ 20 == b).map fun e => (lutKey (1 - b) 0 0 + e.1 % 2 ^ 20, e.2)).Pairwise (fun p q => p.1 < q.1) := by
    rw [List.pairwise_map]
    refine List.Pairwise.imp_of_mem ?_ hf
    intro p q hp hq hlt
    have := hk p hp; have := hk q hq
    dsimp only; omega
  split
  · subst b
    refine List.pairwise_append.2 ⟨hf, hm, fun p hp q hq => ?_⟩
    obtain ⟨e, he, rfl⟩ := List.mem_map.1 hq
    have := hk p hp; have := hk e he
    simp only [lutKey]; omega
  · have : b = 1 := by omega
    subst b
    refine List.pairwise_append.2 ⟨hm, hf, fun p hp q hq => ?_⟩
    obtain ⟨e, he, rfl⟩ := List.mem_map.1 hp
    have := hk e he; have := hk q hq
    simp only [lutKey]; omega

theorem lutCopied_keeps (h : Keeps p r s) (_ : p .lamps := by assumption) (_ : p (.regs .le) := by assumption) : Keeps p r (State.lutCopied s) := by
  unfold State.lutCopied
  refine wr_keeps (modLe_keeps h _ (by assumption) ?_) _ _
  exact fun i => ⟨i.1, lutCopied_rising s.lutBank (by unfold State.lutBank State.rd bits; exact Nat.mod_lt _ (by decide)) i.2.1, i.2.2⟩

theorem fenceHalf_keeps (h : Keeps p r s) (hh : Half) (_ : p .memory := by assumption) (_ : p .roles := by assumption) (_ : p .audit := by assumption) (_ : p .waiting := by assumption) (_ : p .schedule := by assumption) (_ : p .heads := by assumption) (_ : p .access := by assumption) (_ : p .lamps := by assumption) (_ : p .welt := by assumption) (_ : p .outputs := by assumption) (_ : p (.regs .mg) := by assumption) (_ : p (.regs .fs) := by assumption) (_ : p (.regs .le) := by assumption) (_ : p (.regs .dc) := by assumption) (_ : p (.regs .hp) := by assumption) :
    Keeps p r (State.fenceHalf s hh) := by
  unfold State.fenceHalf
  repeat' first
    | with_reducible assumption
    | (show p (.regs _); assumption)
    | (extract_lets +onlyGivenNames y; refine Keeps.via (x := y) ?_ (fun _ => ?_); subst y; rotate_left; clear_value y)
    | (extract_lets +onlyGivenNames y; clear_value y)
    | with_reducible apply Keeps.ite
    | with_reducible apply modWh_keeps
    | with_reducible apply headsOff_keeps
    | with_reducible apply wr_keeps
    | with_reducible apply fenceEngine_keeps
    | with_reducible refine Keeps.foldl _ ?_ (fun _ _ _ => ?_)
    | (with_reducible refine Keeps.via ?_ id; split)
    | with_reducible apply_assumption

theorem enableEngine_keeps (h : Keeps p r s) (e : Nat) (_ : p .lamps := by assumption) (_ : p (.regs .le) := by assumption) :
    Keeps p r (State.enableEngine s e) := by
  unfold State.enableEngine
  repeat' first
    | with_reducible assumption
    | (show p (.regs _); assumption)
    | (extract_lets +onlyGivenNames y; refine Keeps.via (x := y) ?_ (fun _ => ?_); subst y; rotate_left; clear_value y)
    | (extract_lets +onlyGivenNames y; refine Keeps.via (x := y.1) ?_ (fun _ => ?_); subst y; rotate_left; clear_value y)
    | (extract_lets +onlyGivenNames y; clear_value y)
    | with_reducible apply Keeps.ite
    | with_reducible apply wr_keeps
    | with_reducible apply modEng_keeps
    | with_reducible apply modLe_keeps
    | (with_reducible refine Keeps.via ?_ id; split)
    | exact State.Sorted.modMg rfl rfl
    | exact State.Sorted.modLe rfl rfl
    | exact id
    | with_reducible apply_assumption

theorem retarget_keeps (h : Keeps p r s) (hh : Half) (_ : p .lamps := by assumption) :
    Keeps p r (State.retarget s hh) := by
  unfold State.retarget
  repeat' first
    | with_reducible assumption
    | (extract_lets +onlyGivenNames y; refine Keeps.via (x := y) ?_ (fun _ => ?_); subst y; rotate_left; clear_value y)
    | (extract_lets +onlyGivenNames y; clear_value y)
    | with_reducible apply Keeps.ite
    | with_reducible apply modLe_keeps
    | with_reducible refine Keeps.foldl _ ?_ (fun _ _ _ => ?_)
    | (with_reducible refine Keeps.via ?_ id; split)
    | exact State.Sorted.modMg rfl rfl
    | exact State.Sorted.modLe rfl rfl
    | exact id
    | with_reducible apply_assumption

theorem beginEngine_keeps (h : Keeps p r s) (e : Nat) (_ : p .memory := by assumption) (_ : p .heads := by assumption) (_ : p .lamps := by assumption) (_ : p (.regs .le) := by assumption) (_ : p (.regs .dc) := by assumption) :
    Keeps p r (State.beginEngine s e) := by
  unfold State.beginEngine
  repeat' first
    | with_reducible assumption
    | (show p (.regs _); assumption)
    | (extract_lets +onlyGivenNames y; refine Keeps.via (x := y) ?_ (fun _ => ?_); subst y; rotate_left; clear_value y)
    | (extract_lets +onlyGivenNames y; clear_value y)
    | with_reducible apply Keeps.ite
    | with_reducible apply wr_keeps
    | with_reducible apply modEng_keeps
    | with_reducible apply noteEngine_keeps
    | with_reducible apply askWake_keeps
    | (with_reducible refine Keeps.via ?_ id; split)
    | with_reducible apply_assumption

theorem takeTickSrc_keeps (h : Keeps p r s) (_ : p .timebase := by assumption) :
    Keeps p r (State.takeTickSrc s) := by
  unfold State.takeTickSrc
  repeat' first
    | with_reducible assumption
    | (extract_lets +onlyGivenNames y; refine Keeps.via (x := y) ?_ (fun _ => ?_); subst y; rotate_left; clear_value y)
    | (extract_lets +onlyGivenNames y; clear_value y)
    | with_reducible apply Keeps.ite
    | with_reducible apply modTb_keeps
    | (with_reducible refine Keeps.via ?_ id; split)
    | exact Or.inl (by assumption)
    | exact Or.inr rfl
    | exact rfl
    | exact State.Sorted.modMg rfl rfl
    | exact State.Sorted.modLe rfl rfl
    | exact id
    | (dsimp only; split)
    | with_reducible apply_assumption

/-- What a half does with its own time base in front (R323). -/
theorem onBase_keeps (h : Keeps p r s) (hh : Half) (f : State → State) (hf : ∀ r s, Keeps p r s → Keeps p r (f s)) (_ : p .clock := by assumption) (_ : p .timebase := by assumption) (_ : p (.regs .tb) := by assumption) :
    Keeps p r (s.onBase hh f) := by
  unfold State.onBase
  split
  · exact flipFlip_keeps h (hf _ _ (Keeps.refl _))
  · exact hf r s h

theorem setLength_keeps (h : Keeps p r s) (hh : Half) (_ : p .schedule := by assumption) (_ : p (.regs .tb) := by assumption) :
    Keeps p r (State.setLength s hh) := by
  unfold State.setLength
  repeat' first
    | with_reducible assumption
    | (show p (.regs _); assumption)
    | (extract_lets +onlyGivenNames y; refine Keeps.via (x := y) ?_ (fun _ => ?_); subst y; rotate_left; clear_value y)
    | (extract_lets +onlyGivenNames y; clear_value y)
    | with_reducible apply Keeps.ite
    | with_reducible apply flag_keeps
    | with_reducible apply bump_keeps
    | with_reducible apply modSched_keeps
    | (with_reducible refine Keeps.via ?_ id; split)
    | with_reducible refine Keeps.ofSnd (by assumption) ?_
    | with_reducible refine Keeps.ofFst (by assumption) ?_
    | with_reducible apply_assumption

theorem repeatFrom_keeps (h : Keeps p r s) (st : StreamCfg) (e frame c : Nat) (_ : p .lamps := by assumption) (_ : p (.regs .fs) := by assumption) :
    Keeps p r (State.repeatFrom s st e frame c) := by
  unfold State.repeatFrom
  repeat' first
    | with_reducible assumption
    | (show p (.regs _); assumption)
    | (extract_lets +onlyGivenNames y; refine Keeps.via (x := y) ?_ (fun _ => ?_); subst y; rotate_left; clear_value y)
    | (extract_lets +onlyGivenNames y; clear_value y)
    | with_reducible apply bump_keeps
    | with_reducible apply modRing_keeps
    | with_reducible apply_assumption

theorem endEngine_keeps (h : Keeps p r s) (hh : Half) (e : Nat) (_ : p .memory := by assumption) (_ : p .lamps := by assumption) (_ : p (.regs .fs) := by assumption) (_ : p (.regs .le) := by assumption) :
    Keeps p r (State.endEngine s hh e) := by
  unfold State.endEngine
  repeat' first
    | with_reducible assumption
    | (show p (.regs _); assumption)
    | (extract_lets +onlyGivenNames y; refine Keeps.via (x := y) ?_ (fun _ => ?_); subst y; rotate_left; clear_value y)
    | (extract_lets +onlyGivenNames y; clear_value y)
    | with_reducible apply Keeps.ite
    | with_reducible apply repeatFrom_keeps
    | with_reducible apply bump_keeps
    | with_reducible apply modEng_keeps
    | with_reducible apply modMh_keeps
    | with_reducible apply noteEngine_keeps
    | with_reducible apply wr_keeps
    | with_reducible refine Keeps.foldl _ ?_ (fun _ _ _ => ?_)
    | (with_reducible refine Keeps.via ?_ id; split)
    | with_reducible apply_assumption

theorem closeSet_keeps (h : Keeps p r s) (hh : Half) (_ : p .clock := by assumption) (_ : p .timebase := by assumption) (_ : p .schedule := by assumption) :
    Keeps p r (State.closeSet s hh) := by
  unfold State.closeSet
  repeat' first
    | with_reducible assumption
    | (extract_lets +onlyGivenNames y; refine Keeps.via (x := y) ?_ (fun _ => ?_); subst y; rotate_left; clear_value y)
    | (extract_lets +onlyGivenNames y; clear_value y)
    | with_reducible apply Keeps.ite
    | with_reducible apply jumpTo_keeps
    | with_reducible apply modSched_keeps
    | (with_reducible refine Keeps.via ?_ id; split)
    | with_reducible apply_assumption

theorem endProduction_keeps (h : Keeps p r s) (hh : Half) (_ : p .memory := by assumption) (_ : p .flash := by assumption) (_ : p .manage := by assumption) (_ : p .waiting := by assumption) (_ : p .clock := by assumption) (_ : p .timebase := by assumption) (_ : p .schedule := by assumption) (_ : p .heads := by assumption) (_ : p .lamps := by assumption) (_ : p .outputs := by assumption) (_ : p .draws := by assumption) (_ : p (.regs .fs) := by assumption) (_ : p (.regs .le) := by assumption) (_ : p (.regs .mi) := by assumption) (_ : p (.regs .dc) := by assumption) (_ : p (.regs .di) := by assumption) (_ : p (.regs .hp) := by assumption) :
    Keeps p r (State.endProduction s hh) := by
  unfold State.endProduction
  repeat' first
    | with_reducible assumption
    | (extract_lets +onlyGivenNames y; refine Keeps.via (x := y) ?_ (fun _ => ?_); subst y; rotate_left; clear_value y)
    | (extract_lets +onlyGivenNames y; clear_value y)
    | with_reducible apply Keeps.ite
    | with_reducible apply closeSet_keeps
    | with_reducible apply jumpTo_keeps
    | with_reducible apply endEngine_keeps
    | with_reducible apply repeatFrom_keeps
    | with_reducible apply modSched_keeps
    | with_reducible apply windowOpens_keeps
    | with_reducible refine Keeps.foldl _ ?_ (fun _ _ _ => ?_)
    | (with_reducible refine Keeps.via ?_ id; split)
    | with_reducible apply_assumption

theorem fixSlots_keeps (h : Keeps p r s) (hh : Half) (k : Nat) (_ : p .schedule := by assumption) (_ : p .heads := by assumption) :
    Keeps p r (State.fixSlots s hh k) := by
  unfold State.fixSlots
  repeat' first
    | with_reducible assumption
    | (extract_lets +onlyGivenNames y; refine Keeps.via (x := y) ?_ (fun _ => ?_); subst y; rotate_left; clear_value y)
    | (extract_lets +onlyGivenNames y; clear_value y)
    | with_reducible apply Keeps.ite
    | with_reducible apply modSched_keeps
    | with_reducible apply modHead_keeps
    | with_reducible refine Keeps.foldl _ ?_ (fun _ _ _ => ?_)
    | (with_reducible refine Keeps.via ?_ id; split)
    | exact Or.inr fun _ => rfl
    | exact Or.inl (by assumption)
    | exact Or.inr fun _ => by dsimp only; split <;> rfl
    | with_reducible apply_assumption

theorem tickOutputs_keeps (h : Keeps p r s) (hh : Half) (k : Nat) (_ : p .waiting := by assumption) (_ : p .timebase := by assumption) (_ : p .heads := by assumption) (_ : p .outputs := by assumption) (_ : p (.regs .tb) := by assumption) (_ : p (.regs .wl) := by assumption) :
    Keeps p r (State.tickOutputs s hh k) := by
  unfold State.tickOutputs
  repeat' first
    | with_reducible assumption
    | (show p (.regs _); assumption)
    | (extract_lets +onlyGivenNames y; refine Keeps.via (x := y) ?_ (fun _ => ?_); subst y; rotate_left; clear_value y)
    | (extract_lets +onlyGivenNames y; clear_value y)
    | with_reducible apply Keeps.ite
    | with_reducible apply modTb_keeps
    | with_reducible apply tsqPush_keeps
    | with_reducible apply bump_keeps
    | with_reducible apply msix_keeps
    | with_reducible refine Keeps.foldl _ ?_ (fun _ _ _ => ?_)
    | (with_reducible refine Keeps.via ?_ id; split)
    | exact Or.inl (by assumption)
    | exact Or.inr rfl
    | exact rfl
    | exact State.Sorted.modMg rfl rfl
    | exact State.Sorted.modLe rfl rfl
    | exact id
    | (dsimp only; split)
    | with_reducible apply_assumption

theorem stitchZero_keeps (h : Keeps p r s) (hh : Half) (base : Nat) (_ : p .memory := by assumption) (_ : p .roles := by assumption) (_ : p .audit := by assumption) (_ : p .waiting := by assumption) (_ : p .clock := by assumption) (_ : p .timebase := by assumption) (_ : p .schedule := by assumption) (_ : p .heads := by assumption) (_ : p .access := by assumption) (_ : p .lamps := by assumption) (_ : p .welt := by assumption) (_ : p .outputs := by assumption) (_ : p .draws := by assumption) (_ : p (.regs .mg) := by assumption) (_ : p (.regs .tb) := by assumption) (_ : p (.regs .fs) := by assumption) (_ : p (.regs .le) := by assumption) (_ : p (.regs .am) := by assumption) (_ : p (.regs .mi) := by assumption) (_ : p (.regs .dc) := by assumption) (_ : p (.regs .di) := by assumption) (_ : p (.regs .hp) := by assumption) (_ : p (.regs .wl) := by assumption) :
    Keeps p r (State.stitchZero s hh base) := by
  unfold State.stitchZero
  repeat' first
    | with_reducible assumption
    | (extract_lets +onlyGivenNames y; refine Keeps.via (x := y) ?_ (fun _ => ?_); subst y; rotate_left; clear_value y)
    | (extract_lets +onlyGivenNames y; clear_value y)
    | with_reducible apply Keeps.ite
    | with_reducible apply modWl_keeps
    | with_reducible apply windowCloses_keeps
    | with_reducible apply raise_keeps
    | with_reducible apply modSched_keeps
    | with_reducible apply applyDue_keeps
    | with_reducible apply fenceHalf_keeps
    | with_reducible apply lutDue_keeps
    | with_reducible apply fixSlots_keeps
    | with_reducible apply onBase_keeps
    | with_reducible apply setLength_keeps
    | with_reducible apply enableEngine_keeps
    | with_reducible apply retarget_keeps
    | with_reducible apply beginEngine_keeps
    | with_reducible apply tickOutputs_keeps
    | with_reducible refine Keeps.foldl _ ?_ (fun _ _ _ => ?_)
    | (with_reducible refine Keeps.via ?_ id; split)
    | with_reducible apply_assumption
    | with_reducible refine fun _ _ _ => ?_
    | exact Or.inr rfl
    | exact Or.inl (by assumption)

theorem noteWelt_keeps (h : Keeps p r s) (hh : Half) (_ : p .draws := by assumption) (_ : p (.regs .wl) := by assumption) :
    Keeps p r (State.noteWelt s hh) := by
  unfold State.noteWelt
  repeat' first
    | with_reducible assumption
    | (show p (.regs _); assumption)
    | with_reducible apply Keeps.ite
    | with_reducible apply peak_keeps
    | with_reducible apply draw_keeps
    | (with_reducible refine Keeps.via ?_ id; split)

theorem tick_keeps (h : Keeps p r s) (hh : Half) (_ : p .memory := by assumption) (_ : p .flash := by assumption) (_ : p .roles := by assumption) (_ : p .audit := by assumption) (_ : p .manage := by assumption) (_ : p .waiting := by assumption) (_ : p .clock := by assumption) (_ : p .timebase := by assumption) (_ : p .schedule := by assumption) (_ : p .heads := by assumption) (_ : p .access := by assumption) (_ : p .lamps := by assumption) (_ : p .welt := by assumption) (_ : p .outputs := by assumption) (_ : p .draws := by assumption) (_ : p (.regs .mg) := by assumption) (_ : p (.regs .tb) := by assumption) (_ : p (.regs .fs) := by assumption) (_ : p (.regs .le) := by assumption) (_ : p (.regs .am) := by assumption) (_ : p (.regs .mi) := by assumption) (_ : p (.regs .dc) := by assumption) (_ : p (.regs .di) := by assumption) (_ : p (.regs .hp) := by assumption) (_ : p (.regs .wl) := by assumption) :
    Keeps p r (State.tick s hh) := by
  unfold State.tick
  repeat' first
    | with_reducible assumption
    | (extract_lets +onlyGivenNames y; refine Keeps.via (x := y) ?_ (fun _ => ?_); subst y; rotate_left; clear_value y)
    | (extract_lets +onlyGivenNames y; clear_value y)
    | with_reducible apply Keeps.ite
    | with_reducible apply endProduction_keeps
    | with_reducible apply stitchZero_keeps
    | with_reducible apply onBase_keeps
    | with_reducible apply noteWelt_keeps
    | with_reducible apply jumpTo_keeps
    | with_reducible apply takeTickSrc_keeps
    | with_reducible apply advance_keeps
    | (with_reducible refine Keeps.via ?_ id; split)
    | with_reducible refine Keeps.ofSnd (by assumption) ?_
    | with_reducible refine Keeps.ofFst (by assumption) ?_
    | with_reducible apply_assumption
    | with_reducible refine fun _ _ _ => ?_

theorem roleRefused_keeps (h : Keeps p r s) (pp : Path) (role result : Nat) (_ : p .waiting := by assumption) :
    Keeps p r (State.roleRefused s pp role result) := by
  unfold State.roleRefused
  repeat' first
    | with_reducible assumption
    | with_reducible apply raiseL_keeps

theorem roleFull_keeps (h : Keeps p r s) (_ : p (.regs .mg) := by assumption) :
    Keeps p r (State.roleFull s) := by
  unfold State.roleFull
  repeat' first
    | with_reducible assumption
    | (show p (.regs _); assumption)
    | with_reducible apply bump_keeps

theorem challenge_keeps (h : Keeps p r s) (pp : Path) (role : Nat) (_ : p .roles := by assumption) (_ : p .waiting := by assumption) (_ : p .draws := by assumption) :
    Keeps p r (State.challenge s pp role).2 := by
  unfold State.challenge
  repeat' first
    | with_reducible assumption
    | (extract_lets +onlyGivenNames y; refine Keeps.via (x := y) ?_ (fun _ => ?_); subst y; rotate_left; clear_value y)
    | (extract_lets +onlyGivenNames y; clear_value y)
    | with_reducible apply Keeps.ite
    | with_reducible apply roleRefused_keeps
    | with_reducible apply draw_keeps
    | with_reducible apply modRole_keeps
    | (with_reducible refine Keeps.via ?_ id; split)
    | with_reducible refine Keeps.ofSnd (by assumption) ?_
    | with_reducible refine Keeps.ofFst (by assumption) ?_
    | with_reducible apply_assumption

theorem respond_keeps (h : Keeps p r s) (pp : Path) (resp : List Byte) (_ : p .roles := by assumption) (_ : p .audit := by assumption) (_ : p .waiting := by assumption) (_ : p (.regs .mg) := by assumption) :
    Keeps p r (State.respond s pp resp).2 := by
  unfold State.respond
  repeat' first
    | with_reducible assumption
    | (extract_lets +onlyGivenNames y; refine Keeps.via (x := y) ?_ (fun _ => ?_); subst y; rotate_left; clear_value y)
    | (extract_lets +onlyGivenNames y; clear_value y)
    | with_reducible apply Keeps.ite
    | with_reducible apply roleRefused_keeps
    | with_reducible apply audit_keeps
    | with_reducible apply modRole_keeps
    | (with_reducible refine Keeps.via ?_ id; split)
    | with_reducible apply_assumption

theorem flashProgramBytes_keeps (h : Keeps p r s) (a : Nat) (bs : List Byte) (_ : p .flash := by assumption) :
    Keeps p r (State.flashProgramBytes s a bs) := by
  unfold State.flashProgramBytes
  repeat' first
    | with_reducible assumption
    | with_reducible apply flashPut_keeps

theorem ppPut_keeps (h : Keeps p r s) (a : Nat) (bs : List Byte) (_ : p .passport := by assumption) :
    Keeps p r (State.ppPut s a bs) := by
  unfold State.ppPut
  repeat' first
    | with_reducible assumption
    | with_reducible apply modMg_keeps
    | with_reducible refine Keeps.foldl _ ?_ (fun _ _ _ => ?_)
    | exact Or.inl (by assumption)
    | exact Or.inr rfl
    | exact rfl
    | exact State.Sorted.modMg rfl rfl
    | exact State.Sorted.modLe rfl rfl
    | exact fun i => ⟨i.1, i.2.1, i.2.2.1, Sparse.rising_foldPut _ _ _ i.2.2.2⟩
    | exact id
    | exact List.suffix_rfl
    | exact fun _ => Nat.zero_le _
    | with_reducible refine Keeps.foldlFst _ ?_ (fun _ _ _ => ?_)
    | with_reducible refine Keeps.foldlSnd _ ?_ (fun _ _ _ => ?_)
    | with_reducible apply_assumption

theorem ppDeferred_keeps (h : Keeps p r s) (_ : p .waiting := by assumption) :
    Keeps p r (State.ppDeferred s) := by
  unfold State.ppDeferred
  repeat' first
    | with_reducible assumption
    | with_reducible apply raiseL_keeps

theorem ppTail_keeps (h : Keeps p r s) (a : Nat) (bs : List Byte) (_ : p .passport := by assumption) (_ : p .manage := by assumption) (_ : p .waiting := by assumption) :
    Keeps p r (State.ppTail s a bs) := by
  unfold State.ppTail
  repeat' first
    | with_reducible assumption
    | with_reducible apply Keeps.ite
    | with_reducible apply ppDeferred_keeps
    | with_reducible apply modMg_keeps
    | with_reducible apply ppPut_keeps
    | (with_reducible refine Keeps.via ?_ id; split)
    | exact Or.inl (by assumption)
    | exact Or.inr rfl
    | exact rfl
    | exact State.Sorted.modMg rfl rfl
    | exact State.Sorted.modLe rfl rfl
    | exact id
    | exact List.suffix_rfl
    | exact fun _ => Nat.zero_le _
    | (dsimp only; split)
    | with_reducible apply_assumption

theorem FcStore.Ok.enter {c : FcStore} (h : c.Ok) (m : Msg) (a b : Bool) : (c.enter m a b).Ok := by
  refine ⟨h.single, ?_⟩
  have hr := h.ring
  unfold FcStore.enter
  dsimp only
  split <;> simp only [List.length_append, List.length_drop, List.length_singleton] <;> omega

theorem FcStore.Ok.push {c : FcStore} (h : c.Ok) (m : Msg) (a b : Bool) : (c.push m a b).Ok :=
  ⟨(h.enter m a b).single, (h.enter m a b).ring⟩

theorem FcStore.Ok.clear {c : FcStore} (h : c.Ok) (l : List Nat) : (c.clear l).Ok := ⟨h.single, h.ring⟩

theorem FcStore.Ok.unpend {c : FcStore} (h : c.Ok) (f : Msg → Bool) : FcStore.Ok { c with pend := c.pend.filter f } :=
  ⟨h.single.sublist (List.Sublist.map _ List.filter_sublist), h.ring⟩


theorem faultTailWrite_keeps (h : Keeps p r s) (m : Msg) (bytes : List Byte) (_ : p .passport := by assumption) (_ : p .manage := by assumption) (_ : p .waiting := by assumption) :
    Keeps p r (State.faultTailWrite s m bytes) := by
  unfold State.faultTailWrite
  repeat' first
    | with_reducible assumption
    | (extract_lets +onlyGivenNames y; refine Keeps.via (x := y) ?_ (fun _ => ?_); subst y; rotate_left; clear_value y)
    | (extract_lets +onlyGivenNames y; clear_value y)
    | with_reducible apply Keeps.ite
    | with_reducible apply ppTail_keeps
    | with_reducible apply modMg_keeps
    | (with_reducible refine Keeps.via ?_ id; split)
    | exact Or.inl (by assumption)
    | exact Or.inr rfl
    | exact rfl
    | exact State.Sorted.modMg rfl rfl
    | exact State.Sorted.modLe rfl rfl
    | exact id
    | exact List.suffix_rfl
    | exact fun _ => Nat.zero_le _
    | (dsimp only; split)
    | with_reducible apply_assumption

theorem ppBodyPut_keeps (h : Keeps p r s) (a : Nat) (bs : List Byte) (_ : p .passport := by assumption) :
    Keeps p r (State.ppBodyPut s a bs) := by
  unfold State.ppBodyPut
  repeat' first
    | with_reducible assumption
    | (extract_lets +onlyGivenNames y; refine Keeps.via (x := y) ?_ (fun _ => ?_); subst y; rotate_left; clear_value y)
    | (extract_lets +onlyGivenNames y; clear_value y)
    | with_reducible apply ppPut_keeps

theorem rewriteTail_keeps (h : Keeps p r s) (_ : p .passport := by assumption) (_ : p .manage := by assumption) :
    Keeps p r (State.rewriteTail s) := by
  unfold State.rewriteTail
  repeat' first
    | with_reducible assumption
    | (extract_lets +onlyGivenNames y; refine Keeps.via (x := y) ?_ (fun _ => ?_); subst y; rotate_left; clear_value y)
    | (extract_lets +onlyGivenNames y; clear_value y)
    | with_reducible apply Keeps.ite
    | with_reducible apply modMg_keeps
    | with_reducible apply ppPut_keeps
    | with_reducible refine Keeps.foldl _ ?_ (fun _ _ _ => ?_)
    | (with_reducible refine Keeps.via ?_ id; split)
    | exact Or.inl (by assumption)
    | exact Or.inr rfl
    | exact rfl
    | exact State.Sorted.modMg rfl rfl
    | exact State.Sorted.modLe rfl rfl
    | exact id
    | exact List.suffix_rfl
    | exact fun _ => Nat.zero_le _
    | (dsimp only; split)
    | with_reducible apply_assumption

theorem fieldFree_keeps (h : Keeps p r s) (_ : p .passport := by assumption) (_ : p .manage := by assumption) (_ : p .draws := by assumption) :
    Keeps p r (State.fieldFree s) := by
  unfold State.fieldFree
  repeat' first
    | with_reducible assumption
    | (extract_lets +onlyGivenNames y; refine Keeps.via (x := y) ?_ (fun _ => ?_); subst y; rotate_left; clear_value y)
    | (extract_lets +onlyGivenNames y; refine Keeps.via (x := y.2) ?_ (fun _ => ?_); subst y; rotate_left; clear_value y)
    | (extract_lets +onlyGivenNames y; refine Keeps.via (x := y.1) ?_ (fun _ => ?_); subst y; rotate_left; clear_value y)
    | (extract_lets +onlyGivenNames y; clear_value y)
    | with_reducible apply Keeps.ite
    | with_reducible apply ppPut_keeps
    | with_reducible apply modMg_keeps
    | with_reducible apply rewriteTail_keeps
    | with_reducible refine Keeps.foldl _ ?_ (fun _ _ _ => ?_)
    | with_reducible apply free_keeps
    | (with_reducible refine Keeps.via ?_ id; split)
    | (rename Keeps p r _ => hk; exact Keeps.of_eq hk rfl le_rfl le_rfl List.prefix_rfl rfl rfl rfl rfl rfl rfl rfl rfl
        fun x hx => by cases x <;> first | rfl | exact Part.Same.regs rfl | exact absurd (by assumption) hx)
    | exact Or.inl (by assumption)
    | exact Or.inr rfl
    | exact rfl
    | exact State.Sorted.modMg rfl rfl
    | exact State.Sorted.modLe rfl rfl
    | exact id
    | exact List.suffix_rfl
    | exact fun _ => Nat.zero_le _
    | with_reducible refine Keeps.foldlFst _ ?_ (fun _ _ _ => ?_)
    | with_reducible refine Keeps.foldlSnd _ ?_ (fun _ _ _ => ?_)
    | (dsimp only; split)
    | with_reducible apply_assumption

theorem fieldLevel_keeps (h : Keeps p r s) (asserted : Bool) (_ : p .passport := by assumption) (_ : p .manage := by assumption) (_ : p .draws := by assumption) :
    Keeps p r (State.fieldLevel s asserted) := by
  unfold State.fieldLevel
  repeat' first
    | with_reducible assumption
    | with_reducible apply Keeps.ite
    | with_reducible apply modMg_keeps
    | with_reducible apply fieldFree_keeps
    | (with_reducible refine Keeps.via ?_ id; split)
    | exact Or.inl (by assumption)
    | exact Or.inr rfl
    | exact rfl
    | exact State.Sorted.modMg rfl rfl
    | exact State.Sorted.modLe rfl rfl
    | exact id
    | exact List.suffix_rfl
    | exact fun _ => Nat.zero_le _
    | (dsimp only; split)
    | with_reducible apply_assumption

theorem bufPut_keeps (h : Keeps p r s) (pp : Path) (ws : List Word) (_ : p (.regs .mg) := by assumption) :
    Keeps p r (State.bufPut s pp ws) := by
  unfold State.bufPut
  repeat' first
    | with_reducible assumption
    | exact blockOf_is (blockOf_fld _) (by assumption)
    | exact blockOf_is (c := .mg) (blockOf_page (show _ = 0 by omega)) (by assumption)
    | with_reducible apply setWord_keeps
    | with_reducible refine Keeps.foldl _ ?_ (fun _ _ _ => ?_)
    | with_reducible refine Keeps.foldlFst _ ?_ (fun _ _ _ => ?_)
    | with_reducible refine Keeps.foldlSnd _ ?_ (fun _ _ _ => ?_)
    | with_reducible apply_assumption

theorem flashEnd_keeps (h : Keeps p r s) (pp : Path) (op space addr result : Nat) (_ : p .audit := by assumption) (_ : p (.regs .mg) := by assumption) :
    Keeps p r (State.flashEnd s pp op space addr result) := by
  unfold State.flashEnd
  repeat' first
    | with_reducible assumption
    | (show p (.regs _); assumption)
    | (extract_lets +onlyGivenNames y; refine Keeps.via (x := y) ?_ (fun _ => ?_); subst y; rotate_left; clear_value y)
    | (extract_lets +onlyGivenNames y; clear_value y)
    | with_reducible apply wr_keeps
    | with_reducible apply audit_keeps

theorem flashRefuse_keeps (h : Keeps p r s) (pp : Path) (op space addr result : Nat) (_ : p .audit := by assumption) (_ : p (.regs .mg) := by assumption) :
    Keeps p r (State.flashRefuse s pp op space addr result) := by
  unfold State.flashRefuse
  repeat' first
    | with_reducible assumption
    | (show p (.regs _); assumption)
    | with_reducible apply auditRefusal_keeps
    | with_reducible apply wr_keeps

theorem flashGo_keeps (h : Keeps p r s) (pp : Path) (op lenM1 : Nat) (_ : p .audit := by assumption) (_ : p .manage := by assumption) (_ : p .waiting := by assumption) (_ : p .schedule := by assumption) (_ : p .lasts := by assumption) (_ : p (.regs .mg) := by assumption) :
    Keeps p r (State.flashGo s pp op lenM1) := by
  unfold State.flashGo
  repeat' first
    | with_reducible assumption
    | (show p (.regs _); assumption)
    | (extract_lets +onlyGivenNames y; refine Keeps.via (x := y) ?_ (fun _ => ?_); subst y; rotate_left; clear_value y)
    | (extract_lets +onlyGivenNames y; clear_value y)
    | with_reducible apply Keeps.ite
    | with_reducible apply bump_keeps
    | with_reducible apply flashRefuse_keeps
    | with_reducible apply flashEnd_keeps
    | with_reducible apply bufPut_keeps
    | with_reducible apply wr_keeps
    | with_reducible apply modMg_keeps
    | with_reducible apply lastTouched_keeps
    | with_reducible apply ppDeferred_keeps
    | (with_reducible refine Keeps.via ?_ id; split)
    | exact Or.inl (by assumption)
    | exact Or.inr rfl
    | exact rfl
    | exact State.Sorted.modMg rfl rfl
    | exact State.Sorted.modLe rfl rfl
    | exact id
    | exact List.suffix_rfl
    | exact fun _ => Nat.zero_le _
    | (dsimp only; split)
    | with_reducible apply_assumption

/-- An OTP word that is programmed stays programmed (R469). -/
theorem Otp.program_done (o : Otp) (f w v : Nat) : (o.program f w v).done = (f, w) :: o.done := by
  unfold Otp.program
  dsimp only
  split <;> rfl

theorem flashApply_keeps (h : Keeps p r s) (o : FlashOp) (_ : p .flash := by assumption) (_ : p .otp := by assumption) (_ : p .passport := by assumption) : Keeps p r (State.flashApply s o) := by
  unfold State.flashApply
  dsimp only
  split
  · exact flashProgramBytes_keeps h _ _
  · exact flashErase_keeps h _ _
  · exact ppBodyPut_keeps h _ _
  · refine modMg_keeps h _ id ?_ (Or.inl (by assumption)) (Or.inr rfl) (Or.inr rfl) (Or.inr rfl) (Or.inr rfl)
    dsimp only
    generalize (List.range o.words.length).zip o.words = l
    generalize s.mg.otp = t
    induction l generalizing t with
    | nil => exact List.suffix_rfl
    | cons b l ih =>
      refine List.IsSuffix.trans ?_ (ih _)
      rw [Otp.program_done]
      exact List.suffix_cons _ _
  · exact ppBodyPut_keeps h _ _


theorem flashFree_keeps (h : Keeps p r s) (o : FlashOp) (_ : p .manage := by assumption) (_ : p (.regs .mg) := by assumption) :
    Keeps p r (State.flashFree s o) := by
  unfold State.flashFree
  repeat' first
    | with_reducible assumption
    | (extract_lets +onlyGivenNames y; refine Keeps.via (x := y) ?_ (fun _ => ?_); subst y; rotate_left; clear_value y)
    | (extract_lets +onlyGivenNames y; clear_value y)
    | with_reducible apply Keeps.ite
    | with_reducible apply modMg_keeps
    | with_reducible apply bufPut_keeps
    | (with_reducible refine Keeps.via ?_ id; split)
    | exact Or.inl (by assumption)
    | exact Or.inr rfl
    | exact rfl
    | exact State.Sorted.modMg rfl rfl
    | exact State.Sorted.modLe rfl rfl
    | exact id
    | exact List.suffix_rfl
    | exact fun _ => Nat.zero_le _
    | (dsimp only; split)
    | with_reducible apply_assumption

theorem recordCut_keeps (h : Keeps p r s) (_ : p .manage := by assumption) :
    Keeps p r (State.recordCut s) := by
  unfold State.recordCut
  repeat' first
    | with_reducible assumption
    | with_reducible apply Keeps.ite
    | with_reducible apply modMg_keeps
    | (with_reducible refine Keeps.via ?_ id; split)
    | exact Or.inl (by assumption)
    | exact Or.inr rfl
    | exact rfl
    | exact State.Sorted.modMg rfl rfl
    | exact State.Sorted.modLe rfl rfl
    | exact id
    | exact List.suffix_rfl
    | exact fun _ => Nat.zero_le _
    | (dsimp only; split)
    | with_reducible apply_assumption

theorem flashCutOff_keeps (h : Keeps p r s) (_ : p .flash := by assumption) (_ : p .manage := by assumption) (_ : p .draws := by assumption) (_ : p (.regs .mg) := by assumption) :
    Keeps p r (State.flashCutOff s) := by
  unfold State.flashCutOff
  repeat' first
    | with_reducible assumption
    | (show p (.regs _); assumption)
    | (extract_lets +onlyGivenNames y; refine Keeps.via (x := y) ?_ (fun _ => ?_); subst y; rotate_left; clear_value y)
    | (extract_lets +onlyGivenNames y; clear_value y)
    | with_reducible apply Keeps.ite
    | with_reducible apply recordCut_keeps
    | with_reducible apply wr_keeps
    | with_reducible apply flashFree_keeps
    | with_reducible apply flashCut_keeps
    | (with_reducible refine Keeps.via ?_ id; split)

theorem serveMailboxes_keeps (h : Keeps p r s) (on : Bool) (_ : p (.regs .hp) := by assumption) :
    Keeps p r (State.serveMailboxes s on) := by
  unfold State.serveMailboxes
  repeat' first
    | with_reducible assumption
    | (show p (.regs _); assumption)
    | with_reducible apply flag_keeps
    | with_reducible refine Keeps.foldl _ ?_ (fun _ _ _ => ?_)
    | with_reducible apply_assumption

theorem modCore_keeps (h : Keeps p r s) (x : Half) (f : MgCore → MgCore) (hp : p .manage) : Keeps p r (s.modMg fun m => m.modCore x f) := by
  cases x <;> exact modMg_keeps h _ id List.suffix_rfl (Or.inr rfl) (Or.inr rfl) (Or.inr rfl) (Or.inr rfl) (Or.inl hp)

theorem loadCore_keeps (h : Keeps p r s) (b : Nat) (x : Half) (_ : p .manage := by assumption) : Keeps p r (State.loadCore s b x) := modCore_keeps h x _ (by assumption)


theorem coreFails_keeps (h : Keeps p r s) (x : Half) (_ : p .manage := by assumption) (_ : p .welt := by assumption) : Keeps p r (State.coreFails s x) := modCore_keeps (modWh_keeps h x _) x _ (by assumption)


theorem bootFrom_keeps (h : Keeps p r s) (bank : Option (Nat × Bool)) (_ : p .manage := by assumption) (_ : p .waiting := by assumption) (_ : p .welt := by assumption) (_ : p (.regs .mg) := by assumption) (_ : p (.regs .hp) := by assumption) : Keeps p r (State.bootFrom s bank) := by
  unfold State.bootFrom
  cases bank with
  | none => exact raiseL_keeps (serveMailboxes_keeps (modMg_keeps (wr_keeps h _ _) _ id List.suffix_rfl (Or.inr rfl) (Or.inr rfl) (Or.inr rfl) (Or.inr rfl)
      (Or.inl (by assumption))) _) _ _ _ _
  | some q =>
    have h1 := serveMailboxes_keeps (wr_keeps (flag_keeps (wr_keeps (wr_keeps h F.MG_STATUS.FW_OK 1) F.MG_STATUS.BANK q.1) F.MG_STATUS.FALLBACK q.2)
      F.MG_STATUS.SEC_VER (s.bankSecVer q.1)) true
    have h2 := modWh_keeps (modWh_keeps (loadCore_keeps (loadCore_keeps h1 q.1 .a) q.1 .b) .a fun w => { w with selftest := true }) .b fun w => { w with selftest := true }
    clear h1
    exact Keeps.ite (raiseL_keeps h2 _ _ _ _) h2

theorem boot_keeps (h : Keeps p r s) (_ : p .manage := by assumption) (_ : p .waiting := by assumption) (_ : p .welt := by assumption) (_ : p (.regs .mg) := by assumption) (_ : p (.regs .hp) := by assumption) : Keeps p r (State.boot s) := bootFrom_keeps h _

theorem unwrapKey_keeps (h : Keeps p r s) (n : Nat) (_ : p .waiting := by assumption) (_ : p (.regs .mg) := by assumption) : Keeps p r (State.unwrapKey s n).2 := by
  unfold State.unwrapKey
  split
  · exact h
  · dsimp only
    exact raiseL_keeps (wr_keeps h _ _) _ _ _ _

theorem unwrapKeys_keeps (h : Keeps p r s) (_ : p .start := by assumption) (_ : p .waiting := by assumption) (_ : p (.regs .mg) := by assumption) : Keeps p r (State.unwrapKeys s) := by
  unfold State.unwrapKeys
  extract_lets s1
  have h1 : Keeps p r s1 := wr_keeps h _ _
  clear_value s1
  refine Keeps.ite (modMg_keeps h1 _ id List.suffix_rfl (Or.inr rfl) (Or.inr rfl) (Or.inr rfl) (Or.inr rfl) (Or.inr rfl) (h7 := Or.inl (by assumption))) ?_
  have h2 := unwrapKey_keeps h1 1
  generalize s1.unwrapKey 1 = w at h2
  obtain ⟨o, s2⟩ := w
  dsimp only
  have h3 : Keeps p r (s2.unwrapKey 2).2 := unwrapKey_keeps h2 2
  generalize s2.unwrapKey 2 = q at h3
  obtain ⟨i, s3⟩ := q
  have h4 : Keeps p r s3 := h3
  exact modMg_keeps h4 _ id List.suffix_rfl (Or.inr rfl) (Or.inr rfl) (Or.inr rfl) (Or.inr rfl) (Or.inr rfl) (h7 := Or.inl (by assumption))

theorem mirrorWrite_keeps (h : Keeps p r s) (_ : p .flash := by assumption) :
    Keeps p r (State.mirrorWrite s) := by
  unfold State.mirrorWrite
  repeat' first
    | with_reducible assumption
    | (extract_lets +onlyGivenNames y; refine Keeps.via (x := y) ?_ (fun _ => ?_); subst y; rotate_left; clear_value y)
    | (extract_lets +onlyGivenNames y; clear_value y)
    | with_reducible apply Keeps.ite
    | with_reducible apply flashPut_keeps
    | with_reducible apply flashErase_keeps
    | (with_reducible refine Keeps.via ?_ id; split)

theorem decideZone_keeps (h : Keeps p r s) (_ : p .flash := by assumption) (_ : p .audit := by assumption) (_ : p .start := by assumption) (_ : p .waiting := by assumption) (_ : p (.regs .mg) := by assumption) :
    Keeps p r (State.decideZone s) := by
  unfold State.decideZone
  repeat' first
    | with_reducible assumption
    | (show p (.regs _); assumption)
    | (extract_lets +onlyGivenNames y; refine Keeps.via (x := y) ?_ (fun _ => ?_); subst y; rotate_left; clear_value y)
    | (extract_lets +onlyGivenNames y; refine Keeps.via (x := y.2) ?_ (fun _ => ?_); subst y; rotate_left; clear_value y)
    | (extract_lets +onlyGivenNames y; clear_value y)
    | with_reducible apply Keeps.ite
    | with_reducible apply flag_keeps
    | with_reducible apply audit_keeps
    | with_reducible apply modMg_keeps
    | with_reducible apply raiseL_keeps
    | with_reducible apply mirrorWrite_keeps
    | (with_reducible refine Keeps.via ?_ id; split)
    | exact Or.inl (by assumption)
    | exact Or.inr rfl
    | exact rfl
    | exact State.Sorted.modMg rfl rfl
    | exact State.Sorted.modLe rfl rfl
    | exact id
    | exact List.suffix_rfl
    | exact fun _ => Nat.zero_le _
    | (dsimp only; split)
    | with_reducible apply_assumption

theorem passportDone_keeps (h : Keeps p r s) (src : Nat) (body : List Byte) (_ : p .flash := by assumption) (_ : p .audit := by assumption) (_ : p .start := by assumption) (_ : p .waiting := by assumption) (_ : p (.regs .mg) := by assumption) (_ : p (.regs .ps) := by assumption) :
    Keeps p r (State.passportDone s src body) := by
  unfold State.passportDone
  repeat' first
    | with_reducible assumption
    | (show p (.regs _); assumption)
    | (extract_lets +onlyGivenNames y; refine Keeps.via (x := y) ?_ (fun _ => ?_); subst y; rotate_left; clear_value y)
    | (extract_lets +onlyGivenNames y; clear_value y)
    | with_reducible apply Keeps.ite
    | with_reducible apply modMg_keeps
    | with_reducible apply wr_keeps
    | with_reducible apply raiseL_keeps
    | with_reducible apply unwrapKeys_keeps
    | with_reducible apply decideZone_keeps
    | (with_reducible refine Keeps.via ?_ id; split)
    | exact Or.inl (by assumption)
    | exact Or.inr rfl
    | exact rfl
    | exact State.Sorted.modMg rfl rfl
    | exact State.Sorted.modLe rfl rfl
    | exact id
    | exact List.suffix_rfl
    | exact fun _ => Nat.zero_le _
    | (dsimp only; split)
    | with_reducible apply_assumption

theorem passportFallback_keeps (h : Keeps p r s) (_ : p .flash := by assumption) (_ : p .audit := by assumption) (_ : p .start := by assumption) (_ : p .waiting := by assumption) (_ : p (.regs .mg) := by assumption) (_ : p (.regs .ps) := by assumption) :
    Keeps p r (State.passportFallback s) := by
  unfold State.passportFallback
  repeat' first
    | with_reducible assumption
    | with_reducible apply passportDone_keeps
    | (with_reducible refine Keeps.via ?_ id; split)

theorem ppRetry_keeps (h : Keeps p r s) (nack : Bool) (_ : p .start := by assumption) (_ : p (.regs .mg) := by assumption) :
    Keeps p r (State.ppRetry s nack) := by
  unfold State.ppRetry
  repeat' first
    | with_reducible assumption
    | (show p (.regs _); assumption)
    | with_reducible apply Keeps.ite
    | with_reducible apply bump_keeps
    | with_reducible apply modMg_keeps
    | (with_reducible refine Keeps.via ?_ id; split)
    | exact Or.inl (by assumption)
    | exact Or.inr rfl
    | exact rfl
    | exact State.Sorted.modMg rfl rfl
    | exact State.Sorted.modLe rfl rfl
    | exact id
    | exact List.suffix_rfl
    | exact fun _ => Nat.zero_le _
    | (dsimp only; split)
    | with_reducible apply_assumption

theorem passportRead_keeps (h : Keeps p r s) (rr : PpRead) (_ : p .flash := by assumption) (_ : p .passport := by assumption) (_ : p .audit := by assumption) (_ : p .start := by assumption) (_ : p .manage := by assumption) (_ : p .waiting := by assumption) (_ : p .draws := by assumption) (_ : p (.regs .mg) := by assumption) (_ : p (.regs .ps) := by assumption) :
    Keeps p r (State.passportRead s rr) := by
  unfold State.passportRead
  repeat' first
    | with_reducible assumption
    | (extract_lets +onlyGivenNames y; refine Keeps.via (x := y) ?_ (fun _ => ?_); subst y; rotate_left; clear_value y)
    | (extract_lets +onlyGivenNames y; clear_value y)
    | with_reducible apply Keeps.ite
    | with_reducible apply fieldLevel_keeps
    | with_reducible apply ppRetry_keeps
    | with_reducible apply passportFallback_keeps
    | with_reducible apply passportDone_keeps
    | (with_reducible refine Keeps.via ?_ id; split)

theorem regsMap_wf (f : Nat → Word → Word) (l : Sparse Word) (m : Sparse Word) (h : Sparse.wf regPowerOn m = true) :
    Sparse.wf regPowerOn (l.foldl (fun (r : Sparse Word) (e : Nat × Word) => Sparse.put regPowerOn r e.1 (f e.1 e.2)) m) = true := by
  induction l generalizing m with
  | nil => exact h
  | cons a t ih => exact ih _ (Sparse.wf_put _ _ h)

theorem regsMap_rising (f : Nat → Word → Word) (l : Sparse Word) (m : Sparse Word) (h : Sparse.rising m = true) :
    Sparse.rising (l.foldl (fun (r : Sparse Word) (e : Nat × Word) => Sparse.put regPowerOn r e.1 (f e.1 e.2)) m) = true := by
  induction l generalizing m with
  | nil => exact h
  | cons a t ih => exact ih _ (Sparse.rising_put _ _ h)

/-- Every register takes a value that depends on it alone. -/
theorem regsMap_keeps (h : Keeps p r s) (f : Nat → Word → Word) (ha : ∀ b, p (.regs b) := by assumption) :
    Keeps p r { s with regs := s.regs.foldl (fun (r : Sparse Word) (e : Nat × Word) => Sparse.put regPowerOn r e.1 (f e.1 e.2)) s.regs } :=
  h.trans ⟨rfl, le_rfl, le_rfl, List.prefix_rfl, List.suffix_rfl, regsMap_rising _ _ _, fun i =>
    ⟨regsMap_wf f _ _ i.regs, i.flash, i.cells, i.audit, i.stamps, i.stamps2, i.storeA, i.storeB, i.poison, i.sorted⟩, fun x hx => by
    cases x <;> first | rfl | exact absurd (ha _) hx⟩

theorem warmReset_keeps (h : Keeps p r s) (_ : p .roles := by assumption) (_ : p .audit := by assumption) (_ : p .manage := by assumption) (_ : p .draws := by assumption) (_ : p (.regs .mg) := by assumption) (_ : p (.regs .fc) := by assumption) (_ : p (.regs .ps) := by assumption) (_ : p (.regs .th) := by assumption) (_ : p (.regs .ck) := by assumption) (_ : p (.regs .tb) := by assumption) (_ : p (.regs .fs) := by assumption) (_ : p (.regs .le) := by assumption) (_ : p (.regs .tw) := by assumption) (_ : p (.regs .am) := by assumption) (_ : p (.regs .mi) := by assumption) (_ : p (.regs .dc) := by assumption) (_ : p (.regs .di) := by assumption) (_ : p (.regs .hp) := by assumption) (_ : p (.regs .wl) := by assumption) (_ : (∀ b, p (.regs b)) := by assumption) :
    Keeps p r (State.warmReset s) := by
  unfold State.warmReset
  repeat' first
    | with_reducible assumption
    | (extract_lets +onlyGivenNames y; refine Keeps.via (x := y) ?_ (fun _ => ?_); subst y; rotate_left; clear_value y)
    | (extract_lets +onlyGivenNames y; refine Keeps.via (x := y.2) ?_ (fun _ => ?_); subst y; rotate_left; clear_value y)
    | (extract_lets +onlyGivenNames y; refine Keeps.via (x := y.1) ?_ (fun _ => ?_); subst y; rotate_left; clear_value y)
    | (extract_lets +onlyGivenNames y; clear_value y)
    | with_reducible apply Keeps.ite
    | with_reducible apply clearRole_keeps
    | with_reducible apply dropRole_keeps
    | with_reducible apply modMg_keeps
    | with_reducible apply loadCore_keeps
    | with_reducible refine Keeps.foldl _ ?_ (fun _ _ _ => ?_)
    | with_reducible apply regsMap_keeps
    | with_reducible apply free_keeps
    | (with_reducible refine Keeps.via ?_ id; split)
    | (rename Keeps p r _ => hk; exact Keeps.of_eq hk rfl le_rfl le_rfl List.prefix_rfl rfl rfl rfl rfl rfl rfl rfl rfl
        fun x hx => by cases x <;> first | rfl | exact Part.Same.regs rfl | exact absurd (by assumption) hx)
    | exact Or.inl (by assumption)
    | exact Or.inr rfl
    | exact rfl
    | exact State.Sorted.modMg rfl rfl
    | exact State.Sorted.modLe rfl rfl
    | exact fun i => ⟨i.1, i.2.1, rfl, i.2.2.2⟩
    | exact id
    | exact List.suffix_rfl
    | exact fun _ => Nat.zero_le _
    | with_reducible refine Keeps.foldlFst _ ?_ (fun _ _ _ => ?_)
    | with_reducible refine Keeps.foldlSnd _ ?_ (fun _ _ _ => ?_)
    | (dsimp only; split)
    | with_reducible apply_assumption

theorem storeTake_keeps (h : Keeps p r s) (hh : Half) (m : Msg) (_ : p .cells := by assumption) (_ : p .memory := by assumption) (_ : p .passport := by assumption) (_ : p .manage := by assumption) (_ : p .store := by assumption) (_ : p .waiting := by assumption) (_ : p .timebase := by assumption) (_ : p .schedule := by assumption) (_ : p .heads := by assumption) (_ : p .lamps := by assumption) (_ : p .welt := by assumption) (_ : p .power := by assumption) (_ : p .outputs := by assumption) (_ : p .draws := by assumption) (_ : p (.regs .ps) := by assumption) (_ : p (.regs .le) := by assumption) (_ : p (.regs .mi) := by assumption) (_ : p (.regs .dc) := by assumption) (_ : p (.regs .di) := by assumption) (_ : p (.regs .hp) := by assumption) :
    Keeps p r (State.storeTake s hh m) := by
  unfold State.storeTake
  repeat' first
    | with_reducible assumption
    | (extract_lets +onlyGivenNames y; refine Keeps.via (x := y) ?_ (fun _ => ?_); subst y; rotate_left; clear_value y)
    | (extract_lets +onlyGivenNames y; clear_value y)
    | with_reducible apply Keeps.ite
    | with_reducible apply modFc_keeps
    | with_reducible apply raise_keeps
    | with_reducible apply eventRecord_keeps
    | with_reducible apply faultTailWrite_keeps
    | with_reducible apply enterFatal_keeps
    | (with_reducible refine Keeps.via ?_ id; split)
    | exact fun _ h => h.merge _ _
    | exact fun _ h => h.push _ _ _
    | exact fun _ h => h.enter _ _ _
    | exact fun _ h => h.clear _
    | exact fun _ h => h.unpend _
    | exact fun _ h => ⟨h.single, h.ring⟩
    | with_reducible apply_assumption

theorem messageCollect_kept (h : Keeps p r s) (x : Half) (src : Nat) (parity : Bool) (_ : p .cells := by assumption) (_ : p .memory := by assumption) (_ : p .passport := by assumption) (_ : p .manage := by assumption) (_ : p .store := by assumption) (_ : p .waiting := by assumption) (_ : p .timebase := by assumption) (_ : p .schedule := by assumption) (_ : p .heads := by assumption) (_ : p .lamps := by assumption) (_ : p .welt := by assumption) (_ : p .power := by assumption) (_ : p .outputs := by assumption) (_ : p .draws := by assumption) (_ : p (.regs .ps) := by assumption) (_ : p (.regs .le) := by assumption) (_ : p (.regs .mi) := by assumption) (_ : p (.regs .dc) := by assumption) (_ : p (.regs .di) := by assumption) (_ : p (.regs .hp) := by assumption) : Keeps p r (messageCollect x src parity s) := by
  unfold messageCollect
  extract_lets y
  have hy : Keeps p r y := Keeps.ite (raise_keeps h _ _ _ _ _) h
  clear_value y
  split
  · exact hy
  · dsimp only
    have h1 := storeTake_keeps (modPend_keeps hy x (fun f => { f with pend := f.pend.filter fun m => m.src != src }) (fun _ hc => hc.unpend _)
      (fun _ => rfl)) x
    exact Keeps.ite (storeTake_keeps (h1 _) _ _) (h1 _)

theorem stickyWrite_keeps (h : Keeps p r s) (pp : Path) (w v : Nat) (_ : p .audit := by assumption) (_ : p .store := by assumption) (_ : p .waiting := by assumption) (_ : p (.regs .mg) := by assumption) :
    Keeps p r (State.stickyWrite s pp w v) := by
  unfold State.stickyWrite
  repeat' first
    | with_reducible assumption
    | (extract_lets +onlyGivenNames y; refine Keeps.via (x := y) ?_ (fun _ => ?_); subst y; rotate_left; clear_value y)
    | (extract_lets +onlyGivenNames y; clear_value y)
    | with_reducible apply Keeps.ite
    | with_reducible apply modFc_keeps
    | with_reducible apply audit_keeps
    | with_reducible apply auditRefusal_keeps
    | (with_reducible refine Keeps.via ?_ id; split)
    | exact fun _ h => h.merge _ _
    | exact fun _ h => h.push _ _ _
    | exact fun _ h => h.enter _ _ _
    | exact fun _ h => h.clear _
    | exact fun _ h => h.unpend _
    | exact fun _ h => ⟨h.single, h.ring⟩
    | with_reducible apply_assumption

theorem stickyClear_kept (h : Keeps p r s) (pp : Path) (w : Fin 10) (v : Word) (_ : p .audit := by assumption) (_ : p .store := by assumption) (_ : p .waiting := by assumption) (_ : p .access := by assumption) (_ : p (.regs .mg) := by assumption) (_ : p (.regs .fc) := by assumption) :
    Keeps p r (stickyClear pp w v s) := by
  unfold stickyClear
  repeat' first
    | with_reducible assumption
    | exact blockOf_is (blockOf_fld _) (by assumption)
    | exact blockOf_is (c := .mg) (blockOf_page (show _ = 0 by omega)) (by assumption)
    | exact blockOf_is (c := .fc) (blockOf_page (show _ = 1 by omega)) (by assumption)
    | with_reducible apply gatedWrite_keeps
    | with_reducible apply stickyWrite_keeps
    | with_reducible refine fun _ _ => ?_
    | with_reducible apply_assumption

theorem forceOne_keeps (h : Keeps p r s) (pp : Path) (i : Nat) (_ : p .audit := by assumption) (_ : p .waiting := by assumption) (_ : p (.regs .mg) := by assumption) :
    Keeps p r (State.forceOne s pp i) := by
  unfold State.forceOne
  repeat' first
    | with_reducible assumption
    | with_reducible apply Keeps.ite
    | with_reducible apply auditRefusal_keeps
    | with_reducible apply raise_keeps
    | (with_reducible refine Keeps.via ?_ id; split)

theorem forceWrite_keeps (h : Keeps p r s) (pp : Path) (w v : Nat) (_ : p .audit := by assumption) (_ : p .waiting := by assumption) (_ : p (.regs .mg) := by assumption) :
    Keeps p r (State.forceWrite s pp w v) := by
  unfold State.forceWrite
  repeat' first
    | with_reducible assumption
    | with_reducible apply forceOne_keeps
    | with_reducible refine Keeps.foldl _ ?_ (fun _ _ _ => ?_)
    | with_reducible apply_assumption

theorem force_kept (h : Keeps p r s) (pp : Path) (w : Fin 10) (v : Word) (_ : p .audit := by assumption) (_ : p .waiting := by assumption) (_ : p .access := by assumption) (_ : p (.regs .mg) := by assumption) (_ : p (.regs .fc) := by assumption) :
    Keeps p r (force pp w v s) := by
  unfold force
  repeat' first
    | with_reducible assumption
    | exact blockOf_is (blockOf_fld _) (by assumption)
    | exact blockOf_is (c := .mg) (blockOf_page (show _ = 0 by omega)) (by assumption)
    | exact blockOf_is (c := .fc) (blockOf_page (show _ = 1 by omega)) (by assumption)
    | with_reducible apply gatedWrite_keeps
    | with_reducible apply forceWrite_keeps
    | with_reducible refine fun _ _ => ?_
    | with_reducible apply_assumption

theorem fcFix_keeps (h : Keeps p r s) (a : Nat) (_ : p (.regs .fc) := by assumption) : Keeps p r (State.fcFix s a) := by
  unfold State.fcFix
  split
  · refine Keeps.foldl _ h (fun s b hs => ?_)
    dsimp only
    split
    · exact setWord_keeps hs _ _ (blockOf_is (c := .fc) (blockOf_page (show _ = 1 by omega)) (by assumption))
    · exact hs
  · split
    · dsimp only
      split
      · exact wr_keeps h _ _
      · split <;> exact wr_keeps h _ _
    · exact h

theorem appendEntry_keeps (h : Keeps p r s) (before : FcStore) (m : Msg) (_ : p .store := by assumption) (_ : p .waiting := by assumption) (_ : p .heads := by assumption) (_ : p .outputs := by assumption) (_ : p (.regs .hp) := by assumption) :
    Keeps p r (State.appendEntry s before m) := by
  unfold State.appendEntry
  repeat' first
    | with_reducible assumption
    | (extract_lets +onlyGivenNames y; refine Keeps.via (x := y) ?_ (fun _ => ?_); subst y; rotate_left; clear_value y)
    | (extract_lets +onlyGivenNames y; clear_value y)
    | with_reducible apply Keeps.ite
    | with_reducible apply modFc_keeps
    | with_reducible apply eventRecord_keeps
    | with_reducible apply raise_keeps
    | (with_reducible refine Keeps.via ?_ id; split)
    | exact fun _ h => h.merge _ _
    | exact fun _ h => h.push _ _ _
    | exact fun _ h => h.enter _ _ _
    | exact fun _ h => h.clear _
    | exact fun _ h => h.unpend _
    | exact fun _ h => ⟨h.single, h.ring⟩
    | with_reducible apply_assumption

theorem mergeStores_keeps (h : Keeps p r s) (_ : p .store := by assumption) (_ : p .waiting := by assumption) (_ : p .heads := by assumption) (_ : p .outputs := by assumption) (_ : p (.regs .hp) := by assumption) : Keeps p r (State.mergeStores s) := by
  unfold State.mergeStores
  have hd : ∀ c : FcStore, c.Ok → FcStore.Ok { c with log := c.log.map fun e => { e with inSplit := false } } := fun c hc =>
    ⟨hc.single, by simpa using hc.ring⟩
  refine modFc_keeps (modFc_keeps ?_ _ _ hd) _ _ fun c hc => hd _ ⟨hc.single, hc.ring⟩
  refine Keeps.foldl _ ?_ fun _ _ hx => eventRecord_keeps hx _ _
  exact Keeps.foldl _ h fun _ _ hx => appendEntry_keeps hx _ _

theorem leaderUnreachable_keeps (h : Keeps p r s) (_ : p .memory := by assumption) (_ : p .waiting := by assumption) (_ : p .timebase := by assumption) (_ : p .schedule := by assumption) (_ : p .heads := by assumption) (_ : p .lamps := by assumption) (_ : p .welt := by assumption) (_ : p .outputs := by assumption) (_ : p .draws := by assumption) (_ : p (.regs .le) := by assumption) (_ : p (.regs .mi) := by assumption) (_ : p (.regs .dc) := by assumption) (_ : p (.regs .di) := by assumption) (_ : p (.regs .hp) := by assumption) (_ : p (.regs .wl) := by assumption) :
    Keeps p r (State.leaderUnreachable s) := by
  unfold State.leaderUnreachable
  repeat' first
    | with_reducible assumption
    | (extract_lets +onlyGivenNames y; refine Keeps.via (x := y) ?_ (fun _ => ?_); subst y; rotate_left; clear_value y)
    | (extract_lets +onlyGivenNames y; clear_value y)
    | with_reducible apply Keeps.ite
    | with_reducible apply raise_keeps
    | with_reducible apply enterSplit_keeps
    | (with_reducible refine Keeps.via ?_ id; split)

theorem weltLost_kept (h : Keeps p r s) (cause : Fin 3) (_ : p .memory := by assumption) (_ : p .waiting := by assumption) (_ : p .timebase := by assumption) (_ : p .schedule := by assumption) (_ : p .heads := by assumption) (_ : p .lamps := by assumption) (_ : p .welt := by assumption) (_ : p .outputs := by assumption) (_ : p .draws := by assumption) (_ : p (.regs .le) := by assumption) (_ : p (.regs .mi) := by assumption) (_ : p (.regs .dc) := by assumption) (_ : p (.regs .di) := by assumption) (_ : p (.regs .hp) := by assumption) (_ : p (.regs .wl) := by assumption) :
    Keeps p r (weltLost cause s) := by
  unfold weltLost
  repeat' first
    | with_reducible assumption
    | with_reducible apply Keeps.ite
    | with_reducible apply leaderUnreachable_keeps
    | with_reducible apply weltDown_keeps
    | (with_reducible refine Keeps.via ?_ id; split)

theorem flitReplay_kept (h : Keeps p r s) (repaired : Option Half) (_ : p .waiting := by assumption) (_ : p (.regs .wl) := by assumption) :
    Keeps p r (flitReplay repaired s) := by
  unfold flitReplay
  repeat' first
    | with_reducible assumption
    | (show p (.regs _); rename Half => hh'; cases hh' <;> assumption)
    | (show p (.regs _); assumption)
    | (extract_lets +onlyGivenNames y; refine Keeps.via (x := y) ?_ (fun _ => ?_); subst y; rotate_left; clear_value y)
    | (extract_lets +onlyGivenNames y; clear_value y)
    | with_reducible apply Keeps.ite
    | with_reducible apply bump_keeps
    | with_reducible apply raiseL_keeps
    | with_reducible apply wr_keeps
    | (with_reducible refine Keeps.via ?_ id; split)

theorem trainLanes_keeps (h : Keeps p r s) (deadAB deadBA : Nat) (_ : p .waiting := by assumption) (_ : p (.regs .wl) := by assumption) :
    Keeps p r (State.trainLanes s deadAB deadBA) := by
  unfold State.trainLanes
  repeat' first
    | with_reducible assumption
    | (show p (.regs _); assumption)
    | (extract_lets +onlyGivenNames y; refine Keeps.via (x := y) ?_ (fun _ => ?_); subst y; rotate_left; clear_value y)
    | (extract_lets +onlyGivenNames y; clear_value y)
    | with_reducible apply Keeps.ite
    | with_reducible apply wr_keeps
    | with_reducible apply raiseL_keeps
    | (with_reducible refine Keeps.via ?_ id; split)

theorem weltUp_keeps (h : Keeps p r s) (_ : p .welt := by assumption) (_ : p (.regs .wl) := by assumption) :
    Keeps p r (State.weltUp s) := by
  unfold State.weltUp
  repeat' first
    | with_reducible assumption
    | (show p (.regs _); assumption)
    | (extract_lets +onlyGivenNames y; refine Keeps.via (x := y) ?_ (fun _ => ?_); subst y; rotate_left; clear_value y)
    | (extract_lets +onlyGivenNames y; clear_value y)
    | with_reducible apply Keeps.ite
    | with_reducible apply modWl_keeps
    | with_reducible apply wr_keeps
    | (with_reducible refine Keeps.via ?_ id; split)
    | with_reducible apply_assumption
    | exact Or.inr rfl
    | exact Or.inl (by assumption)

theorem weltRetrain_kept (h : Keeps p r s) (ok : Bool) (deadAB deadBA : Fin 5) (_ : p .waiting := by assumption) (_ : p .welt := by assumption) (_ : p (.regs .wl) := by assumption) :
    Keeps p r (weltRetrain ok deadAB deadBA s) := by
  unfold weltRetrain
  repeat' first
    | with_reducible assumption
    | with_reducible apply Keeps.ite
    | with_reducible apply weltUp_keeps
    | with_reducible apply trainLanes_keeps
    | (with_reducible refine Keeps.via ?_ id; split)

theorem rejoinFrames_keeps (h : Keeps p r s) (far : Sched) (_ : p .waiting := by assumption) (_ : p .schedule := by assumption) : Keeps p r (State.rejoinFrames s far) := by
  unfold State.rejoinFrames
  dsimp only
  have h1 := raiseL_keeps h 0x104 0x1A
  split
  · exact h
  · split
    · exact Keeps.of_eq (h1 _ _) rfl le_rfl le_rfl List.prefix_rfl rfl rfl rfl rfl rfl rfl rfl rfl fun x hx => by cases x <;> first | rfl | exact Part.Same.regs rfl | exact absurd (by assumption) hx
    · exact raise_keeps (h1 _ _) _ _ _ _ _

theorem writeHeld_keeps (h : Keeps p r s) (w : Nat × LineData × Bool) (_ : p .cells := by assumption) (_ : p .memory := by assumption) (_ : p (.regs .dc) := by assumption) :
    Keeps p r (State.writeHeld s w) := by
  unfold State.writeHeld
  repeat' first
    | with_reducible assumption
    | (extract_lets +onlyGivenNames y; refine Keeps.via (x := y) ?_ (fun _ => ?_); subst y; rotate_left; clear_value y)
    | (extract_lets +onlyGivenNames y; refine Keeps.via (x := y.2) ?_ (fun _ => ?_); subst y; rotate_left; clear_value y)
    | (extract_lets +onlyGivenNames y; refine Keeps.via (x := y.1) ?_ (fun _ => ?_); subst y; rotate_left; clear_value y)
    | (extract_lets +onlyGivenNames y; clear_value y)
    | with_reducible apply Keeps.ite
    | with_reducible apply modWrites_keeps
    | with_reducible apply writeVisit_keeps
    | with_reducible apply modSub_keeps
    | (with_reducible refine Keeps.via ?_ id; split)
    | exact rfl
    | exact State.Sorted.modMg rfl rfl
    | exact State.Sorted.modLe rfl rfl
    | exact id
    | (dsimp only; split)
    | with_reducible apply_assumption
    | exact fun h => (List.length_filter_le _ _).trans h

theorem writeHolds_keeps (h : Keeps p r s) (_ : p .cells := by assumption) (_ : p .memory := by assumption) (_ : p .welt := by assumption) (_ : p (.regs .dc) := by assumption) (_ : p (.regs .wl) := by assumption) :
    Keeps p r (State.writeHolds s) := by
  unfold State.writeHolds
  repeat' first
    | with_reducible assumption
    | (show p (.regs _); assumption)
    | (extract_lets +onlyGivenNames y; refine Keeps.via (x := y) ?_ (fun _ => ?_); subst y; rotate_left; clear_value y)
    | (extract_lets +onlyGivenNames y; clear_value y)
    | with_reducible apply writeHeld_keeps
    | with_reducible apply wr_keeps
    | with_reducible apply modWh_keeps
    | with_reducible refine Keeps.foldl _ ?_ (fun _ _ _ => ?_)
    | with_reducible apply_assumption

theorem joinSteps_keeps (h : Keeps p r s) (_ : p .memory := by assumption) (_ : p .thermal := by assumption) (_ : p (.regs .dc) := by assumption) :
    Keeps p r (State.joinSteps s) := by
  unfold State.joinSteps
  repeat' first
    | with_reducible assumption
    | (extract_lets +onlyGivenNames y; refine Keeps.via (x := y) ?_ (fun _ => ?_); subst y; rotate_left; clear_value y)
    | (extract_lets +onlyGivenNames y; clear_value y)
    | with_reducible apply stepChanged_keeps
    | with_reducible apply modTh_keeps
    | with_reducible apply_assumption

theorem rejoin_kept (h : Keeps p r s) (_ : p .cells := by assumption) (_ : p .memory := by assumption) (_ : p .store := by assumption) (_ : p .waiting := by assumption) (_ : p .timebase := by assumption) (_ : p .schedule := by assumption) (_ : p .heads := by assumption) (_ : p .lamps := by assumption) (_ : p .thermal := by assumption) (_ : p .welt := by assumption) (_ : p .outputs := by assumption) (_ : p .draws := by assumption) (_ : p (.regs .am) := by assumption) (_ : p (.regs .mi) := by assumption) (_ : p (.regs .dc) := by assumption) (_ : p (.regs .di) := by assumption) (_ : p (.regs .hp) := by assumption) (_ : p (.regs .wl) := by assumption) :
    Keeps p r (rejoin s) := by
  unfold rejoin
  repeat' first
    | with_reducible assumption
    | (show p (.regs _); assumption)
    | (extract_lets +onlyGivenNames y; refine Keeps.via (x := y) ?_ (fun _ => ?_); subst y; rotate_left; clear_value y)
    | (extract_lets +onlyGivenNames y; clear_value y)
    | with_reducible apply Keeps.ite
    | with_reducible apply beginHold_keeps
    | with_reducible apply rejoinFrames_keeps
    | with_reducible apply modMh_keeps
    | with_reducible apply writeHolds_keeps
    | with_reducible apply joinSteps_keeps
    | with_reducible apply mergeStores_keeps
    | with_reducible apply bump_keeps
    | with_reducible apply wr_keeps
    | with_reducible apply modWl_keeps
    | with_reducible apply returnCredits_keeps
    | (with_reducible refine Keeps.via ?_ id; split)
    | (rename Keeps p r _ => hk; exact Keeps.of_eq hk rfl le_rfl le_rfl List.prefix_rfl rfl rfl rfl rfl rfl rfl rfl rfl
        fun x hx => by cases x <;> first | rfl | exact Part.Same.regs rfl | exact absurd (by assumption) hx)
    | with_reducible apply_assumption
    | (rename Keeps p r _ => hk; exact Keeps.of_eq hk rfl le_rfl le_rfl List.prefix_rfl rfl rfl rfl rfl rfl rfl rfl rfl
        (fun x hx => by cases x <;> first | rfl | exact Part.Same.regs rfl | exact absurd (by assumption) hx) (h2 := fun _ _ hx => nomatch hx))
    | exact Or.inr rfl
    | exact Or.inl (by assumption)

theorem acceptFence_keeps (h : Keeps p r s) (hh : Half) (_ : p .welt := by assumption) (_ : p (.regs .wl) := by assumption) :
    Keeps p r (State.acceptFence s hh) := by
  unfold State.acceptFence
  repeat' first
    | with_reducible assumption
    | (show p (.regs _); rename Half => hh'; cases hh' <;> assumption)
    | (show p (.regs _); assumption)
    | (extract_lets +onlyGivenNames y; refine Keeps.via (x := y) ?_ (fun _ => ?_); subst y; rotate_left; clear_value y)
    | (extract_lets +onlyGivenNames y; clear_value y)
    | with_reducible apply modWh_keeps
    | with_reducible apply wr_keeps
    | (with_reducible refine Keeps.via ?_ id; split)
    | with_reducible apply_assumption

theorem refuseFence_keeps (h : Keeps p r s) (hh : Half) (_ : p .waiting := by assumption) :
    Keeps p r (State.refuseFence s hh) := by
  unfold State.refuseFence
  repeat' first
    | with_reducible assumption
    | with_reducible apply raiseL_keeps

theorem fenceHalves_keeps (h : Keeps p r s) (a b : Bool) (_ : p .waiting := by assumption) (_ : p .welt := by assumption) (_ : p (.regs .wl) := by assumption) :
    Keeps p r (State.fenceHalves s a b) := by
  unfold State.fenceHalves
  repeat' first
    | with_reducible assumption
    | (extract_lets +onlyGivenNames y; refine Keeps.via (x := y) ?_ (fun _ => ?_); subst y; rotate_left; clear_value y)
    | (extract_lets +onlyGivenNames y; clear_value y)
    | with_reducible apply Keeps.ite
    | with_reducible apply refuseFence_keeps
    | with_reducible apply acceptFence_keeps
    | (with_reducible refine Keeps.via ?_ id; split)

theorem wlCtrl_keeps (h : Keeps p r s) (v : Nat) (_ : p .waiting := by assumption) (_ : p .welt := by assumption) (_ : p (.regs .wl) := by assumption) :
    Keeps p r (State.wlCtrl s v) := by
  unfold State.wlCtrl
  repeat' first
    | with_reducible assumption
    | (extract_lets +onlyGivenNames y; refine Keeps.via (x := y) ?_ (fun _ => ?_); subst y; rotate_left; clear_value y)
    | (extract_lets +onlyGivenNames y; clear_value y)
    | with_reducible apply Keeps.ite
    | with_reducible apply fenceHalves_keeps
    | with_reducible apply modWl_keeps
    | (with_reducible refine Keeps.via ?_ id; split)
    | with_reducible apply_assumption
    | exact Or.inr rfl
    | exact Or.inl (by assumption)

theorem rejoinWrite_kept (h : Keeps p r s) (pp : Path) (_ : p .audit := by assumption) (_ : p .waiting := by assumption) (_ : p .access := by assumption) (_ : p .welt := by assumption) (_ : p (.regs .mg) := by assumption) (_ : p (.regs .wl) := by assumption) :
    Keeps p r (rejoinWrite pp s) := by
  unfold rejoinWrite
  repeat' first
    | with_reducible assumption
    | exact blockOf_is (blockOf_fld _) (by assumption)
    | exact blockOf_is (c := .mg) (blockOf_page (show _ = 0 by omega)) (by assumption)
    | exact blockOf_is (c := .wl) (blockOf_page (show _ = 56 by omega)) (by assumption)
    | (extract_lets +onlyGivenNames y; refine Keeps.via (x := y) ?_ (fun _ => ?_); subst y; rotate_left; clear_value y)
    | (extract_lets +onlyGivenNames y; clear_value y)
    | with_reducible apply gatedWrite_keeps
    | with_reducible apply wlCtrl_keeps
    | with_reducible refine fun _ _ => ?_
    | with_reducible apply_assumption

theorem wlFence_kept (h : Keeps p r s) (pp : Path) (fenceA fenceB : Bool) (_ : p .audit := by assumption) (_ : p .waiting := by assumption) (_ : p .access := by assumption) (_ : p .welt := by assumption) (_ : p (.regs .mg) := by assumption) (_ : p (.regs .wl) := by assumption) :
    Keeps p r (wlFence pp fenceA fenceB s) := by
  unfold wlFence
  repeat' first
    | with_reducible assumption
    | exact blockOf_is (blockOf_fld _) (by assumption)
    | exact blockOf_is (c := .mg) (blockOf_page (show _ = 0 by omega)) (by assumption)
    | exact blockOf_is (c := .wl) (blockOf_page (show _ = 56 by omega)) (by assumption)
    | (extract_lets +onlyGivenNames y; refine Keeps.via (x := y) ?_ (fun _ => ?_); subst y; rotate_left; clear_value y)
    | (extract_lets +onlyGivenNames y; clear_value y)
    | with_reducible apply gatedWrite_keeps
    | with_reducible apply wlCtrl_keeps
    | with_reducible refine fun _ _ => ?_
    | with_reducible apply_assumption

theorem claimLead_keeps (h : Keeps p r s) (hh : Half) (_ : p .welt := by assumption) (_ : p .leader := by assumption) :
    Keeps p r (State.claimLead s hh) := by
  unfold State.claimLead
  repeat' first
    | with_reducible assumption
    | with_reducible apply modWh_keeps
    | with_reducible apply modWl_keeps
    | with_reducible apply_assumption
    | exact Or.inr rfl
    | exact Or.inl (by assumption)

theorem elect_keeps (h : Keeps p r s) (_ : p .welt := by assumption) (_ : p .leader := by assumption) :
    Keeps p r (State.elect s) := by
  unfold State.elect
  repeat' first
    | with_reducible assumption
    | with_reducible apply Keeps.ite
    | with_reducible apply claimLead_keeps
    | (with_reducible refine Keeps.via ?_ id; split)

theorem electLate_keeps (h : Keeps p r s) (_ : p .welt := by assumption) (_ : p .leader := by assumption) :
    Keeps p r (State.electLate s) := by
  unfold State.electLate
  repeat' first
    | with_reducible assumption
    | with_reducible apply Keeps.ite
    | with_reducible apply elect_keeps
    | (with_reducible refine Keeps.via ?_ id; split)

theorem heelFrameSend_kept (h : Keeps p r s) (hh : Half) (_ : p .welt := by assumption) (_ : p .outputs := by assumption) :
    Keeps p r (heelFrameSend hh s) := by
  unfold heelFrameSend
  repeat' first
    | with_reducible assumption
    | (extract_lets +onlyGivenNames y; refine Keeps.via (x := y) ?_ (fun _ => ?_); subst y; rotate_left; clear_value y)
    | (extract_lets +onlyGivenNames y; clear_value y)
    | with_reducible apply Keeps.ite
    | with_reducible apply modWh_keeps
    | with_reducible apply emit_keeps
    | (with_reducible refine Keeps.via ?_ id; split)
    | with_reducible apply_assumption

theorem drivePins_keeps (h : Keeps p r s) (sender now : Half) (_ : p .welt := by assumption) (_ : p .leader := by assumption) :
    Keeps p r (State.drivePins s sender now) := by
  unfold State.drivePins
  repeat' first
    | with_reducible assumption
    | with_reducible apply Keeps.ite
    | with_reducible apply modWl_keeps
    | (with_reducible refine Keeps.via ?_ id; split)
    | with_reducible apply_assumption
    | exact Or.inr rfl
    | exact Or.inl (by assumption)

theorem countSilent_keeps (h : Keeps p r s) (sender : Half) (_ : p .memory := by assumption) (_ : p .waiting := by assumption) (_ : p .timebase := by assumption) (_ : p .schedule := by assumption) (_ : p .heads := by assumption) (_ : p .lamps := by assumption) (_ : p .welt := by assumption) (_ : p .leader := by assumption) (_ : p .outputs := by assumption) (_ : p .draws := by assumption) (_ : p (.regs .le) := by assumption) (_ : p (.regs .mi) := by assumption) (_ : p (.regs .dc) := by assumption) (_ : p (.regs .di) := by assumption) (_ : p (.regs .hp) := by assumption) (_ : p (.regs .wl) := by assumption) : Keeps p r (State.countSilent s sender) := by
  unfold State.countSilent
  dsimp only
  split
  · exact h
  · have h1 : Keeps p r (s.wr (heelFlds sender).2.2.1 1) := wr_keeps h _ _ (by cases sender <;> assumption)
    have h2 := electLate_keeps (drivePins_keeps h1 sender .b)
    split
    · exact leaderUnreachable_keeps h2
    · exact h2

theorem heelFrame_kept (h : Keeps p r s) (sender : Half) (frame : Word) (_ : p .cells := by assumption) (_ : p .memory := by assumption) (_ : p .store := by assumption) (_ : p .waiting := by assumption) (_ : p .timebase := by assumption) (_ : p .schedule := by assumption) (_ : p .heads := by assumption) (_ : p .lamps := by assumption) (_ : p .welt := by assumption) (_ : p .leader := by assumption) (_ : p .power := by assumption) (_ : p .outputs := by assumption) (_ : p .draws := by assumption) (_ : p (.regs .ps) := by assumption) (_ : p (.regs .le) := by assumption) (_ : p (.regs .mi) := by assumption) (_ : p (.regs .dc) := by assumption) (_ : p (.regs .di) := by assumption) (_ : p (.regs .hp) := by assumption) (_ : p (.regs .wl) := by assumption) :
    Keeps p r (heelFrame sender frame s) := by
  unfold heelFrame
  repeat' first
    | with_reducible assumption
    | (show p (.regs _); rename Half => hh'; cases hh' <;> assumption)
    | (show p (.regs _); assumption)
    | (extract_lets +onlyGivenNames y; refine Keeps.via (x := y) ?_ (fun _ => ?_); subst y; rotate_left; clear_value y)
    | (extract_lets +onlyGivenNames y; clear_value y)
    | with_reducible apply Keeps.ite
    | with_reducible apply raise_keeps
    | with_reducible apply bump_keeps
    | with_reducible apply modWh_keeps
    | with_reducible apply countSilent_keeps
    | with_reducible apply electLate_keeps
    | with_reducible apply drivePins_keeps
    | with_reducible apply wr_keeps
    | with_reducible apply checkEyelet_keeps
    | with_reducible apply fatalHalf_keeps
    | (with_reducible refine Keeps.via ?_ id; split)
    | with_reducible refine Keeps.ofSnd (by assumption) ?_
    | with_reducible refine Keeps.ofFst (by assumption) ?_
    | with_reducible apply_assumption

theorem heelSilent_kept (h : Keeps p r s) (sender : Half) (_ : p .memory := by assumption) (_ : p .waiting := by assumption) (_ : p .timebase := by assumption) (_ : p .schedule := by assumption) (_ : p .heads := by assumption) (_ : p .lamps := by assumption) (_ : p .welt := by assumption) (_ : p .leader := by assumption) (_ : p .outputs := by assumption) (_ : p .draws := by assumption) (_ : p (.regs .le) := by assumption) (_ : p (.regs .mi) := by assumption) (_ : p (.regs .dc) := by assumption) (_ : p (.regs .di) := by assumption) (_ : p (.regs .hp) := by assumption) (_ : p (.regs .wl) := by assumption) :
    Keeps p r (heelSilent sender s) := by
  unfold heelSilent
  repeat' first
    | with_reducible assumption
    | with_reducible apply Keeps.ite
    | with_reducible apply countSilent_keeps
    | (with_reducible refine Keeps.via ?_ id; split)

theorem heartbeat_kept (h : Keeps p r s) :
    Keeps p r (heartbeat s) := by
  unfold heartbeat
  repeat' first
    | with_reducible assumption

theorem lead_keeps (h : Keeps p r s) (hh : Half) (_ : p .clock := by assumption) (_ : p .timebase := by assumption) (_ : p .schedule := by assumption) (_ : p .welt := by assumption) (_ : p .leader := by assumption) (_ : p (.regs .th) := by assumption) (_ : p (.regs .tb) := by assumption) (_ : p (.regs .wl) := by assumption) :
    Keeps p r (State.lead s hh) := by
  unfold State.lead
  repeat' first
    | with_reducible assumption
    | (show p (.regs _); assumption)
    | (extract_lets +onlyGivenNames y; refine Keeps.via (x := y) ?_ (fun _ => ?_); subst y; rotate_left; clear_value y)
    | (extract_lets +onlyGivenNames y; clear_value y)
    | with_reducible apply Keeps.ite
    | with_reducible apply modTb_keeps
    | with_reducible apply flip_keeps
    | with_reducible apply wr_keeps
    | with_reducible apply wrap_keeps
    | with_reducible apply modWl_keeps
    | (with_reducible refine Keeps.via ?_ id; split)
    | exact Or.inl (by assumption)
    | exact Or.inr rfl
    | exact rfl
    | exact State.Sorted.modMg rfl rfl
    | exact State.Sorted.modLe rfl rfl
    | exact id
    | (dsimp only; split)
    | with_reducible apply_assumption
    | exact Or.inr rfl
    | exact Or.inl (by assumption)

theorem leadershipTakeover_kept (h : Keeps p r s) (_ : p .waiting := by assumption) (_ : p .clock := by assumption) (_ : p .timebase := by assumption) (_ : p .schedule := by assumption) (_ : p .welt := by assumption) (_ : p .leader := by assumption) (_ : p (.regs .th) := by assumption) (_ : p (.regs .tb) := by assumption) (_ : p (.regs .wl) := by assumption) :
    Keeps p r (leadershipTakeover s) := by
  unfold leadershipTakeover
  repeat' first
    | with_reducible assumption
    | (extract_lets +onlyGivenNames y; refine Keeps.via (x := y) ?_ (fun _ => ?_); subst y; rotate_left; clear_value y)
    | (extract_lets +onlyGivenNames y; clear_value y)
    | with_reducible apply Keeps.ite
    | with_reducible apply modWh_keeps
    | with_reducible apply modWl_keeps
    | with_reducible apply lead_keeps
    | with_reducible apply raise_keeps
    | (with_reducible refine Keeps.via ?_ id; split)
    | with_reducible apply_assumption
    | exact Or.inr rfl
    | exact Or.inl (by assumption)

theorem claimDrop_kept (h : Keeps p r s) (_ : p .waiting := by assumption) (_ : p .clock := by assumption) (_ : p .timebase := by assumption) (_ : p .schedule := by assumption) (_ : p .welt := by assumption) (_ : p .leader := by assumption) (_ : p (.regs .th) := by assumption) (_ : p (.regs .tb) := by assumption) (_ : p (.regs .wl) := by assumption) :
    Keeps p r (claimDrop s) := by
  unfold claimDrop
  repeat' first
    | with_reducible assumption
    | (extract_lets +onlyGivenNames y; refine Keeps.via (x := y) ?_ (fun _ => ?_); subst y; rotate_left; clear_value y)
    | (extract_lets +onlyGivenNames y; clear_value y)
    | with_reducible apply Keeps.ite
    | with_reducible apply modWl_keeps
    | with_reducible apply lead_keeps
    | with_reducible apply modWh_keeps
    | with_reducible apply raise_keeps
    | (with_reducible refine Keeps.via ?_ id; split)
    | with_reducible apply_assumption
    | exact Or.inr rfl
    | exact Or.inl (by assumption)

end Sys2Proof.Machine
end

