-- ==== Sys2Proof/Laws/KeepsPower.lean ====
section
/-! SUPPORT. What every function keeps (Sys2Proof/Laws/Keeps.lean), carried through power, management, the time base and the schedule. -/
set_option Elab.async false
set_option linter.unusedTactic false
set_option linter.unreachableTactic false
set_option linter.unusedVariables false
namespace Sys2Proof.Machine

variable {p : Part → Prop} {r s : State}

theorem addCharge_keeps (h : Keeps p r s) (hh : Half) (_ : p .power := by assumption) :
    Keeps p r (State.addCharge s hh) := by
  unfold State.addCharge
  repeat' first
    | with_reducible assumption
    | with_reducible apply Keeps.ite
    | with_reducible apply modPwr_keeps
    | (with_reducible refine Keeps.via ?_ id; split)
    | with_reducible apply_assumption

theorem setRailen_keeps (h : Keeps p r s) (rr : Nat) (on : Bool) (_ : p .power := by assumption) :
    Keeps p r (State.setRailen s rr on) := by
  unfold State.setRailen
  repeat' first
    | with_reducible assumption
    | with_reducible apply Keeps.ite
    | with_reducible apply modPwr_keeps
    | (with_reducible refine Keeps.via ?_ id; split)
    | with_reducible apply_assumption

theorem enableRail_keeps (h : Keeps p r s) (rr : Nat) (_ : p .power := by assumption) (_ : p (.regs .ps) := by assumption) :
    Keeps p r (State.enableRail s rr) := by
  unfold State.enableRail
  repeat' first
    | with_reducible assumption
    | (show p (.regs _); assumption)
    | with_reducible apply Keeps.ite
    | with_reducible apply wr_keeps
    | with_reducible apply setRailen_keeps
    | (with_reducible refine Keeps.via ?_ id; split)

theorem railMessage_keeps (h : Keeps p r s) (rr mv : Nat) (_ : p .waiting := by assumption) :
    Keeps p r (State.railMessage s rr mv) := by
  unfold State.railMessage
  repeat' first
    | with_reducible assumption
    | with_reducible apply raiseL_keeps

theorem dropAction_keeps (h : Keeps p r s) (rr : Nat) (_ : p .memory := by assumption) (_ : p .roles := by assumption) (_ : p .audit := by assumption) (_ : p .waiting := by assumption) (_ : p .timebase := by assumption) (_ : p .schedule := by assumption) (_ : p .heads := by assumption) (_ : p .access := by assumption) (_ : p .lamps := by assumption) (_ : p .welt := by assumption) (_ : p .outputs := by assumption) (_ : p .draws := by assumption) (_ : p (.regs .mg) := by assumption) (_ : p (.regs .fs) := by assumption) (_ : p (.regs .le) := by assumption) (_ : p (.regs .mi) := by assumption) (_ : p (.regs .dc) := by assumption) (_ : p (.regs .di) := by assumption) (_ : p (.regs .hp) := by assumption) (_ : p (.regs .wl) := by assumption) :
    Keeps p r (State.dropAction s rr) := by
  unfold State.dropAction
  repeat' first
    | with_reducible assumption
    | with_reducible apply halfLost_keeps
    | with_reducible apply headsOff_keeps
    | with_reducible apply vddqLost_keeps
    | (with_reducible refine Keeps.via ?_ id; split)

theorem dropDependants_keeps (h : Keeps p r s) (_ : p .memory := by assumption) (_ : p .roles := by assumption) (_ : p .audit := by assumption) (_ : p .waiting := by assumption) (_ : p .timebase := by assumption) (_ : p .schedule := by assumption) (_ : p .heads := by assumption) (_ : p .access := by assumption) (_ : p .lamps := by assumption) (_ : p .welt := by assumption) (_ : p .power := by assumption) (_ : p .outputs := by assumption) (_ : p .draws := by assumption) (_ : p (.regs .mg) := by assumption) (_ : p (.regs .ps) := by assumption) (_ : p (.regs .fs) := by assumption) (_ : p (.regs .le) := by assumption) (_ : p (.regs .mi) := by assumption) (_ : p (.regs .dc) := by assumption) (_ : p (.regs .di) := by assumption) (_ : p (.regs .hp) := by assumption) (_ : p (.regs .wl) := by assumption) :
    Keeps p r (State.dropDependants s) := by
  unfold State.dropDependants
  repeat' first
    | with_reducible assumption
    | (show p (.regs _); assumption)
    | (extract_lets +onlyGivenNames y; refine Keeps.via (x := y) ?_ (fun _ => ?_); subst y; rotate_left; clear_value y)
    | (extract_lets +onlyGivenNames y; clear_value y)
    | with_reducible apply Keeps.ite
    | with_reducible apply wr_keeps
    | with_reducible apply setRailen_keeps
    | with_reducible apply dropAction_keeps
    | with_reducible refine Keeps.foldl _ ?_ (fun _ _ _ => ?_)
    | (with_reducible refine Keeps.via ?_ id; split)
    | with_reducible apply_assumption

theorem dropAllDependants_keeps (h : Keeps p r s) (_ : p .memory := by assumption) (_ : p .roles := by assumption) (_ : p .audit := by assumption) (_ : p .waiting := by assumption) (_ : p .timebase := by assumption) (_ : p .schedule := by assumption) (_ : p .heads := by assumption) (_ : p .access := by assumption) (_ : p .lamps := by assumption) (_ : p .welt := by assumption) (_ : p .power := by assumption) (_ : p .outputs := by assumption) (_ : p .draws := by assumption) (_ : p (.regs .mg) := by assumption) (_ : p (.regs .ps) := by assumption) (_ : p (.regs .fs) := by assumption) (_ : p (.regs .le) := by assumption) (_ : p (.regs .mi) := by assumption) (_ : p (.regs .dc) := by assumption) (_ : p (.regs .di) := by assumption) (_ : p (.regs .hp) := by assumption) (_ : p (.regs .wl) := by assumption) :
    Keeps p r (State.dropAllDependants s) := by
  unfold State.dropAllDependants
  repeat' first
    | with_reducible assumption
    | with_reducible apply dropDependants_keeps

theorem setWindow_keeps (h : Keeps p r s) (rr : Nat) (w : Nat × Nat) (_ : p (.regs .ps) := by assumption) :
    Keeps p r (State.setWindow s rr w) := by
  unfold State.setWindow
  repeat' first
    | with_reducible assumption
    | (show p (.regs _); assumption)
    | with_reducible apply wr_keeps

theorem transStart_keeps (h : Keeps p r s) (_ : p .power := by assumption) (_ : p (.regs .ps) := by assumption) :
    Keeps p r (State.transStart s) := by
  unfold State.transStart
  repeat' first
    | with_reducible assumption
    | (show p (.regs _); assumption)
    | (extract_lets +onlyGivenNames y; refine Keeps.via (x := y) ?_ (fun _ => ?_); subst y; rotate_left; clear_value y)
    | (extract_lets +onlyGivenNames y; refine Keeps.via (x := y.2) ?_ (fun _ => ?_); subst y; rotate_left; clear_value y)
    | (extract_lets +onlyGivenNames y; refine Keeps.via (x := y.1) ?_ (fun _ => ?_); subst y; rotate_left; clear_value y)
    | (extract_lets +onlyGivenNames y; clear_value y)
    | with_reducible apply Keeps.ite
    | with_reducible apply wr_keeps
    | with_reducible apply modPwr_keeps
    | with_reducible apply setWindow_keeps
    | (with_reducible refine Keeps.via ?_ id; split)
    | with_reducible apply_assumption

theorem transEnd_keeps (h : Keeps p r s) (abandoned : Bool) (_ : p .power := by assumption) (_ : p (.regs .ps) := by assumption) :
    Keeps p r (State.transEnd s abandoned) := by
  unfold State.transEnd
  repeat' first
    | with_reducible assumption
    | (show p (.regs _); assumption)
    | (extract_lets +onlyGivenNames y; refine Keeps.via (x := y) ?_ (fun _ => ?_); subst y; rotate_left; clear_value y)
    | (extract_lets +onlyGivenNames y; clear_value y)
    | with_reducible apply Keeps.ite
    | with_reducible apply wr_keeps
    | with_reducible apply modPwr_keeps
    | with_reducible apply setWindow_keeps
    | (with_reducible refine Keeps.via ?_ id; split)
    | with_reducible apply_assumption

theorem laceAbortWrite_keeps (h : Keeps p r s) (_ : p .power := by assumption) (_ : p (.regs .ps) := by assumption) :
    Keeps p r (State.laceAbortWrite s) := by
  unfold State.laceAbortWrite
  repeat' first
    | with_reducible assumption
    | (show p (.regs _); assumption)
    | with_reducible apply Keeps.ite
    | with_reducible apply modPwr_keeps
    | with_reducible apply wr_keeps
    | (with_reducible refine Keeps.via ?_ id; split)
    | with_reducible apply_assumption

theorem holdDrive_keeps (h : Keeps p r s) (_ : p .power := by assumption) :
    Keeps p r (State.holdDrive s) := by
  unfold State.holdDrive
  repeat' first
    | with_reducible assumption
    | with_reducible apply modPwr_keeps
    | with_reducible apply_assumption

theorem startShed_keeps (h : Keeps p r s) (reason : Nat) (cut : Bool) (_ : p .cells := by assumption) (_ : p .memory := by assumption) (_ : p .flash := by assumption) (_ : p .roles := by assumption) (_ : p .audit := by assumption) (_ : p .manage := by assumption) (_ : p .waiting := by assumption) (_ : p .timebase := by assumption) (_ : p .schedule := by assumption) (_ : p .heads := by assumption) (_ : p .access := by assumption) (_ : p .lamps := by assumption) (_ : p .welt := by assumption) (_ : p .power := by assumption) (_ : p .outputs := by assumption) (_ : p .draws := by assumption) (_ : p (.regs .mg) := by assumption) (_ : p (.regs .ps) := by assumption) (_ : p (.regs .le) := by assumption) (_ : p (.regs .dc) := by assumption) (_ : p (.regs .di) := by assumption) (_ : p (.regs .hp) := by assumption) :
    Keeps p r (State.startShed s reason cut) := by
  unfold State.startShed
  repeat' first
    | with_reducible assumption
    | (show p (.regs _); assumption)
    | (extract_lets +onlyGivenNames y; refine Keeps.via (x := y) ?_ (fun _ => ?_); subst y; rotate_left; clear_value y)
    | (extract_lets +onlyGivenNames y; clear_value y)
    | with_reducible apply Keeps.ite
    | with_reducible apply holdDrive_keeps
    | with_reducible apply modPwr_keeps
    | with_reducible apply fsIdle_keeps
    | with_reducible apply stopLamps_keeps
    | with_reducible apply stopServices_keeps
    | with_reducible apply selfRefreshHalf_keeps
    | with_reducible apply freezeCopies_keeps
    | with_reducible apply headsOff_keeps
    | with_reducible apply modMg_keeps
    | with_reducible apply flashCutOff_keeps
    | with_reducible apply wr_keeps
    | with_reducible apply transEnd_keeps
    | with_reducible apply raiseL_keeps
    | (with_reducible refine Keeps.via ?_ id; split)
    | exact Or.inl (by assumption)
    | exact Or.inr rfl
    | exact rfl
    | exact State.Sorted.modMg rfl rfl
    | exact State.Sorted.modLe rfl rfl
    | exact id
    | exact List.suffix_rfl
    | exact fun _ => Nat.zero_le _
    | (dsimp only; split)
    | with_reducible apply_assumption

theorem shedNow_keeps (h : Keeps p r s) (reason : Nat) (_ : p .cells := by assumption) (_ : p .memory := by assumption) (_ : p .flash := by assumption) (_ : p .roles := by assumption) (_ : p .audit := by assumption) (_ : p .manage := by assumption) (_ : p .waiting := by assumption) (_ : p .timebase := by assumption) (_ : p .schedule := by assumption) (_ : p .heads := by assumption) (_ : p .access := by assumption) (_ : p .lamps := by assumption) (_ : p .welt := by assumption) (_ : p .power := by assumption) (_ : p .outputs := by assumption) (_ : p .draws := by assumption) (_ : p (.regs .mg) := by assumption) (_ : p (.regs .ps) := by assumption) (_ : p (.regs .le) := by assumption) (_ : p (.regs .dc) := by assumption) (_ : p (.regs .di) := by assumption) (_ : p (.regs .hp) := by assumption) :
    Keeps p r (State.shedNow s reason) := by
  unfold State.shedNow
  repeat' first
    | with_reducible assumption
    | with_reducible apply Keeps.ite
    | with_reducible apply startShed_keeps
    | (with_reducible refine Keeps.via ?_ id; split)

theorem vinLost_keeps (h : Keeps p r s) (_ : p (.regs .ps) := by assumption) :
    Keeps p r (State.vinLost s) := by
  unfold State.vinLost
  repeat' first
    | with_reducible assumption
    | (show p (.regs _); assumption)
    | (extract_lets +onlyGivenNames y; refine Keeps.via (x := y) ?_ (fun _ => ?_); subst y; rotate_left; clear_value y)
    | (extract_lets +onlyGivenNames y; clear_value y)
    | with_reducible apply Keeps.ite
    | with_reducible apply wr_keeps
    | (with_reducible refine Keeps.via ?_ id; split)

theorem assertPfw_keeps (h : Keeps p r s) (vin : Nat) (_ : p .memory := by assumption) (_ : p .waiting := by assumption) (_ : p .power := by assumption) (_ : p (.regs .ps) := by assumption) (_ : p (.regs .mi) := by assumption) (_ : p (.regs .di) := by assumption) :
    Keeps p r (State.assertPfw s vin) := by
  unfold State.assertPfw
  repeat' first
    | with_reducible assumption
    | (show p (.regs _); assumption)
    | (extract_lets +onlyGivenNames y; refine Keeps.via (x := y) ?_ (fun _ => ?_); subst y; rotate_left; clear_value y)
    | (extract_lets +onlyGivenNames y; clear_value y)
    | with_reducible apply Keeps.ite
    | with_reducible apply raiseL_keeps
    | with_reducible apply bump_keeps
    | with_reducible apply wr_keeps
    | with_reducible apply transEnd_keeps
    | with_reducible apply modPwr_keeps
    | with_reducible apply vinLost_keeps
    | with_reducible apply holdDrive_keeps
    | with_reducible apply pfwStops_keeps
    | with_reducible refine Keeps.foldl _ ?_ (fun _ _ _ => ?_)
    | (with_reducible refine Keeps.via ?_ id; split)
    | with_reducible apply_assumption

theorem railLossAction_keeps (h : Keeps p r s) (rr vin : Nat) (_ : p .cells := by assumption) (_ : p .memory := by assumption) (_ : p .flash := by assumption) (_ : p .roles := by assumption) (_ : p .audit := by assumption) (_ : p .manage := by assumption) (_ : p .store := by assumption) (_ : p .waiting := by assumption) (_ : p .timebase := by assumption) (_ : p .schedule := by assumption) (_ : p .heads := by assumption) (_ : p .access := by assumption) (_ : p .lamps := by assumption) (_ : p .welt := by assumption) (_ : p .power := by assumption) (_ : p .outputs := by assumption) (_ : p .draws := by assumption) (_ : p (.regs .mg) := by assumption) (_ : p (.regs .ps) := by assumption) (_ : p (.regs .fs) := by assumption) (_ : p (.regs .le) := by assumption) (_ : p (.regs .mi) := by assumption) (_ : p (.regs .dc) := by assumption) (_ : p (.regs .di) := by assumption) (_ : p (.regs .hp) := by assumption) (_ : p (.regs .wl) := by assumption) :
    Keeps p r (State.railLossAction s rr vin) := by
  unfold State.railLossAction
  repeat' first
    | with_reducible assumption
    | with_reducible apply assertPfw_keeps
    | with_reducible apply shedNow_keeps
    | with_reducible apply halfLost_keeps
    | with_reducible apply vddqLost_keeps
    | with_reducible apply enterFatal_keeps
    | with_reducible apply headsOff_keeps
    | (with_reducible refine Keeps.via ?_ id; split)

theorem softStartFail_kept (h : Keeps p r s) (rr : Fin 12) (overCurrent : Bool) (mv : Nat) (_ : p .cells := by assumption) (_ : p .memory := by assumption) (_ : p .flash := by assumption) (_ : p .roles := by assumption) (_ : p .audit := by assumption) (_ : p .manage := by assumption) (_ : p .store := by assumption) (_ : p .waiting := by assumption) (_ : p .timebase := by assumption) (_ : p .schedule := by assumption) (_ : p .heads := by assumption) (_ : p .access := by assumption) (_ : p .lamps := by assumption) (_ : p .welt := by assumption) (_ : p .power := by assumption) (_ : p .outputs := by assumption) (_ : p .draws := by assumption) (_ : p (.regs .mg) := by assumption) (_ : p (.regs .ps) := by assumption) (_ : p (.regs .fs) := by assumption) (_ : p (.regs .le) := by assumption) (_ : p (.regs .mi) := by assumption) (_ : p (.regs .dc) := by assumption) (_ : p (.regs .di) := by assumption) (_ : p (.regs .hp) := by assumption) (_ : p (.regs .wl) := by assumption) :
    Keeps p r (softStartFail rr overCurrent mv s) := by
  unfold softStartFail
  repeat' first
    | with_reducible assumption
    | (show p (.regs _); assumption)
    | (extract_lets +onlyGivenNames y; refine Keeps.via (x := y) ?_ (fun _ => ?_); subst y; rotate_left; clear_value y)
    | (extract_lets +onlyGivenNames y; clear_value y)
    | with_reducible apply Keeps.ite
    | with_reducible apply wr_keeps
    | with_reducible apply setRailen_keeps
    | with_reducible apply railMessage_keeps
    | with_reducible apply checkEyelet_keeps
    | with_reducible apply railLossAction_keeps
    | (with_reducible refine Keeps.via ?_ id; split)

theorem softStartRetry_kept (h : Keeps p r s) (rr : Fin 12) (_ : p .power := by assumption) (_ : p (.regs .ps) := by assumption) :
    Keeps p r (softStartRetry rr s) := by
  unfold softStartRetry
  repeat' first
    | with_reducible assumption
    | (show p (.regs _); assumption)
    | with_reducible apply Keeps.ite
    | with_reducible apply enableRail_keeps
    | with_reducible apply wr_keeps
    | (with_reducible refine Keeps.via ?_ id; split)

theorem railFail_kept (h : Keeps p r s) (rr : Fin 12) (cause : RailCause) (mv : Nat) (_ : p .cells := by assumption) (_ : p .memory := by assumption) (_ : p .flash := by assumption) (_ : p .roles := by assumption) (_ : p .audit := by assumption) (_ : p .manage := by assumption) (_ : p .store := by assumption) (_ : p .waiting := by assumption) (_ : p .timebase := by assumption) (_ : p .schedule := by assumption) (_ : p .heads := by assumption) (_ : p .access := by assumption) (_ : p .lamps := by assumption) (_ : p .welt := by assumption) (_ : p .power := by assumption) (_ : p .outputs := by assumption) (_ : p .draws := by assumption) (_ : p (.regs .mg) := by assumption) (_ : p (.regs .ps) := by assumption) (_ : p (.regs .fs) := by assumption) (_ : p (.regs .le) := by assumption) (_ : p (.regs .mi) := by assumption) (_ : p (.regs .dc) := by assumption) (_ : p (.regs .di) := by assumption) (_ : p (.regs .hp) := by assumption) (_ : p (.regs .wl) := by assumption) :
    Keeps p r (railFail rr cause mv s) := by
  unfold railFail
  repeat' first
    | with_reducible assumption
    | (show p (.regs _); assumption)
    | (extract_lets +onlyGivenNames y; refine Keeps.via (x := y) ?_ (fun _ => ?_); subst y; rotate_left; clear_value y)
    | (extract_lets +onlyGivenNames y; clear_value y)
    | with_reducible apply Keeps.ite
    | with_reducible apply wr_keeps
    | with_reducible apply vinLost_keeps
    | with_reducible apply railMessage_keeps
    | with_reducible apply setRailen_keeps
    | with_reducible apply checkEyelet_keeps
    | with_reducible apply dropAllDependants_keeps
    | with_reducible apply railLossAction_keeps
    | (with_reducible refine Keeps.via ?_ id; split)
    | with_reducible refine Keeps.ofSnd (by assumption) ?_
    | with_reducible refine Keeps.ofFst (by assumption) ?_

theorem transitionStart_kept (h : Keeps p r s) (pp : Path) (v : Word) (_ : p .audit := by assumption) (_ : p .waiting := by assumption) (_ : p .access := by assumption) (_ : p .power := by assumption) (_ : p (.regs .mg) := by assumption) (_ : p (.regs .ps) := by assumption) :
    Keeps p r (transitionStart pp v s) := by
  unfold transitionStart
  repeat' first
    | with_reducible assumption
    | exact blockOf_is (blockOf_fld _) (by assumption)
    | exact blockOf_is (c := .mg) (blockOf_page (show _ = 0 by omega)) (by assumption)
    | exact blockOf_is (c := .ps) (blockOf_page (show _ = 2 by omega)) (by assumption)
    | with_reducible apply Keeps.ite
    | with_reducible apply gatedWrite_keeps
    | with_reducible apply transStart_keeps
    | (with_reducible refine Keeps.via ?_ id; split)
    | with_reducible refine fun _ _ => ?_
    | with_reducible apply_assumption

theorem transitionBlankEnd_kept (h : Keeps p r s) (_ : p .power := by assumption) (_ : p (.regs .ps) := by assumption) :
    Keeps p r (transitionBlankEnd s) := by
  unfold transitionBlankEnd
  repeat' first
    | with_reducible assumption
    | with_reducible apply transEnd_keeps

theorem pfwAssert_kept (h : Keeps p r s) (vin : Nat) (_ : p .memory := by assumption) (_ : p .waiting := by assumption) (_ : p .power := by assumption) (_ : p (.regs .ps) := by assumption) (_ : p (.regs .mi) := by assumption) (_ : p (.regs .di) := by assumption) :
    Keeps p r (pfwAssert vin s) := by
  unfold pfwAssert
  repeat' first
    | with_reducible assumption
    | with_reducible apply assertPfw_keeps

theorem pfwRide_kept (h : Keeps p r s) (_ : p .power := by assumption) (_ : p (.regs .ps) := by assumption) :
    Keeps p r (pfwRide s) := by
  unfold pfwRide
  repeat' first
    | with_reducible assumption
    | (show p (.regs _); assumption)
    | (extract_lets +onlyGivenNames y; refine Keeps.via (x := y) ?_ (fun _ => ?_); subst y; rotate_left; clear_value y)
    | (extract_lets +onlyGivenNames y; clear_value y)
    | with_reducible apply Keeps.ite
    | with_reducible apply modPwr_keeps
    | with_reducible apply bump_keeps
    | with_reducible apply wr_keeps
    | (with_reducible refine Keeps.via ?_ id; split)
    | with_reducible apply_assumption

theorem pfwDelayEnd_kept (h : Keeps p r s) (_ : p .cells := by assumption) (_ : p .memory := by assumption) (_ : p .flash := by assumption) (_ : p .roles := by assumption) (_ : p .audit := by assumption) (_ : p .manage := by assumption) (_ : p .waiting := by assumption) (_ : p .timebase := by assumption) (_ : p .schedule := by assumption) (_ : p .heads := by assumption) (_ : p .access := by assumption) (_ : p .lamps := by assumption) (_ : p .welt := by assumption) (_ : p .power := by assumption) (_ : p .outputs := by assumption) (_ : p .draws := by assumption) (_ : p (.regs .mg) := by assumption) (_ : p (.regs .ps) := by assumption) (_ : p (.regs .le) := by assumption) (_ : p (.regs .dc) := by assumption) (_ : p (.regs .di) := by assumption) (_ : p (.regs .hp) := by assumption) :
    Keeps p r (pfwDelayEnd s) := by
  unfold pfwDelayEnd
  repeat' first
    | with_reducible assumption
    | with_reducible apply Keeps.ite
    | with_reducible apply startShed_keeps
    | (with_reducible refine Keeps.via ?_ id; split)

theorem shedRail_keeps (h : Keeps p r s) (rr : Nat) (_ : p .power := by assumption) (_ : p (.regs .ps) := by assumption) :
    Keeps p r (State.shedRail s rr) := by
  unfold State.shedRail
  repeat' first
    | with_reducible assumption
    | (show p (.regs _); assumption)
    | with_reducible apply Keeps.ite
    | with_reducible apply wr_keeps
    | with_reducible apply setRailen_keeps
    | (with_reducible refine Keeps.via ?_ id; split)

theorem railGroupDrop_kept (h : Keeps p r s) (_ : p .power := by assumption) (_ : p (.regs .ps) := by assumption) :
    Keeps p r (railGroupDrop s) := by
  unfold railGroupDrop
  repeat' first
    | with_reducible assumption
    | with_reducible apply Keeps.ite
    | with_reducible apply shedRail_keeps
    | with_reducible apply modPwr_keeps
    | with_reducible refine Keeps.foldl _ ?_ (fun _ _ _ => ?_)
    | (with_reducible refine Keeps.via ?_ id; split)
    | with_reducible apply_assumption

theorem adcRun_keeps (h : Keeps p r s) (hh : Half) (l : List (BitVec 12)) (_ : p .power := by assumption) : Keeps p r (State.adcRun s hh l) := by
  induction l generalizing s with
  | nil => exact h
  | cons v t ih =>
    unfold State.adcRun
    split
    · exact h
    · exact ih (addCharge_keeps (modPwr_keeps h _) hh)


theorem powerFailRecord_kept (h : Keeps p r s) (byVrec : Bool) (vin : Nat) (samples : List (BitVec 12)) (tShed tRec : Nat) (_ : p .waiting := by assumption) (_ : p .power := by assumption) (_ : p (.regs .ps) := by assumption) :
    Keeps p r (powerFailRecord byVrec vin samples tShed tRec s) := by
  unfold powerFailRecord
  repeat' first
    | with_reducible assumption
    | (show p (.regs _); assumption)
    | (extract_lets +onlyGivenNames y; refine Keeps.via (x := y) ?_ (fun _ => ?_); subst y; rotate_left; clear_value y)
    | (extract_lets +onlyGivenNames y; clear_value y)
    | with_reducible apply Keeps.ite
    | with_reducible apply adcRun_keeps
    | with_reducible apply flag_keeps
    | with_reducible apply wr_keeps
    | with_reducible apply raiseL_keeps
    | with_reducible apply modPwr_keeps
    | (with_reducible refine Keeps.via ?_ id; split)
    | with_reducible apply_assumption

theorem blankNext_keeps (h : Keeps p r s) (_ : p .flash := by assumption) :
    Keeps p r (State.blankNext s) := by
  unfold State.blankNext
  repeat' first
    | with_reducible assumption
    | (extract_lets +onlyGivenNames y; refine Keeps.via (x := y) ?_ (fun _ => ?_); subst y; rotate_left; clear_value y)
    | (extract_lets +onlyGivenNames y; clear_value y)
    | with_reducible apply Keeps.ite
    | with_reducible apply flashErase_keeps
    | (with_reducible refine Keeps.via ?_ id; split)

theorem recordWritten_kept (h : Keeps p r s) (ok : Bool) (_ : p .flash := by assumption) (_ : p .waiting := by assumption) (_ : p .power := by assumption) (_ : p .draws := by assumption) (_ : p (.regs .ps) := by assumption) :
    Keeps p r (recordWritten ok s) := by
  unfold recordWritten
  repeat' first
    | with_reducible assumption
    | (show p (.regs _); assumption)
    | (extract_lets +onlyGivenNames y; refine Keeps.via (x := y) ?_ (fun _ => ?_); subst y; rotate_left; clear_value y)
    | (extract_lets +onlyGivenNames y; clear_value y)
    | with_reducible apply Keeps.ite
    | with_reducible apply flashPut_keeps
    | with_reducible apply flashCut_keeps
    | with_reducible apply raiseL_keeps
    | with_reducible apply wr_keeps
    | with_reducible apply shedRail_keeps
    | with_reducible apply blankNext_keeps
    | with_reducible apply modPwr_keeps
    | with_reducible refine Keeps.foldl _ ?_ (fun _ _ _ => ?_)
    | (with_reducible refine Keeps.via ?_ id; split)
    | with_reducible apply_assumption

theorem vauxFail_kept (h : Keeps p r s) (vauxc : Bool) (mv : Nat) (_ : p .cells := by assumption) (_ : p .memory := by assumption) (_ : p .flash := by assumption) (_ : p .roles := by assumption) (_ : p .audit := by assumption) (_ : p .manage := by assumption) (_ : p .waiting := by assumption) (_ : p .timebase := by assumption) (_ : p .schedule := by assumption) (_ : p .heads := by assumption) (_ : p .access := by assumption) (_ : p .lamps := by assumption) (_ : p .welt := by assumption) (_ : p .power := by assumption) (_ : p .outputs := by assumption) (_ : p .draws := by assumption) (_ : p (.regs .mg) := by assumption) (_ : p (.regs .ps) := by assumption) (_ : p (.regs .le) := by assumption) (_ : p (.regs .dc) := by assumption) (_ : p (.regs .di) := by assumption) (_ : p (.regs .hp) := by assumption) :
    Keeps p r (vauxFail vauxc mv s) := by
  unfold vauxFail
  repeat' first
    | with_reducible assumption
    | (show p (.regs _); assumption)
    | (extract_lets +onlyGivenNames y; refine Keeps.via (x := y) ?_ (fun _ => ?_); subst y; rotate_left; clear_value y)
    | (extract_lets +onlyGivenNames y; refine Keeps.via (x := y.2) ?_ (fun _ => ?_); subst y; rotate_left; clear_value y)
    | (extract_lets +onlyGivenNames y; clear_value y)
    | with_reducible apply Keeps.ite
    | with_reducible apply wr_keeps
    | with_reducible apply shedNow_keeps
    | with_reducible apply railMessage_keeps
    | (with_reducible refine Keeps.via ?_ id; split)

theorem vinReturnOff_kept (h : Keeps p r s) (vin : Nat) (_ : p .waiting := by assumption) :
    Keeps p r (vinReturnOff vin s) := by
  unfold vinReturnOff
  repeat' first
    | with_reducible assumption
    | with_reducible apply Keeps.ite
    | with_reducible apply raiseL_keeps
    | (with_reducible refine Keeps.via ?_ id; split)

theorem eyeWarn_kept (h : Keeps p r s) (_ : p .waiting := by assumption) (_ : p .power := by assumption) (_ : p (.regs .ps) := by assumption) :
    Keeps p r (eyeWarn s) := by
  unfold eyeWarn
  repeat' first
    | with_reducible assumption
    | (show p (.regs _); assumption)
    | with_reducible apply Keeps.ite
    | with_reducible apply raiseL_keeps
    | with_reducible apply modPwr_keeps
    | with_reducible apply bump_keeps
    | (with_reducible refine Keeps.via ?_ id; split)
    | with_reducible apply_assumption

theorem nextEyelet_keeps (h : Keeps p r s) (_ : p .power := by assumption) (_ : p (.regs .mg) := by assumption) (_ : p (.regs .ps) := by assumption) :
    Keeps p r (State.nextEyelet s) := by
  unfold State.nextEyelet
  repeat' first
    | with_reducible assumption
    | (show p (.regs _); assumption)
    | (extract_lets +onlyGivenNames y; refine Keeps.via (x := y) ?_ (fun _ => ?_); subst y; rotate_left; clear_value y)
    | (extract_lets +onlyGivenNames y; clear_value y)
    | with_reducible apply Keeps.ite
    | with_reducible apply modPwr_keeps
    | with_reducible apply wr_keeps
    | (with_reducible refine Keeps.via ?_ id; split)
    | with_reducible apply_assumption

theorem laceRise_kept (h : Keeps p r s) (_ : p .power := by assumption) (_ : p (.regs .mg) := by assumption) (_ : p (.regs .ps) := by assumption) :
    Keeps p r (laceRise s) := by
  unfold laceRise
  repeat' first
    | with_reducible assumption
    | (show p (.regs _); assumption)
    | (extract_lets +onlyGivenNames y; refine Keeps.via (x := y) ?_ (fun _ => ?_); subst y; rotate_left; clear_value y)
    | (extract_lets +onlyGivenNames y; clear_value y)
    | with_reducible apply Keeps.ite
    | with_reducible apply modPwr_keeps
    | with_reducible apply wr_keeps
    | with_reducible apply nextEyelet_keeps
    | (with_reducible refine Keeps.via ?_ id; split)
    | with_reducible apply_assumption

theorem laceAbort_kept (h : Keeps p r s) (_ : p .cells := by assumption) (_ : p .memory := by assumption) (_ : p .flash := by assumption) (_ : p .roles := by assumption) (_ : p .audit := by assumption) (_ : p .manage := by assumption) (_ : p .waiting := by assumption) (_ : p .timebase := by assumption) (_ : p .schedule := by assumption) (_ : p .heads := by assumption) (_ : p .access := by assumption) (_ : p .lamps := by assumption) (_ : p .welt := by assumption) (_ : p .power := by assumption) (_ : p .outputs := by assumption) (_ : p .draws := by assumption) (_ : p (.regs .mg) := by assumption) (_ : p (.regs .ps) := by assumption) (_ : p (.regs .le) := by assumption) (_ : p (.regs .dc) := by assumption) (_ : p (.regs .di) := by assumption) (_ : p (.regs .hp) := by assumption) :
    Keeps p r (laceAbort s) := by
  unfold laceAbort
  repeat' first
    | with_reducible assumption
    | (show p (.regs _); assumption)
    | with_reducible apply Keeps.ite
    | with_reducible apply shedNow_keeps
    | with_reducible apply raiseL_keeps
    | with_reducible apply bump_keeps
    | (with_reducible refine Keeps.via ?_ id; split)

theorem laceGlitch_kept (h : Keeps p r s) (_ : p .waiting := by assumption) (_ : p (.regs .ps) := by assumption) :
    Keeps p r (laceGlitch s) := by
  unfold laceGlitch
  repeat' first
    | with_reducible assumption
    | (show p (.regs _); assumption)
    | with_reducible apply Keeps.ite
    | with_reducible apply raiseL_keeps
    | with_reducible apply bump_keeps
    | (with_reducible refine Keeps.via ?_ id; split)

theorem laceAbortCmd_kept (h : Keeps p r s) (pp : Path) (_ : p .audit := by assumption) (_ : p .waiting := by assumption) (_ : p .access := by assumption) (_ : p .power := by assumption) (_ : p (.regs .mg) := by assumption) (_ : p (.regs .ps) := by assumption) :
    Keeps p r (laceAbortCmd pp s) := by
  unfold laceAbortCmd
  repeat' first
    | with_reducible assumption
    | exact blockOf_is (blockOf_fld _) (by assumption)
    | exact blockOf_is (c := .mg) (blockOf_page (show _ = 0 by omega)) (by assumption)
    | exact blockOf_is (c := .ps) (blockOf_page (show _ = 2 by omega)) (by assumption)
    | with_reducible apply gatedWrite_keeps
    | with_reducible apply laceAbortWrite_keeps
    | with_reducible refine fun _ _ => ?_

theorem pressIgnored_keeps (h : Keeps p r s) (_ : p .waiting := by assumption) (_ : p (.regs .ps) := by assumption) :
    Keeps p r (State.pressIgnored s) := by
  unfold State.pressIgnored
  repeat' first
    | with_reducible assumption
    | (show p (.regs _); assumption)
    | with_reducible apply raiseL_keeps
    | with_reducible apply bump_keeps

theorem shortPress_kept (h : Keeps p r s) (_ : p .roles := by assumption) (_ : p .audit := by assumption) (_ : p .manage := by assumption) (_ : p .waiting := by assumption) (_ : p .draws := by assumption) (_ : p (.regs .mg) := by assumption) (_ : p (.regs .fc) := by assumption) (_ : p (.regs .ps) := by assumption) (_ : p (.regs .th) := by assumption) (_ : p (.regs .ck) := by assumption) (_ : p (.regs .tb) := by assumption) (_ : p (.regs .fs) := by assumption) (_ : p (.regs .le) := by assumption) (_ : p (.regs .tw) := by assumption) (_ : p (.regs .am) := by assumption) (_ : p (.regs .mi) := by assumption) (_ : p (.regs .dc) := by assumption) (_ : p (.regs .di) := by assumption) (_ : p (.regs .hp) := by assumption) (_ : p (.regs .wl) := by assumption) (_ : (∀ b, p (.regs b)) := by assumption) :
    Keeps p r (shortPress s) := by
  unfold shortPress
  repeat' first
    | with_reducible assumption
    | (show p (.regs _); assumption)
    | (extract_lets +onlyGivenNames y; refine Keeps.via (x := y) ?_ (fun _ => ?_); subst y; rotate_left; clear_value y)
    | (extract_lets +onlyGivenNames y; clear_value y)
    | with_reducible apply Keeps.ite
    | with_reducible apply warmReset_keeps
    | with_reducible apply bump_keeps
    | with_reducible apply pressIgnored_keeps
    | (with_reducible refine Keeps.via ?_ id; split)
    | with_reducible refine Keeps.ofSnd (by assumption) ?_
    | with_reducible refine Keeps.ofFst (by assumption) ?_

theorem forcedOff_kept (h : Keeps p r s) (_ : p .cells := by assumption) (_ : p .memory := by assumption) (_ : p .flash := by assumption) (_ : p .roles := by assumption) (_ : p .audit := by assumption) (_ : p .manage := by assumption) (_ : p .waiting := by assumption) (_ : p .timebase := by assumption) (_ : p .schedule := by assumption) (_ : p .heads := by assumption) (_ : p .access := by assumption) (_ : p .lamps := by assumption) (_ : p .welt := by assumption) (_ : p .power := by assumption) (_ : p .outputs := by assumption) (_ : p .draws := by assumption) (_ : p (.regs .mg) := by assumption) (_ : p (.regs .ps) := by assumption) (_ : p (.regs .le) := by assumption) (_ : p (.regs .dc) := by assumption) (_ : p (.regs .di) := by assumption) (_ : p (.regs .hp) := by assumption) :
    Keeps p r (forcedOff s) := by
  unfold forcedOff
  repeat' first
    | with_reducible assumption
    | (show p (.regs _); assumption)
    | (extract_lets +onlyGivenNames y; refine Keeps.via (x := y) ?_ (fun _ => ?_); subst y; rotate_left; clear_value y)
    | (extract_lets +onlyGivenNames y; clear_value y)
    | with_reducible apply Keeps.ite
    | with_reducible apply pressIgnored_keeps
    | with_reducible apply shedNow_keeps
    | with_reducible apply raiseL_keeps
    | with_reducible apply wr_keeps
    | (with_reducible refine Keeps.via ?_ id; split)

theorem spiChallenge_keeps (h : Keeps p r s) (role : Nat) (_ : p .roles := by assumption) (_ : p .waiting := by assumption) (_ : p .draws := by assumption) (_ : p (.regs .mg) := by assumption) :
    Keeps p r (State.spiChallenge s role) := by
  unfold State.spiChallenge
  repeat' first
    | with_reducible assumption
    | (show p (.regs _); assumption)
    | with_reducible apply challenge_keeps
    | with_reducible apply wr_keeps
    | with_reducible refine Keeps.foldl _ ?_ (fun _ _ _ => ?_)
    | (with_reducible refine Keeps.via ?_ id; split)
    | with_reducible refine Keeps.ofSnd (by assumption) ?_
    | with_reducible refine Keeps.ofFst (by assumption) ?_
    | with_reducible apply_assumption

theorem spiRespond_keeps (h : Keeps p r s) (_ : p .roles := by assumption) (_ : p .audit := by assumption) (_ : p .waiting := by assumption) (_ : p (.regs .mg) := by assumption) :
    Keeps p r (State.spiRespond s) := by
  unfold State.spiRespond
  repeat' first
    | with_reducible assumption
    | (show p (.regs _); assumption)
    | (extract_lets +onlyGivenNames y; refine Keeps.via (x := y) ?_ (fun _ => ?_); subst y; rotate_left; clear_value y)
    | (extract_lets +onlyGivenNames y; clear_value y)
    | with_reducible apply respond_keeps
    | with_reducible apply wr_keeps
    | with_reducible refine Keeps.ofSnd (by assumption) ?_
    | with_reducible refine Keeps.ofFst (by assumption) ?_
    | with_reducible apply_assumption

theorem roleAct_keeps (h : Keeps p r s) (v : Nat) (_ : p .roles := by assumption) (_ : p .audit := by assumption) (_ : p .waiting := by assumption) (_ : p .draws := by assumption) (_ : p (.regs .mg) := by assumption) :
    Keeps p r (State.roleAct s v) := by
  unfold State.roleAct
  repeat' first
    | with_reducible assumption
    | (extract_lets +onlyGivenNames y; refine Keeps.via (x := y) ?_ (fun _ => ?_); subst y; rotate_left; clear_value y)
    | (extract_lets +onlyGivenNames y; clear_value y)
    | with_reducible apply Keeps.ite
    | with_reducible apply spiChallenge_keeps
    | with_reducible apply roleFull_keeps
    | with_reducible apply spiRespond_keeps
    | with_reducible apply dropRole_keeps
    | (with_reducible refine Keeps.via ?_ id; split)

theorem chal_kept (h : Keeps p r s) (role : Fin 4) (_ : p .roles := by assumption) (_ : p .audit := by assumption) (_ : p .waiting := by assumption) (_ : p .access := by assumption) (_ : p .draws := by assumption) (_ : p (.regs .mg) := by assumption) :
    Keeps p r (chal role s) := by
  unfold chal
  repeat' first
    | with_reducible assumption
    | exact blockOf_is (blockOf_fld _) (by assumption)
    | exact blockOf_is (c := .mg) (blockOf_page (show _ = 0 by omega)) (by assumption)
    | with_reducible apply gatedWrite_keeps
    | with_reducible apply spiChallenge_keeps
    | with_reducible refine fun _ _ => ?_
    | with_reducible apply_assumption

theorem resp_kept (h : Keeps p r s) (_ : p .roles := by assumption) (_ : p .audit := by assumption) (_ : p .waiting := by assumption) (_ : p .access := by assumption) (_ : p (.regs .mg) := by assumption) :
    Keeps p r (resp s) := by
  unfold resp
  repeat' first
    | with_reducible assumption
    | exact blockOf_is (blockOf_fld _) (by assumption)
    | exact blockOf_is (c := .mg) (blockOf_page (show _ = 0 by omega)) (by assumption)
    | with_reducible apply Keeps.ite
    | with_reducible apply gatedWrite_keeps
    | with_reducible apply roleFull_keeps
    | with_reducible apply spiRespond_keeps
    | (with_reducible refine Keeps.via ?_ id; split)
    | with_reducible refine fun _ _ => ?_
    | with_reducible apply_assumption

theorem drop_kept (h : Keeps p r s) (_ : p .roles := by assumption) (_ : p .audit := by assumption) (_ : p .waiting := by assumption) (_ : p .access := by assumption) (_ : p (.regs .mg) := by assumption) :
    Keeps p r (drop s) := by
  unfold drop
  repeat' first
    | with_reducible assumption
    | exact blockOf_is (blockOf_fld _) (by assumption)
    | exact blockOf_is (c := .mg) (blockOf_page (show _ = 0 by omega)) (by assumption)
    | with_reducible apply Keeps.ite
    | with_reducible apply gatedWrite_keeps
    | with_reducible apply roleFull_keeps
    | with_reducible apply dropRole_keeps
    | (with_reducible refine Keeps.via ?_ id; split)
    | with_reducible refine fun _ _ => ?_
    | with_reducible apply_assumption

theorem roleLockEnd_kept (h : Keeps p r s) (pp : Path) (_ : p .roles := by assumption) :
    Keeps p r (roleLockEnd pp s) := by
  unfold roleLockEnd
  repeat' first
    | with_reducible assumption
    | with_reducible apply Keeps.ite
    | with_reducible apply modRole_keeps
    | (with_reducible refine Keeps.via ?_ id; split)
    | with_reducible apply_assumption

theorem flashRead_kept (h : Keeps p r s) (pp : Path) (lenM1 : BitVec 6) (_ : p .audit := by assumption) (_ : p .manage := by assumption) (_ : p .waiting := by assumption) (_ : p .schedule := by assumption) (_ : p .lasts := by assumption) (_ : p .access := by assumption) (_ : p (.regs .mg) := by assumption) :
    Keeps p r (flashRead pp lenM1 s) := by
  unfold flashRead
  repeat' first
    | with_reducible assumption
    | exact blockOf_is (blockOf_fld _) (by assumption)
    | exact blockOf_is (c := .mg) (blockOf_page (show _ = 0 by omega)) (by assumption)
    | with_reducible apply gatedWrite_keeps
    | with_reducible apply flashGo_keeps
    | with_reducible refine fun _ _ => ?_
    | with_reducible apply_assumption

theorem flashProgram_kept (h : Keeps p r s) (pp : Path) (lenM1 : BitVec 6) (_ : p .audit := by assumption) (_ : p .manage := by assumption) (_ : p .waiting := by assumption) (_ : p .schedule := by assumption) (_ : p .lasts := by assumption) (_ : p .access := by assumption) (_ : p (.regs .mg) := by assumption) :
    Keeps p r (flashProgram pp lenM1 s) := by
  unfold flashProgram
  repeat' first
    | with_reducible assumption
    | exact blockOf_is (blockOf_fld _) (by assumption)
    | exact blockOf_is (c := .mg) (blockOf_page (show _ = 0 by omega)) (by assumption)
    | with_reducible apply gatedWrite_keeps
    | with_reducible apply flashGo_keeps
    | with_reducible refine fun _ _ => ?_
    | with_reducible apply_assumption

theorem flashEraseSector_kept (h : Keeps p r s) (pp : Path) (_ : p .audit := by assumption) (_ : p .manage := by assumption) (_ : p .waiting := by assumption) (_ : p .schedule := by assumption) (_ : p .lasts := by assumption) (_ : p .access := by assumption) (_ : p (.regs .mg) := by assumption) :
    Keeps p r (flashEraseSector pp s) := by
  unfold flashEraseSector
  repeat' first
    | with_reducible assumption
    | exact blockOf_is (blockOf_fld _) (by assumption)
    | exact blockOf_is (c := .mg) (blockOf_page (show _ = 0 by omega)) (by assumption)
    | (extract_lets +onlyGivenNames y; refine Keeps.via (x := y) ?_ (fun _ => ?_); subst y; rotate_left; clear_value y)
    | (extract_lets +onlyGivenNames y; clear_value y)
    | with_reducible apply gatedWrite_keeps
    | with_reducible apply flashGo_keeps
    | with_reducible refine fun _ _ => ?_
    | with_reducible apply_assumption

theorem flashOpDone_kept (h : Keeps p r s) (deviceError : Bool) (_ : p .flash := by assumption) (_ : p .otp := by assumption) (_ : p .passport := by assumption) (_ : p .audit := by assumption) (_ : p .manage := by assumption) (_ : p .waiting := by assumption) (_ : p .draws := by assumption) (_ : p (.regs .mg) := by assumption) :
    Keeps p r (flashOpDone deviceError s) := by
  unfold flashOpDone
  repeat' first
    | with_reducible assumption
    | (extract_lets +onlyGivenNames y; refine Keeps.via (x := y) ?_ (fun _ => ?_); subst y; rotate_left; clear_value y)
    | (extract_lets +onlyGivenNames y; clear_value y)
    | with_reducible apply Keeps.ite
    | with_reducible apply flashFree_keeps
    | with_reducible apply raiseL_keeps
    | with_reducible apply flashCut_keeps
    | with_reducible apply flashEnd_keeps
    | with_reducible apply flashApply_keeps
    | (with_reducible refine Keeps.via ?_ id; split)

theorem bootWrite_keeps (h : Keeps p r s) (v : Nat) (_ : p .flash := by assumption) (_ : p .manage := by assumption) :
    Keeps p r (State.bootWrite s v) := by
  unfold State.bootWrite
  repeat' first
    | with_reducible assumption
    | (extract_lets +onlyGivenNames y; refine Keeps.via (x := y) ?_ (fun _ => ?_); subst y; rotate_left; clear_value y)
    | (extract_lets +onlyGivenNames y; clear_value y)
    | with_reducible apply putCopy_keeps
    | with_reducible apply modMg_keeps
    | exact Or.inl (by assumption)
    | exact Or.inr rfl
    | exact rfl
    | exact State.Sorted.modMg rfl rfl
    | exact State.Sorted.modLe rfl rfl
    | exact id
    | exact List.suffix_rfl
    | exact fun _ => Nat.zero_le _
    | with_reducible apply_assumption

theorem nextBankWrite_kept (h : Keeps p r s) (pp : Path) (bank : Bool) (_ : p .flash := by assumption) (_ : p .audit := by assumption) (_ : p .manage := by assumption) (_ : p .waiting := by assumption) (_ : p .access := by assumption) (_ : p (.regs .mg) := by assumption) :
    Keeps p r (nextBankWrite pp bank s) := by
  unfold nextBankWrite
  repeat' first
    | with_reducible assumption
    | exact blockOf_is (blockOf_fld _) (by assumption)
    | exact blockOf_is (c := .mg) (blockOf_page (show _ = 0 by omega)) (by assumption)
    | with_reducible apply gatedWrite_keeps
    | with_reducible apply bootWrite_keeps
    | with_reducible refine fun _ _ => ?_
    | with_reducible apply_assumption

theorem mgWarmReset_kept (h : Keeps p r s) (_ : p .roles := by assumption) (_ : p .audit := by assumption) (_ : p .manage := by assumption) (_ : p .draws := by assumption) (_ : p (.regs .mg) := by assumption) (_ : p (.regs .fc) := by assumption) (_ : p (.regs .ps) := by assumption) (_ : p (.regs .th) := by assumption) (_ : p (.regs .ck) := by assumption) (_ : p (.regs .tb) := by assumption) (_ : p (.regs .fs) := by assumption) (_ : p (.regs .le) := by assumption) (_ : p (.regs .tw) := by assumption) (_ : p (.regs .am) := by assumption) (_ : p (.regs .mi) := by assumption) (_ : p (.regs .dc) := by assumption) (_ : p (.regs .di) := by assumption) (_ : p (.regs .hp) := by assumption) (_ : p (.regs .wl) := by assumption) (_ : (∀ b, p (.regs b)) := by assumption) :
    Keeps p r (mgWarmReset s) := by
  unfold mgWarmReset
  repeat' first
    | with_reducible assumption
    | with_reducible apply warmReset_keeps

theorem warmResetWrite_kept (h : Keeps p r s) (pp : Path) (_ : p .roles := by assumption) (_ : p .audit := by assumption) (_ : p .manage := by assumption) (_ : p .waiting := by assumption) (_ : p .access := by assumption) (_ : p .draws := by assumption) (_ : p (.regs .mg) := by assumption) (_ : p (.regs .fc) := by assumption) (_ : p (.regs .ps) := by assumption) (_ : p (.regs .th) := by assumption) (_ : p (.regs .ck) := by assumption) (_ : p (.regs .tb) := by assumption) (_ : p (.regs .fs) := by assumption) (_ : p (.regs .le) := by assumption) (_ : p (.regs .tw) := by assumption) (_ : p (.regs .am) := by assumption) (_ : p (.regs .mi) := by assumption) (_ : p (.regs .dc) := by assumption) (_ : p (.regs .di) := by assumption) (_ : p (.regs .hp) := by assumption) (_ : p (.regs .wl) := by assumption) (_ : (∀ b, p (.regs b)) := by assumption) :
    Keeps p r (warmResetWrite pp s) := by
  unfold warmResetWrite
  repeat' first
    | with_reducible assumption
    | exact fun b _ => (by assumption : ∀ b, p (.regs b)) b
    | with_reducible apply gatedWrite_keeps
    | with_reducible apply warmReset_keeps
    | with_reducible apply audit_keeps
    | with_reducible refine fun _ _ => ?_
    | with_reducible apply_assumption

theorem watchdogExpiry_kept (h : Keeps p r s) (hh : Half) (_ : p .roles := by assumption) (_ : p .audit := by assumption) (_ : p .manage := by assumption) (_ : p .waiting := by assumption) (_ : p .draws := by assumption) (_ : p (.regs .mg) := by assumption) (_ : p (.regs .fc) := by assumption) (_ : p (.regs .ps) := by assumption) (_ : p (.regs .th) := by assumption) (_ : p (.regs .ck) := by assumption) (_ : p (.regs .tb) := by assumption) (_ : p (.regs .fs) := by assumption) (_ : p (.regs .le) := by assumption) (_ : p (.regs .tw) := by assumption) (_ : p (.regs .am) := by assumption) (_ : p (.regs .mi) := by assumption) (_ : p (.regs .dc) := by assumption) (_ : p (.regs .di) := by assumption) (_ : p (.regs .hp) := by assumption) (_ : p (.regs .wl) := by assumption) (_ : (∀ b, p (.regs b)) := by assumption) :
    Keeps p r (watchdogExpiry hh s) := by
  unfold watchdogExpiry
  repeat' first
    | with_reducible assumption
    | (show p (.regs _); assumption)
    | with_reducible apply raise_keeps
    | with_reducible apply bump_keeps
    | with_reducible apply warmReset_keeps

theorem auditEntryWrite_kept (h : Keeps p r s) (flashError fieldAsserted : Bool) (_ : p .flash := by assumption) (_ : p .passport := by assumption) (_ : p .audit := by assumption) (_ : p .manage := by assumption) (_ : p .waiting := by assumption) (_ : p .draws := by assumption) (_ : p (.regs .mg) := by assumption) : Keeps p r (auditEntryWrite flashError fieldAsserted s) := by
  unfold auditEntryWrite
  split
  · exact h
  · rename_i e t he
    split
    · exact h
    extract_lets slot a s1 s2 s3
    have h1 : Keeps p r s1 := fieldLevel_keeps (refillAudit_keeps <| modMg_keeps h _ (fun i => by rw [he, List.length_cons] at i; show t.length ≤ 64; omega) List.suffix_rfl (Or.inr rfl)
      (Or.inr rfl) (Or.inr rfl) (Or.inl (by assumption)) (Or.inr rfl)) _
    clear_value s1
    have h2 : Keeps p r s2 := Keeps.ite (flashErase_keeps h1 _ _) h1
    clear_value s2
    have h3 : Keeps p r s3 := Keeps.ite (raiseL_keeps (flashCut_keeps h2 _ _) _ _ _ _) (flashPut_keeps h2 _ _)
    clear_value s3
    exact ppTail_keeps h3 _ _

theorem ppDropped_keeps (h : Keeps p r s) (_ : p .waiting := by assumption) (_ : p (.regs .mg) := by assumption) :
    Keeps p r (State.ppDropped s) := by
  unfold State.ppDropped
  repeat' first
    | with_reducible assumption
    | (show p (.regs _); assumption)
    | (extract_lets +onlyGivenNames y; refine Keeps.via (x := y) ?_ (fun _ => ?_); subst y; rotate_left; clear_value y)
    | (extract_lets +onlyGivenNames y; clear_value y)
    | with_reducible apply bump_keeps
    | with_reducible apply raiseL_keeps

theorem passportWriteTimeout_kept (h : Keeps p r s) (_ : p .audit := by assumption) (_ : p .manage := by assumption) (_ : p .waiting := by assumption) (_ : p (.regs .mg) := by assumption) :
    Keeps p r (passportWriteTimeout s) := by
  unfold passportWriteTimeout
  repeat' first
    | with_reducible assumption
    | with_reducible apply Keeps.ite
    | with_reducible apply flashEnd_keeps
    | with_reducible apply ppDropped_keeps
    | with_reducible apply flashFree_keeps
    | with_reducible apply modMg_keeps
    | (with_reducible refine Keeps.via ?_ id; split)
    | exact Or.inl (by assumption)
    | exact Or.inr rfl
    | exact rfl
    | exact State.Sorted.modMg rfl rfl
    | exact State.Sorted.modLe rfl rfl
    | exact id
    | exact List.suffix_rfl
    | exact fun _ => Nat.zero_le _
    | (dsimp only; split)
    | with_reducible apply_assumption

theorem fieldRelease_kept (h : Keeps p r s) (_ : p .passport := by assumption) (_ : p .manage := by assumption) (_ : p .draws := by assumption) :
    Keeps p r (fieldRelease s) := by
  unfold fieldRelease
  repeat' first
    | with_reducible assumption
    | with_reducible apply Keeps.ite
    | with_reducible apply fieldFree_keeps
    | (with_reducible refine Keeps.via ?_ id; split)

theorem tapInstruction_kept (h : Keeps p r s) (i : TapInstr) (_ : p .power := by assumption) (_ : p .outputs := by assumption) :
    Keeps p r (tapInstruction i s) := by
  unfold tapInstruction
  repeat' first
    | with_reducible assumption
    | (extract_lets +onlyGivenNames y; refine Keeps.via (x := y) ?_ (fun _ => ?_); subst y; rotate_left; clear_value y)
    | (extract_lets +onlyGivenNames y; clear_value y)
    | with_reducible apply Keeps.ite
    | with_reducible apply modPwr_keeps
    | with_reducible apply emit_keeps
    | (with_reducible refine Keeps.via ?_ id; split)
    | with_reducible apply_assumption

theorem ppsEdge_kept (h : Keeps p r s) (_ : p .waiting := by assumption) (_ : p .clock := by assumption) (_ : p .timebase := by assumption) (_ : p .draws := by assumption) (_ : p (.regs .tb) := by assumption) :
    Keeps p r (ppsEdge s) := by
  unfold ppsEdge
  repeat' first
    | with_reducible assumption
    | with_reducible apply Keeps.ite
    | with_reducible apply onBases_keeps
    | with_reducible apply acceptPps_keeps
    | with_reducible apply glitch_keeps
    | (with_reducible refine Keeps.via ?_ id; split)
    | with_reducible apply_assumption
    | with_reducible refine fun _ _ _ => ?_

theorem ppsGlitch_kept (h : Keeps p r s) (_ : p .clock := by assumption) (_ : p .timebase := by assumption) (_ : p (.regs .tb) := by assumption) :
    Keeps p r (ppsGlitch s) := by
  unfold ppsGlitch
  repeat' first
    | with_reducible assumption
    | with_reducible apply onBases_keeps
    | with_reducible apply glitch_keeps
    | with_reducible refine fun _ _ _ => ?_

theorem loseMaster_keeps (h : Keeps p r s) (_ : p .waiting := by assumption) (_ : p .timebase := by assumption) (_ : p (.regs .tb) := by assumption) :
    Keeps p r (State.loseMaster s) := by
  unfold State.loseMaster
  repeat' first
    | with_reducible assumption
    | (show p (.regs _); assumption)
    | with_reducible apply Keeps.ite
    | with_reducible apply raiseL_keeps
    | with_reducible apply modTb_keeps
    | with_reducible apply wr_keeps
    | (with_reducible refine Keeps.via ?_ id; split)
    | exact Or.inl (by assumption)
    | exact Or.inr rfl
    | exact rfl
    | exact State.Sorted.modMg rfl rfl
    | exact State.Sorted.modLe rfl rfl
    | exact id
    | (dsimp only; split)
    | with_reducible apply_assumption

theorem ppsLost_kept (h : Keeps p r s) (_ : p .waiting := by assumption) (_ : p .clock := by assumption) (_ : p .timebase := by assumption) (_ : p (.regs .tb) := by assumption) :
    Keeps p r (ppsLost s) := by
  unfold ppsLost
  repeat' first
    | with_reducible assumption
    | (show p (.regs _); assumption)
    | with_reducible apply Keeps.ite
    | with_reducible apply onBases_keeps
    | with_reducible apply loseMaster_keeps
    | with_reducible apply raiseL_keeps
    | with_reducible apply bump_keeps
    | with_reducible apply wr_keeps
    | (with_reducible refine Keeps.via ?_ id; split)
    | with_reducible apply_assumption
    | with_reducible refine fun _ _ _ => ?_

theorem takeSentence_keeps (h : Keeps p r s) (pp : Sentence) (_ : p .timebase := by assumption) (_ : p (.regs .tb) := by assumption) :
    Keeps p r (State.takeSentence s pp) := by
  unfold State.takeSentence
  repeat' first
    | with_reducible assumption
    | (show p (.regs _); assumption)
    | (extract_lets +onlyGivenNames y; refine Keeps.via (x := y) ?_ (fun _ => ?_); subst y; rotate_left; clear_value y)
    | (extract_lets +onlyGivenNames y; clear_value y)
    | with_reducible apply Keeps.ite
    | with_reducible apply bump_keeps
    | with_reducible apply modTb_keeps
    | (with_reducible refine Keeps.via ?_ id; split)
    | exact Or.inl (by assumption)
    | exact Or.inr rfl
    | exact rfl
    | exact State.Sorted.modMg rfl rfl
    | exact State.Sorted.modLe rfl rfl
    | exact id
    | (dsimp only; split)
    | with_reducible apply_assumption

theorem checkSentence_keeps (h : Keeps p r s) (b : List Byte) (_ : p .waiting := by assumption) (_ : p .timebase := by assumption) (_ : p (.regs .tb) := by assumption) :
    Keeps p r (State.checkSentence s b) := by
  unfold State.checkSentence
  repeat' first
    | with_reducible assumption
    | (show p (.regs _); assumption)
    | with_reducible apply Keeps.ite
    | with_reducible apply raiseL_keeps
    | with_reducible apply bump_keeps
    | with_reducible apply takeSentence_keeps
    | (with_reducible refine Keeps.via ?_ id; split)

theorem rxByte_keeps (h : Keeps p r s) (b : Byte) (_ : p .waiting := by assumption) (_ : p .timebase := by assumption) (_ : p (.regs .tb) := by assumption) :
    Keeps p r (State.rxByte s b) := by
  unfold State.rxByte
  repeat' first
    | with_reducible assumption
    | with_reducible apply Keeps.ite
    | with_reducible apply modTb_keeps
    | with_reducible apply checkSentence_keeps
    | (with_reducible refine Keeps.via ?_ id; split)
    | exact Or.inl (by assumption)
    | exact Or.inr rfl
    | exact rfl
    | exact State.Sorted.modMg rfl rfl
    | exact State.Sorted.modLe rfl rfl
    | exact id
    | (dsimp only; split)
    | with_reducible apply_assumption

theorem todSentence_kept (h : Keeps p r s) (bytes : List Byte) (_ : p .waiting := by assumption) (_ : p .clock := by assumption) (_ : p .timebase := by assumption) (_ : p (.regs .tb) := by assumption) :
    Keeps p r (todSentence bytes s) := by
  unfold todSentence
  repeat' first
    | with_reducible assumption
    | with_reducible apply Keeps.ite
    | with_reducible apply onBases_keeps
    | with_reducible apply rxByte_keeps
    | with_reducible refine Keeps.foldl _ ?_ (fun _ _ _ => ?_)
    | (with_reducible refine Keeps.via ?_ id; split)
    | with_reducible apply_assumption
    | with_reducible refine fun _ _ _ => ?_

theorem abandonSentence_keeps (h : Keeps p r s) (_ : p .timebase := by assumption) :
    Keeps p r (State.abandonSentence s) := by
  unfold State.abandonSentence
  repeat' first
    | with_reducible assumption
    | with_reducible apply modTb_keeps
    | exact Or.inl (by assumption)
    | exact Or.inr rfl
    | exact rfl
    | exact State.Sorted.modMg rfl rfl
    | exact State.Sorted.modLe rfl rfl
    | exact id
    | with_reducible apply_assumption

theorem todByteTimeout_kept (h : Keeps p r s) (_ : p .clock := by assumption) (_ : p .timebase := by assumption) (_ : p (.regs .tb) := by assumption) :
    Keeps p r (todByteTimeout s) := by
  unfold todByteTimeout
  repeat' first
    | with_reducible assumption
    | with_reducible apply onBases_keeps
    | with_reducible apply abandonSentence_keeps
    | with_reducible refine fun _ _ _ => ?_

theorem todFramingError_kept (h : Keeps p r s) (_ : p .clock := by assumption) (_ : p .timebase := by assumption) (_ : p (.regs .tb) := by assumption) :
    Keeps p r (todFramingError s) := by
  unfold todFramingError
  repeat' first
    | with_reducible assumption
    | with_reducible apply onBases_keeps
    | with_reducible apply abandonSentence_keeps
    | with_reducible refine fun _ _ _ => ?_

theorem todStale_kept (h : Keeps p r s) (_ : p .waiting := by assumption) (_ : p .clock := by assumption) (_ : p .timebase := by assumption) (_ : p (.regs .tb) := by assumption) :
    Keeps p r (todStale s) := by
  unfold todStale
  repeat' first
    | with_reducible assumption
    | (show p (.regs _); assumption)
    | with_reducible apply Keeps.ite
    | with_reducible apply onBases_keeps
    | with_reducible apply raiseL_keeps
    | with_reducible apply bump_keeps
    | with_reducible apply modTb_keeps
    | (with_reducible refine Keeps.via ?_ id; split)
    | exact Or.inl (by assumption)
    | exact Or.inr rfl
    | exact rfl
    | exact State.Sorted.modMg rfl rfl
    | exact State.Sorted.modLe rfl rfl
    | exact id
    | (dsimp only; split)
    | with_reducible apply_assumption
    | with_reducible refine fun _ _ _ => ?_

theorem masterLost_kept (h : Keeps p r s) (_ : p .waiting := by assumption) (_ : p .clock := by assumption) (_ : p .timebase := by assumption) (_ : p (.regs .tb) := by assumption) :
    Keeps p r (masterLost s) := by
  unfold masterLost
  repeat' first
    | with_reducible assumption
    | with_reducible apply onBases_keeps
    | with_reducible apply loseMaster_keeps
    | with_reducible refine fun _ _ _ => ?_

theorem ftickEdgeAt_kept (h : Keeps p r s) (l : Nat) (_ : p .waiting := by assumption) (_ : p .timebase := by assumption) (_ : p (.regs .tb) := by assumption) :
    Keeps p r (ftickEdgeAt l s) := by
  unfold ftickEdgeAt
  repeat' first
    | with_reducible assumption
    | with_reducible apply Keeps.ite
    | with_reducible apply acceptFtick_keeps
    | with_reducible apply glitch_keeps
    | (with_reducible refine Keeps.via ?_ id; split)

theorem ftickLost_kept (h : Keeps p r s) (_ : p .waiting := by assumption) (_ : p .clock := by assumption) (_ : p .timebase := by assumption) (_ : p (.regs .tb) := by assumption) :
    Keeps p r (ftickLost s) := by
  unfold ftickLost
  repeat' first
    | with_reducible assumption
    | (show p (.regs _); assumption)
    | (extract_lets +onlyGivenNames y; refine Keeps.via (x := y) ?_ (fun _ => ?_); subst y; rotate_left; clear_value y)
    | (extract_lets +onlyGivenNames y; clear_value y)
    | with_reducible apply Keeps.ite
    | with_reducible apply onBases_keeps
    | with_reducible apply raiseL_keeps
    | with_reducible apply bump_keeps
    | with_reducible apply wr_keeps
    | (with_reducible refine Keeps.via ?_ id; split)
    | with_reducible apply_assumption
    | with_reducible refine fun _ _ _ => ?_

theorem calSet_kept (h : Keeps p r s) (pp : Path) (_ : p .audit := by assumption) (_ : p .waiting := by assumption) (_ : p .clock := by assumption) (_ : p .timebase := by assumption) (_ : p .access := by assumption) (_ : p (.regs .mg) := by assumption) (_ : p (.regs .tb) := by assumption) :
    Keeps p r (calSet pp s) := by
  unfold calSet
  repeat' first
    | with_reducible assumption
    | exact blockOf_is (blockOf_fld _) (by assumption)
    | exact blockOf_is (c := .mg) (blockOf_page (show _ = 0 by omega)) (by assumption)
    | exact blockOf_is (c := .tb) (blockOf_page (show _ = 5 by omega)) (by assumption)
    | with_reducible apply gatedWrite_keeps
    | with_reducible apply calendarSet_keeps
    | with_reducible refine fun _ _ => ?_
    | with_reducible apply_assumption

theorem stepNow_kept (h : Keeps p r s) (pp : Path) (_ : p .audit := by assumption) (_ : p .waiting := by assumption) (_ : p .access := by assumption) (_ : p (.regs .mg) := by assumption) (_ : p (.regs .tb) := by assumption) :
    Keeps p r (stepNow pp s) := by
  unfold stepNow
  repeat' first
    | with_reducible assumption
    | exact blockOf_is (blockOf_fld _) (by assumption)
    | exact blockOf_is (c := .mg) (blockOf_page (show _ = 0 by omega)) (by assumption)
    | exact blockOf_is (c := .tb) (blockOf_page (show _ = 5 by omega)) (by assumption)
    | (show p (.regs _); assumption)
    | with_reducible apply gatedWrite_keeps
    | with_reducible apply wr_keeps
    | with_reducible refine fun _ _ => ?_
    | with_reducible apply_assumption

theorem tbCaptureWrite_kept (h : Keeps p r s) (pp : Path) (v : Word) (_ : p .audit := by assumption) (_ : p .waiting := by assumption) (_ : p .timebase := by assumption) (_ : p .access := by assumption) (_ : p (.regs .mg) := by assumption) (_ : p (.regs .tb) := by assumption) :
    Keeps p r (tbCaptureWrite pp v s) := by
  unfold tbCaptureWrite
  repeat' first
    | with_reducible assumption
    | exact blockOf_is (blockOf_fld _) (by assumption)
    | exact blockOf_is (c := .mg) (blockOf_page (show _ = 0 by omega)) (by assumption)
    | exact blockOf_is (c := .tb) (blockOf_page (show _ = 5 by omega)) (by assumption)
    | with_reducible apply gatedWrite_keeps
    | with_reducible apply tsqPush_keeps
    | with_reducible refine fun _ _ => ?_
    | with_reducible apply_assumption

theorem tsqTake_keeps (h : Keeps p r s) (pp : Path) (_ : p .timebase := by assumption) (_ : p (.regs .tb) := by assumption) : Keeps p r (State.tsqTake s pp).2 := by
  unfold State.tsqTake
  split
  · exact h
  · rename_i e t he
    dsimp only
    refine wr_keeps (wr_keeps (modTb_keeps h _ (fun i => ?_) (Or.inr rfl)) _ _) _ _
    rw [he, List.length_cons] at i
    show t.length ≤ 32
    omega

theorem tsqPop_kept (h : Keeps p r s) (pp : Path) (_ : p .timebase := by assumption) (_ : p .outputs := by assumption) (_ : p (.regs .tb) := by assumption) :
    Keeps p r (tsqPop pp s) := by
  unfold tsqPop
  repeat' first
    | with_reducible assumption
    | (extract_lets +onlyGivenNames y; refine Keeps.via (x := y) ?_ (fun _ => ?_); subst y; rotate_left; clear_value y)
    | (extract_lets +onlyGivenNames y; clear_value y)
    | with_reducible apply tsqTake_keeps
    | with_reducible apply emit_keeps
    | with_reducible refine Keeps.ofSnd (by assumption) ?_
    | with_reducible refine Keeps.ofFst (by assumption) ?_

theorem tickStart_kept (h : Keeps p r s) (hh : Half) (_ : p .memory := by assumption) (_ : p .flash := by assumption) (_ : p .roles := by assumption) (_ : p .audit := by assumption) (_ : p .manage := by assumption) (_ : p .waiting := by assumption) (_ : p .clock := by assumption) (_ : p .timebase := by assumption) (_ : p .schedule := by assumption) (_ : p .heads := by assumption) (_ : p .access := by assumption) (_ : p .lamps := by assumption) (_ : p .welt := by assumption) (_ : p .outputs := by assumption) (_ : p .draws := by assumption) (_ : p (.regs .mg) := by assumption) (_ : p (.regs .tb) := by assumption) (_ : p (.regs .fs) := by assumption) (_ : p (.regs .le) := by assumption) (_ : p (.regs .am) := by assumption) (_ : p (.regs .mi) := by assumption) (_ : p (.regs .dc) := by assumption) (_ : p (.regs .di) := by assumption) (_ : p (.regs .hp) := by assumption) (_ : p (.regs .wl) := by assumption) :
    Keeps p r (tickStart hh s) := by
  unfold tickStart
  repeat' first
    | with_reducible assumption
    | with_reducible apply tick_keeps

theorem tickOutEnd_kept (h : Keeps p r s) (_ : p .clock := by assumption) (_ : p .timebase := by assumption) :
    Keeps p r (tickOutEnd s) := by
  unfold tickOutEnd
  repeat' first
    | with_reducible assumption
    | (extract_lets +onlyGivenNames y; refine Keeps.via (x := y) ?_ (fun _ => ?_); subst y; rotate_left; clear_value y)
    | (extract_lets +onlyGivenNames y; clear_value y)
    | with_reducible apply Keeps.ite
    | with_reducible apply modTb_keeps
    | with_reducible apply jumpTo_keeps
    | (with_reducible refine Keeps.via ?_ id; split)
    | exact Or.inl (by assumption)
    | exact Or.inr rfl
    | exact rfl
    | exact State.Sorted.modMg rfl rfl
    | exact State.Sorted.modLe rfl rfl
    | exact id
    | (dsimp only; split)
    | with_reducible apply_assumption

theorem cutOff_kept (h : Keeps p r s) (hh : Half) (_ : p .clock := by assumption) (_ : p .timebase := by assumption) (_ : p .schedule := by assumption) :
    Keeps p r (cutOff hh s) := by
  unfold cutOff
  repeat' first
    | with_reducible assumption
    | with_reducible apply Keeps.ite
    | with_reducible apply closeSet_keeps
    | (with_reducible refine Keeps.via ?_ id; split)

theorem productionEnd_kept (h : Keeps p r s) (hh : Half) (_ : p .memory := by assumption) (_ : p .flash := by assumption) (_ : p .manage := by assumption) (_ : p .waiting := by assumption) (_ : p .clock := by assumption) (_ : p .timebase := by assumption) (_ : p .schedule := by assumption) (_ : p .heads := by assumption) (_ : p .lamps := by assumption) (_ : p .outputs := by assumption) (_ : p .draws := by assumption) (_ : p (.regs .fs) := by assumption) (_ : p (.regs .le) := by assumption) (_ : p (.regs .mi) := by assumption) (_ : p (.regs .dc) := by assumption) (_ : p (.regs .di) := by assumption) (_ : p (.regs .hp) := by assumption) :
    Keeps p r (productionEnd hh s) := by
  unfold productionEnd
  repeat' first
    | with_reducible assumption
    | with_reducible apply Keeps.ite
    | with_reducible apply endProduction_keeps
    | (with_reducible refine Keeps.via ?_ id; split)

theorem idleCycleEnd_kept (h : Keeps p r s) (hh : Half) (_ : p .memory := by assumption) (_ : p .flash := by assumption) (_ : p .manage := by assumption) (_ : p .waiting := by assumption) (_ : p .clock := by assumption) (_ : p .timebase := by assumption) (_ : p .schedule := by assumption) (_ : p .heads := by assumption) (_ : p .lamps := by assumption) (_ : p .outputs := by assumption) (_ : p .draws := by assumption) (_ : p (.regs .am) := by assumption) (_ : p (.regs .mi) := by assumption) (_ : p (.regs .dc) := by assumption) (_ : p (.regs .di) := by assumption) (_ : p (.regs .hp) := by assumption) :
    Keeps p r (idleCycleEnd hh s) := by
  unfold idleCycleEnd
  repeat' first
    | with_reducible assumption
    | (extract_lets +onlyGivenNames y; refine Keeps.via (x := y) ?_ (fun _ => ?_); subst y; rotate_left; clear_value y)
    | (extract_lets +onlyGivenNames y; clear_value y)
    | with_reducible apply Keeps.ite
    | with_reducible apply jumpTo_keeps
    | with_reducible apply windowCloses_keeps
    | with_reducible apply modSched_keeps
    | with_reducible apply windowOpens_keeps
    | (with_reducible refine Keeps.via ?_ id; split)
    | with_reducible apply_assumption

theorem opCommand_kept (h : Keeps p r s) (pp : Path) (op : Nat) (_ : p .audit := by assumption) (_ : p .waiting := by assumption) (_ : p .schedule := by assumption) (_ : p .access := by assumption) (_ : p (.regs .mg) := by assumption) (_ : p (.regs .fs) := by assumption) :
    Keeps p r (opCommand pp op s) := by
  unfold opCommand
  repeat' first
    | with_reducible assumption
    | exact blockOf_is (blockOf_fld _) (by assumption)
    | exact blockOf_is (c := .mg) (blockOf_page (show _ = 0 by omega)) (by assumption)
    | exact blockOf_is (c := .fs) (blockOf_page (show _ = 6 by omega)) (by assumption)
    | with_reducible apply gatedWrite_keeps
    | with_reducible apply submit_keeps
    | with_reducible refine fun _ _ => ?_
    | with_reducible apply_assumption

theorem freeze_kept (h : Keeps p r s) (pp : Path) (_ : p .audit := by assumption) (_ : p .waiting := by assumption) (_ : p .schedule := by assumption) (_ : p .access := by assumption) (_ : p (.regs .mg) := by assumption) (_ : p (.regs .fs) := by assumption) :
    Keeps p r (freeze pp s) := by
  unfold freeze
  repeat' first
    | with_reducible assumption
    | with_reducible apply opCommand_kept

theorem release_kept (h : Keeps p r s) (pp : Path) (_ : p .audit := by assumption) (_ : p .waiting := by assumption) (_ : p .schedule := by assumption) (_ : p .access := by assumption) (_ : p (.regs .mg) := by assumption) (_ : p (.regs .fs) := by assumption) :
    Keeps p r (release pp s) := by
  unfold release
  repeat' first
    | with_reducible assumption
    | with_reducible apply opCommand_kept

theorem setDelay_kept (h : Keeps p r s) (pp : Path) (_ : p .audit := by assumption) (_ : p .waiting := by assumption) (_ : p .schedule := by assumption) (_ : p .access := by assumption) (_ : p (.regs .mg) := by assumption) (_ : p (.regs .fs) := by assumption) :
    Keeps p r (setDelay pp s) := by
  unfold setDelay
  repeat' first
    | with_reducible assumption
    | with_reducible apply opCommand_kept

theorem setGain_kept (h : Keeps p r s) (pp : Path) (_ : p .audit := by assumption) (_ : p .waiting := by assumption) (_ : p .schedule := by assumption) (_ : p .access := by assumption) (_ : p (.regs .mg) := by assumption) (_ : p (.regs .fs) := by assumption) :
    Keeps p r (setGain pp s) := by
  unfold setGain
  repeat' first
    | with_reducible assumption
    | with_reducible apply opCommand_kept

theorem streamOn_kept (h : Keeps p r s) (pp : Path) (_ : p .audit := by assumption) (_ : p .waiting := by assumption) (_ : p .schedule := by assumption) (_ : p .access := by assumption) (_ : p (.regs .mg) := by assumption) (_ : p (.regs .fs) := by assumption) :
    Keeps p r (streamOn pp s) := by
  unfold streamOn
  repeat' first
    | with_reducible assumption
    | with_reducible apply opCommand_kept

theorem streamOff_kept (h : Keeps p r s) (pp : Path) (_ : p .audit := by assumption) (_ : p .waiting := by assumption) (_ : p .schedule := by assumption) (_ : p .access := by assumption) (_ : p (.regs .mg) := by assumption) (_ : p (.regs .fs) := by assumption) :
    Keeps p r (streamOff pp s) := by
  unfold streamOff
  repeat' first
    | with_reducible assumption
    | with_reducible apply opCommand_kept

theorem switchLast_kept (h : Keeps p r s) (pp : Path) (_ : p .audit := by assumption) (_ : p .waiting := by assumption) (_ : p .schedule := by assumption) (_ : p .access := by assumption) (_ : p (.regs .mg) := by assumption) (_ : p (.regs .fs) := by assumption) :
    Keeps p r (switchLast pp s) := by
  unfold switchLast
  repeat' first
    | with_reducible assumption
    | with_reducible apply opCommand_kept

theorem opcodeInvalid_kept (h : Keeps p r s) (pp : Path) (op : BitVec 4) (_ : p .audit := by assumption) (_ : p .waiting := by assumption) (_ : p .schedule := by assumption) (_ : p .access := by assumption) (_ : p (.regs .mg) := by assumption) (_ : p (.regs .fs) := by assumption) :
    Keeps p r (opcodeInvalid pp op s) := by
  unfold opcodeInvalid
  repeat' first
    | with_reducible assumption
    | with_reducible apply opCommand_kept

theorem lastCtrlWrite_kept (h : Keeps p r s) (pp : Path) (v : Nat) (_ : p .audit := by assumption) (_ : p .waiting := by assumption) (_ : p .schedule := by assumption) (_ : p .lasts := by assumption) (_ : p .access := by assumption) (_ : p (.regs .mg) := by assumption) (_ : p (.regs .fs) := by assumption) :
    Keeps p r (lastCtrlWrite pp v s) := by
  unfold lastCtrlWrite
  repeat' first
    | with_reducible assumption
    | exact blockOf_is (blockOf_fld _) (by assumption)
    | exact blockOf_is (c := .mg) (blockOf_page (show _ = 0 by omega)) (by assumption)
    | exact blockOf_is (c := .fs) (blockOf_page (show _ = 6 by omega)) (by assumption)
    | with_reducible apply gatedWrite_keeps
    | with_reducible apply lastCtrl_keeps
    | with_reducible refine fun _ _ => ?_
    | with_reducible apply_assumption

theorem admitLast_kept (h : Keeps p r s) (pp : Path) (sel : Fin 4) (_ : p .audit := by assumption) (_ : p .waiting := by assumption) (_ : p .schedule := by assumption) (_ : p .lasts := by assumption) (_ : p .access := by assumption) (_ : p (.regs .mg) := by assumption) (_ : p (.regs .fs) := by assumption) :
    Keeps p r (admitLast pp sel s) := by
  unfold admitLast
  repeat' first
    | with_reducible assumption
    | with_reducible apply lastCtrlWrite_kept

theorem activate_kept (h : Keeps p r s) (pp : Path) (_ : p .audit := by assumption) (_ : p .waiting := by assumption) (_ : p .schedule := by assumption) (_ : p .lasts := by assumption) (_ : p .access := by assumption) (_ : p (.regs .mg) := by assumption) (_ : p (.regs .fs) := by assumption) :
    Keeps p r (activate pp s) := by
  unfold activate
  repeat' first
    | with_reducible assumption
    | with_reducible apply lastCtrlWrite_kept

theorem cancel_kept (h : Keeps p r s) (pp : Path) (_ : p .audit := by assumption) (_ : p .waiting := by assumption) (_ : p .schedule := by assumption) (_ : p .lasts := by assumption) (_ : p .access := by assumption) (_ : p (.regs .mg) := by assumption) (_ : p (.regs .fs) := by assumption) :
    Keeps p r (cancel pp s) := by
  unfold cancel
  repeat' first
    | with_reducible assumption
    | with_reducible apply lastCtrlWrite_kept

theorem commit_kept (h : Keeps p r s) (pp : Path) (_ : p .audit := by assumption) (_ : p .waiting := by assumption) (_ : p .access := by assumption) (_ : p .lamps := by assumption) (_ : p (.regs .mg) := by assumption) (_ : p (.regs .le) := by assumption) :
    Keeps p r (commit pp s) := by
  unfold commit
  repeat' first
    | with_reducible assumption
    | exact blockOf_is (blockOf_fld _) (by assumption)
    | exact blockOf_is (c := .mg) (blockOf_page (show _ = 0 by omega)) (by assumption)
    | exact blockOf_is (c := .le) (blockOf_page (show _ = 7 by omega)) (by assumption)
    | (extract_lets +onlyGivenNames y; refine Keeps.via (x := y) ?_ (fun _ => ?_); subst y; rotate_left; clear_value y)
    | (extract_lets +onlyGivenNames y; clear_value y)
    | with_reducible apply gatedWrite_keeps
    | with_reducible apply lutCtrl_keeps
    | with_reducible refine fun _ _ => ?_
    | with_reducible apply_assumption

theorem lutCopyDone_kept (h : Keeps p r s) (_ : p .lamps := by assumption) (_ : p (.regs .le) := by assumption) :
    Keeps p r (lutCopyDone s) := by
  unfold lutCopyDone
  repeat' first
    | with_reducible assumption
    | with_reducible apply Keeps.ite
    | with_reducible apply lutCopied_keeps
    | (with_reducible refine Keeps.via ?_ id; split)

theorem lutDataAccess_kept (h : Keeps p r s) (pp : Path) (w : Option Word) (_ : p .audit := by assumption) (_ : p .waiting := by assumption) (_ : p .access := by assumption) (_ : p .lamps := by assumption) (_ : p .outputs := by assumption) (_ : p (.regs .mg) := by assumption) (_ : p (.regs .le) := by assumption) :
    Keeps p r (lutDataAccess pp w s) := by
  unfold lutDataAccess
  repeat' first
    | with_reducible assumption
    | exact blockOf_is (blockOf_fld _) (by assumption)
    | exact blockOf_is (c := .mg) (blockOf_page (show _ = 0 by omega)) (by assumption)
    | exact blockOf_is (c := .le) (blockOf_page (show _ = 7 by omega)) (by assumption)
    | (extract_lets +onlyGivenNames y; refine Keeps.via (x := y) ?_ (fun _ => ?_); subst y; rotate_left; clear_value y)
    | (extract_lets +onlyGivenNames y; refine Keeps.via (x := y.2) ?_ (fun _ => ?_); subst y; rotate_left; clear_value y)
    | (extract_lets +onlyGivenNames y; refine Keeps.via (x := y.1) ?_ (fun _ => ?_); subst y; rotate_left; clear_value y)
    | (extract_lets +onlyGivenNames y; clear_value y)
    | with_reducible apply lutRead_keeps
    | with_reducible apply emit_keeps
    | with_reducible apply gatedWrite_keeps
    | with_reducible apply lutWrite_keeps
    | (with_reducible refine Keeps.via ?_ id; split)
    | with_reducible refine fun _ _ => ?_
    | with_reducible apply_assumption

theorem readFrameLo_keeps (h : Keeps p r s) (pp : Path) (doorbell : Bool) (_ : p .heads := by assumption) (_ : p (.regs .fs) := by assumption) :
    Keeps p r (State.readFrameLo s pp doorbell).2 := by
  unfold State.readFrameLo
  repeat' first
    | with_reducible assumption
    | (show p (.regs _); assumption)
    | (extract_lets +onlyGivenNames y; refine Keeps.via (x := y) ?_ (fun _ => ?_); subst y; rotate_left; clear_value y)
    | (extract_lets +onlyGivenNames y; clear_value y)
    | with_reducible apply modHead_keeps
    | with_reducible apply wr_keeps
    | (with_reducible refine Keeps.via ?_ id; split)
    | exact Or.inr fun _ => rfl
    | exact Or.inl (by assumption)
    | exact Or.inr fun _ => by dsimp only; split <;> rfl
    | with_reducible apply_assumption

theorem frameLoRead_kept (h : Keeps p r s) (pp : Path) (doorbell : Bool) (_ : p .heads := by assumption) (_ : p .outputs := by assumption) (_ : p (.regs .fs) := by assumption) :
    Keeps p r (frameLoRead pp doorbell s) := by
  unfold frameLoRead
  repeat' first
    | with_reducible assumption
    | (extract_lets +onlyGivenNames y; refine Keeps.via (x := y) ?_ (fun _ => ?_); subst y; rotate_left; clear_value y)
    | (extract_lets +onlyGivenNames y; refine Keeps.via (x := y.2) ?_ (fun _ => ?_); subst y; rotate_left; clear_value y)
    | (extract_lets +onlyGivenNames y; refine Keeps.via (x := y.1) ?_ (fun _ => ?_); subst y; rotate_left; clear_value y)
    | (extract_lets +onlyGivenNames y; clear_value y)
    | with_reducible apply readFrameLo_keeps
    | with_reducible apply emit_keeps

theorem ftickEdge_kept (h : Keeps p r s) (_ : p .waiting := by assumption) (_ : p .clock := by assumption) (_ : p .timebase := by assumption) (_ : p (.regs .tb) := by assumption) :
    Keeps p r (ftickEdge s) := by
  unfold ftickEdge
  repeat' first
    | with_reducible assumption
    | with_reducible apply onBases_keeps
    | with_reducible apply ftickEdgeAt_kept
    | (with_reducible refine Keeps.via ?_ id; split)
    | with_reducible apply_assumption
    | with_reducible refine fun _ _ _ => ?_

end Sys2Proof.Machine
end

