-- ==== Sys2Proof/Laws/KeepsStreams.lean ====
section
/-! SUPPORT. What every function keeps (Sys2Proof/Laws/Keeps.lean), carried through ingest, rings, engines, head commands and the thermal commands. -/
set_option Elab.async false
set_option linter.unusedTactic false
set_option linter.unreachableTactic false
set_option linter.unusedVariables false
namespace Sys2Proof.Machine

variable {p : Part → Prop} {r s : State}

theorem srcRefused_keeps (h : Keeps p r s) (hh n slot why : Nat) (_ : p .waiting := by assumption) :
    Keeps p r (State.srcRefused s hh n slot why) := by
  unfold State.srcRefused
  repeat' first
    | with_reducible assumption
    | with_reducible apply raise_keeps

theorem srcDropped_keeps (h : Keeps p r s) (hh n lines field : Nat) (_ : p .waiting := by assumption) :
    Keeps p r (State.srcDropped s hh n lines field) := by
  unfold State.srcDropped
  repeat' first
    | with_reducible assumption
    | with_reducible apply Keeps.ite
    | with_reducible apply raise_keeps
    | (with_reducible refine Keeps.via ?_ id; split)

theorem dropRange_keeps (h : Keeps p r s) (hh n k : Nat) (_ : p .waiting := by assumption) (_ : p (.regs .tw) := by assumption) :
    Keeps p r (State.dropRange s hh n k) := by
  unfold State.dropRange
  repeat' first
    | with_reducible assumption
    | (show p (.regs _); assumption)
    | with_reducible apply srcDropped_keeps
    | with_reducible apply bump_keeps

theorem dropOrder_keeps (h : Keeps p r s) (hh n : Nat) (_ : p .waiting := by assumption) (_ : p (.regs .tw) := by assumption) :
    Keeps p r (State.dropOrder s hh n) := by
  unfold State.dropOrder
  repeat' first
    | with_reducible assumption
    | (show p (.regs _); assumption)
    | with_reducible apply srcDropped_keeps
    | with_reducible apply bump_keeps

theorem dropNoSlot_keeps (h : Keeps p r s) (hh n k : Nat) (_ : p .waiting := by assumption) (_ : p .schedule := by assumption) (_ : p (.regs .tw) := by assumption) :
    Keeps p r (State.dropNoSlot s hh n k) := by
  unfold State.dropNoSlot
  repeat' first
    | with_reducible assumption
    | (show p (.regs _); assumption)
    | (extract_lets +onlyGivenNames y; refine Keeps.via (x := y) ?_ (fun _ => ?_); subst y; rotate_left; clear_value y)
    | (extract_lets +onlyGivenNames y; clear_value y)
    | with_reducible apply Keeps.ite
    | with_reducible apply bump_keeps
    | with_reducible apply modRt_keeps
    | with_reducible apply srcDropped_keeps
    | (with_reducible refine Keeps.via ?_ id; split)
    | with_reducible apply_assumption

theorem takeLine_keeps (h : Keeps p r s) (hh n : Nat) (k : SrcCfg) (row line : Nat) (d : LineData) (_ : p .waiting := by assumption) (_ : p .schedule := by assumption) (_ : p (.regs .fs) := by assumption) (_ : p (.regs .tw) := by assumption) :
    Keeps p r (State.takeLine s hh n k row line d) := by
  unfold State.takeLine
  repeat' first
    | with_reducible assumption
    | (show p (.regs _); assumption)
    | (extract_lets +onlyGivenNames y; refine Keeps.via (x := y) ?_ (fun _ => ?_); subst y; rotate_left; clear_value y)
    | (extract_lets +onlyGivenNames y; clear_value y)
    | with_reducible apply Keeps.ite
    | with_reducible apply dropOrder_keeps
    | with_reducible apply dropNoSlot_keeps
    | with_reducible apply srcDropped_keeps
    | with_reducible apply bump_keeps
    | with_reducible apply modRt_keeps
    | (with_reducible refine Keeps.via ?_ id; split)
    | with_reducible apply_assumption

theorem takeSelect_keeps (h : Keeps p r s) (hh n : Nat) (k : SrcCfg) (slot : Nat) (_ : p .waiting := by assumption) (_ : p .schedule := by assumption) :
    Keeps p r (State.takeSelect s hh n k slot) := by
  unfold State.takeSelect
  repeat' first
    | with_reducible assumption
    | (extract_lets +onlyGivenNames y; refine Keeps.via (x := y) ?_ (fun _ => ?_); subst y; rotate_left; clear_value y)
    | (extract_lets +onlyGivenNames y; clear_value y)
    | with_reducible apply Keeps.ite
    | with_reducible apply srcRefused_keeps
    | with_reducible apply modRt_keeps
    | (with_reducible refine Keeps.via ?_ id; split)
    | with_reducible apply_assumption

theorem refusePub_keeps (h : Keeps p r s) (hh n slot tag result : Nat) (_ : p .waiting := by assumption) (_ : p .schedule := by assumption) (_ : p (.regs .fs) := by assumption) :
    Keeps p r (State.refusePub s hh n slot tag result) := by
  unfold State.refusePub
  repeat' first
    | with_reducible assumption
    | (show p (.regs _); assumption)
    | with_reducible apply srcRefused_keeps
    | with_reducible apply modRt_keeps
    | with_reducible apply bump_keeps
    | with_reducible apply_assumption

theorem takePublish_keeps (h : Keeps p r s) (hh n slot tag tick : Nat) (late : Bool) (_ : p .waiting := by assumption) (_ : p .schedule := by assumption) (_ : p (.regs .fs) := by assumption) :
    Keeps p r (State.takePublish s hh n slot tag tick late) := by
  unfold State.takePublish
  repeat' first
    | with_reducible assumption
    | (show p (.regs _); assumption)
    | (extract_lets +onlyGivenNames y; refine Keeps.via (x := y) ?_ (fun _ => ?_); subst y; rotate_left; clear_value y)
    | (extract_lets +onlyGivenNames y; clear_value y)
    | with_reducible apply Keeps.ite
    | with_reducible apply srcRefused_keeps
    | with_reducible apply bump_keeps
    | with_reducible apply refusePub_keeps
    | with_reducible apply modRt_keeps
    | (with_reducible refine Keeps.via ?_ id; split)
    | with_reducible apply_assumption

theorem takeIngest_keeps (h : Keeps p r s) (n : Nat) (i : Ingest) (_ : p .waiting := by assumption) (_ : p .schedule := by assumption) (_ : p (.regs .fs) := by assumption) (_ : p (.regs .tw) := by assumption) :
    Keeps p r (State.takeIngest s n i) := by
  unfold State.takeIngest
  repeat' first
    | with_reducible assumption
    | with_reducible apply takeLine_keeps
    | with_reducible apply takeSelect_keeps
    | with_reducible apply takePublish_keeps
    | (with_reducible refine Keeps.via ?_ id; split)

theorem takeWaiting_keeps (h : Keeps p r s) (n : Nat) (_ : p .waiting := by assumption) (_ : p .schedule := by assumption) (_ : p (.regs .fs) := by assumption) (_ : p (.regs .tw) := by assumption) :
    Keeps p r (State.takeWaiting s n) := by
  unfold State.takeWaiting
  repeat' first
    | with_reducible assumption
    | with_reducible apply Keeps.ite
    | with_reducible apply takeIngest_keeps
    | with_reducible apply modRt_keeps
    | with_reducible refine Keeps.foldl _ ?_ (fun _ _ _ => ?_)
    | (with_reducible refine Keeps.via ?_ id; split)
    | with_reducible apply_assumption

theorem offer_keeps (h : Keeps p r s) (n : Nat) (i : Ingest) (_ : p .waiting := by assumption) (_ : p .schedule := by assumption) (_ : p (.regs .fs) := by assumption) (_ : p (.regs .tw) := by assumption) :
    Keeps p r (State.offer s n i) := by
  unfold State.offer
  repeat' first
    | with_reducible assumption
    | with_reducible apply Keeps.ite
    | with_reducible apply modRt_keeps
    | with_reducible apply takeIngest_keeps
    | (with_reducible refine Keeps.via ?_ id; split)
    | with_reducible apply_assumption

theorem writeBlock_keeps (h : Keeps p r s) (n : Nat) (k : SrcCfg) (m : TwMode) (slot b : Nat) (e : Encoded) (_ : p .memory := by assumption) (_ : p .waiting := by assumption) (_ : p .schedule := by assumption) (_ : p (.regs .dc) := by assumption) (_ : p (.regs .di) := by assumption) :
    Keeps p r (State.writeBlock s n k m slot b e) := by
  unfold State.writeBlock
  repeat' first
    | with_reducible assumption
    | (extract_lets +onlyGivenNames y; refine Keeps.via (x := y) ?_ (fun _ => ?_); subst y; rotate_left; clear_value y)
    | (extract_lets +onlyGivenNames y; refine Keeps.via (x := y.2) ?_ (fun _ => ?_); subst y; rotate_left; clear_value y)
    | (extract_lets +onlyGivenNames y; refine Keeps.via (x := y.1) ?_ (fun _ => ?_); subst y; rotate_left; clear_value y)
    | (extract_lets +onlyGivenNames y; clear_value y)
    | with_reducible apply Keeps.ite
    | with_reducible apply writeDpa_keeps
    | with_reducible apply modRt_keeps
    | with_reducible refine Keeps.foldl _ ?_ (fun _ _ _ => ?_)
    | (with_reducible refine Keeps.via ?_ id; split)
    | with_reducible refine Keeps.foldlFst _ ?_ (fun _ _ _ => ?_)
    | with_reducible refine Keeps.foldlSnd _ ?_ (fun _ _ _ => ?_)
    | with_reducible apply_assumption

theorem writeMap_keeps (h : Keeps p r s) (n : Nat) (k : SrcCfg) (slot b : Nat) (d : LineData) (_ : p .memory := by assumption) (_ : p .waiting := by assumption) (_ : p .schedule := by assumption) (_ : p (.regs .dc) := by assumption) (_ : p (.regs .di) := by assumption) :
    Keeps p r (State.writeMap s n k slot b d) := by
  unfold State.writeMap
  repeat' first
    | with_reducible assumption
    | (extract_lets +onlyGivenNames y; refine Keeps.via (x := y) ?_ (fun _ => ?_); subst y; rotate_left; clear_value y)
    | (extract_lets +onlyGivenNames y; refine Keeps.via (x := y.2) ?_ (fun _ => ?_); subst y; rotate_left; clear_value y)
    | (extract_lets +onlyGivenNames y; refine Keeps.via (x := y.1) ?_ (fun _ => ?_); subst y; rotate_left; clear_value y)
    | (extract_lets +onlyGivenNames y; clear_value y)
    | with_reducible apply Keeps.ite
    | with_reducible apply writeDpa_keeps
    | with_reducible apply modRt_keeps
    | (with_reducible refine Keeps.via ?_ id; split)
    | with_reducible apply_assumption

theorem firstEntries_keeps (h : Keeps p r s) (n : Nat) (k : SrcCfg) (_ : p .memory := by assumption) (_ : p .waiting := by assumption) (_ : p .schedule := by assumption) (_ : p (.regs .dc) := by assumption) (_ : p (.regs .di) := by assumption) :
    Keeps p r (State.firstEntries s n k) := by
  unfold State.firstEntries
  repeat' first
    | with_reducible assumption
    | (extract_lets +onlyGivenNames y; refine Keeps.via (x := y) ?_ (fun _ => ?_); subst y; rotate_left; clear_value y)
    | (extract_lets +onlyGivenNames y; refine Keeps.via (x := y.2) ?_ (fun _ => ?_); subst y; rotate_left; clear_value y)
    | (extract_lets +onlyGivenNames y; refine Keeps.via (x := y.1) ?_ (fun _ => ?_); subst y; rotate_left; clear_value y)
    | (extract_lets +onlyGivenNames y; clear_value y)
    | with_reducible apply Keeps.ite
    | with_reducible apply writeMap_keeps
    | with_reducible apply modRt_keeps
    | with_reducible refine Keeps.foldl _ ?_ (fun _ _ _ => ?_)
    | (with_reducible refine Keeps.via ?_ id; split)
    | with_reducible refine Keeps.foldlFst _ ?_ (fun _ _ _ => ?_)
    | with_reducible refine Keeps.foldlSnd _ ?_ (fun _ _ _ => ?_)
    | with_reducible apply_assumption

theorem encodeRow_keeps (h : Keeps p r s) (n : Nat) (k : SrcCfg) (m : TwMode) (slot : Nat) (_ : p .memory := by assumption) (_ : p .waiting := by assumption) (_ : p .schedule := by assumption) (_ : p (.regs .tw) := by assumption) (_ : p (.regs .dc) := by assumption) (_ : p (.regs .di) := by assumption) :
    Keeps p r (State.encodeRow s n k m slot) := by
  unfold State.encodeRow
  repeat' first
    | with_reducible assumption
    | (show p (.regs _); assumption)
    | (extract_lets +onlyGivenNames y; refine Keeps.via (x := y) ?_ (fun _ => ?_); subst y; rotate_left; clear_value y)
    | (extract_lets +onlyGivenNames y; refine Keeps.via (x := y.2) ?_ (fun _ => ?_); subst y; rotate_left; clear_value y)
    | (extract_lets +onlyGivenNames y; refine Keeps.via (x := y.1) ?_ (fun _ => ?_); subst y; rotate_left; clear_value y)
    | (extract_lets +onlyGivenNames y; clear_value y)
    | with_reducible apply Keeps.ite
    | with_reducible apply writeBlock_keeps
    | with_reducible apply modRt_keeps
    | with_reducible apply firstEntries_keeps
    | with_reducible apply wr_keeps
    | with_reducible refine Keeps.foldl _ ?_ (fun _ _ _ => ?_)
    | (with_reducible refine Keeps.via ?_ id; split)
    | with_reducible refine Keeps.foldlFst _ ?_ (fun _ _ _ => ?_)
    | with_reducible refine Keeps.foldlSnd _ ?_ (fun _ _ _ => ?_)
    | with_reducible apply_assumption

theorem windowZero_keeps (h : Keeps p r s) (hh lines : Nat) (_ : p .outputs := by assumption) :
    Keeps p r (State.windowZero s hh lines) := by
  unfold State.windowZero
  repeat' first
    | with_reducible assumption
    | with_reducible apply emit_keeps

theorem askWindow_keeps (h : Keeps p r s) (hh : Nat) (k : SrcCfg) (m : TwMode) (w : WinRead) (_ : p .memory := by assumption) (_ : p .waiting := by assumption) (_ : p .schedule := by assumption) (_ : p .heads := by assumption) (_ : p .lamps := by assumption) (_ : p .outputs := by assumption) (_ : p .draws := by assumption) (_ : p (.regs .mi) := by assumption) (_ : p (.regs .dc) := by assumption) (_ : p (.regs .di) := by assumption) (_ : p (.regs .hp) := by assumption) :
    Keeps p r (State.askWindow s hh k m w) := by
  unfold State.askWindow
  repeat' first
    | with_reducible assumption
    | (extract_lets +onlyGivenNames y; refine Keeps.via (x := y) ?_ (fun _ => ?_); subst y; rotate_left; clear_value y)
    | (extract_lets +onlyGivenNames y; clear_value y)
    | with_reducible apply readDpa_keeps
    | with_reducible apply modHead_keeps
    | with_reducible refine Keeps.foldl _ ?_ (fun _ _ _ => ?_)
    | exact Or.inr fun _ => rfl
    | exact Or.inl (by assumption)
    | exact Or.inr fun _ => by dsimp only; split <;> rfl
    | with_reducible apply_assumption

theorem finishWindow_keeps (h : Keeps p r s) (hh : Nat) (k : SrcCfg) (m : TwMode) (w : WinRead) (_ : p .waiting := by assumption) (_ : p .heads := by assumption) (_ : p .outputs := by assumption) :
    Keeps p r (State.finishWindow s hh k m w) := by
  unfold State.finishWindow
  repeat' first
    | with_reducible assumption
    | (extract_lets +onlyGivenNames y; refine Keeps.via (x := y) ?_ (fun _ => ?_); subst y; rotate_left; clear_value y)
    | (extract_lets +onlyGivenNames y; clear_value y)
    | with_reducible apply Keeps.ite
    | with_reducible apply emit_keeps
    | with_reducible apply modHead_keeps
    | with_reducible apply raise_keeps
    | (with_reducible refine Keeps.via ?_ id; split)
    | exact Or.inr fun _ => rfl
    | exact Or.inl (by assumption)
    | exact Or.inr fun _ => by dsimp only; split <;> rfl
    | with_reducible apply_assumption

theorem blockBad_keeps (h : Keeps p r s) (hh : Half) (k : SrcCfg) (m : TwMode) (slot b : Nat) (bad : Option TwBad) (_ : p .waiting := by assumption) (_ : p (.regs .tw) := by assumption) :
    Keeps p r (State.blockBad s hh k m slot b bad) := by
  unfold State.blockBad
  repeat' first
    | with_reducible assumption
    | (show p (.regs _); assumption)
    | (extract_lets +onlyGivenNames y; refine Keeps.via (x := y) ?_ (fun _ => ?_); subst y; rotate_left; clear_value y)
    | (extract_lets +onlyGivenNames y; clear_value y)
    | with_reducible apply bump_keeps
    | with_reducible apply raise_keeps
    | (with_reducible refine Keeps.via ?_ id; split)

theorem copyStart_keeps (h : Keeps p r s) (hh n : Nat) (slot : Option Nat) (_ : p .memory := by assumption) (_ : p .waiting := by assumption) (_ : p .schedule := by assumption) (_ : p .heads := by assumption) (_ : p .lamps := by assumption) (_ : p .outputs := by assumption) (_ : p .draws := by assumption) (_ : p (.regs .mi) := by assumption) (_ : p (.regs .dc) := by assumption) (_ : p (.regs .di) := by assumption) (_ : p (.regs .hp) := by assumption) :
    Keeps p r (State.copyStart s hh n slot) := by
  unfold State.copyStart
  repeat' first
    | with_reducible assumption
    | (extract_lets +onlyGivenNames y; refine Keeps.via (x := y) ?_ (fun _ => ?_); subst y; rotate_left; clear_value y)
    | (extract_lets +onlyGivenNames y; clear_value y)
    | with_reducible apply Keeps.ite
    | with_reducible apply modHead_keeps
    | with_reducible apply modRt_keeps
    | with_reducible apply copyOn_keeps
    | (with_reducible refine Keeps.via ?_ id; split)
    | exact Or.inr fun _ => rfl
    | exact Or.inl (by assumption)
    | exact Or.inr fun _ => by dsimp only; split <;> rfl
    | with_reducible apply_assumption
    | assumption

theorem copyEnd_keeps (h : Keeps p r s) (hh : Nat) (c : Copy) (_ : p .waiting := by assumption) (_ : p .schedule := by assumption) (_ : p .heads := by assumption) :
    Keeps p r (State.copyEnd s hh c) := by
  unfold State.copyEnd
  repeat' first
    | with_reducible assumption
    | (extract_lets +onlyGivenNames y; refine Keeps.via (x := y) ?_ (fun _ => ?_); subst y; rotate_left; clear_value y)
    | (extract_lets +onlyGivenNames y; clear_value y)
    | with_reducible apply Keeps.ite
    | with_reducible apply modHead_keeps
    | with_reducible apply raise_keeps
    | with_reducible apply modRt_keeps
    | (with_reducible refine Keeps.via ?_ id; split)
    | exact Or.inr fun _ => rfl
    | exact Or.inl (by assumption)
    | exact Or.inr fun _ => by dsimp only; split <;> rfl
    | with_reducible apply_assumption

theorem ringRefused_keeps (h : Keeps p r s) (hh rr off why : Nat) (_ : p .waiting := by assumption) :
    Keeps p r (State.ringRefused s hh rr off why) := by
  unfold State.ringRefused
  repeat' first
    | with_reducible assumption
    | with_reducible apply raise_keeps

theorem ringWrite_keeps (h : Keeps p r s) (hh rr off : Nat) (act : State → State) (hf : ∀ s, Keeps p r s → Keeps p r (act s)) (_ : p .waiting := by assumption) (_ : p .lamps := by assumption) :
    Keeps p r (State.ringWrite s hh rr off act) := by
  unfold State.ringWrite
  repeat' first
    | with_reducible assumption
    | (extract_lets +onlyGivenNames y; refine Keeps.via (x := y) ?_ (fun _ => ?_); subst y; rotate_left; clear_value y)
    | (extract_lets +onlyGivenNames y; clear_value y)
    | with_reducible apply Keeps.ite
    | with_reducible apply modRing_keeps
    | with_reducible apply ringRefused_keeps
    | (with_reducible refine Keeps.via ?_ id; split)
    | with_reducible apply_assumption

theorem ringDescriptorWrite_kept (h : Keeps p r s) (hh : Fin 4) (rr : Fin 512) (w : RdWord) (v : Word) (_ : p .waiting := by assumption) (_ : p .lamps := by assumption) :
    Keeps p r (ringDescriptorWrite hh rr w v s) := by
  unfold ringDescriptorWrite
  repeat' first
    | with_reducible assumption
    | with_reducible apply Keeps.ite
    | with_reducible apply ringWrite_keeps
    | with_reducible apply ringRefused_keeps
    | with_reducible apply modRing_keeps
    | (with_reducible refine Keeps.via ?_ id; split)
    | with_reducible refine fun _ _ => ?_
    | with_reducible apply_assumption

theorem log2Event_keeps (h : Keeps p r s) (hh rr log2 : Nat) (_ : p .waiting := by assumption) :
    Keeps p r (State.log2Event s hh rr log2) := by
  unfold State.log2Event
  repeat' first
    | with_reducible assumption
    | with_reducible apply Keeps.ite
    | with_reducible apply ringRefused_keeps
    | (with_reducible refine Keeps.via ?_ id; split)

theorem arm_kept (h : Keeps p r s) (hh : Fin 4) (rr : Fin 512) (log2 : BitVec 5) (_ : p .waiting := by assumption) (_ : p .lamps := by assumption) :
    Keeps p r (arm hh rr log2 s) := by
  unfold arm
  repeat' first
    | with_reducible assumption
    | (extract_lets +onlyGivenNames y; refine Keeps.via (x := y) ?_ (fun _ => ?_); subst y; rotate_left; clear_value y)
    | (extract_lets +onlyGivenNames y; clear_value y)
    | with_reducible apply Keeps.ite
    | with_reducible apply ringWrite_keeps
    | with_reducible apply log2Event_keeps
    | with_reducible apply ringRefused_keeps
    | with_reducible apply modRing_keeps
    | (with_reducible refine Keeps.via ?_ id; split)
    | with_reducible refine fun _ _ => ?_
    | with_reducible apply_assumption

theorem disarm_kept (h : Keeps p r s) (hh : Fin 4) (rr : Fin 512) (log2 : BitVec 5) (_ : p .waiting := by assumption) (_ : p .lamps := by assumption) :
    Keeps p r (disarm hh rr log2 s) := by
  unfold disarm
  repeat' first
    | with_reducible assumption
    | (extract_lets +onlyGivenNames y; refine Keeps.via (x := y) ?_ (fun _ => ?_); subst y; rotate_left; clear_value y)
    | (extract_lets +onlyGivenNames y; clear_value y)
    | with_reducible apply Keeps.ite
    | with_reducible apply ringWrite_keeps
    | with_reducible apply log2Event_keeps
    | with_reducible apply modRing_keeps
    | (with_reducible refine Keeps.via ?_ id; split)
    | with_reducible refine fun _ _ => ?_
    | with_reducible apply_assumption

theorem armEffect_kept (h : Keeps p r s) (rr : Fin 512) (_ : p .waiting := by assumption) (_ : p .lamps := by assumption) (_ : p (.regs .le) := by assumption) :
    Keeps p r (armEffect rr s) := by
  unfold armEffect
  repeat' first
    | with_reducible assumption
    | with_reducible apply applyArm_keeps

theorem consumedWrite_kept (h : Keeps p r s) (hh : Fin 4) (rr : Fin 512) (v : Word) (_ : p .waiting := by assumption) (_ : p .lamps := by assumption) :
    Keeps p r (consumedWrite hh rr v s) := by
  unfold consumedWrite
  repeat' first
    | with_reducible assumption
    | (extract_lets +onlyGivenNames y; refine Keeps.via (x := y) ?_ (fun _ => ?_); subst y; rotate_left; clear_value y)
    | (extract_lets +onlyGivenNames y; clear_value y)
    | with_reducible apply Keeps.ite
    | with_reducible apply ringWrite_keeps
    | with_reducible apply ringRefused_keeps
    | with_reducible apply modRing_keeps
    | (with_reducible refine Keeps.via ?_ id; split)
    | with_reducible refine fun _ _ => ?_
    | with_reducible apply_assumption

theorem chunkRecordWrite_kept (h : Keeps p r s) (rr : Fin 512) (_ : p .waiting := by assumption) (_ : p .heads := by assumption) (_ : p .lamps := by assumption) (_ : p .outputs := by assumption) (_ : p (.regs .le) := by assumption) :
    Keeps p r (chunkRecordWrite rr s) := by
  unfold chunkRecordWrite
  repeat' first
    | with_reducible assumption
    | (extract_lets +onlyGivenNames y; refine Keeps.via (x := y) ?_ (fun _ => ?_); subst y; rotate_left; clear_value y)
    | (extract_lets +onlyGivenNames y; clear_value y)
    | with_reducible apply Keeps.ite
    | with_reducible apply applyArm_keeps
    | with_reducible apply skipFirst_keeps
    | with_reducible apply writeRecord_keeps
    | with_reducible apply modRing_keeps
    | (with_reducible refine Keeps.via ?_ id; split)
    | with_reducible apply_assumption

theorem chunkSkip_kept (h : Keeps p r s) (rr : Fin 512) (noCredits : Bool) (_ : p .waiting := by assumption) (_ : p .heads := by assumption) (_ : p .lamps := by assumption) (_ : p .outputs := by assumption) (_ : p (.regs .le) := by assumption) :
    Keeps p r (chunkSkip rr noCredits s) := by
  unfold chunkSkip
  repeat' first
    | with_reducible assumption
    | with_reducible apply Keeps.ite
    | with_reducible apply enterSkipping_keeps
    | with_reducible apply skipFirst_keeps
    | (with_reducible refine Keeps.via ?_ id; split)
    | with_reducible refine Keeps.ofSnd (by assumption) ?_
    | with_reducible refine Keeps.ofFst (by assumption) ?_

theorem recordAbandon_kept (h : Keeps p r s) (rr : Fin 512) (_ : p .waiting := by assumption) (_ : p .heads := by assumption) (_ : p .lamps := by assumption) (_ : p .outputs := by assumption) (_ : p (.regs .le) := by assumption) :
    Keeps p r (recordAbandon rr s) := by
  unfold recordAbandon
  repeat' first
    | with_reducible assumption
    | with_reducible apply Keeps.ite
    | with_reducible apply enterSkipping_keeps
    | with_reducible apply skipFirst_keeps
    | (with_reducible refine Keeps.via ?_ id; split)

theorem streamOpen_kept (h : Keeps p r s) (e : Fin 16) (_ : p .lamps := by assumption) (_ : p (.regs .le) := by assumption) :
    Keeps p r (streamOpen e s) := by
  unfold streamOpen
  repeat' first
    | with_reducible assumption
    | (extract_lets +onlyGivenNames y; refine Keeps.via (x := y) ?_ (fun _ => ?_); subst y; rotate_left; clear_value y)
    | (extract_lets +onlyGivenNames y; clear_value y)
    | with_reducible apply Keeps.ite
    | with_reducible apply modEng_keeps
    | with_reducible apply noteEngine_keeps
    | (with_reducible refine Keeps.via ?_ id; split)
    | with_reducible apply_assumption

theorem askLines_keeps (h : Keeps p r s) (e : Nat) (need : List Nat) (_ : p .memory := by assumption) (_ : p .waiting := by assumption) (_ : p .schedule := by assumption) (_ : p .heads := by assumption) (_ : p .lamps := by assumption) (_ : p .outputs := by assumption) (_ : p .draws := by assumption) (_ : p (.regs .mi) := by assumption) (_ : p (.regs .dc) := by assumption) (_ : p (.regs .di) := by assumption) (_ : p (.regs .hp) := by assumption) :
    Keeps p r (State.askLines s e need) := by
  unfold State.askLines
  repeat' first
    | with_reducible assumption
    | (extract_lets +onlyGivenNames y; refine Keeps.via (x := y) ?_ (fun _ => ?_); subst y; rotate_left; clear_value y)
    | (extract_lets +onlyGivenNames y; clear_value y)
    | with_reducible apply readDpa_keeps
    | with_reducible apply modEng_keeps
    | with_reducible refine Keeps.foldl _ ?_ (fun _ _ _ => ?_)
    | with_reducible apply_assumption

theorem lutMessages_keeps (h : Keeps p r s) (e bank : Nat) (read : List (Nat × Nat)) (errs : List LutErr) (_ : p .waiting := by assumption) :
    Keeps p r (State.lutMessages s e bank read errs) := by
  unfold State.lutMessages
  repeat' first
    | with_reducible assumption
    | (extract_lets +onlyGivenNames y; refine Keeps.via (x := y) ?_ (fun _ => ?_); subst y; rotate_left; clear_value y)
    | (extract_lets +onlyGivenNames y; clear_value y)
    | with_reducible apply Keeps.ite
    | with_reducible apply raise_keeps
    | with_reducible refine Keeps.foldl _ ?_ (fun _ _ _ => ?_)
    | (with_reducible refine Keeps.via ?_ id; split)
    | with_reducible apply_assumption

theorem stageChunk_keeps (h : Keeps p r s) (e : Nat) (x : LampIn) (c : Nat) (errs : List LutErr) (_ : p .waiting := by assumption) (_ : p .lamps := by assumption) (_ : p (.regs .le) := by assumption) :
    Keeps p r (State.stageChunk s e x c errs) := by
  unfold State.stageChunk
  repeat' first
    | with_reducible assumption
    | (show p (.regs _); assumption)
    | (extract_lets +onlyGivenNames y; refine Keeps.via (x := y) ?_ (fun _ => ?_); subst y; rotate_left; clear_value y)
    | (extract_lets +onlyGivenNames y; refine Keeps.via (x := y.2) ?_ (fun _ => ?_); subst y; rotate_left; clear_value y)
    | (extract_lets +onlyGivenNames y; refine Keeps.via (x := y.1) ?_ (fun _ => ?_); subst y; rotate_left; clear_value y)
    | (extract_lets +onlyGivenNames y; clear_value y)
    | with_reducible apply Keeps.ite
    | with_reducible apply lutMessages_keeps
    | with_reducible apply bump_keeps
    | with_reducible apply modRing_keeps
    | with_reducible apply noteEngine_keeps
    | with_reducible apply modEng_keeps
    | (with_reducible refine Keeps.via ?_ id; split)
    | with_reducible apply_assumption

theorem chunkStaged_kept (h : Keeps p r s) (e : Fin 16) (lutErrs : List LutErr) (_ : p .memory := by assumption) (_ : p .waiting := by assumption) (_ : p .schedule := by assumption) (_ : p .heads := by assumption) (_ : p .lamps := by assumption) (_ : p .outputs := by assumption) (_ : p .draws := by assumption) (_ : p (.regs .le) := by assumption) (_ : p (.regs .mi) := by assumption) (_ : p (.regs .dc) := by assumption) (_ : p (.regs .di) := by assumption) (_ : p (.regs .hp) := by assumption) :
    Keeps p r (chunkStaged e lutErrs s) := by
  unfold chunkStaged
  repeat' first
    | with_reducible assumption
    | (extract_lets +onlyGivenNames y; refine Keeps.via (x := y) ?_ (fun _ => ?_); subst y; rotate_left; clear_value y)
    | (extract_lets +onlyGivenNames y; refine Keeps.via (x := y.2) ?_ (fun _ => ?_); subst y; rotate_left; clear_value y)
    | (extract_lets +onlyGivenNames y; refine Keeps.via (x := y.1) ?_ (fun _ => ?_); subst y; rotate_left; clear_value y)
    | (extract_lets +onlyGivenNames y; clear_value y)
    | with_reducible apply Keeps.ite
    | with_reducible apply askLines_keeps
    | with_reducible apply stageChunk_keeps
    | (with_reducible refine Keeps.via ?_ id; split)

theorem panicAssert_kept (h : Keeps p r s) (e : Fin 16) (level : Nat) (_ : p .lamps := by assumption) (_ : p (.regs .le) := by assumption) :
    Keeps p r (panicAssert e level s) := by
  unfold panicAssert
  repeat' first
    | with_reducible assumption
    | (show p (.regs _); assumption)
    | (extract_lets +onlyGivenNames y; refine Keeps.via (x := y) ?_ (fun _ => ?_); subst y; rotate_left; clear_value y)
    | (extract_lets +onlyGivenNames y; clear_value y)
    | with_reducible apply Keeps.ite
    | with_reducible apply wr_keeps
    | with_reducible apply modEng_keeps
    | (with_reducible refine Keeps.via ?_ id; split)
    | with_reducible apply_assumption

theorem endPanic_keeps (h : Keeps p r s) (e n : Nat) (bar : Bool) (_ : p .lamps := by assumption) (_ : p (.regs .le) := by assumption) :
    Keeps p r (State.endPanic s e n bar) := by
  unfold State.endPanic
  repeat' first
    | with_reducible assumption
    | (show p (.regs _); assumption)
    | (extract_lets +onlyGivenNames y; refine Keeps.via (x := y) ?_ (fun _ => ?_); subst y; rotate_left; clear_value y)
    | (extract_lets +onlyGivenNames y; clear_value y)
    | with_reducible apply bump_keeps
    | with_reducible apply wr_keeps
    | with_reducible apply modEng_keeps
    | with_reducible apply_assumption

theorem panicRelease_kept (h : Keeps p r s) (e : Fin 16) (level : Nat) (_ : p .lamps := by assumption) (_ : p (.regs .le) := by assumption) :
    Keeps p r (panicRelease e level s) := by
  unfold panicRelease
  repeat' first
    | with_reducible assumption
    | with_reducible apply Keeps.ite
    | with_reducible apply endPanic_keeps
    | (with_reducible refine Keeps.via ?_ id; split)

theorem panicMaxExpiry_kept (h : Keeps p r s) (e : Fin 16) (_ : p .lamps := by assumption) (_ : p (.regs .le) := by assumption) :
    Keeps p r (panicMaxExpiry e s) := by
  unfold panicMaxExpiry
  repeat' first
    | with_reducible assumption
    | (extract_lets +onlyGivenNames y; refine Keeps.via (x := y) ?_ (fun _ => ?_); subst y; rotate_left; clear_value y)
    | (extract_lets +onlyGivenNames y; clear_value y)
    | with_reducible apply endPanic_keeps
    | (with_reducible refine Keeps.via ?_ id; split)

theorem engineStart_kept (h : Keeps p r s) (e : Fin 16) (_ : p .memory := by assumption) (_ : p .heads := by assumption) (_ : p .lamps := by assumption) (_ : p (.regs .le) := by assumption) (_ : p (.regs .dc) := by assumption) :
    Keeps p r (engineStart e s) := by
  unfold engineStart
  repeat' first
    | with_reducible assumption
    | with_reducible apply startWake_keeps

theorem leCtrl_keeps (h : Keeps p r s) (e v : Nat) (_ : p .memory := by assumption) (_ : p .waiting := by assumption) (_ : p .heads := by assumption) (_ : p .lamps := by assumption) (_ : p (.regs .fs) := by assumption) (_ : p (.regs .le) := by assumption) (_ : p (.regs .dc) := by assumption) :
    Keeps p r (State.leCtrl s e v) := by
  unfold State.leCtrl
  repeat' first
    | with_reducible assumption
    | (show p (.regs _); assumption)
    | (extract_lets +onlyGivenNames y; refine Keeps.via (x := y) ?_ (fun _ => ?_); subst y; rotate_left; clear_value y)
    | (extract_lets +onlyGivenNames y; clear_value y)
    | with_reducible apply Keeps.ite
    | with_reducible apply fenceEngine_keeps
    | with_reducible apply wr_keeps
    | with_reducible apply modEng_keeps
    | (with_reducible refine Keeps.via ?_ id; split)
    | with_reducible apply_assumption

theorem fence_kept (h : Keeps p r s) (pp : Path) (e : Fin 16) (_ : p .memory := by assumption) (_ : p .audit := by assumption) (_ : p .waiting := by assumption) (_ : p .heads := by assumption) (_ : p .access := by assumption) (_ : p .lamps := by assumption) (_ : p (.regs .mg) := by assumption) (_ : p (.regs .fs) := by assumption) (_ : p (.regs .le) := by assumption) (_ : p (.regs .dc) := by assumption) :
    Keeps p r (fence pp e s) := by
  unfold fence
  repeat' first
    | with_reducible assumption
    | exact blockOf_is (blockOf_fld _) (by assumption)
    | exact blockOf_is (c := .mg) (blockOf_page (show _ = 0 by omega)) (by assumption)
    | exact blockOf_is (c := .fs) (blockOf_page (show _ = 6 by omega)) (by assumption)
    | exact blockOf_is (c := .le) (blockOf_page (show _ = 7 by omega)) (by assumption)
    | exact blockOf_is (c := .dc) (blockOf_page (show _ = 16 by omega)) (by assumption)
    | with_reducible apply gatedWrite_keeps
    | with_reducible apply leCtrl_keeps
    | with_reducible refine fun _ _ => ?_
    | with_reducible apply_assumption

theorem enable_kept (h : Keeps p r s) (pp : Path) (e : Fin 16) (_ : p .memory := by assumption) (_ : p .audit := by assumption) (_ : p .waiting := by assumption) (_ : p .heads := by assumption) (_ : p .access := by assumption) (_ : p .lamps := by assumption) (_ : p (.regs .mg) := by assumption) (_ : p (.regs .fs) := by assumption) (_ : p (.regs .le) := by assumption) (_ : p (.regs .dc) := by assumption) :
    Keeps p r (enable pp e s) := by
  unfold enable
  repeat' first
    | with_reducible assumption
    | exact blockOf_is (blockOf_fld _) (by assumption)
    | exact blockOf_is (c := .mg) (blockOf_page (show _ = 0 by omega)) (by assumption)
    | exact blockOf_is (c := .fs) (blockOf_page (show _ = 6 by omega)) (by assumption)
    | exact blockOf_is (c := .le) (blockOf_page (show _ = 7 by omega)) (by assumption)
    | exact blockOf_is (c := .dc) (blockOf_page (show _ = 16 by omega)) (by assumption)
    | with_reducible apply gatedWrite_keeps
    | with_reducible apply leCtrl_keeps
    | with_reducible refine fun _ _ => ?_
    | with_reducible apply_assumption

theorem engineSelfCheckFail_kept (h : Keeps p r s) (e : Fin 16) (_ : p .memory := by assumption) (_ : p .waiting := by assumption) (_ : p .heads := by assumption) (_ : p .lamps := by assumption) (_ : p (.regs .fs) := by assumption) (_ : p (.regs .le) := by assumption) (_ : p (.regs .dc) := by assumption) :
    Keeps p r (engineSelfCheckFail e s) := by
  unfold engineSelfCheckFail
  repeat' first
    | with_reducible assumption
    | with_reducible apply fenceEngine_keeps

theorem publishDoorbell_kept (h : Keeps p r s) (hh : Fin 4) (src : Fin 16) (slot tag : BitVec 16) (_ : p .waiting := by assumption) (_ : p .schedule := by assumption) (_ : p (.regs .fs) := by assumption) (_ : p (.regs .tw) := by assumption) :
    Keeps p r (publishDoorbell hh src slot tag s) := by
  unfold publishDoorbell
  repeat' first
    | with_reducible assumption
    | (extract_lets +onlyGivenNames y; refine Keeps.via (x := y) ?_ (fun _ => ?_); subst y; rotate_left; clear_value y)
    | (extract_lets +onlyGivenNames y; clear_value y)
    | with_reducible apply Keeps.ite
    | with_reducible apply offer_keeps
    | with_reducible apply takePublish_keeps
    | (with_reducible refine Keeps.via ?_ id; split)

theorem publicationCount_kept (h : Keeps p r s) (src : Fin 16) (_ : p .waiting := by assumption) (_ : p .schedule := by assumption) (_ : p (.regs .fs) := by assumption) :
    Keeps p r (publicationCount src s) := by
  unfold publicationCount
  repeat' first
    | with_reducible assumption
    | (show p (.regs _); assumption)
    | (extract_lets +onlyGivenNames y; refine Keeps.via (x := y) ?_ (fun _ => ?_); subst y; rotate_left; clear_value y)
    | (extract_lets +onlyGivenNames y; clear_value y)
    | with_reducible apply Keeps.ite
    | with_reducible apply refusePub_keeps
    | with_reducible apply modRt_keeps
    | with_reducible apply bump_keeps
    | (with_reducible refine Keeps.via ?_ id; split)
    | with_reducible apply_assumption

theorem slotSelect_kept (h : Keeps p r s) (hh : Fin 4) (src : Fin 16) (slot : BitVec 16) (_ : p .waiting := by assumption) (_ : p .schedule := by assumption) (_ : p (.regs .fs) := by assumption) (_ : p (.regs .tw) := by assumption) :
    Keeps p r (slotSelect hh src slot s) := by
  unfold slotSelect
  repeat' first
    | with_reducible assumption
    | (show p (.regs _); assumption)
    | (extract_lets +onlyGivenNames y; refine Keeps.via (x := y) ?_ (fun _ => ?_); subst y; rotate_left; clear_value y)
    | (extract_lets +onlyGivenNames y; clear_value y)
    | with_reducible apply Keeps.ite
    | with_reducible apply srcRefused_keeps
    | with_reducible apply bump_keeps
    | with_reducible apply offer_keeps
    | (with_reducible refine Keeps.via ?_ id; split)

theorem windowLine_keeps (h : Keeps p r s) (hh n : Nat) (k : SrcCfg) (off : Nat) (bs : List Byte) (_ : p .waiting := by assumption) (_ : p .schedule := by assumption) (_ : p (.regs .fs) := by assumption) (_ : p (.regs .tw) := by assumption) :
    Keeps p r (State.windowLine s hh n k off bs) := by
  unfold State.windowLine
  repeat' first
    | with_reducible assumption
    | (extract_lets +onlyGivenNames y; refine Keeps.via (x := y) ?_ (fun _ => ?_); subst y; rotate_left; clear_value y)
    | (extract_lets +onlyGivenNames y; clear_value y)
    | with_reducible apply Keeps.ite
    | with_reducible apply dropRange_keeps
    | with_reducible apply offer_keeps
    | (with_reducible refine Keeps.via ?_ id; split)

theorem pixelWindowWrite_kept (h : Keeps p r s) (hh : Fin 4) (offset : BitVec 35) (bytes : List Byte) (allEnabled : Bool) (_ : p .waiting := by assumption) (_ : p .schedule := by assumption) (_ : p (.regs .fs) := by assumption) (_ : p (.regs .tw) := by assumption) :
    Keeps p r (pixelWindowWrite hh offset bytes allEnabled s) := by
  unfold pixelWindowWrite
  repeat' first
    | with_reducible assumption
    | (show p (.regs _); assumption)
    | (extract_lets +onlyGivenNames y; refine Keeps.via (x := y) ?_ (fun _ => ?_); subst y; rotate_left; clear_value y)
    | (extract_lets +onlyGivenNames y; clear_value y)
    | with_reducible apply Keeps.ite
    | with_reducible apply srcDropped_keeps
    | with_reducible apply bump_keeps
    | with_reducible apply dropRange_keeps
    | with_reducible apply windowLine_keeps
    | with_reducible refine Keeps.foldl _ ?_ (fun _ _ _ => ?_)
    | (with_reducible refine Keeps.via ?_ id; split)
    | with_reducible apply_assumption

theorem bookEncode_keeps (h : Keeps p r s) (n blocks : Nat) (_ : p .memory := by assumption) :
    Keeps p r (State.bookEncode s n blocks) := by
  unfold State.bookEncode
  repeat' first
    | with_reducible assumption
    | (extract_lets +onlyGivenNames y; refine Keeps.via (x := y) ?_ (fun _ => ?_); subst y; rotate_left; clear_value y)
    | (extract_lets +onlyGivenNames y; clear_value y)
    | with_reducible apply Keeps.ite
    | with_reducible apply modMh_keeps
    | (with_reducible refine Keeps.via ?_ id; split)
    | with_reducible apply_assumption

theorem blockRowEncoded_kept (h : Keeps p r s) (src : Fin 16) (_ : p .memory := by assumption) (_ : p .waiting := by assumption) (_ : p .schedule := by assumption) (_ : p (.regs .fs) := by assumption) (_ : p (.regs .tw) := by assumption) (_ : p (.regs .dc) := by assumption) (_ : p (.regs .di) := by assumption) :
    Keeps p r (blockRowEncoded src s) := by
  unfold blockRowEncoded
  repeat' first
    | with_reducible assumption
    | (extract_lets +onlyGivenNames y; refine Keeps.via (x := y) ?_ (fun _ => ?_); subst y; rotate_left; clear_value y)
    | (extract_lets +onlyGivenNames y; clear_value y)
    | with_reducible apply Keeps.ite
    | with_reducible apply modRt_keeps
    | with_reducible apply encodeRow_keeps
    | with_reducible apply bookEncode_keeps
    | with_reducible apply takeWaiting_keeps
    | (with_reducible refine Keeps.via ?_ id; split)
    | with_reducible apply_assumption

theorem readMap_keeps (h : Keeps p r s) (hh : Half) (a : Nat) (err : SymErr) (_ : p .cells := by assumption) (_ : p .memory := by assumption) (_ : p .waiting := by assumption) (_ : p (.regs .mi) := by assumption) (_ : p (.regs .dc) := by assumption) :
    Keeps p r (State.readMap s hh a err).2 := by
  unfold State.readMap
  repeat' first
    | with_reducible assumption
    | (extract_lets +onlyGivenNames y; refine Keeps.via (x := y) ?_ (fun _ => ?_); subst y; rotate_left; clear_value y)
    | (extract_lets +onlyGivenNames y; refine Keeps.via (x := y.2) ?_ (fun _ => ?_); subst y; rotate_left; clear_value y)
    | (extract_lets +onlyGivenNames y; refine Keeps.via (x := y.1) ?_ (fun _ => ?_); subst y; rotate_left; clear_value y)
    | (extract_lets +onlyGivenNames y; clear_value y)
    | with_reducible apply Keeps.ite
    | with_reducible apply fetchLine_keeps
    | with_reducible apply disturb_keeps
    | with_reducible apply demandOutcome_keeps
    | (with_reducible refine Keeps.via ?_ id; split)
    | with_reducible refine Keeps.ofSnd (by assumption) ?_
    | with_reducible refine Keeps.ofFst (by assumption) ?_

theorem sizeMapMerge_kept (h : Keeps p r s) (src : Fin 16) (err : SymErr) (_ : p .cells := by assumption) (_ : p .memory := by assumption) (_ : p .waiting := by assumption) (_ : p .schedule := by assumption) (_ : p (.regs .mi) := by assumption) (_ : p (.regs .dc) := by assumption) (_ : p (.regs .di) := by assumption) :
    Keeps p r (sizeMapMerge src err s) := by
  unfold sizeMapMerge
  repeat' first
    | with_reducible assumption
    | (extract_lets +onlyGivenNames y; refine Keeps.via (x := y) ?_ (fun _ => ?_); subst y; rotate_left; clear_value y)
    | (extract_lets +onlyGivenNames y; refine Keeps.via (x := y.2) ?_ (fun _ => ?_); subst y; rotate_left; clear_value y)
    | (extract_lets +onlyGivenNames y; refine Keeps.via (x := y.1) ?_ (fun _ => ?_); subst y; rotate_left; clear_value y)
    | (extract_lets +onlyGivenNames y; clear_value y)
    | with_reducible apply Keeps.ite
    | with_reducible apply modRt_keeps
    | with_reducible apply readMap_keeps
    | with_reducible apply writeMap_keeps
    | with_reducible apply firstEntries_keeps
    | (with_reducible refine Keeps.via ?_ id; split)
    | with_reducible apply_assumption

theorem takeWindowRead_keeps (h : Keeps p r s) (hh off lines : Nat) (_ : p .memory := by assumption) (_ : p .waiting := by assumption) (_ : p .schedule := by assumption) (_ : p .heads := by assumption) (_ : p .lamps := by assumption) (_ : p .outputs := by assumption) (_ : p .draws := by assumption) (_ : p (.regs .tw) := by assumption) (_ : p (.regs .mi) := by assumption) (_ : p (.regs .dc) := by assumption) (_ : p (.regs .di) := by assumption) (_ : p (.regs .hp) := by assumption) :
    Keeps p r (State.takeWindowRead s hh off lines) := by
  unfold State.takeWindowRead
  repeat' first
    | with_reducible assumption
    | (show p (.regs _); assumption)
    | (extract_lets +onlyGivenNames y; refine Keeps.via (x := y) ?_ (fun _ => ?_); subst y; rotate_left; clear_value y)
    | (extract_lets +onlyGivenNames y; clear_value y)
    | with_reducible apply Keeps.ite
    | with_reducible apply windowZero_keeps
    | with_reducible apply dropRange_keeps
    | with_reducible apply srcDropped_keeps
    | with_reducible apply bump_keeps
    | with_reducible apply dropNoSlot_keeps
    | with_reducible apply askWindow_keeps
    | with_reducible apply modHead_keeps
    | (with_reducible refine Keeps.via ?_ id; split)
    | exact Or.inr fun _ => rfl
    | exact Or.inl (by assumption)
    | exact Or.inr fun _ => by dsimp only; split <;> rfl
    | with_reducible apply_assumption

theorem pixelWindowRead_kept (h : Keeps p r s) (hh : Fin 4) (offset : BitVec 35) (lines : Nat) (_ : p .memory := by assumption) (_ : p .waiting := by assumption) (_ : p .schedule := by assumption) (_ : p .heads := by assumption) (_ : p .access := by assumption) (_ : p .lamps := by assumption) (_ : p .outputs := by assumption) (_ : p .draws := by assumption) (_ : p (.regs .tw) := by assumption) (_ : p (.regs .mi) := by assumption) (_ : p (.regs .dc) := by assumption) (_ : p (.regs .di) := by assumption) (_ : p (.regs .hp) := by assumption) :
    Keeps p r (pixelWindowRead hh offset lines s) := by
  unfold pixelWindowRead
  repeat' first
    | with_reducible assumption
    | with_reducible apply Keeps.ite
    | with_reducible apply modHead_keeps
    | with_reducible apply takeWindowRead_keeps
    | (with_reducible refine Keeps.via ?_ id; split)
    | exact Or.inr fun _ => rfl
    | exact Or.inl (by assumption)
    | exact Or.inr fun _ => by dsimp only; split <;> rfl
    | with_reducible refine Keeps.ofSnd (by assumption) ?_
    | with_reducible refine Keeps.ofFst (by assumption) ?_
    | with_reducible apply_assumption

theorem blockDecode_kept (h : Keeps p r s) (who : DecodeFor) (src : Fin 16) (slot block : Nat) (_ : p .memory := by assumption) (_ : p .waiting := by assumption) (_ : p .schedule := by assumption) (_ : p .heads := by assumption) (_ : p .lamps := by assumption) (_ : p .outputs := by assumption) (_ : p .draws := by assumption) (_ : p (.regs .tw) := by assumption) (_ : p (.regs .mi) := by assumption) (_ : p (.regs .dc) := by assumption) (_ : p (.regs .di) := by assumption) (_ : p (.regs .hp) := by assumption) :
    Keeps p r (blockDecode who src slot block s) := by
  unfold blockDecode
  repeat' first
    | with_reducible assumption
    | (extract_lets +onlyGivenNames y; refine Keeps.via (x := y) ?_ (fun _ => ?_); subst y; rotate_left; clear_value y)
    | (extract_lets +onlyGivenNames y; clear_value y)
    | with_reducible apply Keeps.ite
    | with_reducible apply modEng_keeps
    | with_reducible apply blockBad_keeps
    | with_reducible apply windowZero_keeps
    | with_reducible apply dropRange_keeps
    | with_reducible apply modHead_keeps
    | with_reducible apply askWindow_keeps
    | with_reducible apply finishWindow_keeps
    | (with_reducible refine Keeps.via ?_ id; split)
    | exact Or.inr fun _ => rfl
    | exact Or.inl (by assumption)
    | exact Or.inr fun _ => by dsimp only; split <;> rfl
    | with_reducible refine Keeps.ofSnd (by assumption) ?_
    | with_reducible refine Keeps.ofFst (by assumption) ?_
    | with_reducible apply_assumption

theorem slotCopyToArchive_kept (h : Keeps p r s) (hh : Fin 4) (src : Fin 16) (slot : BitVec 16) (_ : p .memory := by assumption) (_ : p .waiting := by assumption) (_ : p .schedule := by assumption) (_ : p .heads := by assumption) (_ : p .lamps := by assumption) (_ : p .outputs := by assumption) (_ : p .draws := by assumption) (_ : p (.regs .mi) := by assumption) (_ : p (.regs .dc) := by assumption) (_ : p (.regs .di) := by assumption) (_ : p (.regs .hp) := by assumption) :
    Keeps p r (slotCopyToArchive hh src slot s) := by
  unfold slotCopyToArchive
  repeat' first
    | with_reducible assumption
    | with_reducible apply Keeps.ite
    | with_reducible apply copyStart_keeps
    | (with_reducible refine Keeps.via ?_ id; split)

theorem slotCopyFromArchive_kept (h : Keeps p r s) (hh : Fin 4) (src : Fin 16) (_ : p .memory := by assumption) (_ : p .waiting := by assumption) (_ : p .schedule := by assumption) (_ : p .heads := by assumption) (_ : p .lamps := by assumption) (_ : p .outputs := by assumption) (_ : p .draws := by assumption) (_ : p (.regs .mi) := by assumption) (_ : p (.regs .dc) := by assumption) (_ : p (.regs .di) := by assumption) (_ : p (.regs .hp) := by assumption) :
    Keeps p r (slotCopyFromArchive hh src s) := by
  unfold slotCopyFromArchive
  repeat' first
    | with_reducible assumption
    | with_reducible apply Keeps.ite
    | with_reducible apply copyStart_keeps
    | (with_reducible refine Keeps.via ?_ id; split)

theorem slotCopyDone_kept (h : Keeps p r s) (hh : Fin 4) (_ : p .memory := by assumption) (_ : p .waiting := by assumption) (_ : p .schedule := by assumption) (_ : p .heads := by assumption) (_ : p .lamps := by assumption) (_ : p .outputs := by assumption) (_ : p .draws := by assumption) (_ : p (.regs .le) := by assumption) (_ : p (.regs .mi) := by assumption) (_ : p (.regs .dc) := by assumption) (_ : p (.regs .di) := by assumption) (_ : p (.regs .hp) := by assumption) :
    Keeps p r (slotCopyDone hh s) := by
  unfold slotCopyDone
  repeat' first
    | with_reducible assumption
    | (extract_lets +onlyGivenNames y; refine Keeps.via (x := y) ?_ (fun _ => ?_); subst y; rotate_left; clear_value y)
    | (extract_lets +onlyGivenNames y; clear_value y)
    | with_reducible apply Keeps.ite
    | with_reducible apply copyEnd_keeps
    | with_reducible apply askWake_keeps
    | with_reducible apply copyOn_keeps
    | with_reducible refine Keeps.foldl _ ?_ (fun _ _ _ => ?_)
    | (with_reducible refine Keeps.via ?_ id; split)
    | with_reducible apply_assumption

theorem memRd_kept (h : Keeps p r s) (hh : Fin 4) (hpa : Nat) (_ : p .memory := by assumption) (_ : p .waiting := by assumption) (_ : p .schedule := by assumption) (_ : p .heads := by assumption) (_ : p .lamps := by assumption) (_ : p .outputs := by assumption) (_ : p .draws := by assumption) (_ : p (.regs .am) := by assumption) (_ : p (.regs .mi) := by assumption) (_ : p (.regs .dc) := by assumption) (_ : p (.regs .di) := by assumption) (_ : p (.regs .hp) := by assumption) :
    Keeps p r (memRd hh hpa s) := by
  unfold memRd
  repeat' first
    | with_reducible assumption
    | with_reducible apply receive_keeps

theorem memRdData_kept (h : Keeps p r s) (hh : Fin 4) (hpa : Nat) (_ : p .memory := by assumption) (_ : p .waiting := by assumption) (_ : p .schedule := by assumption) (_ : p .heads := by assumption) (_ : p .lamps := by assumption) (_ : p .outputs := by assumption) (_ : p .draws := by assumption) (_ : p (.regs .am) := by assumption) (_ : p (.regs .mi) := by assumption) (_ : p (.regs .dc) := by assumption) (_ : p (.regs .di) := by assumption) (_ : p (.regs .hp) := by assumption) :
    Keeps p r (memRdData hh hpa s) := by
  unfold memRdData
  repeat' first
    | with_reducible assumption
    | with_reducible apply receive_keeps

theorem memSpecRd_kept (h : Keeps p r s) (u0 : Fin 4) (u1 : Nat) :
    Keeps p r (memSpecRd u0 u1 s) := by
  unfold memSpecRd
  repeat' first
    | with_reducible assumption

theorem memInv_kept (h : Keeps p r s) (hh : Fin 4) (hpa : Nat) (_ : p .memory := by assumption) (_ : p .waiting := by assumption) (_ : p .schedule := by assumption) (_ : p .heads := by assumption) (_ : p .lamps := by assumption) (_ : p .outputs := by assumption) (_ : p .draws := by assumption) (_ : p (.regs .am) := by assumption) (_ : p (.regs .mi) := by assumption) (_ : p (.regs .dc) := by assumption) (_ : p (.regs .di) := by assumption) (_ : p (.regs .hp) := by assumption) :
    Keeps p r (memInv hh hpa s) := by
  unfold memInv
  repeat' first
    | with_reducible assumption
    | with_reducible apply receive_keeps

theorem memInvNt_kept (h : Keeps p r s) (hh : Fin 4) (hpa : Nat) (_ : p .memory := by assumption) (_ : p .waiting := by assumption) (_ : p .schedule := by assumption) (_ : p .heads := by assumption) (_ : p .lamps := by assumption) (_ : p .outputs := by assumption) (_ : p .draws := by assumption) (_ : p (.regs .am) := by assumption) (_ : p (.regs .mi) := by assumption) (_ : p (.regs .dc) := by assumption) (_ : p (.regs .di) := by assumption) (_ : p (.regs .hp) := by assumption) :
    Keeps p r (memInvNt hh hpa s) := by
  unfold memInvNt
  repeat' first
    | with_reducible assumption
    | with_reducible apply receive_keeps

theorem memWr_kept (h : Keeps p r s) (hh : Fin 4) (hpa : Nat) (data : LineData) (poison : Bool) (_ : p .memory := by assumption) (_ : p .waiting := by assumption) (_ : p .schedule := by assumption) (_ : p .heads := by assumption) (_ : p .lamps := by assumption) (_ : p .outputs := by assumption) (_ : p .draws := by assumption) (_ : p (.regs .am) := by assumption) (_ : p (.regs .mi) := by assumption) (_ : p (.regs .dc) := by assumption) (_ : p (.regs .di) := by assumption) (_ : p (.regs .hp) := by assumption) :
    Keeps p r (memWr hh hpa data poison s) := by
  unfold memWr
  repeat' first
    | with_reducible assumption
    | with_reducible apply receive_keeps

theorem memWrPtl_kept (h : Keeps p r s) (hh : Fin 4) (hpa : Nat) (data : LineData) (enables : BitVec 64) (poison : Bool) (_ : p .memory := by assumption) (_ : p .waiting := by assumption) (_ : p .schedule := by assumption) (_ : p .heads := by assumption) (_ : p .lamps := by assumption) (_ : p .outputs := by assumption) (_ : p .draws := by assumption) (_ : p (.regs .am) := by assumption) (_ : p (.regs .mi) := by assumption) (_ : p (.regs .dc) := by assumption) (_ : p (.regs .di) := by assumption) (_ : p (.regs .hp) := by assumption) :
    Keeps p r (memWrPtl hh hpa data enables poison s) := by
  unfold memWrPtl
  repeat' first
    | with_reducible assumption
    | with_reducible apply receive_keeps

theorem fenceRead_kept (h : Keeps p r s) (hh : Fin 4) (_ : p .heads := by assumption) :
    Keeps p r (fenceRead hh s) := by
  unfold fenceRead
  repeat' first
    | with_reducible assumption
    | with_reducible apply Keeps.ite
    | with_reducible apply modHead_keeps
    | (with_reducible refine Keeps.via ?_ id; split)
    | exact Or.inr fun _ => rfl
    | exact Or.inl (by assumption)
    | exact Or.inr fun _ => by dsimp only; split <;> rfl
    | with_reducible apply_assumption

theorem fenceReadComplete_kept (h : Keeps p r s) (hh : Fin 4) (waited10ns : Nat) (_ : p .heads := by assumption) (_ : p .outputs := by assumption) (_ : p (.regs .am) := by assumption) :
    Keeps p r (fenceReadComplete hh waited10ns s) := by
  unfold fenceReadComplete
  repeat' first
    | with_reducible assumption
    | (show p (.regs _); assumption)
    | (extract_lets +onlyGivenNames y; refine Keeps.via (x := y) ?_ (fun _ => ?_); subst y; rotate_left; clear_value y)
    | (extract_lets +onlyGivenNames y; clear_value y)
    | with_reducible apply Keeps.ite
    | with_reducible apply peak_keeps
    | with_reducible apply wrap_keeps
    | with_reducible apply modHead_keeps
    | with_reducible apply emit_keeps
    | (with_reducible refine Keeps.via ?_ id; split)
    | exact Or.inr fun _ => rfl
    | exact Or.inl (by assumption)
    | exact Or.inr fun _ => by dsimp only; split <;> rfl
    | with_reducible apply_assumption

theorem mailbox_keeps (h : Keeps p r s) (hh : Nat) (act : State → State) (hf : ∀ s, Keeps p r s → Keeps p r (act s)) :
    Keeps p r (State.mailbox s hh act) := by
  unfold State.mailbox
  repeat' first
    | with_reducible assumption
    | with_reducible apply Keeps.ite
    | (with_reducible refine Keeps.via ?_ id; split)
    | with_reducible apply_assumption

theorem getEventRecords_kept (h : Keeps p r s) (hh : Fin 4) (log : Fin 4) (_ : p .heads := by assumption) (_ : p .outputs := by assumption) :
    Keeps p r (getEventRecords hh log s) := by
  unfold getEventRecords
  repeat' first
    | with_reducible assumption
    | (extract_lets +onlyGivenNames y; refine Keeps.via (x := y) ?_ (fun _ => ?_); subst y; rotate_left; clear_value y)
    | (extract_lets +onlyGivenNames y; clear_value y)
    | with_reducible apply mailbox_keeps
    | with_reducible apply complete_keeps
    | with_reducible refine fun _ _ => ?_
    | with_reducible apply_assumption

theorem clearEventRecords_kept (h : Keeps p r s) (hh : Fin 4) (log : Fin 4) (count : Nat) (_ : p .heads := by assumption) (_ : p .outputs := by assumption) (_ : p (.regs .hp) := by assumption) :
    Keeps p r (clearEventRecords hh log count s) := by
  unfold clearEventRecords
  repeat' first
    | with_reducible assumption
    | (show p (.regs _); assumption)
    | (extract_lets +onlyGivenNames y; refine Keeps.via (x := y) ?_ (fun _ => ?_); subst y; rotate_left; clear_value y)
    | (extract_lets +onlyGivenNames y; clear_value y)
    | with_reducible apply Keeps.ite
    | with_reducible apply mailbox_keeps
    | with_reducible apply complete_keeps
    | with_reducible apply modHead_keeps
    | with_reducible apply wr_keeps
    | (with_reducible refine Keeps.via ?_ id; split)
    | exact Or.inr fun _ => rfl
    | exact Or.inl (by assumption)
    | exact Or.inr fun _ => by dsimp only; split <;> rfl
    | with_reducible refine fun _ _ => ?_
    | with_reducible apply_assumption

theorem getTimestamp_kept (h : Keeps p r s) (hh : Fin 4) (_ : p .heads := by assumption) (_ : p .outputs := by assumption) :
    Keeps p r (getTimestamp hh s) := by
  unfold getTimestamp
  repeat' first
    | with_reducible assumption
    | with_reducible apply mailbox_keeps
    | with_reducible apply complete_keeps
    | with_reducible refine fun _ _ => ?_
    | with_reducible apply_assumption

theorem setTimestamp_kept (h : Keeps p r s) (hh : Fin 4) (v : BitVec 64) (_ : p .heads := by assumption) (_ : p .outputs := by assumption) :
    Keeps p r (setTimestamp hh v s) := by
  unfold setTimestamp
  repeat' first
    | with_reducible assumption
    | with_reducible apply mailbox_keeps
    | with_reducible apply complete_keeps
    | with_reducible apply modHead_keeps
    | exact Or.inr fun _ => rfl
    | exact Or.inl (by assumption)
    | exact Or.inr fun _ => by dsimp only; split <;> rfl
    | with_reducible refine fun _ _ => ?_
    | with_reducible apply_assumption

theorem getSupportedLogs_kept (h : Keeps p r s) (hh : Fin 4) (_ : p .heads := by assumption) (_ : p .outputs := by assumption) :
    Keeps p r (getSupportedLogs hh s) := by
  unfold getSupportedLogs
  repeat' first
    | with_reducible assumption
    | with_reducible apply mailbox_keeps
    | with_reducible apply complete_keeps
    | with_reducible refine fun _ _ => ?_
    | with_reducible apply_assumption

theorem getLog_kept (h : Keeps p r s) (hh : Fin 4) (_ : p .heads := by assumption) (_ : p .outputs := by assumption) :
    Keeps p r (getLog hh s) := by
  unfold getLog
  repeat' first
    | with_reducible assumption
    | with_reducible apply mailbox_keeps
    | with_reducible apply complete_keeps
    | with_reducible refine fun _ _ => ?_
    | with_reducible apply_assumption

theorem identifyMemoryDevice_kept (h : Keeps p r s) (hh : Fin 4) (_ : p .heads := by assumption) (_ : p .outputs := by assumption) (_ : p .draws := by assumption) :
    Keeps p r (identifyMemoryDevice hh s) := by
  unfold identifyMemoryDevice
  repeat' first
    | with_reducible assumption
    | (extract_lets +onlyGivenNames y; refine Keeps.via (x := y) ?_ (fun _ => ?_); subst y; rotate_left; clear_value y)
    | (extract_lets +onlyGivenNames y; clear_value y)
    | with_reducible apply mailbox_keeps
    | with_reducible apply complete_keeps
    | with_reducible apply free_keeps
    | (rename Keeps p r _ => hk; exact Keeps.of_eq hk rfl le_rfl le_rfl List.prefix_rfl rfl rfl rfl rfl rfl rfl rfl rfl
        fun x hx => by cases x <;> first | rfl | exact Part.Same.regs rfl | exact absurd (by assumption) hx)
    | with_reducible refine fun _ _ => ?_
    | with_reducible apply_assumption

theorem getPoisonList_kept (h : Keeps p r s) (hh : Fin 4) (dpa length : Nat) (_ : p .heads := by assumption) (_ : p .outputs := by assumption) :
    Keeps p r (getPoisonList hh dpa length s) := by
  unfold getPoisonList
  repeat' first
    | with_reducible assumption
    | (extract_lets +onlyGivenNames y; refine Keeps.via (x := y) ?_ (fun _ => ?_); subst y; rotate_left; clear_value y)
    | (extract_lets +onlyGivenNames y; refine Keeps.via (x := y.2) ?_ (fun _ => ?_); subst y; rotate_left; clear_value y)
    | (extract_lets +onlyGivenNames y; refine Keeps.via (x := y.1) ?_ (fun _ => ?_); subst y; rotate_left; clear_value y)
    | (extract_lets +onlyGivenNames y; clear_value y)
    | with_reducible apply Keeps.ite
    | with_reducible apply mailbox_keeps
    | with_reducible apply complete_keeps
    | with_reducible apply modHead_keeps
    | (with_reducible refine Keeps.via ?_ id; split)
    | exact Or.inr fun _ => rfl
    | exact Or.inl (by assumption)
    | exact Or.inr fun _ => by dsimp only; split <;> rfl
    | with_reducible refine fun _ _ => ?_
    | with_reducible apply_assumption

theorem getHeadSummary_kept (h : Keeps p r s) (hh : Fin 4) (_ : p .heads := by assumption) (_ : p .outputs := by assumption) (_ : p (.regs .le) := by assumption) :
    Keeps p r (getHeadSummary hh s) := by
  unfold getHeadSummary
  repeat' first
    | with_reducible assumption
    | with_reducible apply mailbox_keeps
    | with_reducible apply complete_keeps
    | with_reducible refine fun _ _ => ?_
    | with_reducible apply_assumption

theorem getRingStatus_kept (h : Keeps p r s) (hh : Fin 4) (first count : Nat) (_ : p .heads := by assumption) (_ : p .outputs := by assumption) :
    Keeps p r (getRingStatus hh first count s) := by
  unfold getRingStatus
  repeat' first
    | with_reducible assumption
    | (extract_lets +onlyGivenNames y; refine Keeps.via (x := y) ?_ (fun _ => ?_); subst y; rotate_left; clear_value y)
    | (extract_lets +onlyGivenNames y; clear_value y)
    | with_reducible apply Keeps.ite
    | with_reducible apply mailbox_keeps
    | with_reducible apply complete_keeps
    | (with_reducible refine Keeps.via ?_ id; split)
    | with_reducible refine fun _ _ => ?_
    | with_reducible apply_assumption

theorem getAdmissionResult_kept (h : Keeps p r s) (hh : Fin 4) (_ : p .heads := by assumption) (_ : p .outputs := by assumption) (_ : p (.regs .le) := by assumption) :
    Keeps p r (getAdmissionResult hh s) := by
  unfold getAdmissionResult
  repeat' first
    | with_reducible assumption
    | with_reducible apply mailbox_keeps
    | with_reducible apply complete_keeps
    | with_reducible refine fun _ _ => ?_
    | with_reducible apply_assumption

theorem readSelvedgeLog_kept (h : Keeps p r s) (hh : Fin 4) (first count : Nat) (_ : p .heads := by assumption) (_ : p .outputs := by assumption) :
    Keeps p r (readSelvedgeLog hh first count s) := by
  unfold readSelvedgeLog
  repeat' first
    | with_reducible assumption
    | (extract_lets +onlyGivenNames y; refine Keeps.via (x := y) ?_ (fun _ => ?_); subst y; rotate_left; clear_value y)
    | (extract_lets +onlyGivenNames y; clear_value y)
    | with_reducible apply Keeps.ite
    | with_reducible apply mailbox_keeps
    | with_reducible apply complete_keeps
    | (with_reducible refine Keeps.via ?_ id; split)
    | with_reducible refine fun _ _ => ?_
    | with_reducible apply_assumption

theorem roleChallenge_kept (h : Keeps p r s) (hh : Fin 4) (role : Nat) (_ : p .roles := by assumption) (_ : p .waiting := by assumption) (_ : p .heads := by assumption) (_ : p .outputs := by assumption) (_ : p .draws := by assumption) :
    Keeps p r (roleChallenge hh role s) := by
  unfold roleChallenge
  repeat' first
    | with_reducible assumption
    | with_reducible apply mailbox_keeps
    | with_reducible apply challenge_keeps
    | with_reducible apply complete_keeps
    | (with_reducible refine Keeps.via ?_ id; split)
    | with_reducible refine fun _ _ => ?_
    | with_reducible refine Keeps.ofSnd (by assumption) ?_
    | with_reducible refine Keeps.ofFst (by assumption) ?_
    | with_reducible apply_assumption

theorem roleResponse_kept (h : Keeps p r s) (hh : Fin 4) (resp : BitVec 256) (_ : p .roles := by assumption) (_ : p .audit := by assumption) (_ : p .waiting := by assumption) (_ : p .heads := by assumption) (_ : p .outputs := by assumption) (_ : p (.regs .mg) := by assumption) :
    Keeps p r (roleResponse hh resp s) := by
  unfold roleResponse
  repeat' first
    | with_reducible assumption
    | with_reducible apply Keeps.ite
    | with_reducible apply mailbox_keeps
    | with_reducible apply complete_keeps
    | with_reducible apply roleFull_keeps
    | with_reducible apply respond_keeps
    | (with_reducible refine Keeps.via ?_ id; split)
    | with_reducible refine fun _ _ => ?_
    | with_reducible refine Keeps.ofSnd (by assumption) ?_
    | with_reducible refine Keeps.ofFst (by assumption) ?_
    | with_reducible apply_assumption

theorem dropRole_kept (h : Keeps p r s) (hh : Fin 4) (_ : p .roles := by assumption) (_ : p .audit := by assumption) (_ : p .heads := by assumption) (_ : p .outputs := by assumption) (_ : p (.regs .mg) := by assumption) :
    Keeps p r (dropRole hh s) := by
  unfold dropRole
  repeat' first
    | with_reducible assumption
    | with_reducible apply Keeps.ite
    | with_reducible apply mailbox_keeps
    | with_reducible apply complete_keeps
    | with_reducible apply roleFull_keeps
    | with_reducible apply dropRole_keeps
    | (with_reducible refine Keeps.via ?_ id; split)
    | with_reducible refine fun _ _ => ?_
    | with_reducible apply_assumption

theorem unsupportedOpcode_kept (h : Keeps p r s) (hh : Fin 4) (opcode : BitVec 16) (_ : p .heads := by assumption) (_ : p .outputs := by assumption) :
    Keeps p r (unsupportedOpcode hh opcode s) := by
  unfold unsupportedOpcode
  repeat' first
    | with_reducible assumption
    | with_reducible apply Keeps.ite
    | with_reducible apply mailbox_keeps
    | with_reducible apply complete_keeps
    | (with_reducible refine Keeps.via ?_ id; split)
    | with_reducible refine fun _ _ => ?_
    | with_reducible apply_assumption

theorem linkTraining_kept (h : Keeps p r s) (hh : Fin 4) (_ : p .memory := by assumption) (_ : p .heads := by assumption) (_ : p .lamps := by assumption) (_ : p (.regs .le) := by assumption) (_ : p (.regs .dc) := by assumption) :
    Keeps p r (linkTraining hh s) := by
  unfold linkTraining
  repeat' first
    | with_reducible assumption
    | with_reducible apply Keeps.ite
    | with_reducible apply askWake_keeps
    | with_reducible apply modHead_keeps
    | (with_reducible refine Keeps.via ?_ id; split)
    | exact Or.inr fun _ => rfl
    | exact Or.inl (by assumption)
    | exact Or.inr fun _ => by dsimp only; split <;> rfl
    | with_reducible refine Keeps.ofSnd (by assumption) ?_
    | with_reducible refine Keeps.ofFst (by assumption) ?_
    | with_reducible apply_assumption

theorem sendPending_keeps (h : Keeps p r s) (hh : Nat) (v : Fin 4) (_ : p .heads := by assumption) (_ : p .outputs := by assumption) :
    Keeps p r (State.sendPending s hh v) := by
  unfold State.sendPending
  repeat' first
    | with_reducible assumption
    | (extract_lets +onlyGivenNames y; refine Keeps.via (x := y) ?_ (fun _ => ?_); subst y; rotate_left; clear_value y)
    | (extract_lets +onlyGivenNames y; clear_value y)
    | with_reducible apply Keeps.ite
    | with_reducible apply msix_keeps
    | with_reducible apply modHead_keeps
    | (with_reducible refine Keeps.via ?_ id; split)
    | exact Or.inr fun _ => rfl
    | exact Or.inl (by assumption)
    | exact Or.inr fun _ => by dsimp only; split <;> rfl
    | with_reducible apply_assumption

theorem linkUp_kept (h : Keeps p r s) (hh : Fin 4) (rate width : Fin 3) (flit68 : Bool) (_ : p .memory := by assumption) (_ : p .waiting := by assumption) (_ : p .schedule := by assumption) (_ : p .heads := by assumption) (_ : p .lamps := by assumption) (_ : p .outputs := by assumption) (_ : p .draws := by assumption) (_ : p (.regs .am) := by assumption) (_ : p (.regs .mi) := by assumption) (_ : p (.regs .dc) := by assumption) (_ : p (.regs .di) := by assumption) (_ : p (.regs .hp) := by assumption) :
    Keeps p r (linkUp hh rate width flit68 s) := by
  unfold linkUp
  repeat' first
    | with_reducible assumption
    | (show p (.regs _); assumption)
    | (extract_lets +onlyGivenNames y; refine Keeps.via (x := y) ?_ (fun _ => ?_); subst y; rotate_left; clear_value y)
    | (extract_lets +onlyGivenNames y; clear_value y)
    | with_reducible apply Keeps.ite
    | with_reducible apply modHead_keeps
    | with_reducible apply wr_keeps
    | with_reducible apply flag_keeps
    | with_reducible apply serveHeld_keeps
    | with_reducible apply sendPending_keeps
    | with_reducible apply sendReady_keeps
    | with_reducible refine Keeps.foldl _ ?_ (fun _ _ _ => ?_)
    | (with_reducible refine Keeps.via ?_ id; split)
    | exact Or.inr fun _ => rfl
    | exact Or.inl (by assumption)
    | exact Or.inr fun _ => by dsimp only; split <;> rfl
    | with_reducible refine Keeps.ofSnd (by assumption) ?_
    | with_reducible refine Keeps.ofFst (by assumption) ?_
    | with_reducible apply_assumption

theorem linkRecovery_kept (h : Keeps p r s) (hh : Fin 4) (ras : Option (BitVec 30)) (_ : p .waiting := by assumption) (_ : p .heads := by assumption) (_ : p (.regs .hp) := by assumption) :
    Keeps p r (linkRecovery hh ras s) := by
  unfold linkRecovery
  repeat' first
    | with_reducible assumption
    | (show p (.regs _); assumption)
    | (extract_lets +onlyGivenNames y; refine Keeps.via (x := y) ?_ (fun _ => ?_); subst y; rotate_left; clear_value y)
    | (extract_lets +onlyGivenNames y; clear_value y)
    | with_reducible apply Keeps.ite
    | with_reducible apply wr_keeps
    | with_reducible apply raise_keeps
    | with_reducible apply modHead_keeps
    | (with_reducible refine Keeps.via ?_ id; split)
    | exact Or.inr fun _ => rfl
    | exact Or.inl (by assumption)
    | exact Or.inr fun _ => by dsimp only; split <;> rfl
    | with_reducible apply_assumption

theorem linkDown_kept (h : Keeps p r s) (hh : Fin 4) (partialWrites partialLines : Nat) (_ : p .roles := by assumption) (_ : p .audit := by assumption) (_ : p .waiting := by assumption) (_ : p .schedule := by assumption) (_ : p .heads := by assumption) (_ : p .access := by assumption) (_ : p .lamps := by assumption) (_ : p .outputs := by assumption) (_ : p (.regs .mg) := by assumption) (_ : p (.regs .le) := by assumption) (_ : p (.regs .hp) := by assumption) :
    Keeps p r (linkDown hh partialWrites partialLines s) := by
  unfold linkDown
  repeat' first
    | with_reducible assumption
    | with_reducible apply downHead_keeps

theorem perstAssert_kept (h : Keeps p r s) (hh : Fin 4) (partialWrites partialLines : Nat) (_ : p .memory := by assumption) (_ : p .roles := by assumption) (_ : p .audit := by assumption) (_ : p .waiting := by assumption) (_ : p .schedule := by assumption) (_ : p .heads := by assumption) (_ : p .access := by assumption) (_ : p .lamps := by assumption) (_ : p .outputs := by assumption) (_ : p (.regs .mg) := by assumption) (_ : p (.regs .le) := by assumption) (_ : p (.regs .hp) := by assumption) :
    Keeps p r (perstAssert hh partialWrites partialLines s) := by
  unfold perstAssert
  repeat' first
    | with_reducible assumption
    | with_reducible apply modMh_keeps
    | with_reducible apply modHead_keeps
    | with_reducible apply downHead_keeps
    | exact Or.inr fun _ => rfl
    | exact Or.inl (by assumption)
    | exact Or.inr fun _ => by dsimp only; split <;> rfl
    | with_reducible apply_assumption

theorem busMasterEnableClear_kept (h : Keeps p r s) (hh : Fin 4) (_ : p .waiting := by assumption) (_ : p .heads := by assumption) (_ : p .lamps := by assumption) (_ : p .outputs := by assumption) (_ : p (.regs .le) := by assumption) :
    Keeps p r (busMasterEnableClear hh s) := by
  unfold busMasterEnableClear
  repeat' first
    | with_reducible assumption
    | with_reducible apply Keeps.ite
    | with_reducible apply disarmHead_keeps
    | with_reducible apply modHead_keeps
    | (with_reducible refine Keeps.via ?_ id; split)
    | exact Or.inr fun _ => rfl
    | exact Or.inl (by assumption)
    | exact Or.inr fun _ => by dsimp only; split <;> rfl
    | with_reducible apply_assumption

theorem busMasterEnableSet_kept (h : Keeps p r s) (hh : Fin 4) (_ : p .heads := by assumption) :
    Keeps p r (busMasterEnableSet hh s) := by
  unfold busMasterEnableSet
  repeat' first
    | with_reducible assumption
    | with_reducible apply Keeps.ite
    | with_reducible apply modHead_keeps
    | (with_reducible refine Keeps.via ?_ id; split)
    | exact Or.inr fun _ => rfl
    | exact Or.inl (by assumption)
    | exact Or.inr fun _ => by dsimp only; split <;> rfl
    | with_reducible apply_assumption

theorem hdmDecoderCommit_kept (h : Keeps p r s) (hh : Fin 4) (d : Fin 4) (prog : HdmProg) (_ : p .heads := by assumption) (_ : p (.regs .hp) := by assumption) :
    Keeps p r (hdmDecoderCommit hh d prog s) := by
  unfold hdmDecoderCommit
  repeat' first
    | with_reducible assumption
    | (show p (.regs _); assumption)
    | (extract_lets +onlyGivenNames y; refine Keeps.via (x := y) ?_ (fun _ => ?_); subst y; rotate_left; clear_value y)
    | (extract_lets +onlyGivenNames y; clear_value y)
    | with_reducible apply Keeps.ite
    | with_reducible apply modHead_keeps
    | with_reducible apply wr_keeps
    | (with_reducible refine Keeps.via ?_ id; split)
    | exact Or.inr fun _ => rfl
    | exact Or.inl (by assumption)
    | exact Or.inr fun _ => by dsimp only; split <;> rfl
    | with_reducible apply_assumption

theorem refreshUse_keeps (h : Keeps p r s) (hh : Half) (_ : p .thermal := by assumption) (_ : p (.regs .th) := by assumption) :
    Keeps p r (State.refreshUse s hh) := by
  unfold State.refreshUse
  repeat' first
    | with_reducible assumption
    | (show p (.regs _); assumption)
    | (extract_lets +onlyGivenNames y; refine Keeps.via (x := y) ?_ (fun _ => ?_); subst y; rotate_left; clear_value y)
    | (extract_lets +onlyGivenNames y; clear_value y)
    | with_reducible apply modTh_keeps
    | with_reducible apply wrS_keeps
    | with_reducible apply_assumption

theorem storeReading_keeps (h : Keeps p r s) (hh : Half) (rr : List Int) (i : Nat) (_ : p .waiting := by assumption) (_ : p (.regs .th) := by assumption) :
    Keeps p r (State.storeReading s hh rr i) := by
  unfold State.storeReading
  repeat' first
    | with_reducible assumption
    | (show p (.regs _); assumption)
    | (extract_lets +onlyGivenNames y; refine Keeps.via (x := y) ?_ (fun _ => ?_); subst y; rotate_left; clear_value y)
    | (extract_lets +onlyGivenNames y; clear_value y)
    | with_reducible apply Keeps.ite
    | with_reducible apply flag_keeps
    | with_reducible apply wrS_keeps
    | with_reducible apply raise_keeps
    | (with_reducible refine Keeps.via ?_ id; split)

theorem checkLoss_keeps (h : Keeps p r s) (hh : Half) (_ : p .waiting := by assumption) (_ : p .thermal := by assumption) (_ : p (.regs .th) := by assumption) :
    Keeps p r (State.checkLoss s hh) := by
  unfold State.checkLoss
  repeat' first
    | with_reducible assumption
    | (show p (.regs _); rename Half => hh'; cases hh' <;> assumption)
    | (show p (.regs _); assumption)
    | (extract_lets +onlyGivenNames y; refine Keeps.via (x := y) ?_ (fun _ => ?_); subst y; rotate_left; clear_value y)
    | (extract_lets +onlyGivenNames y; clear_value y)
    | with_reducible apply Keeps.ite
    | with_reducible apply modTh_keeps
    | with_reducible apply raise_keeps
    | with_reducible apply wr_keeps
    | (with_reducible refine Keeps.via ?_ id; split)
    | with_reducible apply_assumption

theorem checkTrip_keeps (h : Keeps p r s) (hh : Half) (rr : List Int) (_ : p .cells := by assumption) (_ : p .memory := by assumption) (_ : p .store := by assumption) (_ : p .waiting := by assumption) (_ : p .timebase := by assumption) (_ : p .schedule := by assumption) (_ : p .heads := by assumption) (_ : p .lamps := by assumption) (_ : p .thermal := by assumption) (_ : p .welt := by assumption) (_ : p .power := by assumption) (_ : p .outputs := by assumption) (_ : p .draws := by assumption) (_ : p (.regs .ps) := by assumption) (_ : p (.regs .le) := by assumption) (_ : p (.regs .mi) := by assumption) (_ : p (.regs .dc) := by assumption) (_ : p (.regs .di) := by assumption) (_ : p (.regs .hp) := by assumption) :
    Keeps p r (State.checkTrip s hh rr) := by
  unfold State.checkTrip
  repeat' first
    | with_reducible assumption
    | (extract_lets +onlyGivenNames y; refine Keeps.via (x := y) ?_ (fun _ => ?_); subst y; rotate_left; clear_value y)
    | (extract_lets +onlyGivenNames y; clear_value y)
    | with_reducible apply Keeps.ite
    | with_reducible apply modTh_keeps
    | with_reducible apply raise_keeps
    | with_reducible apply enterFatal_keeps
    | with_reducible refine Keeps.foldl _ ?_ (fun _ _ _ => ?_)
    | (with_reducible refine Keeps.via ?_ id; split)
    | with_reducible apply_assumption

theorem sensorRead_kept (h : Keeps p r s) (hh : Half) (rr : List Int) (_ : p .cells := by assumption) (_ : p .memory := by assumption) (_ : p .store := by assumption) (_ : p .waiting := by assumption) (_ : p .timebase := by assumption) (_ : p .schedule := by assumption) (_ : p .heads := by assumption) (_ : p .lamps := by assumption) (_ : p .thermal := by assumption) (_ : p .welt := by assumption) (_ : p .power := by assumption) (_ : p .outputs := by assumption) (_ : p .draws := by assumption) (_ : p (.regs .ps) := by assumption) (_ : p (.regs .th) := by assumption) (_ : p (.regs .le) := by assumption) (_ : p (.regs .mi) := by assumption) (_ : p (.regs .dc) := by assumption) (_ : p (.regs .di) := by assumption) (_ : p (.regs .hp) := by assumption) :
    Keeps p r (sensorRead hh rr s) := by
  unfold sensorRead
  repeat' first
    | with_reducible assumption
    | (extract_lets +onlyGivenNames y; refine Keeps.via (x := y) ?_ (fun _ => ?_); subst y; rotate_left; clear_value y)
    | (extract_lets +onlyGivenNames y; clear_value y)
    | with_reducible apply storeReading_keeps
    | with_reducible apply modTh_keeps
    | with_reducible apply checkTrip_keeps
    | with_reducible apply refreshUse_keeps
    | with_reducible apply checkLoss_keeps
    | with_reducible refine Keeps.foldl _ ?_ (fun _ _ _ => ?_)
    | with_reducible apply_assumption

theorem modelUpdate_kept (h : Keeps p r s) (hh : Half) (busy : Nat) (samples : List (BitVec 12)) (_ : p .thermal := by assumption) (_ : p .power := by assumption) (_ : p .draws := by assumption) (_ : p (.regs .th) := by assumption) :
    Keeps p r (modelUpdate hh busy samples s) := by
  unfold modelUpdate
  repeat' first
    | with_reducible assumption
    | (show p (.regs _); rename Half => hh'; cases hh' <;> assumption)
    | (show p (.regs _); assumption)
    | (extract_lets +onlyGivenNames y; refine Keeps.via (x := y) ?_ (fun _ => ?_); subst y; rotate_left; clear_value y)
    | (extract_lets +onlyGivenNames y; clear_value y)
    | with_reducible apply Keeps.ite
    | with_reducible apply adcRun_keeps
    | with_reducible apply modTh_keeps
    | with_reducible apply wrS_keeps
    | with_reducible apply wr_keeps
    | with_reducible apply refreshUse_keeps
    | with_reducible refine Keeps.foldl _ ?_ (fun _ _ _ => ?_)
    | with_reducible apply free_keeps
    | (with_reducible refine Keeps.via ?_ id; split)
    | (rename Keeps p r _ => hk; exact Keeps.of_eq hk rfl le_rfl le_rfl List.prefix_rfl rfl rfl rfl rfl rfl rfl rfl rfl
        fun x hx => by cases x <;> first | rfl | exact Part.Same.regs rfl | exact absurd (by assumption) hx)
    | with_reducible apply_assumption

theorem warmingEnd_kept (h : Keeps p r s) (hh : Half) (_ : p .thermal := by assumption) (_ : p (.regs .th) := by assumption) :
    Keeps p r (warmingEnd hh s) := by
  unfold warmingEnd
  repeat' first
    | with_reducible assumption
    | (show p (.regs _); rename Half => hh'; cases hh' <;> assumption)
    | (show p (.regs _); assumption)
    | (extract_lets +onlyGivenNames y; refine Keeps.via (x := y) ?_ (fun _ => ?_); subst y; rotate_left; clear_value y)
    | (extract_lets +onlyGivenNames y; clear_value y)
    | with_reducible apply Keeps.ite
    | with_reducible apply modTh_keeps
    | with_reducible apply refreshUse_keeps
    | with_reducible apply wr_keeps
    | (with_reducible refine Keeps.via ?_ id; split)
    | with_reducible apply_assumption

theorem setStep_keeps (h : Keeps p r s) (hh : Half) (n : Nat) (since : Option Nat) (held : Nat) (_ : p .thermal := by assumption) (_ : p (.regs .th) := by assumption) :
    Keeps p r (State.setStep s hh n since held) := by
  unfold State.setStep
  repeat' first
    | with_reducible assumption
    | (show p (.regs _); assumption)
    | (extract_lets +onlyGivenNames y; refine Keeps.via (x := y) ?_ (fun _ => ?_); subst y; rotate_left; clear_value y)
    | (extract_lets +onlyGivenNames y; refine Keeps.viaFun (x := y) (fun _ => ?_) (fun _ => ?_); subst y; rotate_left; clear_value y)
    | (extract_lets +onlyGivenNames y; clear_value y)
    | with_reducible apply Keeps.ite
    | with_reducible apply modTh_keeps
    | with_reducible apply wr_keeps
    | (with_reducible refine Keeps.via ?_ id; split)
    | with_reducible apply_assumption

theorem stepEvaluation_kept (h : Keeps p r s) (hh : Half) (_ : p .memory := by assumption) (_ : p .waiting := by assumption) (_ : p .thermal := by assumption) (_ : p (.regs .th) := by assumption) (_ : p (.regs .dc) := by assumption) :
    Keeps p r (stepEvaluation hh s) := by
  unfold stepEvaluation
  repeat' first
    | with_reducible assumption
    | (show p (.regs _); assumption)
    | (extract_lets +onlyGivenNames y; refine Keeps.via (x := y) ?_ (fun _ => ?_); subst y; rotate_left; clear_value y)
    | (extract_lets +onlyGivenNames y; clear_value y)
    | with_reducible apply Keeps.ite
    | with_reducible apply bump_keeps
    | with_reducible apply setStep_keeps
    | with_reducible apply raise_keeps
    | with_reducible apply stepChanged_keeps
    | (with_reducible refine Keeps.via ?_ id; split)
    | with_reducible refine Keeps.ofSnd (by assumption) ?_
    | with_reducible refine Keeps.ofFst (by assumption) ?_

end Sys2Proof.Machine
end

