-- ==== Sys2Proof/Laws/KeepsStart.lean ====
section
/-! SUPPORT. What every function keeps (Sys2Proof/Laws/Keeps.lean), carried through the register bus, windows and SPI frames, and the start of the device. -/
set_option Elab.async false
set_option linter.unusedTactic false
set_option linter.unreachableTactic false
set_option linter.unusedVariables false
namespace Sys2Proof.Machine

variable {p : Part → Prop} {r s : State}

theorem adcCfg_keeps (h : Keeps p r s) (c : Nat) (old : Word) (_ : p .power := by assumption) :
    Keeps p r (State.adcCfg s c old) := by
  unfold State.adcCfg
  repeat' first
    | with_reducible assumption
    | (extract_lets +onlyGivenNames y; refine Keeps.via (x := y) ?_ (fun _ => ?_); subst y; rotate_left; clear_value y)
    | (extract_lets +onlyGivenNames y; refine Keeps.viaFun (x := y) (fun _ => ?_) (fun _ => ?_); subst y; rotate_left; clear_value y)
    | (extract_lets +onlyGivenNames y; clear_value y)
    | with_reducible apply Keeps.ite
    | with_reducible apply modPwr_keeps
    | (with_reducible refine Keeps.via ?_ id; split)
    | with_reducible apply_assumption

theorem blockEffect_keeps (h : Keeps p r s) (pp : Path) (a v : Nat) (old : Word) (_ : p .memory := by assumption) (_ : p .audit := by assumption) (_ : p .store := by assumption) (_ : p .waiting := by assumption) (_ : p .heads := by assumption) (_ : p .lamps := by assumption) (_ : p .clocks := by assumption) (_ : p .power := by assumption) (_ : p (.regs .mg) := by assumption) (_ : p (.regs .fc) := by assumption) (_ : p (.regs .ck) := by assumption) (_ : p (.regs .fs) := by assumption) (_ : p (.regs .le) := by assumption) (_ : p (.regs .dc) := by assumption) (_ : p (.regs .di) := by assumption) : Keeps p r ((blockEffect pp a v old).2 s) := by
  unfold blockEffect
  repeat' split
  · exact stickyWrite_keeps h _ _ _
  · exact forceWrite_keeps h _ _ _
  · exact adcCfg_keeps h _ _
  · exact auxWrite_keeps h _ _ _
  · exact wr_keeps h _ _
  · exact leCtrl_keeps h _ _
  · exact dcCfgWrite_keeps h _ _
  · exact diCtrlWrite_keeps h _ _
  · exact fcFix_keeps h _

theorem writeEffect_keeps (h : Keeps p r s) (pp : Path) (a v : Nat) (old : Word) (_ : p .memory := by assumption) (_ : p .flash := by assumption) (_ : p .roles := by assumption) (_ : p .audit := by assumption) (_ : p .manage := by assumption) (_ : p .store := by assumption) (_ : p .waiting := by assumption) (_ : p .clock := by assumption) (_ : p .timebase := by assumption) (_ : p .schedule := by assumption) (_ : p .lasts := by assumption) (_ : p .heads := by assumption) (_ : p .lamps := by assumption) (_ : p .clocks := by assumption) (_ : p .welt := by assumption) (_ : p .power := by assumption) (_ : p .draws := by assumption) (_ : p (.regs .mg) := by assumption) (_ : p (.regs .fc) := by assumption) (_ : p (.regs .ps) := by assumption) (_ : p (.regs .th) := by assumption) (_ : p (.regs .ck) := by assumption) (_ : p (.regs .tb) := by assumption) (_ : p (.regs .fs) := by assumption) (_ : p (.regs .le) := by assumption) (_ : p (.regs .tw) := by assumption) (_ : p (.regs .am) := by assumption) (_ : p (.regs .mi) := by assumption) (_ : p (.regs .dc) := by assumption) (_ : p (.regs .di) := by assumption) (_ : p (.regs .hp) := by assumption) (_ : p (.regs .wl) := by assumption) (_ : (∀ b, p (.regs b)) := by assumption) : Keeps p r ((writeEffect pp a v old).2 s) := by
  unfold writeEffect
  repeat' first
    | with_reducible assumption
    | with_reducible apply Keeps.iteAct
    | with_reducible apply Keeps.ite
    | with_reducible exact blockEffect_keeps h pp a v old
    | with_reducible apply warmReset_keeps
    | with_reducible apply audit_keeps
    | with_reducible apply bootWrite_keeps
    | with_reducible apply roleAct_keeps
    | with_reducible apply flashGo_keeps
    | with_reducible apply laceAbortWrite_keeps
    | with_reducible apply transStart_keeps
    | with_reducible apply setCtrlAct_keeps
    | with_reducible apply tsqPush_keeps
    | with_reducible apply submit_keeps
    | with_reducible apply lastCtrl_keeps
    | with_reducible apply lutCtrl_keeps
    | with_reducible apply lutWrite_keeps
    | with_reducible apply fastCloseAct_keeps
    | with_reducible apply scrubWrite_keeps
    | with_reducible apply wlCtrl_keeps
    | with_reducible refine onBases_keeps ?_ _ (fun _ _ _ => ?_)
    | with_reducible apply modTb_keeps
    | exact Or.inr rfl
    | exact id
    | dsimp only


theorem busWriteNow_keeps (h : Keeps p r s) (pp : Path) (a v : Nat) (_ : p .memory := by assumption) (_ : p .flash := by assumption) (_ : p .roles := by assumption) (_ : p .audit := by assumption) (_ : p .manage := by assumption) (_ : p .store := by assumption) (_ : p .waiting := by assumption) (_ : p .clock := by assumption) (_ : p .timebase := by assumption) (_ : p .schedule := by assumption) (_ : p .lasts := by assumption) (_ : p .heads := by assumption) (_ : p .lamps := by assumption) (_ : p .clocks := by assumption) (_ : p .welt := by assumption) (_ : p .power := by assumption) (_ : p .draws := by assumption) (_ : p (.regs .mg) := by assumption) (_ : p (.regs .fc) := by assumption) (_ : p (.regs .ps) := by assumption) (_ : p (.regs .th) := by assumption) (_ : p (.regs .ck) := by assumption) (_ : p (.regs .tb) := by assumption) (_ : p (.regs .fs) := by assumption) (_ : p (.regs .le) := by assumption) (_ : p (.regs .tw) := by assumption) (_ : p (.regs .am) := by assumption) (_ : p (.regs .mi) := by assumption) (_ : p (.regs .dc) := by assumption) (_ : p (.regs .di) := by assumption) (_ : p (.regs .hp) := by assumption) (_ : p (.regs .wl) := by assumption) (_ : (∀ b, p (.regs b)) := by assumption) : Keeps p r (State.busWriteNow s pp a v) :=
  gatedNow_keeps h _ _ _ _ _ (fun _ hh => writeEffect_keeps hh _ _ _ _)
    (fun b _ => (by assumption : ∀ b, p (.regs b)) b)


theorem busWrite_keeps (h : Keeps p r s) (pp : Path) (a v : Nat) (_ : p .memory := by assumption) (_ : p .flash := by assumption) (_ : p .roles := by assumption) (_ : p .audit := by assumption) (_ : p .manage := by assumption) (_ : p .store := by assumption) (_ : p .waiting := by assumption) (_ : p .clock := by assumption) (_ : p .timebase := by assumption) (_ : p .schedule := by assumption) (_ : p .lasts := by assumption) (_ : p .heads := by assumption) (_ : p .access := by assumption) (_ : p .lamps := by assumption) (_ : p .clocks := by assumption) (_ : p .welt := by assumption) (_ : p .power := by assumption) (_ : p .draws := by assumption) (_ : p (.regs .mg) := by assumption) (_ : p (.regs .fc) := by assumption) (_ : p (.regs .ps) := by assumption) (_ : p (.regs .th) := by assumption) (_ : p (.regs .ck) := by assumption) (_ : p (.regs .tb) := by assumption) (_ : p (.regs .fs) := by assumption) (_ : p (.regs .le) := by assumption) (_ : p (.regs .tw) := by assumption) (_ : p (.regs .am) := by assumption) (_ : p (.regs .mi) := by assumption) (_ : p (.regs .dc) := by assumption) (_ : p (.regs .di) := by assumption) (_ : p (.regs .hp) := by assumption) (_ : p (.regs .wl) := by assumption) (_ : (∀ b, p (.regs b)) := by assumption) : Keeps p r (State.busWrite s pp a v) :=
  gatedWrite_keeps h _ _ _ _ _ (fun _ hh => writeEffect_keeps hh _ _ _ _)
    (fun b _ => (by assumption : ∀ b, p (.regs b)) b)

theorem latchRead_keeps (h : Keeps p r s) (pp : Path) (a : Nat) (f : Fld) (v : Nat) (hp : p (.regs f.blk) := by assumption) (_ : p (.regs .le) := by assumption) :
    Keeps p r (State.latchRead s pp a f v).2 := by
  unfold State.latchRead
  repeat' first
    | with_reducible assumption
    | (show p (.regs _); assumption)
    | with_reducible apply wr_keeps

theorem calRead_keeps (h : Keeps p r s) (pp : Path) (a : Nat) (_ : p (.regs .tb) := by assumption) (_ : p (.regs .le) := by assumption) :
    Keeps p r (State.calRead s pp a).2 := by
  unfold State.calRead
  repeat' first
    | with_reducible assumption
    | (show p (.regs _); assumption)
    | (extract_lets +onlyGivenNames y; refine Keeps.via (x := y) ?_ (fun _ => ?_); subst y; rotate_left; clear_value y)
    | (extract_lets +onlyGivenNames y; clear_value y)
    | with_reducible apply wr_keeps

theorem busRead_keeps (h : Keeps p r s) (pp : Path) (a : Nat) (_ : p .waiting := by assumption) (_ : p .timebase := by assumption) (_ : p .heads := by assumption) (_ : p (.regs .tb) := by assumption) (_ : p (.regs .fs) := by assumption) (_ : p (.regs .le) := by assumption) (_ : p (.regs .mi) := by assumption) (_ : p (.regs .hp) := by assumption) :
    Keeps p r (State.busRead s pp a).2 := by
  unfold State.busRead
  repeat' first
    | with_reducible assumption
    | (show p (.regs _); assumption)
    | (extract_lets +onlyGivenNames y; refine Keeps.via (x := y) ?_ (fun _ => ?_); subst y; rotate_left; clear_value y)
    | (extract_lets +onlyGivenNames y; refine Keeps.via (x := y.2) ?_ (fun _ => ?_); subst y; rotate_left; clear_value y)
    | (extract_lets +onlyGivenNames y; refine Keeps.via (x := y.1) ?_ (fun _ => ?_); subst y; rotate_left; clear_value y)
    | (extract_lets +onlyGivenNames y; clear_value y)
    | with_reducible apply Keeps.ite
    | with_reducible apply farAccess_keeps
    | with_reducible apply readFrameLo_keeps
    | with_reducible apply latchRead_keeps
    | with_reducible apply calRead_keeps
    | with_reducible apply tsqTake_keeps
    | with_reducible apply lutRead_keeps
    | (with_reducible refine Keeps.via ?_ id; split)

theorem configRead_keeps (h : Keeps p r s) (hh : Fin 4) (item : CfgItem) (_ : p .outputs := by assumption) :
    Keeps p r (State.configRead s hh item) := by
  unfold State.configRead
  repeat' first
    | with_reducible assumption
    | with_reducible apply emit_keeps

theorem maskVector_keeps (h : Keeps p r s) (hh : Nat) (v : Fin 4) (masked : Bool) (_ : p .heads := by assumption) (_ : p .outputs := by assumption) :
    Keeps p r (State.maskVector s hh v masked) := by
  unfold State.maskVector
  repeat' first
    | with_reducible assumption
    | (extract_lets +onlyGivenNames y; refine Keeps.via (x := y) ?_ (fun _ => ?_); subst y; rotate_left; clear_value y)
    | (extract_lets +onlyGivenNames y; clear_value y)
    | with_reducible apply Keeps.ite
    | with_reducible apply modHead_keeps
    | with_reducible apply msix_keeps
    | (with_reducible refine Keeps.via ?_ id; split)
    | exact Or.inr fun _ => rfl
    | exact Or.inl (by assumption)
    | exact Or.inr fun _ => by dsimp only; split <;> rfl
    | with_reducible apply_assumption

theorem configWrite_keeps (h : Keeps p r s) (hh : Nat) (rr : CfgReg) (v : Nat) (_ : p .heads := by assumption) (_ : p .outputs := by assumption) :
    Keeps p r (State.configWrite s hh rr v) := by
  unfold State.configWrite
  repeat' first
    | with_reducible assumption
    | with_reducible apply Keeps.ite
    | with_reducible apply modHead_keeps
    | with_reducible apply maskVector_keeps
    | (with_reducible refine Keeps.via ?_ id; split)
    | exact Or.inr fun _ => rfl
    | exact Or.inl (by assumption)
    | exact Or.inr fun _ => by dsimp only; split <;> rfl
    | with_reducible apply_assumption

theorem busReads_keeps (h : Keeps p r s) (pp : Path) (a n : Nat) (_ : p .waiting := by assumption) (_ : p .timebase := by assumption) (_ : p .heads := by assumption) (_ : p (.regs .tb) := by assumption) (_ : p (.regs .fs) := by assumption) (_ : p (.regs .le) := by assumption) (_ : p (.regs .mi) := by assumption) (_ : p (.regs .hp) := by assumption) : Keeps p r (State.busReads s pp a n).2 := by
  induction n generalizing s a with
  | zero => unfold State.busReads; exact h
  | succ n ih => unfold State.busReads; exact ih (busRead_keeps h _ _) _

theorem badFormat_keeps (h : Keeps p r s) (hh : Nat) (_ : p (.regs .hp) := by assumption) :
    Keeps p r (State.badFormat s hh) := by
  unfold State.badFormat
  repeat' first
    | with_reducible assumption
    | (show p (.regs _); assumption)
    | with_reducible apply bump_keeps

theorem windowWrite_kept (h : Keeps p r s) (hh : Fin 4) (off bytes v : Nat) (_ : p .memory := by assumption) (_ : p .flash := by assumption) (_ : p .roles := by assumption) (_ : p .audit := by assumption) (_ : p .manage := by assumption) (_ : p .store := by assumption) (_ : p .waiting := by assumption) (_ : p .clock := by assumption) (_ : p .timebase := by assumption) (_ : p .schedule := by assumption) (_ : p .lasts := by assumption) (_ : p .heads := by assumption) (_ : p .access := by assumption) (_ : p .lamps := by assumption) (_ : p .clocks := by assumption) (_ : p .welt := by assumption) (_ : p .power := by assumption) (_ : p .draws := by assumption) (_ : p (.regs .mg) := by assumption) (_ : p (.regs .fc) := by assumption) (_ : p (.regs .ps) := by assumption) (_ : p (.regs .th) := by assumption) (_ : p (.regs .ck) := by assumption) (_ : p (.regs .tb) := by assumption) (_ : p (.regs .fs) := by assumption) (_ : p (.regs .le) := by assumption) (_ : p (.regs .tw) := by assumption) (_ : p (.regs .am) := by assumption) (_ : p (.regs .mi) := by assumption) (_ : p (.regs .dc) := by assumption) (_ : p (.regs .di) := by assumption) (_ : p (.regs .hp) := by assumption) (_ : p (.regs .wl) := by assumption) (_ : (∀ b, p (.regs b)) := by assumption) :
    Keeps p r (windowWrite hh off bytes v s) := by
  unfold windowWrite
  repeat' first
    | with_reducible assumption
    | with_reducible apply Keeps.ite
    | with_reducible apply badFormat_keeps
    | with_reducible apply busWrite_keeps
    | (with_reducible refine Keeps.via ?_ id; split)

theorem copyCmd_kept (h : Keeps p r s) (hh : Fin 4) (v : Nat) (_ : p .memory := by assumption) (_ : p .waiting := by assumption) (_ : p .schedule := by assumption) (_ : p .heads := by assumption) (_ : p .lamps := by assumption) (_ : p .outputs := by assumption) (_ : p .draws := by assumption) (_ : p (.regs .mi) := by assumption) (_ : p (.regs .dc) := by assumption) (_ : p (.regs .di) := by assumption) (_ : p (.regs .hp) := by assumption) :
    Keeps p r (copyCmd hh v s) := by
  unfold copyCmd
  repeat' first
    | with_reducible assumption
    | with_reducible apply Keeps.ite
    | with_reducible apply slotCopyFromArchive_kept
    | with_reducible apply slotCopyToArchive_kept
    | (with_reducible refine Keeps.via ?_ id; split)

theorem ringCtrl_kept (h : Keeps p r s) (hh : Fin 4) (rr : Fin 512) (v : Nat) (_ : p .waiting := by assumption) (_ : p .lamps := by assumption) :
    Keeps p r (ringCtrl hh rr v s) := by
  unfold ringCtrl
  repeat' first
    | with_reducible assumption
    | with_reducible apply Keeps.ite
    | with_reducible apply arm_kept
    | with_reducible apply disarm_kept
    | (with_reducible refine Keeps.via ?_ id; split)

theorem ringWord_kept (h : Keeps p r s) (hh : Fin 4) (rr : Fin 512) (w v : Nat) (_ : p .waiting := by assumption) (_ : p .lamps := by assumption) :
    Keeps p r (ringWord hh rr w v s) := by
  unfold ringWord
  repeat' first
    | with_reducible assumption
    | (extract_lets +onlyGivenNames y; refine Keeps.via (x := y) ?_ (fun _ => ?_); subst y; rotate_left; clear_value y)
    | (extract_lets +onlyGivenNames y; clear_value y)
    | with_reducible apply Keeps.ite
    | with_reducible apply ringDescriptorWrite_kept
    | with_reducible apply consumedWrite_kept
    | with_reducible apply ringCtrl_kept
    | with_reducible apply ringWrite_keeps
    | (with_reducible refine Keeps.via ?_ id; split)
    | with_reducible refine fun _ _ => ?_
    | assumption

theorem doorbellWord_kept (h : Keeps p r s) (hh : Fin 4) (off v : Nat) (_ : p .memory := by assumption) (_ : p .waiting := by assumption) (_ : p .schedule := by assumption) (_ : p .heads := by assumption) (_ : p .lamps := by assumption) (_ : p .outputs := by assumption) (_ : p .draws := by assumption) (_ : p (.regs .fs) := by assumption) (_ : p (.regs .tw) := by assumption) (_ : p (.regs .mi) := by assumption) (_ : p (.regs .dc) := by assumption) (_ : p (.regs .di) := by assumption) (_ : p (.regs .hp) := by assumption) :
    Keeps p r (doorbellWord hh off v s) := by
  unfold doorbellWord
  repeat' first
    | with_reducible assumption
    | (show p (.regs _); assumption)
    | with_reducible apply Keeps.ite
    | with_reducible apply wr_keeps
    | with_reducible apply modHead_keeps
    | with_reducible apply publishDoorbell_kept
    | with_reducible apply slotSelect_kept
    | with_reducible apply copyCmd_kept
    | with_reducible apply ringWord_kept
    | (with_reducible refine Keeps.via ?_ id; split)
    | exact Or.inr fun _ => rfl
    | exact Or.inl (by assumption)
    | exact Or.inr fun _ => by dsimp only; split <;> rfl
    | with_reducible apply_assumption

theorem doorbellPair_kept (h : Keeps p r s) (hh : Fin 4) (off v : Nat) (_ : p .memory := by assumption) (_ : p .waiting := by assumption) (_ : p .schedule := by assumption) (_ : p .heads := by assumption) (_ : p .lamps := by assumption) (_ : p .outputs := by assumption) (_ : p .draws := by assumption) (_ : p (.regs .fs) := by assumption) (_ : p (.regs .tw) := by assumption) (_ : p (.regs .mi) := by assumption) (_ : p (.regs .dc) := by assumption) (_ : p (.regs .di) := by assumption) (_ : p (.regs .hp) := by assumption) :
    Keeps p r (doorbellPair hh off v s) := by
  unfold doorbellPair
  repeat' first
    | with_reducible assumption
    | (extract_lets +onlyGivenNames y; refine Keeps.via (x := y) ?_ (fun _ => ?_); subst y; rotate_left; clear_value y)
    | (extract_lets +onlyGivenNames y; clear_value y)
    | with_reducible apply Keeps.ite
    | with_reducible apply badFormat_keeps
    | with_reducible apply ringWrite_keeps
    | with_reducible apply ringRefused_keeps
    | with_reducible apply modRing_keeps
    | with_reducible apply doorbellWord_kept
    | (with_reducible refine Keeps.via ?_ id; split)
    | with_reducible refine fun _ _ => ?_
    | with_reducible apply_assumption

theorem doorbellWrite_kept (h : Keeps p r s) (hh : Fin 4) (off bytes v : Nat) (_ : p .memory := by assumption) (_ : p .waiting := by assumption) (_ : p .schedule := by assumption) (_ : p .heads := by assumption) (_ : p .lamps := by assumption) (_ : p .outputs := by assumption) (_ : p .draws := by assumption) (_ : p (.regs .fs) := by assumption) (_ : p (.regs .tw) := by assumption) (_ : p (.regs .mi) := by assumption) (_ : p (.regs .dc) := by assumption) (_ : p (.regs .di) := by assumption) (_ : p (.regs .hp) := by assumption) :
    Keeps p r (doorbellWrite hh off bytes v s) := by
  unfold doorbellWrite
  repeat' first
    | with_reducible assumption
    | with_reducible apply Keeps.ite
    | with_reducible apply doorbellWord_kept
    | with_reducible apply doorbellPair_kept
    | with_reducible apply badFormat_keeps
    | (with_reducible refine Keeps.via ?_ id; split)

theorem registerWrite_kept (h : Keeps p r s) (t : WriteTarget) (v : BitVec 64) (_ : p .memory := by assumption) (_ : p .flash := by assumption) (_ : p .roles := by assumption) (_ : p .audit := by assumption) (_ : p .manage := by assumption) (_ : p .store := by assumption) (_ : p .waiting := by assumption) (_ : p .clock := by assumption) (_ : p .timebase := by assumption) (_ : p .schedule := by assumption) (_ : p .lasts := by assumption) (_ : p .heads := by assumption) (_ : p .access := by assumption) (_ : p .lamps := by assumption) (_ : p .clocks := by assumption) (_ : p .welt := by assumption) (_ : p .power := by assumption) (_ : p .outputs := by assumption) (_ : p .draws := by assumption) (_ : p (.regs .mg) := by assumption) (_ : p (.regs .fc) := by assumption) (_ : p (.regs .ps) := by assumption) (_ : p (.regs .th) := by assumption) (_ : p (.regs .ck) := by assumption) (_ : p (.regs .tb) := by assumption) (_ : p (.regs .fs) := by assumption) (_ : p (.regs .le) := by assumption) (_ : p (.regs .tw) := by assumption) (_ : p (.regs .am) := by assumption) (_ : p (.regs .mi) := by assumption) (_ : p (.regs .dc) := by assumption) (_ : p (.regs .di) := by assumption) (_ : p (.regs .hp) := by assumption) (_ : p (.regs .wl) := by assumption) (_ : (∀ b, p (.regs b)) := by assumption) :
    Keeps p r (registerWrite t v s) := by
  unfold registerWrite
  repeat' first
    | with_reducible assumption
    | with_reducible apply busWrite_keeps
    | with_reducible apply windowWrite_kept
    | with_reducible apply doorbellWrite_kept
    | with_reducible apply configWrite_keeps
    | (with_reducible refine Keeps.via ?_ id; split)

theorem doorbellRead_keeps (h : Keeps p r s) (hh : Fin 4) (off : Nat) (_ : p .heads := by assumption) (_ : p (.regs .fs) := by assumption) :
    Keeps p r (State.doorbellRead s hh off).2 := by
  unfold State.doorbellRead
  repeat' first
    | with_reducible assumption
    | with_reducible apply Keeps.ite
    | with_reducible apply readFrameLo_keeps
    | (with_reducible refine Keeps.via ?_ id; split)

theorem readDoorbell_keeps (h : Keeps p r s) (hh : Fin 4) (off bytes : Nat) (_ : p .heads := by assumption) (_ : p .outputs := by assumption) (_ : p (.regs .fs) := by assumption) (_ : p (.regs .hp) := by assumption) :
    Keeps p r (State.readDoorbell s hh off bytes) := by
  unfold State.readDoorbell
  repeat' first
    | with_reducible assumption
    | (extract_lets +onlyGivenNames y; refine Keeps.via (x := y) ?_ (fun _ => ?_); subst y; rotate_left; clear_value y)
    | (extract_lets +onlyGivenNames y; refine Keeps.via (x := y.2) ?_ (fun _ => ?_); subst y; rotate_left; clear_value y)
    | (extract_lets +onlyGivenNames y; refine Keeps.via (x := y.1) ?_ (fun _ => ?_); subst y; rotate_left; clear_value y)
    | (extract_lets +onlyGivenNames y; clear_value y)
    | with_reducible apply Keeps.ite
    | with_reducible apply doorbellRead_keeps
    | with_reducible apply emit_keeps
    | with_reducible apply badFormat_keeps
    | (with_reducible refine Keeps.via ?_ id; split)

theorem readWord_keeps (h : Keeps p r s) (hh : Fin 4) (a : Nat) (_ : p .waiting := by assumption) (_ : p .timebase := by assumption) (_ : p .heads := by assumption) (_ : p .outputs := by assumption) (_ : p (.regs .tb) := by assumption) (_ : p (.regs .fs) := by assumption) (_ : p (.regs .le) := by assumption) (_ : p (.regs .mi) := by assumption) (_ : p (.regs .hp) := by assumption) :
    Keeps p r (State.readWord s hh a) := by
  unfold State.readWord
  repeat' first
    | with_reducible assumption
    | (extract_lets +onlyGivenNames y; refine Keeps.via (x := y) ?_ (fun _ => ?_); subst y; rotate_left; clear_value y)
    | (extract_lets +onlyGivenNames y; refine Keeps.via (x := y.2) ?_ (fun _ => ?_); subst y; rotate_left; clear_value y)
    | (extract_lets +onlyGivenNames y; refine Keeps.via (x := y.1) ?_ (fun _ => ?_); subst y; rotate_left; clear_value y)
    | (extract_lets +onlyGivenNames y; clear_value y)
    | with_reducible apply busRead_keeps
    | with_reducible apply emit_keeps

theorem readWindow_keeps (h : Keeps p r s) (hh : Fin 4) (off bytes : Nat) (_ : p .waiting := by assumption) (_ : p .timebase := by assumption) (_ : p .heads := by assumption) (_ : p .outputs := by assumption) (_ : p .draws := by assumption) (_ : p (.regs .tb) := by assumption) (_ : p (.regs .fs) := by assumption) (_ : p (.regs .le) := by assumption) (_ : p (.regs .mi) := by assumption) (_ : p (.regs .hp) := by assumption) :
    Keeps p r (State.readWindow s hh off bytes) := by
  unfold State.readWindow
  repeat' first
    | with_reducible assumption
    | with_reducible apply Keeps.ite
    | with_reducible apply emit_keeps
    | with_reducible apply draw_keeps
    | with_reducible apply badFormat_keeps
    | with_reducible apply readWord_keeps
    | (with_reducible refine Keeps.via ?_ id; split)
    | with_reducible apply_assumption

theorem ioServe_keeps (h : Keeps p r s) (hh : Fin 4) (q : IoReq) (_ : p .memory := by assumption) (_ : p .flash := by assumption) (_ : p .roles := by assumption) (_ : p .audit := by assumption) (_ : p .manage := by assumption) (_ : p .store := by assumption) (_ : p .waiting := by assumption) (_ : p .clock := by assumption) (_ : p .timebase := by assumption) (_ : p .schedule := by assumption) (_ : p .lasts := by assumption) (_ : p .heads := by assumption) (_ : p .lamps := by assumption) (_ : p .clocks := by assumption) (_ : p .welt := by assumption) (_ : p .power := by assumption) (_ : p .outputs := by assumption) (_ : p .draws := by assumption) (_ : p (.regs .mg) := by assumption) (_ : p (.regs .fc) := by assumption) (_ : p (.regs .ps) := by assumption) (_ : p (.regs .th) := by assumption) (_ : p (.regs .ck) := by assumption) (_ : p (.regs .tb) := by assumption) (_ : p (.regs .fs) := by assumption) (_ : p (.regs .le) := by assumption) (_ : p (.regs .tw) := by assumption) (_ : p (.regs .am) := by assumption) (_ : p (.regs .mi) := by assumption) (_ : p (.regs .dc) := by assumption) (_ : p (.regs .di) := by assumption) (_ : p (.regs .hp) := by assumption) (_ : p (.regs .wl) := by assumption) (_ : (∀ b, p (.regs b)) := by assumption) : Keeps p r (State.ioServe s hh q) := by
  cases q with
  | window off lines => exact takeWindowRead_keeps h _ _ _
  | word off bytes => exact readWindow_keeps h _ _ _
  | doorbell off bytes => exact readDoorbell_keeps h _ _ _
  | reg a => exact readWord_keeps h _ _
  | write a v => exact busWriteNow_keeps h _ _ _
  | frameLo => exact emit_keeps (readFrameLo_keeps h _ _) _
  | config item => exact configRead_keeps h _ _


theorem ioHead_keeps (h : Keeps p r s) (hh : Fin 4) (_ : p .memory := by assumption) (_ : p .flash := by assumption) (_ : p .roles := by assumption) (_ : p .audit := by assumption) (_ : p .manage := by assumption) (_ : p .store := by assumption) (_ : p .waiting := by assumption) (_ : p .clock := by assumption) (_ : p .timebase := by assumption) (_ : p .schedule := by assumption) (_ : p .lasts := by assumption) (_ : p .heads := by assumption) (_ : p .access := by assumption) (_ : p .lamps := by assumption) (_ : p .clocks := by assumption) (_ : p .welt := by assumption) (_ : p .power := by assumption) (_ : p .outputs := by assumption) (_ : p .draws := by assumption) (_ : p (.regs .mg) := by assumption) (_ : p (.regs .fc) := by assumption) (_ : p (.regs .ps) := by assumption) (_ : p (.regs .th) := by assumption) (_ : p (.regs .ck) := by assumption) (_ : p (.regs .tb) := by assumption) (_ : p (.regs .fs) := by assumption) (_ : p (.regs .le) := by assumption) (_ : p (.regs .tw) := by assumption) (_ : p (.regs .am) := by assumption) (_ : p (.regs .mi) := by assumption) (_ : p (.regs .dc) := by assumption) (_ : p (.regs .di) := by assumption) (_ : p (.regs .hp) := by assumption) (_ : p (.regs .wl) := by assumption) (_ : (∀ b, p (.regs b)) := by assumption) :
    Keeps p r (State.ioHead s hh) := by
  unfold State.ioHead
  repeat' first
    | with_reducible assumption
    | with_reducible apply Keeps.ite
    | with_reducible apply ioServe_keeps
    | with_reducible apply modHead_keeps
    | with_reducible refine Keeps.foldl _ ?_ (fun _ _ _ => ?_)
    | (with_reducible refine Keeps.via ?_ id; split)
    | exact Or.inr fun _ => rfl
    | exact Or.inl (by assumption)
    | exact Or.inr fun _ => by dsimp only; split <;> rfl
    | with_reducible apply_assumption

theorem ioOn_keeps (h : Keeps p r s) (_ : p .memory := by assumption) (_ : p .flash := by assumption) (_ : p .roles := by assumption) (_ : p .audit := by assumption) (_ : p .manage := by assumption) (_ : p .store := by assumption) (_ : p .waiting := by assumption) (_ : p .clock := by assumption) (_ : p .timebase := by assumption) (_ : p .schedule := by assumption) (_ : p .lasts := by assumption) (_ : p .heads := by assumption) (_ : p .access := by assumption) (_ : p .lamps := by assumption) (_ : p .clocks := by assumption) (_ : p .welt := by assumption) (_ : p .power := by assumption) (_ : p .outputs := by assumption) (_ : p .draws := by assumption) (_ : p (.regs .mg) := by assumption) (_ : p (.regs .fc) := by assumption) (_ : p (.regs .ps) := by assumption) (_ : p (.regs .th) := by assumption) (_ : p (.regs .ck) := by assumption) (_ : p (.regs .tb) := by assumption) (_ : p (.regs .fs) := by assumption) (_ : p (.regs .le) := by assumption) (_ : p (.regs .tw) := by assumption) (_ : p (.regs .am) := by assumption) (_ : p (.regs .mi) := by assumption) (_ : p (.regs .dc) := by assumption) (_ : p (.regs .di) := by assumption) (_ : p (.regs .hp) := by assumption) (_ : p (.regs .wl) := by assumption) (_ : (∀ b, p (.regs b)) := by assumption) :
    Keeps p r (State.ioOn s) := by
  unfold State.ioOn
  repeat' first
    | with_reducible assumption
    | with_reducible apply ioHead_keeps
    | with_reducible refine Keeps.foldl _ ?_ (fun _ _ _ => ?_)

theorem ioTake_keeps (h : Keeps p r s) (hh : Fin 4) (q : IoReq) (_ : p .memory := by assumption) (_ : p .flash := by assumption) (_ : p .roles := by assumption) (_ : p .audit := by assumption) (_ : p .manage := by assumption) (_ : p .store := by assumption) (_ : p .waiting := by assumption) (_ : p .clock := by assumption) (_ : p .timebase := by assumption) (_ : p .schedule := by assumption) (_ : p .lasts := by assumption) (_ : p .heads := by assumption) (_ : p .access := by assumption) (_ : p .lamps := by assumption) (_ : p .clocks := by assumption) (_ : p .welt := by assumption) (_ : p .power := by assumption) (_ : p .outputs := by assumption) (_ : p .draws := by assumption) (_ : p (.regs .mg) := by assumption) (_ : p (.regs .fc) := by assumption) (_ : p (.regs .ps) := by assumption) (_ : p (.regs .th) := by assumption) (_ : p (.regs .ck) := by assumption) (_ : p (.regs .tb) := by assumption) (_ : p (.regs .fs) := by assumption) (_ : p (.regs .le) := by assumption) (_ : p (.regs .tw) := by assumption) (_ : p (.regs .am) := by assumption) (_ : p (.regs .mi) := by assumption) (_ : p (.regs .dc) := by assumption) (_ : p (.regs .di) := by assumption) (_ : p (.regs .hp) := by assumption) (_ : p (.regs .wl) := by assumption) (_ : (∀ b, p (.regs b)) := by assumption) :
    Keeps p r (State.ioTake s hh q) := by
  unfold State.ioTake
  repeat' first
    | with_reducible assumption
    | with_reducible apply Keeps.ite
    | with_reducible apply ioHead_keeps
    | with_reducible apply modHead_keeps
    | (with_reducible refine Keeps.via ?_ id; split)
    | exact Or.inr fun _ => rfl
    | exact Or.inl (by assumption)
    | exact Or.inr fun _ => by dsimp only; split <;> rfl
    | with_reducible apply_assumption

theorem headRead_kept (h : Keeps p r s) (hh : Fin 4) (q : IoReq) (_ : p .memory := by assumption) (_ : p .flash := by assumption) (_ : p .roles := by assumption) (_ : p .audit := by assumption) (_ : p .manage := by assumption) (_ : p .store := by assumption) (_ : p .waiting := by assumption) (_ : p .clock := by assumption) (_ : p .timebase := by assumption) (_ : p .schedule := by assumption) (_ : p .lasts := by assumption) (_ : p .heads := by assumption) (_ : p .access := by assumption) (_ : p .lamps := by assumption) (_ : p .clocks := by assumption) (_ : p .welt := by assumption) (_ : p .power := by assumption) (_ : p .outputs := by assumption) (_ : p .draws := by assumption) (_ : p (.regs .mg) := by assumption) (_ : p (.regs .fc) := by assumption) (_ : p (.regs .ps) := by assumption) (_ : p (.regs .th) := by assumption) (_ : p (.regs .ck) := by assumption) (_ : p (.regs .tb) := by assumption) (_ : p (.regs .fs) := by assumption) (_ : p (.regs .le) := by assumption) (_ : p (.regs .tw) := by assumption) (_ : p (.regs .am) := by assumption) (_ : p (.regs .mi) := by assumption) (_ : p (.regs .dc) := by assumption) (_ : p (.regs .di) := by assumption) (_ : p (.regs .hp) := by assumption) (_ : p (.regs .wl) := by assumption) (_ : (∀ b, p (.regs b)) := by assumption) :
    Keeps p r (headRead hh q s) := by
  unfold headRead
  repeat' first
    | with_reducible assumption
    | with_reducible apply fenceRead_kept
    | with_reducible apply ioTake_keeps
    | (with_reducible refine Keeps.via ?_ id; split)

theorem spiFault_keeps (h : Keeps p r s) (a extra : Nat) (_ : p .waiting := by assumption) :
    Keeps p r (State.spiFault s a extra) := by
  unfold State.spiFault
  repeat' first
    | with_reducible assumption
    | with_reducible apply raiseL_keeps

theorem partialWord_keeps (h : Keeps p r s) (a : Nat) (partialWord : Bool) (_ : p .waiting := by assumption) (_ : p (.regs .mg) := by assumption) :
    Keeps p r (State.partialWord s a partialWord) := by
  unfold State.partialWord
  repeat' first
    | with_reducible assumption
    | (show p (.regs _); assumption)
    | with_reducible apply Keeps.ite
    | with_reducible apply spiFault_keeps
    | with_reducible apply wr_keeps
    | with_reducible apply bump_keeps
    | (with_reducible refine Keeps.via ?_ id; split)

theorem auxRead_keeps (h : Keeps p r s) (a : Nat) (_ : p .waiting := by assumption) (_ : p .timebase := by assumption) (_ : p .heads := by assumption) (_ : p (.regs .mg) := by assumption) (_ : p (.regs .tb) := by assumption) (_ : p (.regs .fs) := by assumption) (_ : p (.regs .le) := by assumption) (_ : p (.regs .mi) := by assumption) (_ : p (.regs .hp) := by assumption) :
    Keeps p r (State.auxRead s a).2 := by
  unfold State.auxRead
  repeat' first
    | with_reducible assumption
    | (show p (.regs _); assumption)
    | with_reducible apply Keeps.ite
    | with_reducible apply busRead_keeps
    | with_reducible apply bump_keeps
    | (with_reducible refine Keeps.via ?_ id; split)

theorem misoOut_keeps (h : Keeps p r s) (ws : List Word) (_ : p .outputs := by assumption) :
    Keeps p r (State.misoOut s ws) := by
  unfold State.misoOut
  repeat' first
    | with_reducible assumption
    | with_reducible apply Keeps.ite
    | with_reducible apply emit_keeps
    | (with_reducible refine Keeps.via ?_ id; split)

theorem auxReads_keeps (h : Keeps p r s) (a n : Nat) (_ : p .waiting := by assumption) (_ : p .timebase := by assumption) (_ : p .heads := by assumption) (_ : p (.regs .mg) := by assumption) (_ : p (.regs .tb) := by assumption) (_ : p (.regs .fs) := by assumption) (_ : p (.regs .le) := by assumption) (_ : p (.regs .mi) := by assumption) (_ : p (.regs .hp) := by assumption) : Keeps p r (State.auxReads s a n).2 := by
  induction n generalizing s a with
  | zero => unfold State.auxReads; exact h
  | succ n ih => unfold State.auxReads; exact ih (auxRead_keeps h _) _

theorem spiRead_kept (h : Keeps p r s) (a : BitVec 24) (words : Nat) (partialWord : Bool) (_ : p .waiting := by assumption) (_ : p .timebase := by assumption) (_ : p .heads := by assumption) (_ : p .outputs := by assumption) (_ : p (.regs .mg) := by assumption) (_ : p (.regs .tb) := by assumption) (_ : p (.regs .fs) := by assumption) (_ : p (.regs .le) := by assumption) (_ : p (.regs .mi) := by assumption) (_ : p (.regs .hp) := by assumption) :
    Keeps p r (spiRead a words partialWord s) := by
  unfold spiRead
  repeat' first
    | with_reducible assumption
    | (extract_lets +onlyGivenNames y; refine Keeps.via (x := y) ?_ (fun _ => ?_); subst y; rotate_left; clear_value y)
    | (extract_lets +onlyGivenNames y; refine Keeps.via (x := y.2) ?_ (fun _ => ?_); subst y; rotate_left; clear_value y)
    | (extract_lets +onlyGivenNames y; refine Keeps.via (x := y.1) ?_ (fun _ => ?_); subst y; rotate_left; clear_value y)
    | (extract_lets +onlyGivenNames y; clear_value y)
    | with_reducible apply auxReads_keeps
    | with_reducible apply partialWord_keeps
    | with_reducible apply misoOut_keeps

theorem readAny_kept (h : Keeps p r s) (t : ReadTarget) (count : Nat) (partialWord : Bool) (_ : p .memory := by assumption) (_ : p .flash := by assumption) (_ : p .roles := by assumption) (_ : p .audit := by assumption) (_ : p .manage := by assumption) (_ : p .store := by assumption) (_ : p .waiting := by assumption) (_ : p .clock := by assumption) (_ : p .timebase := by assumption) (_ : p .schedule := by assumption) (_ : p .lasts := by assumption) (_ : p .heads := by assumption) (_ : p .access := by assumption) (_ : p .lamps := by assumption) (_ : p .clocks := by assumption) (_ : p .welt := by assumption) (_ : p .power := by assumption) (_ : p .outputs := by assumption) (_ : p .draws := by assumption) (_ : p (.regs .mg) := by assumption) (_ : p (.regs .fc) := by assumption) (_ : p (.regs .ps) := by assumption) (_ : p (.regs .th) := by assumption) (_ : p (.regs .ck) := by assumption) (_ : p (.regs .tb) := by assumption) (_ : p (.regs .fs) := by assumption) (_ : p (.regs .le) := by assumption) (_ : p (.regs .tw) := by assumption) (_ : p (.regs .am) := by assumption) (_ : p (.regs .mi) := by assumption) (_ : p (.regs .dc) := by assumption) (_ : p (.regs .di) := by assumption) (_ : p (.regs .hp) := by assumption) (_ : p (.regs .wl) := by assumption) (_ : (∀ b, p (.regs b)) := by assumption) :
    Keeps p r (readAny t count partialWord s) := by
  unfold readAny
  repeat' first
    | with_reducible assumption
    | with_reducible apply spiRead_kept
    | with_reducible apply headRead_kept
    | (with_reducible refine Keeps.via ?_ id; split)

theorem readVia_keeps (h : Keeps p r s) (pp : Path) (q : IoReq) (act : State → State) (hf : ∀ s, Keeps p r s → Keeps p r (act s)) (_ : p .memory := by assumption) (_ : p .flash := by assumption) (_ : p .roles := by assumption) (_ : p .audit := by assumption) (_ : p .manage := by assumption) (_ : p .store := by assumption) (_ : p .waiting := by assumption) (_ : p .clock := by assumption) (_ : p .timebase := by assumption) (_ : p .schedule := by assumption) (_ : p .lasts := by assumption) (_ : p .heads := by assumption) (_ : p .access := by assumption) (_ : p .lamps := by assumption) (_ : p .clocks := by assumption) (_ : p .welt := by assumption) (_ : p .power := by assumption) (_ : p .outputs := by assumption) (_ : p .draws := by assumption) (_ : p (.regs .mg) := by assumption) (_ : p (.regs .fc) := by assumption) (_ : p (.regs .ps) := by assumption) (_ : p (.regs .th) := by assumption) (_ : p (.regs .ck) := by assumption) (_ : p (.regs .tb) := by assumption) (_ : p (.regs .fs) := by assumption) (_ : p (.regs .le) := by assumption) (_ : p (.regs .tw) := by assumption) (_ : p (.regs .am) := by assumption) (_ : p (.regs .mi) := by assumption) (_ : p (.regs .dc) := by assumption) (_ : p (.regs .di) := by assumption) (_ : p (.regs .hp) := by assumption) (_ : p (.regs .wl) := by assumption) (_ : (∀ b, p (.regs b)) := by assumption) :
    Keeps p r (State.readVia s pp q act) := by
  unfold State.readVia
  repeat' first
    | with_reducible assumption
    | with_reducible apply Keeps.ite
    | with_reducible apply ioTake_keeps
    | (with_reducible refine Keeps.via ?_ id; split)
    | with_reducible apply_assumption

theorem lutDataVia_kept (h : Keeps p r s) (pp : Path) (w : Option Word) (_ : p .memory := by assumption) (_ : p .flash := by assumption) (_ : p .roles := by assumption) (_ : p .audit := by assumption) (_ : p .manage := by assumption) (_ : p .store := by assumption) (_ : p .waiting := by assumption) (_ : p .clock := by assumption) (_ : p .timebase := by assumption) (_ : p .schedule := by assumption) (_ : p .lasts := by assumption) (_ : p .heads := by assumption) (_ : p .access := by assumption) (_ : p .lamps := by assumption) (_ : p .clocks := by assumption) (_ : p .welt := by assumption) (_ : p .power := by assumption) (_ : p .outputs := by assumption) (_ : p .draws := by assumption) (_ : p (.regs .mg) := by assumption) (_ : p (.regs .fc) := by assumption) (_ : p (.regs .ps) := by assumption) (_ : p (.regs .th) := by assumption) (_ : p (.regs .ck) := by assumption) (_ : p (.regs .tb) := by assumption) (_ : p (.regs .fs) := by assumption) (_ : p (.regs .le) := by assumption) (_ : p (.regs .tw) := by assumption) (_ : p (.regs .am) := by assumption) (_ : p (.regs .mi) := by assumption) (_ : p (.regs .dc) := by assumption) (_ : p (.regs .di) := by assumption) (_ : p (.regs .hp) := by assumption) (_ : p (.regs .wl) := by assumption) (_ : (∀ b, p (.regs b)) := by assumption) :
    Keeps p r (lutDataVia pp w s) := by
  unfold lutDataVia
  repeat' first
    | with_reducible assumption
    | with_reducible apply readVia_keeps
    | with_reducible apply lutDataAccess_kept
    | (with_reducible refine Keeps.via ?_ id; split)
    | with_reducible refine fun _ _ => ?_

theorem frameLoVia_kept (h : Keeps p r s) (pp : Path) (doorbell : Bool) (_ : p .memory := by assumption) (_ : p .flash := by assumption) (_ : p .roles := by assumption) (_ : p .audit := by assumption) (_ : p .manage := by assumption) (_ : p .store := by assumption) (_ : p .waiting := by assumption) (_ : p .clock := by assumption) (_ : p .timebase := by assumption) (_ : p .schedule := by assumption) (_ : p .lasts := by assumption) (_ : p .heads := by assumption) (_ : p .access := by assumption) (_ : p .lamps := by assumption) (_ : p .clocks := by assumption) (_ : p .welt := by assumption) (_ : p .power := by assumption) (_ : p .outputs := by assumption) (_ : p .draws := by assumption) (_ : p (.regs .mg) := by assumption) (_ : p (.regs .fc) := by assumption) (_ : p (.regs .ps) := by assumption) (_ : p (.regs .th) := by assumption) (_ : p (.regs .ck) := by assumption) (_ : p (.regs .tb) := by assumption) (_ : p (.regs .fs) := by assumption) (_ : p (.regs .le) := by assumption) (_ : p (.regs .tw) := by assumption) (_ : p (.regs .am) := by assumption) (_ : p (.regs .mi) := by assumption) (_ : p (.regs .dc) := by assumption) (_ : p (.regs .di) := by assumption) (_ : p (.regs .hp) := by assumption) (_ : p (.regs .wl) := by assumption) (_ : (∀ b, p (.regs b)) := by assumption) :
    Keeps p r (frameLoVia pp doorbell s) := by
  unfold frameLoVia
  repeat' first
    | with_reducible assumption
    | with_reducible apply Keeps.ite
    | with_reducible apply readVia_keeps
    | with_reducible apply frameLoRead_kept
    | (with_reducible refine Keeps.via ?_ id; split)
    | with_reducible refine fun _ _ => ?_

theorem tsqPopVia_kept (h : Keeps p r s) (pp : Path) (_ : p .memory := by assumption) (_ : p .flash := by assumption) (_ : p .roles := by assumption) (_ : p .audit := by assumption) (_ : p .manage := by assumption) (_ : p .store := by assumption) (_ : p .waiting := by assumption) (_ : p .clock := by assumption) (_ : p .timebase := by assumption) (_ : p .schedule := by assumption) (_ : p .lasts := by assumption) (_ : p .heads := by assumption) (_ : p .access := by assumption) (_ : p .lamps := by assumption) (_ : p .clocks := by assumption) (_ : p .welt := by assumption) (_ : p .power := by assumption) (_ : p .outputs := by assumption) (_ : p .draws := by assumption) (_ : p (.regs .mg) := by assumption) (_ : p (.regs .fc) := by assumption) (_ : p (.regs .ps) := by assumption) (_ : p (.regs .th) := by assumption) (_ : p (.regs .ck) := by assumption) (_ : p (.regs .tb) := by assumption) (_ : p (.regs .fs) := by assumption) (_ : p (.regs .le) := by assumption) (_ : p (.regs .tw) := by assumption) (_ : p (.regs .am) := by assumption) (_ : p (.regs .mi) := by assumption) (_ : p (.regs .dc) := by assumption) (_ : p (.regs .di) := by assumption) (_ : p (.regs .hp) := by assumption) (_ : p (.regs .wl) := by assumption) (_ : (∀ b, p (.regs b)) := by assumption) :
    Keeps p r (tsqPopVia pp s) := by
  unfold tsqPopVia
  repeat' first
    | with_reducible assumption
    | with_reducible apply readVia_keeps
    | with_reducible apply tsqPop_kept
    | with_reducible refine fun _ _ => ?_

theorem spiWrites_keeps (h : Keeps p r s) (a : Nat) (l : List Word) (_ : p .memory := by assumption) (_ : p .flash := by assumption) (_ : p .roles := by assumption) (_ : p .audit := by assumption) (_ : p .manage := by assumption) (_ : p .store := by assumption) (_ : p .waiting := by assumption) (_ : p .clock := by assumption) (_ : p .timebase := by assumption) (_ : p .schedule := by assumption) (_ : p .lasts := by assumption) (_ : p .heads := by assumption) (_ : p .access := by assumption) (_ : p .lamps := by assumption) (_ : p .clocks := by assumption) (_ : p .welt := by assumption) (_ : p .power := by assumption) (_ : p .draws := by assumption) (_ : p (.regs .mg) := by assumption) (_ : p (.regs .fc) := by assumption) (_ : p (.regs .ps) := by assumption) (_ : p (.regs .th) := by assumption) (_ : p (.regs .ck) := by assumption) (_ : p (.regs .tb) := by assumption) (_ : p (.regs .fs) := by assumption) (_ : p (.regs .le) := by assumption) (_ : p (.regs .tw) := by assumption) (_ : p (.regs .am) := by assumption) (_ : p (.regs .mi) := by assumption) (_ : p (.regs .dc) := by assumption) (_ : p (.regs .di) := by assumption) (_ : p (.regs .hp) := by assumption) (_ : p (.regs .wl) := by assumption) (_ : (∀ b, p (.regs b)) := by assumption) : Keeps p r (State.spiWrites s a l) := by
  induction l generalizing s a with
  | nil => unfold State.spiWrites; exact h
  | cons w t ih => unfold State.spiWrites; exact ih (busWrite_keeps h _ _ _) _

theorem spiWrite_kept (h : Keeps p r s) (a : BitVec 24) (words : List Word) (partialWord : Bool) (_ : p .memory := by assumption) (_ : p .flash := by assumption) (_ : p .roles := by assumption) (_ : p .audit := by assumption) (_ : p .manage := by assumption) (_ : p .store := by assumption) (_ : p .waiting := by assumption) (_ : p .clock := by assumption) (_ : p .timebase := by assumption) (_ : p .schedule := by assumption) (_ : p .lasts := by assumption) (_ : p .heads := by assumption) (_ : p .access := by assumption) (_ : p .lamps := by assumption) (_ : p .clocks := by assumption) (_ : p .welt := by assumption) (_ : p .power := by assumption) (_ : p .draws := by assumption) (_ : p (.regs .mg) := by assumption) (_ : p (.regs .fc) := by assumption) (_ : p (.regs .ps) := by assumption) (_ : p (.regs .th) := by assumption) (_ : p (.regs .ck) := by assumption) (_ : p (.regs .tb) := by assumption) (_ : p (.regs .fs) := by assumption) (_ : p (.regs .le) := by assumption) (_ : p (.regs .tw) := by assumption) (_ : p (.regs .am) := by assumption) (_ : p (.regs .mi) := by assumption) (_ : p (.regs .dc) := by assumption) (_ : p (.regs .di) := by assumption) (_ : p (.regs .hp) := by assumption) (_ : p (.regs .wl) := by assumption) (_ : (∀ b, p (.regs b)) := by assumption) :
    Keeps p r (spiWrite a words partialWord s) := by
  unfold spiWrite
  repeat' first
    | with_reducible assumption
    | with_reducible apply partialWord_keeps
    | with_reducible apply spiWrites_keeps

theorem fetch_kept (h : Keeps p r s) (a : BitVec 24) (count : BitVec 7) (excess : Bool) (_ : p .manage := by assumption) (_ : p .waiting := by assumption) (_ : p (.regs .mg) := by assumption) :
    Keeps p r (fetch a count excess s) := by
  unfold fetch
  repeat' first
    | with_reducible assumption
    | (show p (.regs _); assumption)
    | (extract_lets +onlyGivenNames y; refine Keeps.via (x := y) ?_ (fun _ => ?_); subst y; rotate_left; clear_value y)
    | (extract_lets +onlyGivenNames y; clear_value y)
    | with_reducible apply Keeps.ite
    | with_reducible apply wr_keeps
    | with_reducible apply modMg_keeps
    | with_reducible apply spiFault_keeps
    | with_reducible apply bump_keeps
    | (with_reducible refine Keeps.via ?_ id; split)
    | exact Or.inl (by assumption)
    | exact Or.inr rfl
    | exact rfl
    | exact State.Sorted.modMg rfl rfl
    | exact State.Sorted.modLe rfl rfl
    | exact id
    | exact List.suffix_rfl
    | exact fun _ => Nat.zero_le _
    | (dsimp only; split)
    | with_reducible apply_assumption

theorem fetchWord_keeps (h : Keeps p r s) (a i : Nat) (unanswered : List Nat) (_ : p .manage := by assumption) (_ : p .waiting := by assumption) (_ : p .timebase := by assumption) (_ : p .heads := by assumption) (_ : p (.regs .mg) := by assumption) (_ : p (.regs .tb) := by assumption) (_ : p (.regs .fs) := by assumption) (_ : p (.regs .le) := by assumption) (_ : p (.regs .mi) := by assumption) (_ : p (.regs .hp) := by assumption) :
    Keeps p r (State.fetchWord s a i unanswered) := by
  unfold State.fetchWord
  repeat' first
    | with_reducible assumption
    | (show p (.regs _); assumption)
    | (extract_lets +onlyGivenNames y; refine Keeps.via (x := y) ?_ (fun _ => ?_); subst y; rotate_left; clear_value y)
    | (extract_lets +onlyGivenNames y; refine Keeps.via (x := y.2) ?_ (fun _ => ?_); subst y; rotate_left; clear_value y)
    | (extract_lets +onlyGivenNames y; refine Keeps.via (x := y.1) ?_ (fun _ => ?_); subst y; rotate_left; clear_value y)
    | (extract_lets +onlyGivenNames y; clear_value y)
    | with_reducible apply Keeps.ite
    | with_reducible apply spiFault_keeps
    | with_reducible apply wr_keeps
    | with_reducible apply busRead_keeps
    | with_reducible apply modMg_keeps
    | (with_reducible refine Keeps.via ?_ id; split)
    | exact Or.inl (by assumption)
    | exact Or.inr rfl
    | exact rfl
    | exact State.Sorted.modMg rfl rfl
    | exact State.Sorted.modLe rfl rfl
    | (intro i; refine ⟨i.1, i.2.1, ?_, i.2.2.2⟩; simp only [State.modMg]; exact Sparse.rising_put _ _ i.2.2.1)
    | exact id
    | exact List.suffix_rfl
    | exact fun _ => Nat.zero_le _
    | (dsimp only; split)
    | with_reducible apply_assumption

theorem fetchDone_kept (h : Keeps p r s) (unanswered : List Nat) (_ : p .manage := by assumption) (_ : p .waiting := by assumption) (_ : p .timebase := by assumption) (_ : p .heads := by assumption) (_ : p (.regs .mg) := by assumption) (_ : p (.regs .tb) := by assumption) (_ : p (.regs .fs) := by assumption) (_ : p (.regs .le) := by assumption) (_ : p (.regs .mi) := by assumption) (_ : p (.regs .hp) := by assumption) :
    Keeps p r (fetchDone unanswered s) := by
  unfold fetchDone
  repeat' first
    | with_reducible assumption
    | (show p (.regs _); assumption)
    | (extract_lets +onlyGivenNames y; refine Keeps.via (x := y) ?_ (fun _ => ?_); subst y; rotate_left; clear_value y)
    | (extract_lets +onlyGivenNames y; clear_value y)
    | with_reducible apply fetchWord_keeps
    | with_reducible apply wr_keeps
    | with_reducible apply modMg_keeps
    | with_reducible refine Keeps.foldl _ ?_ (fun _ _ _ => ?_)
    | (with_reducible refine Keeps.via ?_ id; split)
    | exact Or.inl (by assumption)
    | exact Or.inr rfl
    | exact rfl
    | exact State.Sorted.modMg rfl rfl
    | exact State.Sorted.modLe rfl rfl
    | exact id
    | exact List.suffix_rfl
    | exact fun _ => Nat.zero_le _
    | (dsimp only; split)
    | with_reducible apply_assumption

theorem rdbuf_kept (h : Keeps p r s) (a : BitVec 24) (words : Nat) (partialWord : Bool) (_ : p .waiting := by assumption) (_ : p .outputs := by assumption) (_ : p (.regs .mg) := by assumption) :
    Keeps p r (rdbuf a words partialWord s) := by
  unfold rdbuf
  repeat' first
    | with_reducible assumption
    | (extract_lets +onlyGivenNames y; refine Keeps.via (x := y) ?_ (fun _ => ?_); subst y; rotate_left; clear_value y)
    | (extract_lets +onlyGivenNames y; clear_value y)
    | with_reducible apply partialWord_keeps
    | with_reducible apply misoOut_keeps
    | with_reducible apply_assumption

theorem shortFrame_kept (h : Keeps p r s) (a : BitVec 24) (_ : p .waiting := by assumption) (_ : p (.regs .mg) := by assumption) :
    Keeps p r (shortFrame a s) := by
  unfold shortFrame
  repeat' first
    | with_reducible assumption
    | (show p (.regs _); assumption)
    | with_reducible apply spiFault_keeps
    | with_reducible apply wr_keeps
    | with_reducible apply bump_keeps

theorem powerOn_keeps (h : Keeps p r s) (_ : p .cells := by assumption) (_ : p .memory := by assumption) (_ : p .roles := by assumption) (_ : p .audit := by assumption) (_ : p .start := by assumption) (_ : p .manage := by assumption) (_ : p .store := by assumption) (_ : p .waiting := by assumption) (_ : p .clock := by assumption) (_ : p .timebase := by assumption) (_ : p .schedule := by assumption) (_ : p .lasts := by assumption) (_ : p .heads := by assumption) (_ : p .access := by assumption) (_ : p .lamps := by assumption) (_ : p .thermal := by assumption) (_ : p .clocks := by assumption) (_ : p .welt := by assumption) (_ : p .leader := by assumption) (_ : p .power := by assumption) (_ : p (.regs .mg) := by assumption) (_ : p (.regs .fc) := by assumption) (_ : p (.regs .ps) := by assumption) (_ : p (.regs .th) := by assumption) (_ : p (.regs .ck) := by assumption) (_ : p (.regs .tb) := by assumption) (_ : p (.regs .fs) := by assumption) (_ : p (.regs .le) := by assumption) (_ : p (.regs .tw) := by assumption) (_ : p (.regs .am) := by assumption) (_ : p (.regs .mi) := by assumption) (_ : p (.regs .dc) := by assumption) (_ : p (.regs .di) := by assumption) (_ : p (.regs .hp) := by assumption) (_ : p (.regs .wl) := by assumption) (_ : (∀ b, p (.regs b)) := by assumption) : Keeps p r (State.powerOn s) := by
  refine h.trans ⟨rfl, le_rfl, le_rfl, List.prefix_rfl, List.suffix_rfl, fun _ => rfl, fun i =>
    ⟨rfl, i.flash, rfl, Nat.zero_le _, Nat.zero_le _, (fun _ hx => nomatch hx), ⟨List.nodup_nil, Nat.zero_le _⟩, ⟨List.nodup_nil, Nat.zero_le _⟩, Nat.zero_le _, rfl, rfl, rfl, i.sorted.2.2.2⟩, fun x hx => by
    cases x <;> first | rfl | exact absurd ‹p .leader› hx | exact absurd ‹∀ b, p (.regs b)› fun c => hx (c _) | exact absurd ‹p .cells› hx | exact absurd ‹p .memory› hx | exact absurd ‹p .roles› hx | exact absurd ‹p .audit› hx | exact absurd ‹p .manage› hx | exact absurd ‹p .start› hx | exact absurd ‹p .store› hx | exact absurd ‹p .waiting› hx | exact absurd ‹p .clock› hx | exact absurd ‹p .timebase› hx | exact absurd ‹p .schedule› hx | exact absurd ‹p .lasts› hx | exact absurd ‹p .heads› hx | exact absurd ‹p .access› hx | exact absurd ‹p .lamps› hx | exact absurd ‹p .thermal› hx | exact absurd ‹p .clocks› hx | exact absurd ‹p .welt› hx | exact absurd ‹p .power› hx⟩

theorem resumeAudit_keeps (h : Keeps p r s) (_ : p .audit := by assumption) (_ : p .manage := by assumption) :
    Keeps p r (State.resumeAudit s) := by
  unfold State.resumeAudit
  repeat' first
    | with_reducible assumption
    | with_reducible apply modMg_keeps
    | (with_reducible refine Keeps.via ?_ id; split)
    | exact Or.inl (by assumption)
    | exact Or.inr rfl
    | exact rfl
    | exact State.Sorted.modMg rfl rfl
    | exact State.Sorted.modLe rfl rfl
    | exact id
    | exact List.suffix_rfl
    | exact fun _ => Nat.zero_le _
    | (dsimp only; split)
    | with_reducible apply_assumption

theorem bootStart_keeps (h : Keeps p r s) (_ : p .cells := by assumption) (_ : p .memory := by assumption) (_ : p .flash := by assumption) (_ : p .manage := by assumption) (_ : p .store := by assumption) (_ : p .waiting := by assumption) (_ : p .timebase := by assumption) (_ : p .schedule := by assumption) (_ : p .heads := by assumption) (_ : p .lamps := by assumption) (_ : p .welt := by assumption) (_ : p .power := by assumption) (_ : p .outputs := by assumption) (_ : p .draws := by assumption) (_ : p (.regs .mg) := by assumption) (_ : p (.regs .ps) := by assumption) (_ : p (.regs .le) := by assumption) (_ : p (.regs .mi) := by assumption) (_ : p (.regs .dc) := by assumption) (_ : p (.regs .di) := by assumption) (_ : p (.regs .hp) := by assumption) :
    Keeps p r (State.bootStart s) := by
  unfold State.bootStart
  repeat' first
    | with_reducible assumption
    | (extract_lets +onlyGivenNames y; refine Keeps.via (x := y) ?_ (fun _ => ?_); subst y; rotate_left; clear_value y)
    | (extract_lets +onlyGivenNames y; clear_value y)
    | with_reducible apply Keeps.ite
    | with_reducible apply blankNext_keeps
    | with_reducible apply boot_keeps
    | with_reducible apply enterFatal_keeps
    | (with_reducible refine Keeps.via ?_ id; split)

theorem auxStart_keeps (h : Keeps p r s) (testEn : Bool) (_ : p .cells := by assumption) (_ : p .memory := by assumption) (_ : p .flash := by assumption) (_ : p .roles := by assumption) (_ : p .audit := by assumption) (_ : p .start := by assumption) (_ : p .manage := by assumption) (_ : p .store := by assumption) (_ : p .waiting := by assumption) (_ : p .clock := by assumption) (_ : p .timebase := by assumption) (_ : p .schedule := by assumption) (_ : p .lasts := by assumption) (_ : p .heads := by assumption) (_ : p .access := by assumption) (_ : p .lamps := by assumption) (_ : p .thermal := by assumption) (_ : p .clocks := by assumption) (_ : p .welt := by assumption) (_ : p .leader := by assumption) (_ : p .power := by assumption) (_ : p .outputs := by assumption) (_ : p .draws := by assumption) (_ : p (.regs .mg) := by assumption) (_ : p (.regs .fc) := by assumption) (_ : p (.regs .ps) := by assumption) (_ : p (.regs .th) := by assumption) (_ : p (.regs .ck) := by assumption) (_ : p (.regs .tb) := by assumption) (_ : p (.regs .fs) := by assumption) (_ : p (.regs .le) := by assumption) (_ : p (.regs .tw) := by assumption) (_ : p (.regs .am) := by assumption) (_ : p (.regs .mi) := by assumption) (_ : p (.regs .dc) := by assumption) (_ : p (.regs .di) := by assumption) (_ : p (.regs .hp) := by assumption) (_ : p (.regs .wl) := by assumption) (_ : (∀ b, p (.regs b)) := by assumption) :
    Keeps p r (State.auxStart s testEn) := by
  unfold State.auxStart
  repeat' first
    | with_reducible assumption
    | (show p (.regs _); assumption)
    | (extract_lets +onlyGivenNames y; refine Keeps.via (x := y) ?_ (fun _ => ?_); subst y; rotate_left; clear_value y)
    | (extract_lets +onlyGivenNames y; clear_value y)
    | with_reducible apply Keeps.ite
    | with_reducible apply modPwr_keeps
    | with_reducible apply powerOn_keeps
    | with_reducible apply flag_keeps
    | with_reducible apply resumeAudit_keeps
    | with_reducible apply wr_keeps
    | with_reducible apply bootStart_keeps
    | (with_reducible refine Keeps.via ?_ id; split)
    | with_reducible apply_assumption

theorem railsOff_keeps (h : Keeps p r s) (_ : p (.regs .ps) := by assumption) :
    Keeps p r (State.railsOff s) := by
  unfold State.railsOff
  repeat' first
    | with_reducible assumption
    | (show p (.regs _); assumption)
    | with_reducible apply Keeps.ite
    | with_reducible apply wr_keeps
    | with_reducible refine Keeps.foldl _ ?_ (fun _ _ _ => ?_)
    | (with_reducible refine Keeps.via ?_ id; split)
    | with_reducible apply_assumption

theorem clearRun_keeps (h : Keeps p r s) (_ : p .cells := by assumption) (_ : p .memory := by assumption) (_ : p .timebase := by assumption) (_ : p .schedule := by assumption) (_ : p .lasts := by assumption) (_ : p .heads := by assumption) (_ : p .access := by assumption) (_ : p .lamps := by assumption) (_ : p .clocks := by assumption) (_ : p .welt := by assumption) (_ : p .leader := by assumption) (_ : p (.regs .mg) := by assumption) (_ : p (.regs .fc) := by assumption) (_ : p (.regs .ps) := by assumption) (_ : p (.regs .th) := by assumption) (_ : p (.regs .ck) := by assumption) (_ : p (.regs .tb) := by assumption) (_ : p (.regs .fs) := by assumption) (_ : p (.regs .le) := by assumption) (_ : p (.regs .tw) := by assumption) (_ : p (.regs .am) := by assumption) (_ : p (.regs .mi) := by assumption) (_ : p (.regs .dc) := by assumption) (_ : p (.regs .di) := by assumption) (_ : p (.regs .hp) := by assumption) (_ : p (.regs .wl) := by assumption) (_ : (∀ b, p (.regs b)) := by assumption) : Keeps p r (State.clearRun s) := by
  refine h.trans ⟨rfl, le_rfl, le_rfl, List.prefix_rfl, List.suffix_rfl, regsMap_rising _ _ _, fun i =>
    ⟨regsMap_wf _ _ _ i.regs, i.flash, rfl, i.audit, i.stamps, (fun _ hx => nomatch hx), i.storeA, i.storeB, Nat.zero_le _, rfl, i.sorted.2⟩, fun x hx => by
    cases x <;> first | rfl | exact absurd ‹p .leader› hx | exact absurd ‹∀ b, p (.regs b)› fun c => hx (c _) | exact absurd ‹p .cells› hx | exact absurd ‹p .memory› hx | exact absurd ‹p .schedule› hx | exact absurd ‹p .lasts› hx | exact absurd ‹p .lamps› hx | exact absurd ‹p .welt› hx | exact absurd ‹p .clocks› hx | exact absurd ‹p .heads› hx | exact absurd ‹p .access› hx | exact absurd ‹p .timebase› hx⟩

theorem endLoss_keeps (h : Keeps p r s) (_ : p .thermal := by assumption) (_ : p (.regs .th) := by assumption) :
    Keeps p r (State.endLoss s) := by
  unfold State.endLoss
  repeat' first
    | with_reducible assumption
    | (show p (.regs _); assumption)
    | (extract_lets +onlyGivenNames y; refine Keeps.via (x := y) ?_ (fun _ => ?_); subst y; rotate_left; clear_value y)
    | (extract_lets +onlyGivenNames y; refine Keeps.viaFun (x := y) (fun _ => ?_) (fun _ => ?_); subst y; rotate_left; clear_value y)
    | (extract_lets +onlyGivenNames y; clear_value y)
    | with_reducible apply flag_keeps
    | with_reducible apply modTh_keeps
    | with_reducible apply wr_keeps
    | with_reducible apply_assumption

theorem svcRun_keeps (h : Keeps p r s) (_ : p .cells := by assumption) (_ : p .memory := by assumption) (_ : p .flash := by assumption) (_ : p .audit := by assumption) (_ : p .start := by assumption) (_ : p .manage := by assumption) (_ : p .store := by assumption) (_ : p .waiting := by assumption) (_ : p .timebase := by assumption) (_ : p .schedule := by assumption) (_ : p .lasts := by assumption) (_ : p .heads := by assumption) (_ : p .access := by assumption) (_ : p .lamps := by assumption) (_ : p .thermal := by assumption) (_ : p .clocks := by assumption) (_ : p .welt := by assumption) (_ : p .leader := by assumption) (_ : p .power := by assumption) (_ : p .outputs := by assumption) (_ : p .draws := by assumption) (_ : p (.regs .mg) := by assumption) (_ : p (.regs .fc) := by assumption) (_ : p (.regs .ps) := by assumption) (_ : p (.regs .th) := by assumption) (_ : p (.regs .ck) := by assumption) (_ : p (.regs .tb) := by assumption) (_ : p (.regs .fs) := by assumption) (_ : p (.regs .le) := by assumption) (_ : p (.regs .tw) := by assumption) (_ : p (.regs .am) := by assumption) (_ : p (.regs .mi) := by assumption) (_ : p (.regs .dc) := by assumption) (_ : p (.regs .di) := by assumption) (_ : p (.regs .hp) := by assumption) (_ : p (.regs .wl) := by assumption) (_ : (∀ b, p (.regs b)) := by assumption) :
    Keeps p r (State.svcRun s) := by
  unfold State.svcRun
  repeat' first
    | with_reducible assumption
    | (show p (.regs _); assumption)
    | (extract_lets +onlyGivenNames y; refine Keeps.via (x := y) ?_ (fun _ => ?_); subst y; rotate_left; clear_value y)
    | (extract_lets +onlyGivenNames y; clear_value y)
    | with_reducible apply endLoss_keeps
    | with_reducible apply railsOff_keeps
    | with_reducible apply clearRun_keeps
    | with_reducible apply wr_keeps
    | with_reducible apply modTb_keeps
    | with_reducible apply flag_keeps
    | with_reducible apply modPwr_keeps
    | with_reducible apply modMg_keeps
    | with_reducible apply bootStart_keeps
    | with_reducible apply resumeAudit_keeps
    | with_reducible refine Keeps.foldl _ ?_ (fun _ _ _ => ?_)
    | exact Or.inl (by assumption)
    | exact Or.inr rfl
    | exact rfl
    | exact State.Sorted.modMg rfl rfl
    | exact State.Sorted.modLe rfl rfl
    | exact id
    | exact List.suffix_rfl
    | exact fun _ => Nat.zero_le _
    | with_reducible refine Keeps.ofSnd (by assumption) ?_
    | with_reducible refine Keeps.ofFst (by assumption) ?_
    | with_reducible apply_assumption

theorem loadRail_keeps (h : Keeps p r s) (rr : Nat) (b : List Byte) (_ : p .waiting := by assumption) (_ : p (.regs .ps) := by assumption) :
    Keeps p r (State.loadRail s rr b) := by
  unfold State.loadRail
  repeat' first
    | with_reducible assumption
    | (show p (.regs _); assumption)
    | (extract_lets +onlyGivenNames y; refine Keeps.via (x := y) ?_ (fun _ => ?_); subst y; rotate_left; clear_value y)
    | (extract_lets +onlyGivenNames y; clear_value y)
    | with_reducible apply Keeps.ite
    | with_reducible apply wr_keeps
    | with_reducible apply setWindow_keeps
    | with_reducible apply flag_keeps
    | with_reducible apply raiseL_keeps
    | (with_reducible refine Keeps.via ?_ id; split)

theorem loadRails_keeps (h : Keeps p r s) (_ : p .waiting := by assumption) (_ : p (.regs .ps) := by assumption) :
    Keeps p r (State.loadRails s) := by
  unfold State.loadRails
  repeat' first
    | with_reducible assumption
    | with_reducible apply loadRail_keeps
    | with_reducible refine Keeps.foldl _ ?_ (fun _ _ _ => ?_)
    | with_reducible apply_assumption

/-- The audit log is put back as it was. -/
theorem putBackAudit (h : Keeps p r s) {u : State} (hu : Keeps p r u) (ha : p .audit) :
    Keeps p r (u.modMg fun m =>
      { m with audit := s.mg.audit, auditSeq := s.mg.auditSeq, auditWait := s.mg.auditWait, refusals := s.mg.refusals }) :=
  ⟨hu.queue, hu.clock, hu.draws, hu.out, hu.otp, hu.rising, fun i =>
    ⟨(hu.inv i).regs, (hu.inv i).flash, (hu.inv i).cells, (h.inv i).audit, (hu.inv i).stamps, (hu.inv i).stamps2, (hu.inv i).storeA, (hu.inv i).storeB,
      (hu.inv i).poison, (hu.inv i).sorted⟩, fun x hx => by
    cases x
    case audit => exact absurd ha hx
    all_goals exact hu.frame _ hx⟩

theorem applyEntry_keeps (h : Keeps p r s) (e : Nat × Nat × Nat) (_ : p .memory := by assumption) (_ : p .flash := by assumption) (_ : p .roles := by assumption) (_ : p .audit := by assumption) (_ : p .manage := by assumption) (_ : p .store := by assumption) (_ : p .waiting := by assumption) (_ : p .clock := by assumption) (_ : p .timebase := by assumption) (_ : p .schedule := by assumption) (_ : p .lasts := by assumption) (_ : p .heads := by assumption) (_ : p .lamps := by assumption) (_ : p .clocks := by assumption) (_ : p .welt := by assumption) (_ : p .power := by assumption) (_ : p .draws := by assumption) (_ : p (.regs .mg) := by assumption) (_ : p (.regs .fc) := by assumption) (_ : p (.regs .ps) := by assumption) (_ : p (.regs .th) := by assumption) (_ : p (.regs .ck) := by assumption) (_ : p (.regs .tb) := by assumption) (_ : p (.regs .fs) := by assumption) (_ : p (.regs .le) := by assumption) (_ : p (.regs .tw) := by assumption) (_ : p (.regs .am) := by assumption) (_ : p (.regs .mi) := by assumption) (_ : p (.regs .dc) := by assumption) (_ : p (.regs .di) := by assumption) (_ : p (.regs .hp) := by assumption) (_ : p (.regs .wl) := by assumption) (_ : (∀ b, p (.regs b)) := by assumption) : Keeps p r (State.applyEntry s e) := by
  unfold State.applyEntry
  dsimp only
  split
  · exact setWord_keeps (putBackAudit h (modRole_keeps (writeEffect_keeps (storeWrite_keeps (modRole_keeps h _ _) _ _ _ _
      (fun b _ => (by assumption : ∀ b, p (.regs b)) b)) _ _ _ _) _ _) (by assumption)) _ _ (fun b _ => (by assumption : ∀ b, p (.regs b)) b)
  · exact h

theorem applyList_keeps (h : Keeps p r s) (maxRole : Nat) (aux : Bool) (l : List (Nat × Nat × Nat)) (_ : p .memory := by assumption) (_ : p .flash := by assumption) (_ : p .roles := by assumption) (_ : p .audit := by assumption) (_ : p .manage := by assumption) (_ : p .store := by assumption) (_ : p .waiting := by assumption) (_ : p .clock := by assumption) (_ : p .timebase := by assumption) (_ : p .schedule := by assumption) (_ : p .lasts := by assumption) (_ : p .heads := by assumption) (_ : p .lamps := by assumption) (_ : p .clocks := by assumption) (_ : p .welt := by assumption) (_ : p .power := by assumption) (_ : p .draws := by assumption) (_ : p (.regs .mg) := by assumption) (_ : p (.regs .fc) := by assumption) (_ : p (.regs .ps) := by assumption) (_ : p (.regs .th) := by assumption) (_ : p (.regs .ck) := by assumption) (_ : p (.regs .tb) := by assumption) (_ : p (.regs .fs) := by assumption) (_ : p (.regs .le) := by assumption) (_ : p (.regs .tw) := by assumption) (_ : p (.regs .am) := by assumption) (_ : p (.regs .mi) := by assumption) (_ : p (.regs .dc) := by assumption) (_ : p (.regs .di) := by assumption) (_ : p (.regs .hp) := by assumption) (_ : p (.regs .wl) := by assumption) (_ : (∀ b, p (.regs b)) := by assumption) :
    Keeps p r (State.applyList s maxRole aux l) := by
  unfold State.applyList
  repeat' first
    | with_reducible assumption
    | with_reducible apply applyEntry_keeps
    | with_reducible refine Keeps.foldl _ ?_ (fun _ _ _ => ?_)
    | with_reducible refine Keeps.foldlFst _ ?_ (fun _ _ _ => ?_)
    | with_reducible refine Keeps.foldlSnd _ ?_ (fun _ _ _ => ?_)
    | with_reducible apply_assumption

theorem applyLists_keeps (h : Keeps p r s) (aux : Bool) (_ : p .memory := by assumption) (_ : p .flash := by assumption) (_ : p .roles := by assumption) (_ : p .audit := by assumption) (_ : p .manage := by assumption) (_ : p .store := by assumption) (_ : p .waiting := by assumption) (_ : p .clock := by assumption) (_ : p .timebase := by assumption) (_ : p .schedule := by assumption) (_ : p .lasts := by assumption) (_ : p .heads := by assumption) (_ : p .lamps := by assumption) (_ : p .clocks := by assumption) (_ : p .welt := by assumption) (_ : p .power := by assumption) (_ : p .draws := by assumption) (_ : p (.regs .mg) := by assumption) (_ : p (.regs .fc) := by assumption) (_ : p (.regs .ps) := by assumption) (_ : p (.regs .th) := by assumption) (_ : p (.regs .ck) := by assumption) (_ : p (.regs .tb) := by assumption) (_ : p (.regs .fs) := by assumption) (_ : p (.regs .le) := by assumption) (_ : p (.regs .tw) := by assumption) (_ : p (.regs .am) := by assumption) (_ : p (.regs .mi) := by assumption) (_ : p (.regs .dc) := by assumption) (_ : p (.regs .di) := by assumption) (_ : p (.regs .hp) := by assumption) (_ : p (.regs .wl) := by assumption) (_ : (∀ b, p (.regs b)) := by assumption) :
    Keeps p r (State.applyLists s aux) := by
  unfold State.applyLists
  repeat' first
    | with_reducible assumption
    | (extract_lets +onlyGivenNames y; refine Keeps.via (x := y) ?_ (fun _ => ?_); subst y; rotate_left; clear_value y)
    | (extract_lets +onlyGivenNames y; clear_value y)
    | with_reducible apply applyList_keeps

theorem auditList_keeps (h : Keeps p r s) (which maxRole : Nat) (l : List (Nat × Nat × Nat)) (_ : p .audit := by assumption) (_ : p (.regs .mg) := by assumption) :
    Keeps p r (State.auditList s which maxRole l) := by
  unfold State.auditList
  repeat' first
    | with_reducible assumption
    | (extract_lets +onlyGivenNames y; refine Keeps.via (x := y) ?_ (fun _ => ?_); subst y; rotate_left; clear_value y)
    | (extract_lets +onlyGivenNames y; clear_value y)
    | with_reducible apply Keeps.ite
    | with_reducible apply audit_keeps
    | (with_reducible refine Keeps.via ?_ id; split)

theorem applyCoreLists_keeps (h : Keeps p r s) (_ : p .memory := by assumption) (_ : p .flash := by assumption) (_ : p .roles := by assumption) (_ : p .audit := by assumption) (_ : p .manage := by assumption) (_ : p .store := by assumption) (_ : p .waiting := by assumption) (_ : p .clock := by assumption) (_ : p .timebase := by assumption) (_ : p .schedule := by assumption) (_ : p .lasts := by assumption) (_ : p .heads := by assumption) (_ : p .lamps := by assumption) (_ : p .clocks := by assumption) (_ : p .welt := by assumption) (_ : p .power := by assumption) (_ : p .draws := by assumption) (_ : p (.regs .mg) := by assumption) (_ : p (.regs .fc) := by assumption) (_ : p (.regs .ps) := by assumption) (_ : p (.regs .th) := by assumption) (_ : p (.regs .ck) := by assumption) (_ : p (.regs .tb) := by assumption) (_ : p (.regs .fs) := by assumption) (_ : p (.regs .le) := by assumption) (_ : p (.regs .tw) := by assumption) (_ : p (.regs .am) := by assumption) (_ : p (.regs .mi) := by assumption) (_ : p (.regs .dc) := by assumption) (_ : p (.regs .di) := by assumption) (_ : p (.regs .hp) := by assumption) (_ : p (.regs .wl) := by assumption) (_ : (∀ b, p (.regs b)) := by assumption) :
    Keeps p r (State.applyCoreLists s) := by
  unfold State.applyCoreLists
  repeat' first
    | with_reducible assumption
    | (extract_lets +onlyGivenNames y; refine Keeps.via (x := y) ?_ (fun _ => ?_); subst y; rotate_left; clear_value y)
    | (extract_lets +onlyGivenNames y; clear_value y)
    | with_reducible apply Keeps.ite
    | with_reducible apply modPwr_keeps
    | with_reducible apply applyLists_keeps
    | with_reducible apply auditList_keeps
    | (with_reducible refine Keeps.via ?_ id; split)
    | with_reducible apply_assumption

theorem afterPassport_keeps (h : Keeps p r s) (_ : p .memory := by assumption) (_ : p .flash := by assumption) (_ : p .passport := by assumption) (_ : p .roles := by assumption) (_ : p .audit := by assumption) (_ : p .manage := by assumption) (_ : p .store := by assumption) (_ : p .waiting := by assumption) (_ : p .clock := by assumption) (_ : p .timebase := by assumption) (_ : p .schedule := by assumption) (_ : p .lasts := by assumption) (_ : p .heads := by assumption) (_ : p .lamps := by assumption) (_ : p .clocks := by assumption) (_ : p .welt := by assumption) (_ : p .power := by assumption) (_ : p .draws := by assumption) (_ : p (.regs .mg) := by assumption) (_ : p (.regs .fc) := by assumption) (_ : p (.regs .ps) := by assumption) (_ : p (.regs .th) := by assumption) (_ : p (.regs .ck) := by assumption) (_ : p (.regs .tb) := by assumption) (_ : p (.regs .fs) := by assumption) (_ : p (.regs .le) := by assumption) (_ : p (.regs .tw) := by assumption) (_ : p (.regs .am) := by assumption) (_ : p (.regs .mi) := by assumption) (_ : p (.regs .dc) := by assumption) (_ : p (.regs .di) := by assumption) (_ : p (.regs .hp) := by assumption) (_ : p (.regs .wl) := by assumption) (_ : (∀ b, p (.regs b)) := by assumption) :
    Keeps p r (State.afterPassport s) := by
  unfold State.afterPassport
  repeat' first
    | with_reducible assumption
    | (extract_lets +onlyGivenNames y; refine Keeps.via (x := y) ?_ (fun _ => ?_); subst y; rotate_left; clear_value y)
    | (extract_lets +onlyGivenNames y; clear_value y)
    | with_reducible apply Keeps.ite
    | with_reducible apply applyLists_keeps
    | with_reducible apply loadRails_keeps
    | with_reducible apply rewriteTail_keeps
    | (with_reducible refine Keeps.via ?_ id; split)

theorem holdUp_keeps (h : Keeps p r s) (_ : p .waiting := by assumption) (_ : p .power := by assumption) (_ : p .draws := by assumption) (_ : p (.regs .ps) := by assumption) :
    Keeps p r (State.holdUp s) := by
  unfold State.holdUp
  repeat' first
    | with_reducible assumption
    | (show p (.regs _); assumption)
    | (extract_lets +onlyGivenNames y; refine Keeps.via (x := y) ?_ (fun _ => ?_); subst y; rotate_left; clear_value y)
    | (extract_lets +onlyGivenNames y; clear_value y)
    | with_reducible apply Keeps.ite
    | with_reducible apply flag_keeps
    | with_reducible apply wr_keeps
    | with_reducible apply modPwr_keeps
    | with_reducible apply raiseL_keeps
    | with_reducible apply free_keeps
    | (with_reducible refine Keeps.via ?_ id; split)
    | (rename Keeps p r _ => hk; exact Keeps.of_eq hk rfl le_rfl le_rfl List.prefix_rfl rfl rfl rfl rfl rfl rfl rfl rfl
        fun x hx => by cases x <;> first | rfl | exact Part.Same.regs rfl | exact absurd (by assumption) hx)
    | with_reducible apply_assumption

theorem clearRecord_keeps (h : Keeps p r s) (n : Nat) (_ : p .flash := by assumption) (_ : p .manage := by assumption) (_ : p .waiting := by assumption) (_ : p .draws := by assumption) (_ : p (.regs .di) := by assumption) :
    Keeps p r (State.clearRecord s n) := by
  unfold State.clearRecord
  repeat' first
    | with_reducible assumption
    | (show p (.regs _); assumption)
    | with_reducible apply Keeps.ite
    | with_reducible apply wr_keeps
    | with_reducible apply recordHealth_keeps
    | (with_reducible refine Keeps.via ?_ id; split)
    | with_reducible apply_assumption

theorem setSeal_keeps (h : Keeps p r s) (n : Nat) (key : BitVec 128) (lfsr : Nat) (_ : p .cells := by assumption) (_ : p .memory := by assumption) : Keeps p r (State.setSeal s n key lfsr) := by
  refine h.trans ⟨rfl, le_rfl, le_rfl, List.prefix_rfl, List.suffix_rfl, id, fun i =>
    ⟨i.regs, i.flash, ?_, i.audit, i.stamps, i.stamps2, i.storeA, i.storeB, i.poison, i.sorted⟩, fun x hx => by
    cases x <;> first | rfl | exact Part.Same.regs rfl | exact absurd ‹p .cells› hx | exact absurd ‹p .memory› hx⟩
  have hr : Sparse.rising s.mem = true := by
    have := i.cells
    unfold Sparse.wf at this
    exact (Bool.and_eq_true _ _ ▸ this).1
  unfold State.setSeal Sparse.wf
  dsimp only
  simp only [Bool.and_eq_true, List.all_eq_true]
  refine ⟨?_, fun q hq => (List.mem_filter.1 hq).2⟩
  rw [Sparse.rising_iff] at hr ⊢
  exact hr.filter _

theorem beginTraining_keeps (h : Keeps p r s) (n r0 r1 : Nat) (_ : p .cells := by assumption) (_ : p .memory := by assumption) (_ : p .draws := by assumption) (_ : p (.regs .ck) := by assumption) (_ : p (.regs .di) := by assumption) :
    Keeps p r (State.beginTraining s n r0 r1) := by
  unfold State.beginTraining
  repeat' first
    | with_reducible assumption
    | (show p (.regs _); assumption)
    | (extract_lets +onlyGivenNames y; refine Keeps.via (x := y) ?_ (fun _ => ?_); subst y; rotate_left; clear_value y)
    | (extract_lets +onlyGivenNames y; refine Keeps.via (x := y.2) ?_ (fun _ => ?_); subst y; rotate_left; clear_value y)
    | (extract_lets +onlyGivenNames y; refine Keeps.via (x := y.1) ?_ (fun _ => ?_); subst y; rotate_left; clear_value y)
    | (extract_lets +onlyGivenNames y; clear_value y)
    | with_reducible apply Keeps.ite
    | with_reducible apply draw_keeps
    | with_reducible apply setSeal_keeps
    | with_reducible apply modSub_keeps
    | with_reducible apply wr_keeps
    | (with_reducible refine Keeps.via ?_ id; split)
    | exact rfl
    | exact State.Sorted.modMg rfl rfl
    | exact State.Sorted.modLe rfl rfl
    | exact id
    | (dsimp only; split)
    | with_reducible apply_assumption

theorem lostAtStart_keeps (h : Keeps p r s) (hh : Half) (_ : p .memory := by assumption) (_ : p .flash := by assumption) (_ : p .manage := by assumption) (_ : p .waiting := by assumption) (_ : p .schedule := by assumption) (_ : p .heads := by assumption) (_ : p .lamps := by assumption) (_ : p .outputs := by assumption) (_ : p .draws := by assumption) (_ : p (.regs .mi) := by assumption) (_ : p (.regs .dc) := by assumption) (_ : p (.regs .di) := by assumption) (_ : p (.regs .hp) := by assumption) :
    Keeps p r (State.lostAtStart s hh) := by
  unfold State.lostAtStart
  repeat' first
    | with_reducible assumption
    | with_reducible apply vddqLost_keeps
    | with_reducible apply recordedMarks_keeps
    | with_reducible refine Keeps.foldl _ ?_ (fun _ _ _ => ?_)

theorem trainHalf_keeps (h : Keeps p r s) (hh : Half) (_ : p .cells := by assumption) (_ : p .memory := by assumption) (_ : p .flash := by assumption) (_ : p .manage := by assumption) (_ : p .waiting := by assumption) (_ : p .schedule := by assumption) (_ : p .heads := by assumption) (_ : p .lamps := by assumption) (_ : p .outputs := by assumption) (_ : p .draws := by assumption) (_ : p (.regs .ck) := by assumption) (_ : p (.regs .mi) := by assumption) (_ : p (.regs .dc) := by assumption) (_ : p (.regs .di) := by assumption) (_ : p (.regs .hp) := by assumption) :
    Keeps p r (State.trainHalf s hh) := by
  unfold State.trainHalf
  repeat' first
    | with_reducible assumption
    | (show p (.regs _); assumption)
    | (extract_lets +onlyGivenNames y; refine Keeps.via (x := y) ?_ (fun _ => ?_); subst y; rotate_left; clear_value y)
    | (extract_lets +onlyGivenNames y; refine Keeps.via (x := y.2) ?_ (fun _ => ?_); subst y; rotate_left; clear_value y)
    | (extract_lets +onlyGivenNames y; refine Keeps.via (x := y.1) ?_ (fun _ => ?_); subst y; rotate_left; clear_value y)
    | (extract_lets +onlyGivenNames y; clear_value y)
    | with_reducible apply Keeps.ite
    | with_reducible apply clearRecord_keeps
    | with_reducible apply wr_keeps
    | with_reducible apply beginTraining_keeps
    | with_reducible apply modDm_keeps
    | with_reducible apply loadRamp_keeps
    | with_reducible apply lostAtStart_keeps
    | with_reducible refine Keeps.foldl _ ?_ (fun _ _ _ => ?_)
    | (with_reducible refine Keeps.via ?_ id; split)
    | exact rfl
    | exact State.Sorted.modMg rfl rfl
    | exact State.Sorted.modLe rfl rfl
    | exact id
    | with_reducible refine Keeps.foldlFst _ ?_ (fun _ _ _ => ?_)
    | with_reducible refine Keeps.foldlSnd _ ?_ (fun _ _ _ => ?_)
    | with_reducible apply_assumption

theorem trainAll_keeps (h : Keeps p r s) (_ : p .cells := by assumption) (_ : p .memory := by assumption) (_ : p .flash := by assumption) (_ : p .manage := by assumption) (_ : p .waiting := by assumption) (_ : p .schedule := by assumption) (_ : p .heads := by assumption) (_ : p .lamps := by assumption) (_ : p .outputs := by assumption) (_ : p .draws := by assumption) (_ : p (.regs .ck) := by assumption) (_ : p (.regs .am) := by assumption) (_ : p (.regs .mi) := by assumption) (_ : p (.regs .dc) := by assumption) (_ : p (.regs .di) := by assumption) (_ : p (.regs .hp) := by assumption) :
    Keeps p r (State.trainAll s) := by
  unfold State.trainAll
  repeat' first
    | with_reducible assumption
    | (show p (.regs _); assumption)
    | (extract_lets +onlyGivenNames y; refine Keeps.via (x := y) ?_ (fun _ => ?_); subst y; rotate_left; clear_value y)
    | (extract_lets +onlyGivenNames y; clear_value y)
    | with_reducible apply trainHalf_keeps
    | with_reducible apply wr_keeps
    | with_reducible apply flag_keeps

theorem fuseEntry_keeps (h : Keeps p r s) (used : List (Nat × Nat × Nat)) (i : Nat) (e : List Byte) (soft hard : Bool) (_ : p .memory := by assumption) (_ : p .flash := by assumption) (_ : p .manage := by assumption) (_ : p .waiting := by assumption) (_ : p .draws := by assumption) (_ : p (.regs .mi) := by assumption) :
    Keeps p r (State.fuseEntry s used i e soft hard).2 := by
  unfold State.fuseEntry
  repeat' first
    | with_reducible assumption
    | (show p (.regs _); assumption)
    | (extract_lets +onlyGivenNames y; refine Keeps.via (x := y) ?_ (fun _ => ?_); subst y; rotate_left; clear_value y)
    | (extract_lets +onlyGivenNames y; clear_value y)
    | with_reducible apply Keeps.ite
    | with_reducible apply subMsg_keeps
    | with_reducible apply bump_keeps
    | with_reducible apply recordHealth_keeps
    | with_reducible apply modSub_keeps
    | (with_reducible refine Keeps.via ?_ id; split)
    | exact rfl
    | exact State.Sorted.modMg rfl rfl
    | exact State.Sorted.modLe rfl rfl
    | exact id
    | (dsimp only; split)
    | with_reducible refine Keeps.ofSnd (by assumption) ?_
    | with_reducible refine Keeps.ofFst (by assumption) ?_
    | with_reducible apply_assumption

theorem fuseApply_keeps (h : Keeps p r s) (ppr : List (Bool × Bool)) (_ : p .memory := by assumption) (_ : p .flash := by assumption) (_ : p .manage := by assumption) (_ : p .waiting := by assumption) (_ : p .draws := by assumption) (_ : p (.regs .mi) := by assumption) :
    Keeps p r (State.fuseApply s ppr) := by
  unfold State.fuseApply
  repeat' first
    | with_reducible assumption
    | exact blockOf_is (blockOf_fld _) (by assumption)
    | exact blockOf_is (c := .mi) (blockOf_page (show _ = 10 by omega)) (by assumption)
    | (show p (.regs _); assumption)
    | (extract_lets +onlyGivenNames y; refine Keeps.via (x := y) ?_ (fun _ => ?_); subst y; rotate_left; clear_value y)
    | (extract_lets +onlyGivenNames y; refine Keeps.via (x := y.2) ?_ (fun _ => ?_); subst y; rotate_left; clear_value y)
    | (extract_lets +onlyGivenNames y; refine Keeps.via (x := y.1) ?_ (fun _ => ?_); subst y; rotate_left; clear_value y)
    | (extract_lets +onlyGivenNames y; clear_value y)
    | with_reducible apply setWord_keeps
    | with_reducible apply fuseEntry_keeps
    | with_reducible apply wr_keeps
    | with_reducible refine Keeps.foldl _ ?_ (fun _ _ _ => ?_)
    | with_reducible refine Keeps.foldlFst _ ?_ (fun _ _ _ => ?_)
    | with_reducible refine Keeps.foldlSnd _ ?_ (fun _ _ _ => ?_)
    | with_reducible apply_assumption

theorem codecTest_keeps (h : Keeps p r s) (fail : List (Fin 16 × Fin 64)) (_ : p .cells := by assumption) (_ : p .memory := by assumption) (_ : p .store := by assumption) (_ : p .waiting := by assumption) (_ : p .timebase := by assumption) (_ : p .schedule := by assumption) (_ : p .heads := by assumption) (_ : p .lamps := by assumption) (_ : p .welt := by assumption) (_ : p .power := by assumption) (_ : p .outputs := by assumption) (_ : p .draws := by assumption) (_ : p (.regs .ps) := by assumption) (_ : p (.regs .le) := by assumption) (_ : p (.regs .mi) := by assumption) (_ : p (.regs .dc) := by assumption) (_ : p (.regs .di) := by assumption) (_ : p (.regs .hp) := by assumption) :
    Keeps p r (State.codecTest s fail) := by
  unfold State.codecTest
  repeat' first
    | with_reducible assumption
    | (show p (.regs _); assumption)
    | (extract_lets +onlyGivenNames y; refine Keeps.via (x := y) ?_ (fun _ => ?_); subst y; rotate_left; clear_value y)
    | (extract_lets +onlyGivenNames y; refine Keeps.via (x := y.2) ?_ (fun _ => ?_); subst y; rotate_left; clear_value y)
    | (extract_lets +onlyGivenNames y; refine Keeps.via (x := y.1) ?_ (fun _ => ?_); subst y; rotate_left; clear_value y)
    | (extract_lets +onlyGivenNames y; clear_value y)
    | with_reducible apply wr_keeps
    | with_reducible apply enterFatal_keeps
    | with_reducible apply subMsg_keeps
    | with_reducible refine Keeps.foldl _ ?_ (fun _ _ _ => ?_)
    | with_reducible refine Keeps.foldlFst _ ?_ (fun _ _ _ => ?_)
    | with_reducible refine Keeps.foldlSnd _ ?_ (fun _ _ _ => ?_)
    | with_reducible apply_assumption

theorem fillStart_keeps (h : Keeps p r s) (_ : p .memory := by assumption) (_ : p (.regs .mi) := by assumption) :
    Keeps p r (State.fillStart s) := by
  unfold State.fillStart
  repeat' first
    | with_reducible assumption
    | (show p (.regs _); rename Half => hh'; cases hh' <;> assumption)
    | (show p (.regs _); assumption)
    | (extract_lets +onlyGivenNames y; refine Keeps.via (x := y) ?_ (fun _ => ?_); subst y; rotate_left; clear_value y)
    | (extract_lets +onlyGivenNames y; clear_value y)
    | with_reducible apply Keeps.ite
    | with_reducible apply modSub_keeps
    | with_reducible apply flag_keeps
    | with_reducible apply wr_keeps
    | with_reducible refine Keeps.foldl _ ?_ (fun _ _ _ => ?_)
    | (with_reducible refine Keeps.via ?_ id; split)
    | exact rfl
    | exact State.Sorted.modMg rfl rfl
    | exact State.Sorted.modLe rfl rfl
    | exact id
    | (dsimp only; split)
    | with_reducible apply_assumption

theorem admitAll_keeps (h : Keeps p r s) (_ : p .schedule := by assumption) (_ : p .lasts := by assumption) :
    Keeps p r (State.admitAll s) := by
  unfold State.admitAll
  repeat' first
    | with_reducible assumption
    | (extract_lets +onlyGivenNames y; refine Keeps.via (x := y) ?_ (fun _ => ?_); subst y; rotate_left; clear_value y)
    | (extract_lets +onlyGivenNames y; clear_value y)
    | with_reducible apply modScheds_keeps
    | (with_reducible refine Keeps.via ?_ id; split)
    | (rename Keeps p r _ => hk; exact Keeps.of_eq hk rfl le_rfl le_rfl List.prefix_rfl rfl rfl rfl rfl rfl rfl rfl rfl
        fun x hx => by cases x <;> first | rfl | exact Part.Same.regs rfl | exact absurd (by assumption) hx)
    | with_reducible apply_assumption

theorem eyeletAct_keeps (h : Keeps p r s) (e : Nat) (env : EyeletEnv) (_ : p .cells := by assumption) (_ : p .memory := by assumption) (_ : p .flash := by assumption) (_ : p .passport := by assumption) (_ : p .roles := by assumption) (_ : p .audit := by assumption) (_ : p .start := by assumption) (_ : p .manage := by assumption) (_ : p .store := by assumption) (_ : p .waiting := by assumption) (_ : p .clock := by assumption) (_ : p .timebase := by assumption) (_ : p .schedule := by assumption) (_ : p .lasts := by assumption) (_ : p .heads := by assumption) (_ : p .lamps := by assumption) (_ : p .clocks := by assumption) (_ : p .welt := by assumption) (_ : p .power := by assumption) (_ : p .outputs := by assumption) (_ : p .draws := by assumption) (_ : p (.regs .mg) := by assumption) (_ : p (.regs .fc) := by assumption) (_ : p (.regs .ps) := by assumption) (_ : p (.regs .th) := by assumption) (_ : p (.regs .ck) := by assumption) (_ : p (.regs .tb) := by assumption) (_ : p (.regs .fs) := by assumption) (_ : p (.regs .le) := by assumption) (_ : p (.regs .tw) := by assumption) (_ : p (.regs .am) := by assumption) (_ : p (.regs .mi) := by assumption) (_ : p (.regs .dc) := by assumption) (_ : p (.regs .di) := by assumption) (_ : p (.regs .hp) := by assumption) (_ : p (.regs .wl) := by assumption) (_ : (∀ b, p (.regs b)) := by assumption) :
    Keeps p r (State.eyeletAct s e env) := by
  unfold State.eyeletAct
  repeat' first
    | with_reducible assumption
    | with_reducible apply afterPassport_keeps
    | with_reducible apply passportRead_keeps
    | with_reducible apply coreFails_keeps
    | with_reducible apply enableRail_keeps
    | with_reducible apply setRailen_keeps
    | with_reducible apply trainLanes_keeps
    | with_reducible apply trainAll_keeps
    | with_reducible apply codecTest_keeps
    | with_reducible apply fuseApply_keeps
    | with_reducible apply fillStart_keeps
    | with_reducible apply admitAll_keeps
    | with_reducible refine Keeps.foldl _ ?_ (fun _ _ _ => ?_)
    | (with_reducible refine Keeps.via ?_ id; split)
    | with_reducible refine Keeps.foldlFst _ ?_ (fun _ _ _ => ?_)
    | with_reducible refine Keeps.foldlSnd _ ?_ (fun _ _ _ => ?_)

theorem eyeletSettles_keeps (h : Keeps p r s) (e : Nat) (_ : p .memory := by assumption) (_ : p .waiting := by assumption) (_ : p .timebase := by assumption) (_ : p .schedule := by assumption) (_ : p .heads := by assumption) (_ : p .lamps := by assumption) (_ : p .welt := by assumption) (_ : p .leader := by assumption) (_ : p .power := by assumption) (_ : p .outputs := by assumption) (_ : p .draws := by assumption) (_ : p (.regs .ps) := by assumption) (_ : p (.regs .le) := by assumption) (_ : p (.regs .mi) := by assumption) (_ : p (.regs .dc) := by assumption) (_ : p (.regs .di) := by assumption) (_ : p (.regs .hp) := by assumption) (_ : p (.regs .wl) := by assumption) :
    Keeps p r (State.eyeletSettles s e) := by
  unfold State.eyeletSettles
  repeat' first
    | with_reducible assumption
    | with_reducible apply Keeps.ite
    | with_reducible apply holdUp_keeps
    | with_reducible apply elect_keeps
    | with_reducible apply weltUp_keeps
    | with_reducible apply enterSplit_keeps
    | (with_reducible refine Keeps.via ?_ id; split)

theorem auxUp_kept (h : Keeps p r s) (testEn : Bool) (_ : p .cells := by assumption) (_ : p .memory := by assumption) (_ : p .flash := by assumption) (_ : p .roles := by assumption) (_ : p .audit := by assumption) (_ : p .start := by assumption) (_ : p .manage := by assumption) (_ : p .store := by assumption) (_ : p .waiting := by assumption) (_ : p .clock := by assumption) (_ : p .timebase := by assumption) (_ : p .schedule := by assumption) (_ : p .lasts := by assumption) (_ : p .heads := by assumption) (_ : p .access := by assumption) (_ : p .lamps := by assumption) (_ : p .thermal := by assumption) (_ : p .clocks := by assumption) (_ : p .welt := by assumption) (_ : p .leader := by assumption) (_ : p .power := by assumption) (_ : p .outputs := by assumption) (_ : p .draws := by assumption) (_ : p (.regs .mg) := by assumption) (_ : p (.regs .fc) := by assumption) (_ : p (.regs .ps) := by assumption) (_ : p (.regs .th) := by assumption) (_ : p (.regs .ck) := by assumption) (_ : p (.regs .tb) := by assumption) (_ : p (.regs .fs) := by assumption) (_ : p (.regs .le) := by assumption) (_ : p (.regs .tw) := by assumption) (_ : p (.regs .am) := by assumption) (_ : p (.regs .mi) := by assumption) (_ : p (.regs .dc) := by assumption) (_ : p (.regs .di) := by assumption) (_ : p (.regs .hp) := by assumption) (_ : p (.regs .wl) := by assumption) (_ : (∀ b, p (.regs b)) := by assumption) :
    Keeps p r (auxUp testEn s) := by
  unfold auxUp
  repeat' first
    | with_reducible assumption
    | with_reducible apply Keeps.ite
    | with_reducible apply auxStart_keeps
    | (with_reducible refine Keeps.via ?_ id; split)

theorem eyeletEntry_kept (h : Keeps p r s) (env : EyeletEnv) (_ : p .cells := by assumption) (_ : p .memory := by assumption) (_ : p .flash := by assumption) (_ : p .passport := by assumption) (_ : p .roles := by assumption) (_ : p .audit := by assumption) (_ : p .start := by assumption) (_ : p .manage := by assumption) (_ : p .store := by assumption) (_ : p .waiting := by assumption) (_ : p .clock := by assumption) (_ : p .timebase := by assumption) (_ : p .schedule := by assumption) (_ : p .lasts := by assumption) (_ : p .heads := by assumption) (_ : p .lamps := by assumption) (_ : p .clocks := by assumption) (_ : p .welt := by assumption) (_ : p .power := by assumption) (_ : p .outputs := by assumption) (_ : p .draws := by assumption) (_ : p (.regs .mg) := by assumption) (_ : p (.regs .fc) := by assumption) (_ : p (.regs .ps) := by assumption) (_ : p (.regs .th) := by assumption) (_ : p (.regs .ck) := by assumption) (_ : p (.regs .tb) := by assumption) (_ : p (.regs .fs) := by assumption) (_ : p (.regs .le) := by assumption) (_ : p (.regs .tw) := by assumption) (_ : p (.regs .am) := by assumption) (_ : p (.regs .mi) := by assumption) (_ : p (.regs .dc) := by assumption) (_ : p (.regs .di) := by assumption) (_ : p (.regs .hp) := by assumption) (_ : p (.regs .wl) := by assumption) (_ : (∀ b, p (.regs b)) := by assumption) :
    Keeps p r (eyeletEntry env s) := by
  unfold eyeletEntry
  repeat' first
    | with_reducible assumption
    | (show p (.regs _); assumption)
    | (extract_lets +onlyGivenNames y; refine Keeps.via (x := y) ?_ (fun _ => ?_); subst y; rotate_left; clear_value y)
    | (extract_lets +onlyGivenNames y; clear_value y)
    | with_reducible apply Keeps.ite
    | with_reducible apply modPwr_keeps
    | with_reducible apply wr_keeps
    | with_reducible apply eyeletFail_keeps
    | with_reducible apply eyeletAct_keeps
    | (with_reducible refine Keeps.via ?_ id; split)
    | with_reducible apply_assumption

theorem passportRetry_kept (h : Keeps p r s) (pp : PpRead) (_ : p .memory := by assumption) (_ : p .flash := by assumption) (_ : p .passport := by assumption) (_ : p .roles := by assumption) (_ : p .audit := by assumption) (_ : p .start := by assumption) (_ : p .manage := by assumption) (_ : p .store := by assumption) (_ : p .waiting := by assumption) (_ : p .clock := by assumption) (_ : p .timebase := by assumption) (_ : p .schedule := by assumption) (_ : p .lasts := by assumption) (_ : p .heads := by assumption) (_ : p .lamps := by assumption) (_ : p .clocks := by assumption) (_ : p .welt := by assumption) (_ : p .power := by assumption) (_ : p .draws := by assumption) (_ : p (.regs .mg) := by assumption) (_ : p (.regs .fc) := by assumption) (_ : p (.regs .ps) := by assumption) (_ : p (.regs .th) := by assumption) (_ : p (.regs .ck) := by assumption) (_ : p (.regs .tb) := by assumption) (_ : p (.regs .fs) := by assumption) (_ : p (.regs .le) := by assumption) (_ : p (.regs .tw) := by assumption) (_ : p (.regs .am) := by assumption) (_ : p (.regs .mi) := by assumption) (_ : p (.regs .dc) := by assumption) (_ : p (.regs .di) := by assumption) (_ : p (.regs .hp) := by assumption) (_ : p (.regs .wl) := by assumption) (_ : (∀ b, p (.regs b)) := by assumption) :
    Keeps p r (passportRetry pp s) := by
  unfold passportRetry
  repeat' first
    | with_reducible assumption
    | with_reducible apply Keeps.ite
    | with_reducible apply afterPassport_keeps
    | with_reducible apply passportRead_keeps
    | (with_reducible refine Keeps.via ?_ id; split)

theorem eyeletComplete_kept (h : Keeps p r s) (_ : p .memory := by assumption) (_ : p .waiting := by assumption) (_ : p .clock := by assumption) (_ : p .timebase := by assumption) (_ : p .schedule := by assumption) (_ : p .heads := by assumption) (_ : p .lamps := by assumption) (_ : p .welt := by assumption) (_ : p .leader := by assumption) (_ : p .power := by assumption) (_ : p .outputs := by assumption) (_ : p .draws := by assumption) (_ : p (.regs .mg) := by assumption) (_ : p (.regs .ps) := by assumption) (_ : p (.regs .le) := by assumption) (_ : p (.regs .mi) := by assumption) (_ : p (.regs .dc) := by assumption) (_ : p (.regs .di) := by assumption) (_ : p (.regs .hp) := by assumption) (_ : p (.regs .wl) := by assumption) :
    Keeps p r (eyeletComplete s) := by
  unfold eyeletComplete
  repeat' first
    | with_reducible assumption
    | (show p (.regs _); assumption)
    | (extract_lets +onlyGivenNames y; refine Keeps.via (x := y) ?_ (fun _ => ?_); subst y; rotate_left; clear_value y)
    | (extract_lets +onlyGivenNames y; clear_value y)
    | with_reducible apply Keeps.ite
    | with_reducible apply eyeletFail_keeps
    | with_reducible apply jumpTo_keeps
    | with_reducible apply wr_keeps
    | with_reducible apply eyeletSettles_keeps
    | with_reducible apply modPwr_keeps
    | with_reducible apply nextEyelet_keeps
    | (with_reducible refine Keeps.via ?_ id; split)
    | with_reducible apply_assumption

theorem coreGood_keeps (h : Keeps p r s) (hh : Half) (_ : p .memory := by assumption) (_ : p .flash := by assumption) (_ : p .roles := by assumption) (_ : p .audit := by assumption) (_ : p .manage := by assumption) (_ : p .store := by assumption) (_ : p .waiting := by assumption) (_ : p .clock := by assumption) (_ : p .timebase := by assumption) (_ : p .schedule := by assumption) (_ : p .lasts := by assumption) (_ : p .heads := by assumption) (_ : p .lamps := by assumption) (_ : p .clocks := by assumption) (_ : p .welt := by assumption) (_ : p .leader := by assumption) (_ : p .power := by assumption) (_ : p .draws := by assumption) (_ : p (.regs .mg) := by assumption) (_ : p (.regs .fc) := by assumption) (_ : p (.regs .ps) := by assumption) (_ : p (.regs .th) := by assumption) (_ : p (.regs .ck) := by assumption) (_ : p (.regs .tb) := by assumption) (_ : p (.regs .fs) := by assumption) (_ : p (.regs .le) := by assumption) (_ : p (.regs .tw) := by assumption) (_ : p (.regs .am) := by assumption) (_ : p (.regs .mi) := by assumption) (_ : p (.regs .dc) := by assumption) (_ : p (.regs .di) := by assumption) (_ : p (.regs .hp) := by assumption) (_ : p (.regs .wl) := by assumption) (_ : (∀ b, p (.regs b)) := by assumption) :
    Keeps p r (State.coreGood s hh) := by
  unfold State.coreGood
  repeat' first
    | with_reducible assumption
    | (extract_lets +onlyGivenNames y; refine Keeps.via (x := y) ?_ (fun _ => ?_); subst y; rotate_left; clear_value y)
    | (extract_lets +onlyGivenNames y; clear_value y)
    | with_reducible apply Keeps.ite
    | with_reducible apply applyCoreLists_keeps
    | with_reducible apply modWh_keeps
    | with_reducible apply electLate_keeps
    | with_reducible apply enableCorePll_keeps
    | (with_reducible refine Keeps.via ?_ id; split)
    | with_reducible apply_assumption

theorem railGood_kept (h : Keeps p r s) (rr : Fin 12) (_ : p .memory := by assumption) (_ : p .flash := by assumption) (_ : p .roles := by assumption) (_ : p .audit := by assumption) (_ : p .manage := by assumption) (_ : p .store := by assumption) (_ : p .waiting := by assumption) (_ : p .clock := by assumption) (_ : p .timebase := by assumption) (_ : p .schedule := by assumption) (_ : p .lasts := by assumption) (_ : p .heads := by assumption) (_ : p .lamps := by assumption) (_ : p .clocks := by assumption) (_ : p .welt := by assumption) (_ : p .leader := by assumption) (_ : p .power := by assumption) (_ : p .draws := by assumption) (_ : p (.regs .mg) := by assumption) (_ : p (.regs .fc) := by assumption) (_ : p (.regs .ps) := by assumption) (_ : p (.regs .th) := by assumption) (_ : p (.regs .ck) := by assumption) (_ : p (.regs .tb) := by assumption) (_ : p (.regs .fs) := by assumption) (_ : p (.regs .le) := by assumption) (_ : p (.regs .tw) := by assumption) (_ : p (.regs .am) := by assumption) (_ : p (.regs .mi) := by assumption) (_ : p (.regs .dc) := by assumption) (_ : p (.regs .di) := by assumption) (_ : p (.regs .hp) := by assumption) (_ : p (.regs .wl) := by assumption) (_ : (∀ b, p (.regs b)) := by assumption) :
    Keeps p r (railGood rr s) := by
  unfold railGood
  repeat' first
    | with_reducible assumption
    | (show p (.regs _); assumption)
    | (extract_lets +onlyGivenNames y; refine Keeps.via (x := y) ?_ (fun _ => ?_); subst y; rotate_left; clear_value y)
    | (extract_lets +onlyGivenNames y; refine Keeps.via (x := y.2) ?_ (fun _ => ?_); subst y; rotate_left; clear_value y)
    | (extract_lets +onlyGivenNames y; refine Keeps.via (x := y.1) ?_ (fun _ => ?_); subst y; rotate_left; clear_value y)
    | (extract_lets +onlyGivenNames y; clear_value y)
    | with_reducible apply Keeps.ite
    | with_reducible apply wr_keeps
    | with_reducible apply coreGood_keeps
    | (with_reducible refine Keeps.via ?_ id; split)
    | with_reducible refine Keeps.ofSnd (by assumption) ?_
    | with_reducible refine Keeps.ofFst (by assumption) ?_

theorem auxReset_kept (h : Keeps p r s) (_ : p .cells := by assumption) (_ : p .memory := by assumption) (_ : p .flash := by assumption) (_ : p .roles := by assumption) (_ : p .audit := by assumption) (_ : p .start := by assumption) (_ : p .manage := by assumption) (_ : p .store := by assumption) (_ : p .waiting := by assumption) (_ : p .clock := by assumption) (_ : p .timebase := by assumption) (_ : p .schedule := by assumption) (_ : p .lasts := by assumption) (_ : p .heads := by assumption) (_ : p .access := by assumption) (_ : p .lamps := by assumption) (_ : p .thermal := by assumption) (_ : p .clocks := by assumption) (_ : p .welt := by assumption) (_ : p .leader := by assumption) (_ : p .power := by assumption) (_ : p .draws := by assumption) (_ : p (.regs .mg) := by assumption) (_ : p (.regs .fc) := by assumption) (_ : p (.regs .ps) := by assumption) (_ : p (.regs .th) := by assumption) (_ : p (.regs .ck) := by assumption) (_ : p (.regs .tb) := by assumption) (_ : p (.regs .fs) := by assumption) (_ : p (.regs .le) := by assumption) (_ : p (.regs .tw) := by assumption) (_ : p (.regs .am) := by assumption) (_ : p (.regs .mi) := by assumption) (_ : p (.regs .dc) := by assumption) (_ : p (.regs .di) := by assumption) (_ : p (.regs .hp) := by assumption) (_ : p (.regs .wl) := by assumption) (_ : (∀ b, p (.regs b)) := by assumption) :
    Keeps p r (auxReset s) := by
  unfold auxReset
  repeat' first
    | with_reducible assumption
    | (extract_lets +onlyGivenNames y; refine Keeps.via (x := y) ?_ (fun _ => ?_); subst y; rotate_left; clear_value y)
    | (extract_lets +onlyGivenNames y; clear_value y)
    | with_reducible apply Keeps.ite
    | with_reducible apply flashCut_keeps
    | with_reducible apply powerOn_keeps
    | with_reducible apply flashCutOff_keeps
    | (with_reducible refine Keeps.via ?_ id; split)

theorem svcStart_kept (h : Keeps p r s) (_ : p .cells := by assumption) (_ : p .memory := by assumption) (_ : p .flash := by assumption) (_ : p .audit := by assumption) (_ : p .start := by assumption) (_ : p .manage := by assumption) (_ : p .store := by assumption) (_ : p .waiting := by assumption) (_ : p .timebase := by assumption) (_ : p .schedule := by assumption) (_ : p .lasts := by assumption) (_ : p .heads := by assumption) (_ : p .access := by assumption) (_ : p .lamps := by assumption) (_ : p .thermal := by assumption) (_ : p .clocks := by assumption) (_ : p .welt := by assumption) (_ : p .leader := by assumption) (_ : p .power := by assumption) (_ : p .outputs := by assumption) (_ : p .draws := by assumption) (_ : p (.regs .mg) := by assumption) (_ : p (.regs .fc) := by assumption) (_ : p (.regs .ps) := by assumption) (_ : p (.regs .th) := by assumption) (_ : p (.regs .ck) := by assumption) (_ : p (.regs .tb) := by assumption) (_ : p (.regs .fs) := by assumption) (_ : p (.regs .le) := by assumption) (_ : p (.regs .tw) := by assumption) (_ : p (.regs .am) := by assumption) (_ : p (.regs .mi) := by assumption) (_ : p (.regs .dc) := by assumption) (_ : p (.regs .di) := by assumption) (_ : p (.regs .hp) := by assumption) (_ : p (.regs .wl) := by assumption) (_ : (∀ b, p (.regs b)) := by assumption) :
    Keeps p r (svcStart s) := by
  unfold svcStart
  repeat' first
    | with_reducible assumption
    | (extract_lets +onlyGivenNames y; refine Keeps.via (x := y) ?_ (fun _ => ?_); subst y; rotate_left; clear_value y)
    | (extract_lets +onlyGivenNames y; clear_value y)
    | with_reducible apply Keeps.ite
    | with_reducible apply svcRun_keeps
    | (with_reducible refine Keeps.via ?_ id; split)

end Sys2Proof.Machine
end

