-- ==== Sys2Proof/Laws/KeepsExec.lean ====
section
/-! SUPPORT. What every command keeps (Sys2Proof/Laws/Keeps.lean): the queue, the clock, the draws, the output trace, programmed OTP words, the
bounds of `State.Inv`, and every part of the state outside its footprint. -/
set_option Elab.async false
namespace Sys2Proof.Machine

theorem exec_keeps (i : Instr) (s t : State) (h : exec i s = .next t) : Keeps (· ∈ footprint i) s t := by
  cases i with
  | auxUp _ => obtain rfl := Host.Outcome.next.inj h; exact auxUp_kept (Keeps.refl s) _ (List.mem_of_elem_eq_true rfl) (List.mem_of_elem_eq_true rfl) (List.mem_of_elem_eq_true rfl) (List.mem_of_elem_eq_true rfl) (List.mem_of_elem_eq_true rfl) (List.mem_of_elem_eq_true rfl) (List.mem_of_elem_eq_true rfl) (List.mem_of_elem_eq_true rfl) (List.mem_of_elem_eq_true rfl) (List.mem_of_elem_eq_true rfl) (List.mem_of_elem_eq_true rfl) (List.mem_of_elem_eq_true rfl) (List.mem_of_elem_eq_true rfl) (List.mem_of_elem_eq_true rfl) (List.mem_of_elem_eq_true rfl) (List.mem_of_elem_eq_true rfl) (List.mem_of_elem_eq_true rfl) (List.mem_of_elem_eq_true rfl) (List.mem_of_elem_eq_true rfl) (List.mem_of_elem_eq_true rfl) (List.mem_of_elem_eq_true rfl) (List.mem_of_elem_eq_true rfl) (List.mem_of_elem_eq_true rfl) (List.mem_of_elem_eq_true rfl) (List.mem_of_elem_eq_true rfl) (List.mem_of_elem_eq_true rfl) (List.mem_of_elem_eq_true rfl) (List.mem_of_elem_eq_true rfl) (List.mem_of_elem_eq_true rfl) (List.mem_of_elem_eq_true rfl) (List.mem_of_elem_eq_true rfl) (List.mem_of_elem_eq_true rfl) (List.mem_of_elem_eq_true rfl) (List.mem_of_elem_eq_true rfl) (List.mem_of_elem_eq_true rfl) (List.mem_of_elem_eq_true rfl) (List.mem_of_elem_eq_true rfl) (List.mem_of_elem_eq_true rfl) (fun b => by cases b <;> exact List.mem_of_elem_eq_true rfl)
  | eyeletEntry _ => obtain rfl := Host.Outcome.next.inj h; exact eyeletEntry_kept (Keeps.refl s) _ (List.mem_of_elem_eq_true rfl) (List.mem_of_elem_eq_true rfl) (List.mem_of_elem_eq_true rfl) (List.mem_of_elem_eq_true rfl) (List.mem_of_elem_eq_true rfl) (List.mem_of_elem_eq_true rfl) (List.mem_of_elem_eq_true rfl) (List.mem_of_elem_eq_true rfl) (List.mem_of_elem_eq_true rfl) (List.mem_of_elem_eq_true rfl) (List.mem_of_elem_eq_true rfl) (List.mem_of_elem_eq_true rfl) (List.mem_of_elem_eq_true rfl) (List.mem_of_elem_eq_true rfl) (List.mem_of_elem_eq_true rfl) (List.mem_of_elem_eq_true rfl) (List.mem_of_elem_eq_true rfl) (List.mem_of_elem_eq_true rfl) (List.mem_of_elem_eq_true rfl) (List.mem_of_elem_eq_true rfl) (List.mem_of_elem_eq_true rfl) (List.mem_of_elem_eq_true rfl) (List.mem_of_elem_eq_true rfl) (List.mem_of_elem_eq_true rfl) (List.mem_of_elem_eq_true rfl) (List.mem_of_elem_eq_true rfl) (List.mem_of_elem_eq_true rfl) (List.mem_of_elem_eq_true rfl) (List.mem_of_elem_eq_true rfl) (List.mem_of_elem_eq_true rfl) (List.mem_of_elem_eq_true rfl) (List.mem_of_elem_eq_true rfl) (List.mem_of_elem_eq_true rfl) (List.mem_of_elem_eq_true rfl) (List.mem_of_elem_eq_true rfl) (List.mem_of_elem_eq_true rfl) (fun b => by cases b <;> exact List.mem_of_elem_eq_true rfl)
  | passportRetry _ => obtain rfl := Host.Outcome.next.inj h; exact passportRetry_kept (Keeps.refl s) _ (List.mem_of_elem_eq_true rfl) (List.mem_of_elem_eq_true rfl) (List.mem_of_elem_eq_true rfl) (List.mem_of_elem_eq_true rfl) (List.mem_of_elem_eq_true rfl) (List.mem_of_elem_eq_true rfl) (List.mem_of_elem_eq_true rfl) (List.mem_of_elem_eq_true rfl) (List.mem_of_elem_eq_true rfl) (List.mem_of_elem_eq_true rfl) (List.mem_of_elem_eq_true rfl) (List.mem_of_elem_eq_true rfl) (List.mem_of_elem_eq_true rfl) (List.mem_of_elem_eq_true rfl) (List.mem_of_elem_eq_true rfl) (List.mem_of_elem_eq_true rfl) (List.mem_of_elem_eq_true rfl) (List.mem_of_elem_eq_true rfl) (List.mem_of_elem_eq_true rfl) (List.mem_of_elem_eq_true rfl) (List.mem_of_elem_eq_true rfl) (List.mem_of_elem_eq_true rfl) (List.mem_of_elem_eq_true rfl) (List.mem_of_elem_eq_true rfl) (List.mem_of_elem_eq_true rfl) (List.mem_of_elem_eq_true rfl) (List.mem_of_elem_eq_true rfl) (List.mem_of_elem_eq_true rfl) (List.mem_of_elem_eq_true rfl) (List.mem_of_elem_eq_true rfl) (List.mem_of_elem_eq_true rfl) (List.mem_of_elem_eq_true rfl) (List.mem_of_elem_eq_true rfl) (List.mem_of_elem_eq_true rfl) (fun b => by cases b <;> exact List.mem_of_elem_eq_true rfl)
  | trainingDone _ _ _ _ _ _ _ => obtain rfl := Host.Outcome.next.inj h; exact trainingDone_kept (Keeps.refl s) _ _ _ _ (List.mem_of_elem_eq_true rfl) (List.mem_of_elem_eq_true rfl) (List.mem_of_elem_eq_true rfl) (List.mem_of_elem_eq_true rfl) (List.mem_of_elem_eq_true rfl) (List.mem_of_elem_eq_true rfl) (List.mem_of_elem_eq_true rfl) (List.mem_of_elem_eq_true rfl) (List.mem_of_elem_eq_true rfl) (List.mem_of_elem_eq_true rfl) (List.mem_of_elem_eq_true rfl)
  | fillDone => obtain rfl := Host.Outcome.next.inj h; exact fillDone_kept (Keeps.refl s) (List.mem_of_elem_eq_true rfl) (List.mem_of_elem_eq_true rfl) (List.mem_of_elem_eq_true rfl) (List.mem_of_elem_eq_true rfl) (List.mem_of_elem_eq_true rfl) (List.mem_of_elem_eq_true rfl) (List.mem_of_elem_eq_true rfl)
  | eyeletComplete => obtain rfl := Host.Outcome.next.inj h; exact eyeletComplete_kept (Keeps.refl s) (List.mem_of_elem_eq_true rfl) (List.mem_of_elem_eq_true rfl) (List.mem_of_elem_eq_true rfl) (List.mem_of_elem_eq_true rfl) (List.mem_of_elem_eq_true rfl) (List.mem_of_elem_eq_true rfl) (List.mem_of_elem_eq_true rfl) (List.mem_of_elem_eq_true rfl) (List.mem_of_elem_eq_true rfl) (List.mem_of_elem_eq_true rfl) (List.mem_of_elem_eq_true rfl) (List.mem_of_elem_eq_true rfl) (List.mem_of_elem_eq_true rfl) (List.mem_of_elem_eq_true rfl) (List.mem_of_elem_eq_true rfl) (List.mem_of_elem_eq_true rfl) (List.mem_of_elem_eq_true rfl) (List.mem_of_elem_eq_true rfl) (List.mem_of_elem_eq_true rfl) (List.mem_of_elem_eq_true rfl)
  | laceRise => obtain rfl := Host.Outcome.next.inj h; exact laceRise_kept (Keeps.refl s) (List.mem_of_elem_eq_true rfl) (List.mem_of_elem_eq_true rfl) (List.mem_of_elem_eq_true rfl)
  | eyeWarn => obtain rfl := Host.Outcome.next.inj h; exact eyeWarn_kept (Keeps.refl s) (List.mem_of_elem_eq_true rfl) (List.mem_of_elem_eq_true rfl) (List.mem_of_elem_eq_true rfl)
  | laceAbort => obtain rfl := Host.Outcome.next.inj h; exact laceAbort_kept (Keeps.refl s) (List.mem_of_elem_eq_true rfl) (List.mem_of_elem_eq_true rfl) (List.mem_of_elem_eq_true rfl) (List.mem_of_elem_eq_true rfl) (List.mem_of_elem_eq_true rfl) (List.mem_of_elem_eq_true rfl) (List.mem_of_elem_eq_true rfl) (List.mem_of_elem_eq_true rfl) (List.mem_of_elem_eq_true rfl) (List.mem_of_elem_eq_true rfl) (List.mem_of_elem_eq_true rfl) (List.mem_of_elem_eq_true rfl) (List.mem_of_elem_eq_true rfl) (List.mem_of_elem_eq_true rfl) (List.mem_of_elem_eq_true rfl) (List.mem_of_elem_eq_true rfl) (List.mem_of_elem_eq_true rfl) (List.mem_of_elem_eq_true rfl) (List.mem_of_elem_eq_true rfl) (List.mem_of_elem_eq_true rfl) (List.mem_of_elem_eq_true rfl) (List.mem_of_elem_eq_true rfl)
  | laceGlitch => obtain rfl := Host.Outcome.next.inj h; exact laceGlitch_kept (Keeps.refl s) (List.mem_of_elem_eq_true rfl) (List.mem_of_elem_eq_true rfl)
  | laceAbortWrite _ => obtain rfl := Host.Outcome.next.inj h; exact laceAbortCmd_kept (Keeps.refl s) _ (List.mem_of_elem_eq_true rfl) (List.mem_of_elem_eq_true rfl) (List.mem_of_elem_eq_true rfl) (List.mem_of_elem_eq_true rfl) (List.mem_of_elem_eq_true rfl) (List.mem_of_elem_eq_true rfl)
  | softStartFail _ _ _ => obtain rfl := Host.Outcome.next.inj h; exact softStartFail_kept (Keeps.refl s) _ _ _ (List.mem_of_elem_eq_true rfl) (List.mem_of_elem_eq_true rfl) (List.mem_of_elem_eq_true rfl) (List.mem_of_elem_eq_true rfl) (List.mem_of_elem_eq_true rfl) (List.mem_of_elem_eq_true rfl) (List.mem_of_elem_eq_true rfl) (List.mem_of_elem_eq_true rfl) (List.mem_of_elem_eq_true rfl) (List.mem_of_elem_eq_true rfl) (List.mem_of_elem_eq_true rfl) (List.mem_of_elem_eq_true rfl) (List.mem_of_elem_eq_true rfl) (List.mem_of_elem_eq_true rfl) (List.mem_of_elem_eq_true rfl) (List.mem_of_elem_eq_true rfl) (List.mem_of_elem_eq_true rfl) (List.mem_of_elem_eq_true rfl) (List.mem_of_elem_eq_true rfl) (List.mem_of_elem_eq_true rfl) (List.mem_of_elem_eq_true rfl) (List.mem_of_elem_eq_true rfl) (List.mem_of_elem_eq_true rfl) (List.mem_of_elem_eq_true rfl) (List.mem_of_elem_eq_true rfl) (List.mem_of_elem_eq_true rfl)
  | softStartRetry _ => obtain rfl := Host.Outcome.next.inj h; exact softStartRetry_kept (Keeps.refl s) _ (List.mem_of_elem_eq_true rfl) (List.mem_of_elem_eq_true rfl)
  | railGood _ => obtain rfl := Host.Outcome.next.inj h; exact railGood_kept (Keeps.refl s) _ (List.mem_of_elem_eq_true rfl) (List.mem_of_elem_eq_true rfl) (List.mem_of_elem_eq_true rfl) (List.mem_of_elem_eq_true rfl) (List.mem_of_elem_eq_true rfl) (List.mem_of_elem_eq_true rfl) (List.mem_of_elem_eq_true rfl) (List.mem_of_elem_eq_true rfl) (List.mem_of_elem_eq_true rfl) (List.mem_of_elem_eq_true rfl) (List.mem_of_elem_eq_true rfl) (List.mem_of_elem_eq_true rfl) (List.mem_of_elem_eq_true rfl) (List.mem_of_elem_eq_true rfl) (List.mem_of_elem_eq_true rfl) (List.mem_of_elem_eq_true rfl) (List.mem_of_elem_eq_true rfl) (List.mem_of_elem_eq_true rfl) (List.mem_of_elem_eq_true rfl) (List.mem_of_elem_eq_true rfl) (List.mem_of_elem_eq_true rfl) (List.mem_of_elem_eq_true rfl) (List.mem_of_elem_eq_true rfl) (List.mem_of_elem_eq_true rfl) (List.mem_of_elem_eq_true rfl) (List.mem_of_elem_eq_true rfl) (List.mem_of_elem_eq_true rfl) (List.mem_of_elem_eq_true rfl) (List.mem_of_elem_eq_true rfl) (List.mem_of_elem_eq_true rfl) (List.mem_of_elem_eq_true rfl) (List.mem_of_elem_eq_true rfl) (List.mem_of_elem_eq_true rfl) (fun b => by cases b <;> exact List.mem_of_elem_eq_true rfl)
  | railFail _ _ _ => obtain rfl := Host.Outcome.next.inj h; exact railFail_kept (Keeps.refl s) _ _ _ (List.mem_of_elem_eq_true rfl) (List.mem_of_elem_eq_true rfl) (List.mem_of_elem_eq_true rfl) (List.mem_of_elem_eq_true rfl) (List.mem_of_elem_eq_true rfl) (List.mem_of_elem_eq_true rfl) (List.mem_of_elem_eq_true rfl) (List.mem_of_elem_eq_true rfl) (List.mem_of_elem_eq_true rfl) (List.mem_of_elem_eq_true rfl) (List.mem_of_elem_eq_true rfl) (List.mem_of_elem_eq_true rfl) (List.mem_of_elem_eq_true rfl) (List.mem_of_elem_eq_true rfl) (List.mem_of_elem_eq_true rfl) (List.mem_of_elem_eq_true rfl) (List.mem_of_elem_eq_true rfl) (List.mem_of_elem_eq_true rfl) (List.mem_of_elem_eq_true rfl) (List.mem_of_elem_eq_true rfl) (List.mem_of_elem_eq_true rfl) (List.mem_of_elem_eq_true rfl) (List.mem_of_elem_eq_true rfl) (List.mem_of_elem_eq_true rfl) (List.mem_of_elem_eq_true rfl) (List.mem_of_elem_eq_true rfl)
  | transitionStart _ _ => obtain rfl := Host.Outcome.next.inj h; exact transitionStart_kept (Keeps.refl s) _ _ (List.mem_of_elem_eq_true rfl) (List.mem_of_elem_eq_true rfl) (List.mem_of_elem_eq_true rfl) (List.mem_of_elem_eq_true rfl) (List.mem_of_elem_eq_true rfl) (List.mem_of_elem_eq_true rfl)
  | transitionBlankEnd => obtain rfl := Host.Outcome.next.inj h; exact transitionBlankEnd_kept (Keeps.refl s) (List.mem_of_elem_eq_true rfl) (List.mem_of_elem_eq_true rfl)
  | pfwAssert _ => obtain rfl := Host.Outcome.next.inj h; exact pfwAssert_kept (Keeps.refl s) _ (List.mem_of_elem_eq_true rfl) (List.mem_of_elem_eq_true rfl) (List.mem_of_elem_eq_true rfl) (List.mem_of_elem_eq_true rfl) (List.mem_of_elem_eq_true rfl) (List.mem_of_elem_eq_true rfl)
  | pfwRide => obtain rfl := Host.Outcome.next.inj h; exact pfwRide_kept (Keeps.refl s) (List.mem_of_elem_eq_true rfl) (List.mem_of_elem_eq_true rfl)
  | pfwDelayEnd => obtain rfl := Host.Outcome.next.inj h; exact pfwDelayEnd_kept (Keeps.refl s) (List.mem_of_elem_eq_true rfl) (List.mem_of_elem_eq_true rfl) (List.mem_of_elem_eq_true rfl) (List.mem_of_elem_eq_true rfl) (List.mem_of_elem_eq_true rfl) (List.mem_of_elem_eq_true rfl) (List.mem_of_elem_eq_true rfl) (List.mem_of_elem_eq_true rfl) (List.mem_of_elem_eq_true rfl) (List.mem_of_elem_eq_true rfl) (List.mem_of_elem_eq_true rfl) (List.mem_of_elem_eq_true rfl) (List.mem_of_elem_eq_true rfl) (List.mem_of_elem_eq_true rfl) (List.mem_of_elem_eq_true rfl) (List.mem_of_elem_eq_true rfl) (List.mem_of_elem_eq_true rfl) (List.mem_of_elem_eq_true rfl) (List.mem_of_elem_eq_true rfl) (List.mem_of_elem_eq_true rfl) (List.mem_of_elem_eq_true rfl) (List.mem_of_elem_eq_true rfl)
  | railGroupDrop => obtain rfl := Host.Outcome.next.inj h; exact railGroupDrop_kept (Keeps.refl s) (List.mem_of_elem_eq_true rfl) (List.mem_of_elem_eq_true rfl)
  | powerFailRecord _ _ _ _ _ => obtain rfl := Host.Outcome.next.inj h; exact powerFailRecord_kept (Keeps.refl s) _ _ _ _ _ (List.mem_of_elem_eq_true rfl) (List.mem_of_elem_eq_true rfl) (List.mem_of_elem_eq_true rfl)
  | recordWritten _ => obtain rfl := Host.Outcome.next.inj h; exact recordWritten_kept (Keeps.refl s) _ (List.mem_of_elem_eq_true rfl) (List.mem_of_elem_eq_true rfl) (List.mem_of_elem_eq_true rfl) (List.mem_of_elem_eq_true rfl) (List.mem_of_elem_eq_true rfl)
  | vauxFail _ _ => obtain rfl := Host.Outcome.next.inj h; exact vauxFail_kept (Keeps.refl s) _ _ (List.mem_of_elem_eq_true rfl) (List.mem_of_elem_eq_true rfl) (List.mem_of_elem_eq_true rfl) (List.mem_of_elem_eq_true rfl) (List.mem_of_elem_eq_true rfl) (List.mem_of_elem_eq_true rfl) (List.mem_of_elem_eq_true rfl) (List.mem_of_elem_eq_true rfl) (List.mem_of_elem_eq_true rfl) (List.mem_of_elem_eq_true rfl) (List.mem_of_elem_eq_true rfl) (List.mem_of_elem_eq_true rfl) (List.mem_of_elem_eq_true rfl) (List.mem_of_elem_eq_true rfl) (List.mem_of_elem_eq_true rfl) (List.mem_of_elem_eq_true rfl) (List.mem_of_elem_eq_true rfl) (List.mem_of_elem_eq_true rfl) (List.mem_of_elem_eq_true rfl) (List.mem_of_elem_eq_true rfl) (List.mem_of_elem_eq_true rfl) (List.mem_of_elem_eq_true rfl)
  | auxReset => obtain rfl := Host.Outcome.next.inj h; exact auxReset_kept (Keeps.refl s) (List.mem_of_elem_eq_true rfl) (List.mem_of_elem_eq_true rfl) (List.mem_of_elem_eq_true rfl) (List.mem_of_elem_eq_true rfl) (List.mem_of_elem_eq_true rfl) (List.mem_of_elem_eq_true rfl) (List.mem_of_elem_eq_true rfl) (List.mem_of_elem_eq_true rfl) (List.mem_of_elem_eq_true rfl) (List.mem_of_elem_eq_true rfl) (List.mem_of_elem_eq_true rfl) (List.mem_of_elem_eq_true rfl) (List.mem_of_elem_eq_true rfl) (List.mem_of_elem_eq_true rfl) (List.mem_of_elem_eq_true rfl) (List.mem_of_elem_eq_true rfl) (List.mem_of_elem_eq_true rfl) (List.mem_of_elem_eq_true rfl) (List.mem_of_elem_eq_true rfl) (List.mem_of_elem_eq_true rfl) (List.mem_of_elem_eq_true rfl) (List.mem_of_elem_eq_true rfl) (List.mem_of_elem_eq_true rfl) (List.mem_of_elem_eq_true rfl) (List.mem_of_elem_eq_true rfl) (List.mem_of_elem_eq_true rfl) (List.mem_of_elem_eq_true rfl) (List.mem_of_elem_eq_true rfl) (List.mem_of_elem_eq_true rfl) (List.mem_of_elem_eq_true rfl) (List.mem_of_elem_eq_true rfl) (List.mem_of_elem_eq_true rfl) (List.mem_of_elem_eq_true rfl) (List.mem_of_elem_eq_true rfl) (List.mem_of_elem_eq_true rfl) (List.mem_of_elem_eq_true rfl) (List.mem_of_elem_eq_true rfl) (fun b => by cases b <;> exact List.mem_of_elem_eq_true rfl)
  | vinReturnOff _ => obtain rfl := Host.Outcome.next.inj h; exact vinReturnOff_kept (Keeps.refl s) _ (List.mem_of_elem_eq_true rfl)
  | shortPress => obtain rfl := Host.Outcome.next.inj h; exact shortPress_kept (Keeps.refl s) (List.mem_of_elem_eq_true rfl) (List.mem_of_elem_eq_true rfl) (List.mem_of_elem_eq_true rfl) (List.mem_of_elem_eq_true rfl) (List.mem_of_elem_eq_true rfl) (List.mem_of_elem_eq_true rfl) (List.mem_of_elem_eq_true rfl) (List.mem_of_elem_eq_true rfl) (List.mem_of_elem_eq_true rfl) (List.mem_of_elem_eq_true rfl) (List.mem_of_elem_eq_true rfl) (List.mem_of_elem_eq_true rfl) (List.mem_of_elem_eq_true rfl) (List.mem_of_elem_eq_true rfl) (List.mem_of_elem_eq_true rfl) (List.mem_of_elem_eq_true rfl) (List.mem_of_elem_eq_true rfl) (List.mem_of_elem_eq_true rfl) (List.mem_of_elem_eq_true rfl) (List.mem_of_elem_eq_true rfl) (fun b => by cases b <;> exact List.mem_of_elem_eq_true rfl)
  | forcedOff => obtain rfl := Host.Outcome.next.inj h; exact forcedOff_kept (Keeps.refl s) (List.mem_of_elem_eq_true rfl) (List.mem_of_elem_eq_true rfl) (List.mem_of_elem_eq_true rfl) (List.mem_of_elem_eq_true rfl) (List.mem_of_elem_eq_true rfl) (List.mem_of_elem_eq_true rfl) (List.mem_of_elem_eq_true rfl) (List.mem_of_elem_eq_true rfl) (List.mem_of_elem_eq_true rfl) (List.mem_of_elem_eq_true rfl) (List.mem_of_elem_eq_true rfl) (List.mem_of_elem_eq_true rfl) (List.mem_of_elem_eq_true rfl) (List.mem_of_elem_eq_true rfl) (List.mem_of_elem_eq_true rfl) (List.mem_of_elem_eq_true rfl) (List.mem_of_elem_eq_true rfl) (List.mem_of_elem_eq_true rfl) (List.mem_of_elem_eq_true rfl) (List.mem_of_elem_eq_true rfl) (List.mem_of_elem_eq_true rfl) (List.mem_of_elem_eq_true rfl)
  | svcStart => obtain rfl := Host.Outcome.next.inj h; exact svcStart_kept (Keeps.refl s) (List.mem_of_elem_eq_true rfl) (List.mem_of_elem_eq_true rfl) (List.mem_of_elem_eq_true rfl) (List.mem_of_elem_eq_true rfl) (List.mem_of_elem_eq_true rfl) (List.mem_of_elem_eq_true rfl) (List.mem_of_elem_eq_true rfl) (List.mem_of_elem_eq_true rfl) (List.mem_of_elem_eq_true rfl) (List.mem_of_elem_eq_true rfl) (List.mem_of_elem_eq_true rfl) (List.mem_of_elem_eq_true rfl) (List.mem_of_elem_eq_true rfl) (List.mem_of_elem_eq_true rfl) (List.mem_of_elem_eq_true rfl) (List.mem_of_elem_eq_true rfl) (List.mem_of_elem_eq_true rfl) (List.mem_of_elem_eq_true rfl) (List.mem_of_elem_eq_true rfl) (List.mem_of_elem_eq_true rfl) (List.mem_of_elem_eq_true rfl) (List.mem_of_elem_eq_true rfl) (List.mem_of_elem_eq_true rfl) (List.mem_of_elem_eq_true rfl) (List.mem_of_elem_eq_true rfl) (List.mem_of_elem_eq_true rfl) (List.mem_of_elem_eq_true rfl) (List.mem_of_elem_eq_true rfl) (List.mem_of_elem_eq_true rfl) (List.mem_of_elem_eq_true rfl) (List.mem_of_elem_eq_true rfl) (List.mem_of_elem_eq_true rfl) (List.mem_of_elem_eq_true rfl) (List.mem_of_elem_eq_true rfl) (List.mem_of_elem_eq_true rfl) (List.mem_of_elem_eq_true rfl) (fun b => by cases b <;> exact List.mem_of_elem_eq_true rfl)
  | warmReset => obtain rfl := Host.Outcome.next.inj h; exact mgWarmReset_kept (Keeps.refl s) (List.mem_of_elem_eq_true rfl) (List.mem_of_elem_eq_true rfl) (List.mem_of_elem_eq_true rfl) (List.mem_of_elem_eq_true rfl) (List.mem_of_elem_eq_true rfl) (List.mem_of_elem_eq_true rfl) (List.mem_of_elem_eq_true rfl) (List.mem_of_elem_eq_true rfl) (List.mem_of_elem_eq_true rfl) (List.mem_of_elem_eq_true rfl) (List.mem_of_elem_eq_true rfl) (List.mem_of_elem_eq_true rfl) (List.mem_of_elem_eq_true rfl) (List.mem_of_elem_eq_true rfl) (List.mem_of_elem_eq_true rfl) (List.mem_of_elem_eq_true rfl) (List.mem_of_elem_eq_true rfl) (List.mem_of_elem_eq_true rfl) (List.mem_of_elem_eq_true rfl) (fun b => by cases b <;> exact List.mem_of_elem_eq_true rfl)
  | watchdogExpiry _ => obtain rfl := Host.Outcome.next.inj h; exact watchdogExpiry_kept (Keeps.refl s) _ (List.mem_of_elem_eq_true rfl) (List.mem_of_elem_eq_true rfl) (List.mem_of_elem_eq_true rfl) (List.mem_of_elem_eq_true rfl) (List.mem_of_elem_eq_true rfl) (List.mem_of_elem_eq_true rfl) (List.mem_of_elem_eq_true rfl) (List.mem_of_elem_eq_true rfl) (List.mem_of_elem_eq_true rfl) (List.mem_of_elem_eq_true rfl) (List.mem_of_elem_eq_true rfl) (List.mem_of_elem_eq_true rfl) (List.mem_of_elem_eq_true rfl) (List.mem_of_elem_eq_true rfl) (List.mem_of_elem_eq_true rfl) (List.mem_of_elem_eq_true rfl) (List.mem_of_elem_eq_true rfl) (List.mem_of_elem_eq_true rfl) (List.mem_of_elem_eq_true rfl) (List.mem_of_elem_eq_true rfl) (fun b => by cases b <;> exact List.mem_of_elem_eq_true rfl)
  | tickStart _ => obtain rfl := Host.Outcome.next.inj h; exact ioOn_keeps (tickStart_kept (Keeps.refl s) _ (List.mem_of_elem_eq_true rfl) (List.mem_of_elem_eq_true rfl) (List.mem_of_elem_eq_true rfl) (List.mem_of_elem_eq_true rfl) (List.mem_of_elem_eq_true rfl) (List.mem_of_elem_eq_true rfl) (List.mem_of_elem_eq_true rfl) (List.mem_of_elem_eq_true rfl) (List.mem_of_elem_eq_true rfl) (List.mem_of_elem_eq_true rfl) (List.mem_of_elem_eq_true rfl) (List.mem_of_elem_eq_true rfl) (List.mem_of_elem_eq_true rfl) (List.mem_of_elem_eq_true rfl) (List.mem_of_elem_eq_true rfl) (List.mem_of_elem_eq_true rfl) (List.mem_of_elem_eq_true rfl) (List.mem_of_elem_eq_true rfl) (List.mem_of_elem_eq_true rfl) (List.mem_of_elem_eq_true rfl) (List.mem_of_elem_eq_true rfl) (List.mem_of_elem_eq_true rfl) (List.mem_of_elem_eq_true rfl) (List.mem_of_elem_eq_true rfl) (List.mem_of_elem_eq_true rfl)) (List.mem_of_elem_eq_true rfl) (List.mem_of_elem_eq_true rfl) (List.mem_of_elem_eq_true rfl) (List.mem_of_elem_eq_true rfl) (List.mem_of_elem_eq_true rfl) (List.mem_of_elem_eq_true rfl) (List.mem_of_elem_eq_true rfl) (List.mem_of_elem_eq_true rfl) (List.mem_of_elem_eq_true rfl) (List.mem_of_elem_eq_true rfl) (List.mem_of_elem_eq_true rfl) (List.mem_of_elem_eq_true rfl) (List.mem_of_elem_eq_true rfl) (List.mem_of_elem_eq_true rfl) (List.mem_of_elem_eq_true rfl) (List.mem_of_elem_eq_true rfl) (List.mem_of_elem_eq_true rfl) (List.mem_of_elem_eq_true rfl) (List.mem_of_elem_eq_true rfl) (List.mem_of_elem_eq_true rfl) (List.mem_of_elem_eq_true rfl) (List.mem_of_elem_eq_true rfl) (List.mem_of_elem_eq_true rfl) (List.mem_of_elem_eq_true rfl) (List.mem_of_elem_eq_true rfl) (List.mem_of_elem_eq_true rfl) (List.mem_of_elem_eq_true rfl) (List.mem_of_elem_eq_true rfl) (List.mem_of_elem_eq_true rfl) (List.mem_of_elem_eq_true rfl) (List.mem_of_elem_eq_true rfl) (List.mem_of_elem_eq_true rfl) (List.mem_of_elem_eq_true rfl) (List.mem_of_elem_eq_true rfl) (fun b => by cases b <;> exact List.mem_of_elem_eq_true rfl)
  | tickOutEnd => obtain rfl := Host.Outcome.next.inj h; exact tickOutEnd_kept (Keeps.refl s) (List.mem_of_elem_eq_true rfl) (List.mem_of_elem_eq_true rfl)
  | cutOff _ => obtain rfl := Host.Outcome.next.inj h; exact cutOff_kept (Keeps.refl s) _ (List.mem_of_elem_eq_true rfl) (List.mem_of_elem_eq_true rfl) (List.mem_of_elem_eq_true rfl)
  | productionEnd _ => obtain rfl := Host.Outcome.next.inj h; exact productionEnd_kept (Keeps.refl s) _ (List.mem_of_elem_eq_true rfl) (List.mem_of_elem_eq_true rfl) (List.mem_of_elem_eq_true rfl) (List.mem_of_elem_eq_true rfl) (List.mem_of_elem_eq_true rfl) (List.mem_of_elem_eq_true rfl) (List.mem_of_elem_eq_true rfl) (List.mem_of_elem_eq_true rfl) (List.mem_of_elem_eq_true rfl) (List.mem_of_elem_eq_true rfl) (List.mem_of_elem_eq_true rfl) (List.mem_of_elem_eq_true rfl) (List.mem_of_elem_eq_true rfl) (List.mem_of_elem_eq_true rfl) (List.mem_of_elem_eq_true rfl) (List.mem_of_elem_eq_true rfl) (List.mem_of_elem_eq_true rfl)
  | idleCycleEnd _ => obtain rfl := Host.Outcome.next.inj h; exact ioOn_keeps (idleCycleEnd_kept (Keeps.refl s) _ (List.mem_of_elem_eq_true rfl) (List.mem_of_elem_eq_true rfl) (List.mem_of_elem_eq_true rfl) (List.mem_of_elem_eq_true rfl) (List.mem_of_elem_eq_true rfl) (List.mem_of_elem_eq_true rfl) (List.mem_of_elem_eq_true rfl) (List.mem_of_elem_eq_true rfl) (List.mem_of_elem_eq_true rfl) (List.mem_of_elem_eq_true rfl) (List.mem_of_elem_eq_true rfl) (List.mem_of_elem_eq_true rfl) (List.mem_of_elem_eq_true rfl) (List.mem_of_elem_eq_true rfl) (List.mem_of_elem_eq_true rfl) (List.mem_of_elem_eq_true rfl)) (List.mem_of_elem_eq_true rfl) (List.mem_of_elem_eq_true rfl) (List.mem_of_elem_eq_true rfl) (List.mem_of_elem_eq_true rfl) (List.mem_of_elem_eq_true rfl) (List.mem_of_elem_eq_true rfl) (List.mem_of_elem_eq_true rfl) (List.mem_of_elem_eq_true rfl) (List.mem_of_elem_eq_true rfl) (List.mem_of_elem_eq_true rfl) (List.mem_of_elem_eq_true rfl) (List.mem_of_elem_eq_true rfl) (List.mem_of_elem_eq_true rfl) (List.mem_of_elem_eq_true rfl) (List.mem_of_elem_eq_true rfl) (List.mem_of_elem_eq_true rfl) (List.mem_of_elem_eq_true rfl) (List.mem_of_elem_eq_true rfl) (List.mem_of_elem_eq_true rfl) (List.mem_of_elem_eq_true rfl) (List.mem_of_elem_eq_true rfl) (List.mem_of_elem_eq_true rfl) (List.mem_of_elem_eq_true rfl) (List.mem_of_elem_eq_true rfl) (List.mem_of_elem_eq_true rfl) (List.mem_of_elem_eq_true rfl) (List.mem_of_elem_eq_true rfl) (List.mem_of_elem_eq_true rfl) (List.mem_of_elem_eq_true rfl) (List.mem_of_elem_eq_true rfl) (List.mem_of_elem_eq_true rfl) (List.mem_of_elem_eq_true rfl) (List.mem_of_elem_eq_true rfl) (List.mem_of_elem_eq_true rfl) (fun b => by cases b <;> exact List.mem_of_elem_eq_true rfl)
  | freeze _ => obtain rfl := Host.Outcome.next.inj h; exact freeze_kept (Keeps.refl s) _ (List.mem_of_elem_eq_true rfl) (List.mem_of_elem_eq_true rfl) (List.mem_of_elem_eq_true rfl) (List.mem_of_elem_eq_true rfl) (List.mem_of_elem_eq_true rfl) (List.mem_of_elem_eq_true rfl)
  | release _ => obtain rfl := Host.Outcome.next.inj h; exact release_kept (Keeps.refl s) _ (List.mem_of_elem_eq_true rfl) (List.mem_of_elem_eq_true rfl) (List.mem_of_elem_eq_true rfl) (List.mem_of_elem_eq_true rfl) (List.mem_of_elem_eq_true rfl) (List.mem_of_elem_eq_true rfl)
  | setDelay _ => obtain rfl := Host.Outcome.next.inj h; exact setDelay_kept (Keeps.refl s) _ (List.mem_of_elem_eq_true rfl) (List.mem_of_elem_eq_true rfl) (List.mem_of_elem_eq_true rfl) (List.mem_of_elem_eq_true rfl) (List.mem_of_elem_eq_true rfl) (List.mem_of_elem_eq_true rfl)
  | setGain _ => obtain rfl := Host.Outcome.next.inj h; exact setGain_kept (Keeps.refl s) _ (List.mem_of_elem_eq_true rfl) (List.mem_of_elem_eq_true rfl) (List.mem_of_elem_eq_true rfl) (List.mem_of_elem_eq_true rfl) (List.mem_of_elem_eq_true rfl) (List.mem_of_elem_eq_true rfl)
  | streamOn _ => obtain rfl := Host.Outcome.next.inj h; exact streamOn_kept (Keeps.refl s) _ (List.mem_of_elem_eq_true rfl) (List.mem_of_elem_eq_true rfl) (List.mem_of_elem_eq_true rfl) (List.mem_of_elem_eq_true rfl) (List.mem_of_elem_eq_true rfl) (List.mem_of_elem_eq_true rfl)
  | streamOff _ => obtain rfl := Host.Outcome.next.inj h; exact streamOff_kept (Keeps.refl s) _ (List.mem_of_elem_eq_true rfl) (List.mem_of_elem_eq_true rfl) (List.mem_of_elem_eq_true rfl) (List.mem_of_elem_eq_true rfl) (List.mem_of_elem_eq_true rfl) (List.mem_of_elem_eq_true rfl)
  | switchLast _ => obtain rfl := Host.Outcome.next.inj h; exact switchLast_kept (Keeps.refl s) _ (List.mem_of_elem_eq_true rfl) (List.mem_of_elem_eq_true rfl) (List.mem_of_elem_eq_true rfl) (List.mem_of_elem_eq_true rfl) (List.mem_of_elem_eq_true rfl) (List.mem_of_elem_eq_true rfl)
  | opcodeInvalid _ _ => obtain rfl := Host.Outcome.next.inj h; exact opcodeInvalid_kept (Keeps.refl s) _ _ (List.mem_of_elem_eq_true rfl) (List.mem_of_elem_eq_true rfl) (List.mem_of_elem_eq_true rfl) (List.mem_of_elem_eq_true rfl) (List.mem_of_elem_eq_true rfl) (List.mem_of_elem_eq_true rfl)
  | admitLast _ _ => obtain rfl := Host.Outcome.next.inj h; exact admitLast_kept (Keeps.refl s) _ _ (List.mem_of_elem_eq_true rfl) (List.mem_of_elem_eq_true rfl) (List.mem_of_elem_eq_true rfl) (List.mem_of_elem_eq_true rfl) (List.mem_of_elem_eq_true rfl) (List.mem_of_elem_eq_true rfl) (List.mem_of_elem_eq_true rfl)
  | admissionDone => obtain rfl := Host.Outcome.next.inj h; exact admissionDone_kept (Keeps.refl s) (List.mem_of_elem_eq_true rfl) (List.mem_of_elem_eq_true rfl) (List.mem_of_elem_eq_true rfl) (List.mem_of_elem_eq_true rfl) (List.mem_of_elem_eq_true rfl) (List.mem_of_elem_eq_true rfl)
  | activate _ => obtain rfl := Host.Outcome.next.inj h; exact activate_kept (Keeps.refl s) _ (List.mem_of_elem_eq_true rfl) (List.mem_of_elem_eq_true rfl) (List.mem_of_elem_eq_true rfl) (List.mem_of_elem_eq_true rfl) (List.mem_of_elem_eq_true rfl) (List.mem_of_elem_eq_true rfl) (List.mem_of_elem_eq_true rfl)
  | cancel _ => obtain rfl := Host.Outcome.next.inj h; exact cancel_kept (Keeps.refl s) _ (List.mem_of_elem_eq_true rfl) (List.mem_of_elem_eq_true rfl) (List.mem_of_elem_eq_true rfl) (List.mem_of_elem_eq_true rfl) (List.mem_of_elem_eq_true rfl) (List.mem_of_elem_eq_true rfl) (List.mem_of_elem_eq_true rfl)
  | commit _ => obtain rfl := Host.Outcome.next.inj h; exact commit_kept (Keeps.refl s) _ (List.mem_of_elem_eq_true rfl) (List.mem_of_elem_eq_true rfl) (List.mem_of_elem_eq_true rfl) (List.mem_of_elem_eq_true rfl) (List.mem_of_elem_eq_true rfl) (List.mem_of_elem_eq_true rfl)
  | lutCopyDone => obtain rfl := Host.Outcome.next.inj h; exact lutCopyDone_kept (Keeps.refl s) (List.mem_of_elem_eq_true rfl) (List.mem_of_elem_eq_true rfl)
  | lutDataAccess _ _ => obtain rfl := Host.Outcome.next.inj h; exact lutDataVia_kept (Keeps.refl s) _ _ (List.mem_of_elem_eq_true rfl) (List.mem_of_elem_eq_true rfl) (List.mem_of_elem_eq_true rfl) (List.mem_of_elem_eq_true rfl) (List.mem_of_elem_eq_true rfl) (List.mem_of_elem_eq_true rfl) (List.mem_of_elem_eq_true rfl) (List.mem_of_elem_eq_true rfl) (List.mem_of_elem_eq_true rfl) (List.mem_of_elem_eq_true rfl) (List.mem_of_elem_eq_true rfl) (List.mem_of_elem_eq_true rfl) (List.mem_of_elem_eq_true rfl) (List.mem_of_elem_eq_true rfl) (List.mem_of_elem_eq_true rfl) (List.mem_of_elem_eq_true rfl) (List.mem_of_elem_eq_true rfl) (List.mem_of_elem_eq_true rfl) (List.mem_of_elem_eq_true rfl) (List.mem_of_elem_eq_true rfl) (List.mem_of_elem_eq_true rfl) (List.mem_of_elem_eq_true rfl) (List.mem_of_elem_eq_true rfl) (List.mem_of_elem_eq_true rfl) (List.mem_of_elem_eq_true rfl) (List.mem_of_elem_eq_true rfl) (List.mem_of_elem_eq_true rfl) (List.mem_of_elem_eq_true rfl) (List.mem_of_elem_eq_true rfl) (List.mem_of_elem_eq_true rfl) (List.mem_of_elem_eq_true rfl) (List.mem_of_elem_eq_true rfl) (List.mem_of_elem_eq_true rfl) (List.mem_of_elem_eq_true rfl) (fun b => by cases b <;> exact List.mem_of_elem_eq_true rfl)
  | frameLoRead _ _ => obtain rfl := Host.Outcome.next.inj h; exact frameLoVia_kept (Keeps.refl s) _ _ (List.mem_of_elem_eq_true rfl) (List.mem_of_elem_eq_true rfl) (List.mem_of_elem_eq_true rfl) (List.mem_of_elem_eq_true rfl) (List.mem_of_elem_eq_true rfl) (List.mem_of_elem_eq_true rfl) (List.mem_of_elem_eq_true rfl) (List.mem_of_elem_eq_true rfl) (List.mem_of_elem_eq_true rfl) (List.mem_of_elem_eq_true rfl) (List.mem_of_elem_eq_true rfl) (List.mem_of_elem_eq_true rfl) (List.mem_of_elem_eq_true rfl) (List.mem_of_elem_eq_true rfl) (List.mem_of_elem_eq_true rfl) (List.mem_of_elem_eq_true rfl) (List.mem_of_elem_eq_true rfl) (List.mem_of_elem_eq_true rfl) (List.mem_of_elem_eq_true rfl) (List.mem_of_elem_eq_true rfl) (List.mem_of_elem_eq_true rfl) (List.mem_of_elem_eq_true rfl) (List.mem_of_elem_eq_true rfl) (List.mem_of_elem_eq_true rfl) (List.mem_of_elem_eq_true rfl) (List.mem_of_elem_eq_true rfl) (List.mem_of_elem_eq_true rfl) (List.mem_of_elem_eq_true rfl) (List.mem_of_elem_eq_true rfl) (List.mem_of_elem_eq_true rfl) (List.mem_of_elem_eq_true rfl) (List.mem_of_elem_eq_true rfl) (List.mem_of_elem_eq_true rfl) (List.mem_of_elem_eq_true rfl) (fun b => by cases b <;> exact List.mem_of_elem_eq_true rfl)
  | publishDoorbell _ _ _ _ => obtain rfl := Host.Outcome.next.inj h; exact publishDoorbell_kept (Keeps.refl s) _ _ _ _ (List.mem_of_elem_eq_true rfl) (List.mem_of_elem_eq_true rfl) (List.mem_of_elem_eq_true rfl) (List.mem_of_elem_eq_true rfl)
  | publicationCount _ => obtain rfl := Host.Outcome.next.inj h; exact publicationCount_kept (Keeps.refl s) _ (List.mem_of_elem_eq_true rfl) (List.mem_of_elem_eq_true rfl) (List.mem_of_elem_eq_true rfl)
  | slotSelect _ _ _ => obtain rfl := Host.Outcome.next.inj h; exact slotSelect_kept (Keeps.refl s) _ _ _ (List.mem_of_elem_eq_true rfl) (List.mem_of_elem_eq_true rfl) (List.mem_of_elem_eq_true rfl) (List.mem_of_elem_eq_true rfl)
  | pixelWindowWrite _ _ _ _ => obtain rfl := Host.Outcome.next.inj h; exact pixelWindowWrite_kept (Keeps.refl s) _ _ _ _ (List.mem_of_elem_eq_true rfl) (List.mem_of_elem_eq_true rfl) (List.mem_of_elem_eq_true rfl) (List.mem_of_elem_eq_true rfl)
  | blockRowEncoded _ => obtain rfl := Host.Outcome.next.inj h; exact blockRowEncoded_kept (Keeps.refl s) _ (List.mem_of_elem_eq_true rfl) (List.mem_of_elem_eq_true rfl) (List.mem_of_elem_eq_true rfl) (List.mem_of_elem_eq_true rfl) (List.mem_of_elem_eq_true rfl) (List.mem_of_elem_eq_true rfl) (List.mem_of_elem_eq_true rfl)
  | sizeMapMerge _ _ => obtain rfl := Host.Outcome.next.inj h; exact sizeMapMerge_kept (Keeps.refl s) _ _ (List.mem_of_elem_eq_true rfl) (List.mem_of_elem_eq_true rfl) (List.mem_of_elem_eq_true rfl) (List.mem_of_elem_eq_true rfl) (List.mem_of_elem_eq_true rfl) (List.mem_of_elem_eq_true rfl) (List.mem_of_elem_eq_true rfl)
  | pixelWindowRead _ _ _ => obtain rfl := Host.Outcome.next.inj h; exact pixelWindowRead_kept (Keeps.refl s) _ _ _ (List.mem_of_elem_eq_true rfl) (List.mem_of_elem_eq_true rfl) (List.mem_of_elem_eq_true rfl) (List.mem_of_elem_eq_true rfl) (List.mem_of_elem_eq_true rfl) (List.mem_of_elem_eq_true rfl) (List.mem_of_elem_eq_true rfl) (List.mem_of_elem_eq_true rfl) (List.mem_of_elem_eq_true rfl) (List.mem_of_elem_eq_true rfl) (List.mem_of_elem_eq_true rfl) (List.mem_of_elem_eq_true rfl) (List.mem_of_elem_eq_true rfl)
  | slotCopyToArchive _ _ _ => obtain rfl := Host.Outcome.next.inj h; exact slotCopyToArchive_kept (Keeps.refl s) _ _ _ (List.mem_of_elem_eq_true rfl) (List.mem_of_elem_eq_true rfl) (List.mem_of_elem_eq_true rfl) (List.mem_of_elem_eq_true rfl) (List.mem_of_elem_eq_true rfl) (List.mem_of_elem_eq_true rfl) (List.mem_of_elem_eq_true rfl) (List.mem_of_elem_eq_true rfl) (List.mem_of_elem_eq_true rfl) (List.mem_of_elem_eq_true rfl) (List.mem_of_elem_eq_true rfl)
  | slotCopyFromArchive _ _ => obtain rfl := Host.Outcome.next.inj h; exact slotCopyFromArchive_kept (Keeps.refl s) _ _ (List.mem_of_elem_eq_true rfl) (List.mem_of_elem_eq_true rfl) (List.mem_of_elem_eq_true rfl) (List.mem_of_elem_eq_true rfl) (List.mem_of_elem_eq_true rfl) (List.mem_of_elem_eq_true rfl) (List.mem_of_elem_eq_true rfl) (List.mem_of_elem_eq_true rfl) (List.mem_of_elem_eq_true rfl) (List.mem_of_elem_eq_true rfl) (List.mem_of_elem_eq_true rfl)
  | slotCopyDone _ => obtain rfl := Host.Outcome.next.inj h; exact slotCopyDone_kept (Keeps.refl s) _ (List.mem_of_elem_eq_true rfl) (List.mem_of_elem_eq_true rfl) (List.mem_of_elem_eq_true rfl) (List.mem_of_elem_eq_true rfl) (List.mem_of_elem_eq_true rfl) (List.mem_of_elem_eq_true rfl) (List.mem_of_elem_eq_true rfl) (List.mem_of_elem_eq_true rfl) (List.mem_of_elem_eq_true rfl) (List.mem_of_elem_eq_true rfl) (List.mem_of_elem_eq_true rfl) (List.mem_of_elem_eq_true rfl)
  | fenceRead _ => obtain rfl := Host.Outcome.next.inj h; exact fenceRead_kept (Keeps.refl s) _ (List.mem_of_elem_eq_true rfl)
  | fenceReadComplete _ _ => obtain rfl := Host.Outcome.next.inj h; exact fenceReadComplete_kept (Keeps.refl s) _ _ (List.mem_of_elem_eq_true rfl) (List.mem_of_elem_eq_true rfl) (List.mem_of_elem_eq_true rfl)
  | ringDescriptorWrite _ _ _ _ => obtain rfl := Host.Outcome.next.inj h; exact ringDescriptorWrite_kept (Keeps.refl s) _ _ _ _ (List.mem_of_elem_eq_true rfl) (List.mem_of_elem_eq_true rfl)
  | arm _ _ _ => obtain rfl := Host.Outcome.next.inj h; exact arm_kept (Keeps.refl s) _ _ _ (List.mem_of_elem_eq_true rfl) (List.mem_of_elem_eq_true rfl)
  | disarm _ _ _ => obtain rfl := Host.Outcome.next.inj h; exact disarm_kept (Keeps.refl s) _ _ _ (List.mem_of_elem_eq_true rfl) (List.mem_of_elem_eq_true rfl)
  | armEffect _ => obtain rfl := Host.Outcome.next.inj h; exact armEffect_kept (Keeps.refl s) _ (List.mem_of_elem_eq_true rfl) (List.mem_of_elem_eq_true rfl) (List.mem_of_elem_eq_true rfl)
  | consumedWrite _ _ _ => obtain rfl := Host.Outcome.next.inj h; exact consumedWrite_kept (Keeps.refl s) _ _ _ (List.mem_of_elem_eq_true rfl) (List.mem_of_elem_eq_true rfl)
  | chunkStaged _ _ => obtain rfl := Host.Outcome.next.inj h; exact chunkStaged_kept (Keeps.refl s) _ _ (List.mem_of_elem_eq_true rfl) (List.mem_of_elem_eq_true rfl) (List.mem_of_elem_eq_true rfl) (List.mem_of_elem_eq_true rfl) (List.mem_of_elem_eq_true rfl) (List.mem_of_elem_eq_true rfl) (List.mem_of_elem_eq_true rfl) (List.mem_of_elem_eq_true rfl) (List.mem_of_elem_eq_true rfl) (List.mem_of_elem_eq_true rfl) (List.mem_of_elem_eq_true rfl) (List.mem_of_elem_eq_true rfl)
  | streamOpen _ => obtain rfl := Host.Outcome.next.inj h; exact streamOpen_kept (Keeps.refl s) _ (List.mem_of_elem_eq_true rfl) (List.mem_of_elem_eq_true rfl)
  | chunkRecordWrite _ => obtain rfl := Host.Outcome.next.inj h; exact chunkRecordWrite_kept (Keeps.refl s) _ (List.mem_of_elem_eq_true rfl) (List.mem_of_elem_eq_true rfl) (List.mem_of_elem_eq_true rfl) (List.mem_of_elem_eq_true rfl) (List.mem_of_elem_eq_true rfl)
  | chunkSkip _ => obtain rfl := Host.Outcome.next.inj h; exact chunkSkip_kept (Keeps.refl s) _ _ (List.mem_of_elem_eq_true rfl) (List.mem_of_elem_eq_true rfl) (List.mem_of_elem_eq_true rfl) (List.mem_of_elem_eq_true rfl) (List.mem_of_elem_eq_true rfl)
  | recordAbandon _ => obtain rfl := Host.Outcome.next.inj h; exact recordAbandon_kept (Keeps.refl s) _ (List.mem_of_elem_eq_true rfl) (List.mem_of_elem_eq_true rfl) (List.mem_of_elem_eq_true rfl) (List.mem_of_elem_eq_true rfl) (List.mem_of_elem_eq_true rfl)
  | panicAssert _ _ => obtain rfl := Host.Outcome.next.inj h; exact panicAssert_kept (Keeps.refl s) _ _ (List.mem_of_elem_eq_true rfl) (List.mem_of_elem_eq_true rfl)
  | panicRelease _ _ => obtain rfl := Host.Outcome.next.inj h; exact panicRelease_kept (Keeps.refl s) _ _ (List.mem_of_elem_eq_true rfl) (List.mem_of_elem_eq_true rfl)
  | panicMaxExpiry _ => obtain rfl := Host.Outcome.next.inj h; exact panicMaxExpiry_kept (Keeps.refl s) _ (List.mem_of_elem_eq_true rfl) (List.mem_of_elem_eq_true rfl)
  | engineStart _ => obtain rfl := Host.Outcome.next.inj h; exact engineStart_kept (Keeps.refl s) _ (List.mem_of_elem_eq_true rfl) (List.mem_of_elem_eq_true rfl) (List.mem_of_elem_eq_true rfl) (List.mem_of_elem_eq_true rfl) (List.mem_of_elem_eq_true rfl)
  | fence _ _ => obtain rfl := Host.Outcome.next.inj h; exact fence_kept (Keeps.refl s) _ _ (List.mem_of_elem_eq_true rfl) (List.mem_of_elem_eq_true rfl) (List.mem_of_elem_eq_true rfl) (List.mem_of_elem_eq_true rfl) (List.mem_of_elem_eq_true rfl) (List.mem_of_elem_eq_true rfl) (List.mem_of_elem_eq_true rfl) (List.mem_of_elem_eq_true rfl) (List.mem_of_elem_eq_true rfl) (List.mem_of_elem_eq_true rfl)
  | enable _ _ => obtain rfl := Host.Outcome.next.inj h; exact enable_kept (Keeps.refl s) _ _ (List.mem_of_elem_eq_true rfl) (List.mem_of_elem_eq_true rfl) (List.mem_of_elem_eq_true rfl) (List.mem_of_elem_eq_true rfl) (List.mem_of_elem_eq_true rfl) (List.mem_of_elem_eq_true rfl) (List.mem_of_elem_eq_true rfl) (List.mem_of_elem_eq_true rfl) (List.mem_of_elem_eq_true rfl) (List.mem_of_elem_eq_true rfl)
  | engineSelfCheckFail _ => obtain rfl := Host.Outcome.next.inj h; exact engineSelfCheckFail_kept (Keeps.refl s) _ (List.mem_of_elem_eq_true rfl) (List.mem_of_elem_eq_true rfl) (List.mem_of_elem_eq_true rfl) (List.mem_of_elem_eq_true rfl) (List.mem_of_elem_eq_true rfl) (List.mem_of_elem_eq_true rfl) (List.mem_of_elem_eq_true rfl)
  | memRd _ _ => obtain rfl := Host.Outcome.next.inj h; exact memRd_kept (Keeps.refl s) _ _ (List.mem_of_elem_eq_true rfl) (List.mem_of_elem_eq_true rfl) (List.mem_of_elem_eq_true rfl) (List.mem_of_elem_eq_true rfl) (List.mem_of_elem_eq_true rfl) (List.mem_of_elem_eq_true rfl) (List.mem_of_elem_eq_true rfl) (List.mem_of_elem_eq_true rfl) (List.mem_of_elem_eq_true rfl) (List.mem_of_elem_eq_true rfl) (List.mem_of_elem_eq_true rfl) (List.mem_of_elem_eq_true rfl)
  | memRdData _ _ => obtain rfl := Host.Outcome.next.inj h; exact memRdData_kept (Keeps.refl s) _ _ (List.mem_of_elem_eq_true rfl) (List.mem_of_elem_eq_true rfl) (List.mem_of_elem_eq_true rfl) (List.mem_of_elem_eq_true rfl) (List.mem_of_elem_eq_true rfl) (List.mem_of_elem_eq_true rfl) (List.mem_of_elem_eq_true rfl) (List.mem_of_elem_eq_true rfl) (List.mem_of_elem_eq_true rfl) (List.mem_of_elem_eq_true rfl) (List.mem_of_elem_eq_true rfl) (List.mem_of_elem_eq_true rfl)
  | memSpecRd _ _ => obtain rfl := Host.Outcome.next.inj h; exact memSpecRd_kept (Keeps.refl s) _ _
  | memInv _ _ => obtain rfl := Host.Outcome.next.inj h; exact memInv_kept (Keeps.refl s) _ _ (List.mem_of_elem_eq_true rfl) (List.mem_of_elem_eq_true rfl) (List.mem_of_elem_eq_true rfl) (List.mem_of_elem_eq_true rfl) (List.mem_of_elem_eq_true rfl) (List.mem_of_elem_eq_true rfl) (List.mem_of_elem_eq_true rfl) (List.mem_of_elem_eq_true rfl) (List.mem_of_elem_eq_true rfl) (List.mem_of_elem_eq_true rfl) (List.mem_of_elem_eq_true rfl) (List.mem_of_elem_eq_true rfl)
  | memInvNt _ _ => obtain rfl := Host.Outcome.next.inj h; exact memInvNt_kept (Keeps.refl s) _ _ (List.mem_of_elem_eq_true rfl) (List.mem_of_elem_eq_true rfl) (List.mem_of_elem_eq_true rfl) (List.mem_of_elem_eq_true rfl) (List.mem_of_elem_eq_true rfl) (List.mem_of_elem_eq_true rfl) (List.mem_of_elem_eq_true rfl) (List.mem_of_elem_eq_true rfl) (List.mem_of_elem_eq_true rfl) (List.mem_of_elem_eq_true rfl) (List.mem_of_elem_eq_true rfl) (List.mem_of_elem_eq_true rfl)
  | memWr _ _ _ _ => obtain rfl := Host.Outcome.next.inj h; exact memWr_kept (Keeps.refl s) _ _ _ _ (List.mem_of_elem_eq_true rfl) (List.mem_of_elem_eq_true rfl) (List.mem_of_elem_eq_true rfl) (List.mem_of_elem_eq_true rfl) (List.mem_of_elem_eq_true rfl) (List.mem_of_elem_eq_true rfl) (List.mem_of_elem_eq_true rfl) (List.mem_of_elem_eq_true rfl) (List.mem_of_elem_eq_true rfl) (List.mem_of_elem_eq_true rfl) (List.mem_of_elem_eq_true rfl) (List.mem_of_elem_eq_true rfl)
  | memWrPtl _ _ _ _ => obtain rfl := Host.Outcome.next.inj h; exact memWrPtl_kept (Keeps.refl s) _ _ _ _ _ (List.mem_of_elem_eq_true rfl) (List.mem_of_elem_eq_true rfl) (List.mem_of_elem_eq_true rfl) (List.mem_of_elem_eq_true rfl) (List.mem_of_elem_eq_true rfl) (List.mem_of_elem_eq_true rfl) (List.mem_of_elem_eq_true rfl) (List.mem_of_elem_eq_true rfl) (List.mem_of_elem_eq_true rfl) (List.mem_of_elem_eq_true rfl) (List.mem_of_elem_eq_true rfl) (List.mem_of_elem_eq_true rfl)
  | dramReadReturn _ _ => obtain rfl := Host.Outcome.next.inj h; exact dramReadReturn_kept (Keeps.refl s) _ _ _ (List.mem_of_elem_eq_true rfl) (List.mem_of_elem_eq_true rfl) (List.mem_of_elem_eq_true rfl) (List.mem_of_elem_eq_true rfl) (List.mem_of_elem_eq_true rfl) (List.mem_of_elem_eq_true rfl) (List.mem_of_elem_eq_true rfl) (List.mem_of_elem_eq_true rfl) (List.mem_of_elem_eq_true rfl) (List.mem_of_elem_eq_true rfl) (List.mem_of_elem_eq_true rfl) (List.mem_of_elem_eq_true rfl) (List.mem_of_elem_eq_true rfl)
  | blockDecode _ _ _ _ => obtain rfl := Host.Outcome.next.inj h; exact ioOn_keeps (blockDecode_kept (Keeps.refl s) _ _ _ _ (List.mem_of_elem_eq_true rfl) (List.mem_of_elem_eq_true rfl) (List.mem_of_elem_eq_true rfl) (List.mem_of_elem_eq_true rfl) (List.mem_of_elem_eq_true rfl) (List.mem_of_elem_eq_true rfl) (List.mem_of_elem_eq_true rfl) (List.mem_of_elem_eq_true rfl) (List.mem_of_elem_eq_true rfl) (List.mem_of_elem_eq_true rfl) (List.mem_of_elem_eq_true rfl) (List.mem_of_elem_eq_true rfl)) (List.mem_of_elem_eq_true rfl) (List.mem_of_elem_eq_true rfl) (List.mem_of_elem_eq_true rfl) (List.mem_of_elem_eq_true rfl) (List.mem_of_elem_eq_true rfl) (List.mem_of_elem_eq_true rfl) (List.mem_of_elem_eq_true rfl) (List.mem_of_elem_eq_true rfl) (List.mem_of_elem_eq_true rfl) (List.mem_of_elem_eq_true rfl) (List.mem_of_elem_eq_true rfl) (List.mem_of_elem_eq_true rfl) (List.mem_of_elem_eq_true rfl) (List.mem_of_elem_eq_true rfl) (List.mem_of_elem_eq_true rfl) (List.mem_of_elem_eq_true rfl) (List.mem_of_elem_eq_true rfl) (List.mem_of_elem_eq_true rfl) (List.mem_of_elem_eq_true rfl) (List.mem_of_elem_eq_true rfl) (List.mem_of_elem_eq_true rfl) (List.mem_of_elem_eq_true rfl) (List.mem_of_elem_eq_true rfl) (List.mem_of_elem_eq_true rfl) (List.mem_of_elem_eq_true rfl) (List.mem_of_elem_eq_true rfl) (List.mem_of_elem_eq_true rfl) (List.mem_of_elem_eq_true rfl) (List.mem_of_elem_eq_true rfl) (List.mem_of_elem_eq_true rfl) (List.mem_of_elem_eq_true rfl) (List.mem_of_elem_eq_true rfl) (List.mem_of_elem_eq_true rfl) (List.mem_of_elem_eq_true rfl) (fun b => by cases b <;> exact List.mem_of_elem_eq_true rfl)
  | getEventRecords _ _ => obtain rfl := Host.Outcome.next.inj h; exact getEventRecords_kept (Keeps.refl s) _ _ (List.mem_of_elem_eq_true rfl) (List.mem_of_elem_eq_true rfl)
  | clearEventRecords _ _ _ => obtain rfl := Host.Outcome.next.inj h; exact clearEventRecords_kept (Keeps.refl s) _ _ _ (List.mem_of_elem_eq_true rfl) (List.mem_of_elem_eq_true rfl) (List.mem_of_elem_eq_true rfl)
  | getTimestamp _ => obtain rfl := Host.Outcome.next.inj h; exact getTimestamp_kept (Keeps.refl s) _ (List.mem_of_elem_eq_true rfl) (List.mem_of_elem_eq_true rfl)
  | setTimestamp _ _ => obtain rfl := Host.Outcome.next.inj h; exact setTimestamp_kept (Keeps.refl s) _ _ (List.mem_of_elem_eq_true rfl) (List.mem_of_elem_eq_true rfl)
  | getSupportedLogs _ => obtain rfl := Host.Outcome.next.inj h; exact getSupportedLogs_kept (Keeps.refl s) _ (List.mem_of_elem_eq_true rfl) (List.mem_of_elem_eq_true rfl)
  | getLog _ => obtain rfl := Host.Outcome.next.inj h; exact getLog_kept (Keeps.refl s) _ (List.mem_of_elem_eq_true rfl) (List.mem_of_elem_eq_true rfl)
  | identifyMemoryDevice _ => obtain rfl := Host.Outcome.next.inj h; exact identifyMemoryDevice_kept (Keeps.refl s) _ (List.mem_of_elem_eq_true rfl) (List.mem_of_elem_eq_true rfl) (List.mem_of_elem_eq_true rfl)
  | getPoisonList _ _ _ => obtain rfl := Host.Outcome.next.inj h; exact getPoisonList_kept (Keeps.refl s) _ _ _ (List.mem_of_elem_eq_true rfl) (List.mem_of_elem_eq_true rfl)
  | getHeadSummary _ => obtain rfl := Host.Outcome.next.inj h; exact getHeadSummary_kept (Keeps.refl s) _ (List.mem_of_elem_eq_true rfl) (List.mem_of_elem_eq_true rfl) (List.mem_of_elem_eq_true rfl)
  | getRingStatus _ _ _ => obtain rfl := Host.Outcome.next.inj h; exact getRingStatus_kept (Keeps.refl s) _ _ _ (List.mem_of_elem_eq_true rfl) (List.mem_of_elem_eq_true rfl)
  | getAdmissionResult _ => obtain rfl := Host.Outcome.next.inj h; exact getAdmissionResult_kept (Keeps.refl s) _ (List.mem_of_elem_eq_true rfl) (List.mem_of_elem_eq_true rfl) (List.mem_of_elem_eq_true rfl)
  | readSelvedgeLog _ _ _ => obtain rfl := Host.Outcome.next.inj h; exact readSelvedgeLog_kept (Keeps.refl s) _ _ _ (List.mem_of_elem_eq_true rfl) (List.mem_of_elem_eq_true rfl)
  | roleChallenge _ _ => obtain rfl := Host.Outcome.next.inj h; exact roleChallenge_kept (Keeps.refl s) _ _ (List.mem_of_elem_eq_true rfl) (List.mem_of_elem_eq_true rfl) (List.mem_of_elem_eq_true rfl) (List.mem_of_elem_eq_true rfl) (List.mem_of_elem_eq_true rfl)
  | roleResponse _ _ => obtain rfl := Host.Outcome.next.inj h; exact roleResponse_kept (Keeps.refl s) _ _ (List.mem_of_elem_eq_true rfl) (List.mem_of_elem_eq_true rfl) (List.mem_of_elem_eq_true rfl) (List.mem_of_elem_eq_true rfl) (List.mem_of_elem_eq_true rfl) (List.mem_of_elem_eq_true rfl)
  | dropRole _ => obtain rfl := Host.Outcome.next.inj h; exact dropRole_kept (Keeps.refl s) _ (List.mem_of_elem_eq_true rfl) (List.mem_of_elem_eq_true rfl) (List.mem_of_elem_eq_true rfl) (List.mem_of_elem_eq_true rfl) (List.mem_of_elem_eq_true rfl)
  | unsupportedOpcode _ _ => obtain rfl := Host.Outcome.next.inj h; exact unsupportedOpcode_kept (Keeps.refl s) _ _ (List.mem_of_elem_eq_true rfl) (List.mem_of_elem_eq_true rfl)
  | linkTraining _ => obtain rfl := Host.Outcome.next.inj h; exact linkTraining_kept (Keeps.refl s) _ (List.mem_of_elem_eq_true rfl) (List.mem_of_elem_eq_true rfl) (List.mem_of_elem_eq_true rfl) (List.mem_of_elem_eq_true rfl) (List.mem_of_elem_eq_true rfl)
  | linkUp _ _ _ _ => obtain rfl := Host.Outcome.next.inj h; exact ioOn_keeps (linkUp_kept (Keeps.refl s) _ _ _ _ (List.mem_of_elem_eq_true rfl) (List.mem_of_elem_eq_true rfl) (List.mem_of_elem_eq_true rfl) (List.mem_of_elem_eq_true rfl) (List.mem_of_elem_eq_true rfl) (List.mem_of_elem_eq_true rfl) (List.mem_of_elem_eq_true rfl) (List.mem_of_elem_eq_true rfl) (List.mem_of_elem_eq_true rfl) (List.mem_of_elem_eq_true rfl) (List.mem_of_elem_eq_true rfl) (List.mem_of_elem_eq_true rfl)) (List.mem_of_elem_eq_true rfl) (List.mem_of_elem_eq_true rfl) (List.mem_of_elem_eq_true rfl) (List.mem_of_elem_eq_true rfl) (List.mem_of_elem_eq_true rfl) (List.mem_of_elem_eq_true rfl) (List.mem_of_elem_eq_true rfl) (List.mem_of_elem_eq_true rfl) (List.mem_of_elem_eq_true rfl) (List.mem_of_elem_eq_true rfl) (List.mem_of_elem_eq_true rfl) (List.mem_of_elem_eq_true rfl) (List.mem_of_elem_eq_true rfl) (List.mem_of_elem_eq_true rfl) (List.mem_of_elem_eq_true rfl) (List.mem_of_elem_eq_true rfl) (List.mem_of_elem_eq_true rfl) (List.mem_of_elem_eq_true rfl) (List.mem_of_elem_eq_true rfl) (List.mem_of_elem_eq_true rfl) (List.mem_of_elem_eq_true rfl) (List.mem_of_elem_eq_true rfl) (List.mem_of_elem_eq_true rfl) (List.mem_of_elem_eq_true rfl) (List.mem_of_elem_eq_true rfl) (List.mem_of_elem_eq_true rfl) (List.mem_of_elem_eq_true rfl) (List.mem_of_elem_eq_true rfl) (List.mem_of_elem_eq_true rfl) (List.mem_of_elem_eq_true rfl) (List.mem_of_elem_eq_true rfl) (List.mem_of_elem_eq_true rfl) (List.mem_of_elem_eq_true rfl) (List.mem_of_elem_eq_true rfl) (fun b => by cases b <;> exact List.mem_of_elem_eq_true rfl)
  | linkRecovery _ => obtain rfl := Host.Outcome.next.inj h; exact linkRecovery_kept (Keeps.refl s) _ _ (List.mem_of_elem_eq_true rfl) (List.mem_of_elem_eq_true rfl) (List.mem_of_elem_eq_true rfl)
  | linkDown _ _ _ => obtain rfl := Host.Outcome.next.inj h; exact linkDown_kept (Keeps.refl s) _ _ _ (List.mem_of_elem_eq_true rfl) (List.mem_of_elem_eq_true rfl) (List.mem_of_elem_eq_true rfl) (List.mem_of_elem_eq_true rfl) (List.mem_of_elem_eq_true rfl) (List.mem_of_elem_eq_true rfl) (List.mem_of_elem_eq_true rfl) (List.mem_of_elem_eq_true rfl) (List.mem_of_elem_eq_true rfl) (List.mem_of_elem_eq_true rfl) (List.mem_of_elem_eq_true rfl)
  | perstAssert _ _ _ => obtain rfl := Host.Outcome.next.inj h; exact perstAssert_kept (Keeps.refl s) _ _ _ (List.mem_of_elem_eq_true rfl) (List.mem_of_elem_eq_true rfl) (List.mem_of_elem_eq_true rfl) (List.mem_of_elem_eq_true rfl) (List.mem_of_elem_eq_true rfl) (List.mem_of_elem_eq_true rfl) (List.mem_of_elem_eq_true rfl) (List.mem_of_elem_eq_true rfl) (List.mem_of_elem_eq_true rfl) (List.mem_of_elem_eq_true rfl) (List.mem_of_elem_eq_true rfl) (List.mem_of_elem_eq_true rfl)
  | busMasterEnableClear _ => obtain rfl := Host.Outcome.next.inj h; exact busMasterEnableClear_kept (Keeps.refl s) _ (List.mem_of_elem_eq_true rfl) (List.mem_of_elem_eq_true rfl) (List.mem_of_elem_eq_true rfl) (List.mem_of_elem_eq_true rfl) (List.mem_of_elem_eq_true rfl)
  | hdmDecoderCommit _ _ _ => obtain rfl := Host.Outcome.next.inj h; exact hdmDecoderCommit_kept (Keeps.refl s) _ _ _ (List.mem_of_elem_eq_true rfl) (List.mem_of_elem_eq_true rfl)
  | visit _ => obtain rfl := Host.Outcome.next.inj h; exact visit_kept (Keeps.refl s) _ (List.mem_of_elem_eq_true rfl) (List.mem_of_elem_eq_true rfl) (List.mem_of_elem_eq_true rfl) (List.mem_of_elem_eq_true rfl) (List.mem_of_elem_eq_true rfl) (List.mem_of_elem_eq_true rfl) (List.mem_of_elem_eq_true rfl) (List.mem_of_elem_eq_true rfl) (List.mem_of_elem_eq_true rfl) (List.mem_of_elem_eq_true rfl) (List.mem_of_elem_eq_true rfl) (List.mem_of_elem_eq_true rfl) (List.mem_of_elem_eq_true rfl)
  | refresh _ _ => obtain rfl := Host.Outcome.next.inj h; exact refresh_kept (Keeps.refl s) _ _ (List.mem_of_elem_eq_true rfl) (List.mem_of_elem_eq_true rfl)
  | refreshKeeper _ _ => obtain rfl := Host.Outcome.next.inj h; exact refreshKeeper_kept (Keeps.refl s) _ _ _ (List.mem_of_elem_eq_true rfl) (List.mem_of_elem_eq_true rfl)
  | mr4Poll _ _ _ => obtain rfl := Host.Outcome.next.inj h; exact mr4Poll_kept (Keeps.refl s) _ _ _ (List.mem_of_elem_eq_true rfl) (List.mem_of_elem_eq_true rfl) (List.mem_of_elem_eq_true rfl)
  | bulkAgePromotion _ => obtain rfl := Host.Outcome.next.inj h; exact bulkAgePromotion_kept (Keeps.refl s) _ (List.mem_of_elem_eq_true rfl) (List.mem_of_elem_eq_true rfl)
  | alertWindowExpiry _ => obtain rfl := Host.Outcome.next.inj h; exact alertWindowExpiry_kept (Keeps.refl s) _ (List.mem_of_elem_eq_true rfl)
  | writeCrcAlert _ => obtain rfl := Host.Outcome.next.inj h; exact writeCrcAlert_kept (Keeps.refl s) _ (List.mem_of_elem_eq_true rfl) (List.mem_of_elem_eq_true rfl) (List.mem_of_elem_eq_true rfl) (List.mem_of_elem_eq_true rfl)
  | verifyReadback _ _ => obtain rfl := Host.Outcome.next.inj h; exact verifyReadback_kept (Keeps.refl s) _ _ (List.mem_of_elem_eq_true rfl) (List.mem_of_elem_eq_true rfl) (List.mem_of_elem_eq_true rfl) (List.mem_of_elem_eq_true rfl)
  | tsReqWrite _ _ _ => obtain rfl := Host.Outcome.next.inj h; exact tsReqWrite_kept (Keeps.refl s) _ _ _ (List.mem_of_elem_eq_true rfl) (List.mem_of_elem_eq_true rfl) (List.mem_of_elem_eq_true rfl) (List.mem_of_elem_eq_true rfl) (List.mem_of_elem_eq_true rfl) (List.mem_of_elem_eq_true rfl) (List.mem_of_elem_eq_true rfl) (List.mem_of_elem_eq_true rfl) (List.mem_of_elem_eq_true rfl)
  | tsSwitch _ => obtain rfl := Host.Outcome.next.inj h; exact tsSwitch_kept (Keeps.refl s) _ (List.mem_of_elem_eq_true rfl) (List.mem_of_elem_eq_true rfl) (List.mem_of_elem_eq_true rfl) (List.mem_of_elem_eq_true rfl)
  | frequencyChange _ _ _ _ => obtain rfl := Host.Outcome.next.inj h; exact frequencyChange_kept (Keeps.refl s) _ _ (List.mem_of_elem_eq_true rfl) (List.mem_of_elem_eq_true rfl) (List.mem_of_elem_eq_true rfl)
  | rampEnd _ => obtain rfl := Host.Outcome.next.inj h; exact rampEnd_kept (Keeps.refl s) _ (List.mem_of_elem_eq_true rfl) (List.mem_of_elem_eq_true rfl) (List.mem_of_elem_eq_true rfl) (List.mem_of_elem_eq_true rfl) (List.mem_of_elem_eq_true rfl) (List.mem_of_elem_eq_true rfl) (List.mem_of_elem_eq_true rfl)
  | dllLock _ => obtain rfl := Host.Outcome.next.inj h; exact dllLock_kept (Keeps.refl s) _ _ (List.mem_of_elem_eq_true rfl) (List.mem_of_elem_eq_true rfl) (List.mem_of_elem_eq_true rfl) (List.mem_of_elem_eq_true rfl) (List.mem_of_elem_eq_true rfl) (List.mem_of_elem_eq_true rfl) (List.mem_of_elem_eq_true rfl) (List.mem_of_elem_eq_true rfl) (List.mem_of_elem_eq_true rfl) (List.mem_of_elem_eq_true rfl) (List.mem_of_elem_eq_true rfl) (List.mem_of_elem_eq_true rfl) (List.mem_of_elem_eq_true rfl) (List.mem_of_elem_eq_true rfl) (List.mem_of_elem_eq_true rfl) (List.mem_of_elem_eq_true rfl)
  | frequencyChangeDone => obtain rfl := Host.Outcome.next.inj h; exact ioOn_keeps (frequencyChangeDone_kept (Keeps.refl s) (List.mem_of_elem_eq_true rfl) (List.mem_of_elem_eq_true rfl) (List.mem_of_elem_eq_true rfl) (List.mem_of_elem_eq_true rfl) (List.mem_of_elem_eq_true rfl) (List.mem_of_elem_eq_true rfl) (List.mem_of_elem_eq_true rfl) (List.mem_of_elem_eq_true rfl) (List.mem_of_elem_eq_true rfl) (List.mem_of_elem_eq_true rfl) (List.mem_of_elem_eq_true rfl) (List.mem_of_elem_eq_true rfl)) (List.mem_of_elem_eq_true rfl) (List.mem_of_elem_eq_true rfl) (List.mem_of_elem_eq_true rfl) (List.mem_of_elem_eq_true rfl) (List.mem_of_elem_eq_true rfl) (List.mem_of_elem_eq_true rfl) (List.mem_of_elem_eq_true rfl) (List.mem_of_elem_eq_true rfl) (List.mem_of_elem_eq_true rfl) (List.mem_of_elem_eq_true rfl) (List.mem_of_elem_eq_true rfl) (List.mem_of_elem_eq_true rfl) (List.mem_of_elem_eq_true rfl) (List.mem_of_elem_eq_true rfl) (List.mem_of_elem_eq_true rfl) (List.mem_of_elem_eq_true rfl) (List.mem_of_elem_eq_true rfl) (List.mem_of_elem_eq_true rfl) (List.mem_of_elem_eq_true rfl) (List.mem_of_elem_eq_true rfl) (List.mem_of_elem_eq_true rfl) (List.mem_of_elem_eq_true rfl) (List.mem_of_elem_eq_true rfl) (List.mem_of_elem_eq_true rfl) (List.mem_of_elem_eq_true rfl) (List.mem_of_elem_eq_true rfl) (List.mem_of_elem_eq_true rfl) (List.mem_of_elem_eq_true rfl) (List.mem_of_elem_eq_true rfl) (List.mem_of_elem_eq_true rfl) (List.mem_of_elem_eq_true rfl) (List.mem_of_elem_eq_true rfl) (List.mem_of_elem_eq_true rfl) (List.mem_of_elem_eq_true rfl) (fun b => by cases b <;> exact List.mem_of_elem_eq_true rfl)
  | archiveSleep _ => obtain rfl := Host.Outcome.next.inj h; exact archiveSleep_kept (Keeps.refl s) _ (List.mem_of_elem_eq_true rfl) (List.mem_of_elem_eq_true rfl)
  | archiveWake _ => obtain rfl := Host.Outcome.next.inj h; exact archiveWake_kept (Keeps.refl s) _ (List.mem_of_elem_eq_true rfl) (List.mem_of_elem_eq_true rfl) (List.mem_of_elem_eq_true rfl) (List.mem_of_elem_eq_true rfl) (List.mem_of_elem_eq_true rfl)
  | wakeEventStart _ => obtain rfl := Host.Outcome.next.inj h; exact wakeEventStart_kept (Keeps.refl s) _ (List.mem_of_elem_eq_true rfl) (List.mem_of_elem_eq_true rfl) (List.mem_of_elem_eq_true rfl) (List.mem_of_elem_eq_true rfl) (List.mem_of_elem_eq_true rfl)
  | retire _ _ => obtain rfl := Host.Outcome.next.inj h; exact retire_kept (Keeps.refl s) _ _ (List.mem_of_elem_eq_true rfl) (List.mem_of_elem_eq_true rfl) (List.mem_of_elem_eq_true rfl) (List.mem_of_elem_eq_true rfl) (List.mem_of_elem_eq_true rfl) (List.mem_of_elem_eq_true rfl)
  | retrain _ _ => obtain rfl := Host.Outcome.next.inj h; exact retrain_kept (Keeps.refl s) _ _ (List.mem_of_elem_eq_true rfl) (List.mem_of_elem_eq_true rfl) (List.mem_of_elem_eq_true rfl) (List.mem_of_elem_eq_true rfl) (List.mem_of_elem_eq_true rfl) (List.mem_of_elem_eq_true rfl)
  | clearMarks _ _ => obtain rfl := Host.Outcome.next.inj h; exact clearMarks_kept (Keeps.refl s) _ _ (List.mem_of_elem_eq_true rfl) (List.mem_of_elem_eq_true rfl) (List.mem_of_elem_eq_true rfl) (List.mem_of_elem_eq_true rfl) (List.mem_of_elem_eq_true rfl) (List.mem_of_elem_eq_true rfl)
  | trackingMeasurement _ _ _ => obtain rfl := Host.Outcome.next.inj h; exact trackingMeasurement_kept (Keeps.refl s) _ _ _ (List.mem_of_elem_eq_true rfl) (List.mem_of_elem_eq_true rfl)
  | readStep _ _ _ => obtain rfl := Host.Outcome.next.inj h; exact readStep_kept (Keeps.refl s) _ _ _ _ (List.mem_of_elem_eq_true rfl) (List.mem_of_elem_eq_true rfl) (List.mem_of_elem_eq_true rfl) (List.mem_of_elem_eq_true rfl) (List.mem_of_elem_eq_true rfl) (List.mem_of_elem_eq_true rfl) (List.mem_of_elem_eq_true rfl) (List.mem_of_elem_eq_true rfl) (List.mem_of_elem_eq_true rfl) (List.mem_of_elem_eq_true rfl) (List.mem_of_elem_eq_true rfl) (List.mem_of_elem_eq_true rfl) (List.mem_of_elem_eq_true rfl) (List.mem_of_elem_eq_true rfl)
  | writeStep _ _ _ => obtain rfl := Host.Outcome.next.inj h; exact writeStep_kept (Keeps.refl s) _ _ _ _ _ (List.mem_of_elem_eq_true rfl) (List.mem_of_elem_eq_true rfl) (List.mem_of_elem_eq_true rfl) (List.mem_of_elem_eq_true rfl) (List.mem_of_elem_eq_true rfl) (List.mem_of_elem_eq_true rfl) (List.mem_of_elem_eq_true rfl) (List.mem_of_elem_eq_true rfl) (List.mem_of_elem_eq_true rfl) (List.mem_of_elem_eq_true rfl) (List.mem_of_elem_eq_true rfl) (List.mem_of_elem_eq_true rfl) (List.mem_of_elem_eq_true rfl) (List.mem_of_elem_eq_true rfl) (List.mem_of_elem_eq_true rfl)
  | vrefStep _ _ _ => obtain rfl := Host.Outcome.next.inj h; exact vrefStep_kept (Keeps.refl s) _ _ _ _ (List.mem_of_elem_eq_true rfl) (List.mem_of_elem_eq_true rfl) (List.mem_of_elem_eq_true rfl) (List.mem_of_elem_eq_true rfl) (List.mem_of_elem_eq_true rfl) (List.mem_of_elem_eq_true rfl) (List.mem_of_elem_eq_true rfl) (List.mem_of_elem_eq_true rfl) (List.mem_of_elem_eq_true rfl) (List.mem_of_elem_eq_true rfl) (List.mem_of_elem_eq_true rfl) (List.mem_of_elem_eq_true rfl) (List.mem_of_elem_eq_true rfl) (List.mem_of_elem_eq_true rfl)
  | checkStep _ _ _ => obtain rfl := Host.Outcome.next.inj h; exact checkStep_kept (Keeps.refl s) _ _ _ _ _ (List.mem_of_elem_eq_true rfl) (List.mem_of_elem_eq_true rfl) (List.mem_of_elem_eq_true rfl) (List.mem_of_elem_eq_true rfl) (List.mem_of_elem_eq_true rfl) (List.mem_of_elem_eq_true rfl) (List.mem_of_elem_eq_true rfl) (List.mem_of_elem_eq_true rfl) (List.mem_of_elem_eq_true rfl) (List.mem_of_elem_eq_true rfl) (List.mem_of_elem_eq_true rfl) (List.mem_of_elem_eq_true rfl) (List.mem_of_elem_eq_true rfl) (List.mem_of_elem_eq_true rfl) (List.mem_of_elem_eq_true rfl)
  | rebuildGranule _ => obtain rfl := Host.Outcome.next.inj h; exact rebuildGranule_kept (Keeps.refl s) _ (List.mem_of_elem_eq_true rfl) (List.mem_of_elem_eq_true rfl) (List.mem_of_elem_eq_true rfl) (List.mem_of_elem_eq_true rfl) (List.mem_of_elem_eq_true rfl) (List.mem_of_elem_eq_true rfl) (List.mem_of_elem_eq_true rfl) (List.mem_of_elem_eq_true rfl) (List.mem_of_elem_eq_true rfl)
  | regionFillDone _ => obtain rfl := Host.Outcome.next.inj h; exact regionFillDone_kept (Keeps.refl s) _ (List.mem_of_elem_eq_true rfl) (List.mem_of_elem_eq_true rfl) (List.mem_of_elem_eq_true rfl) (List.mem_of_elem_eq_true rfl) (List.mem_of_elem_eq_true rfl) (List.mem_of_elem_eq_true rfl) (List.mem_of_elem_eq_true rfl) (List.mem_of_elem_eq_true rfl) (List.mem_of_elem_eq_true rfl)
  | fastClose _ => obtain rfl := Host.Outcome.next.inj h; exact fastClose_kept (Keeps.refl s) _ (List.mem_of_elem_eq_true rfl) (List.mem_of_elem_eq_true rfl) (List.mem_of_elem_eq_true rfl) (List.mem_of_elem_eq_true rfl) (List.mem_of_elem_eq_true rfl) (List.mem_of_elem_eq_true rfl)
  | scrubStart _ => obtain rfl := Host.Outcome.next.inj h; exact scrubStart_kept (Keeps.refl s) _ (List.mem_of_elem_eq_true rfl) (List.mem_of_elem_eq_true rfl) (List.mem_of_elem_eq_true rfl) (List.mem_of_elem_eq_true rfl) (List.mem_of_elem_eq_true rfl) (List.mem_of_elem_eq_true rfl)
  | scrubAbort _ => obtain rfl := Host.Outcome.next.inj h; exact scrubAbort_kept (Keeps.refl s) _ (List.mem_of_elem_eq_true rfl) (List.mem_of_elem_eq_true rfl) (List.mem_of_elem_eq_true rfl) (List.mem_of_elem_eq_true rfl) (List.mem_of_elem_eq_true rfl) (List.mem_of_elem_eq_true rfl)
  | scrubStep _ => obtain rfl := Host.Outcome.next.inj h; exact scrubStep_kept (Keeps.refl s) _ _ (List.mem_of_elem_eq_true rfl) (List.mem_of_elem_eq_true rfl) (List.mem_of_elem_eq_true rfl) (List.mem_of_elem_eq_true rfl) (List.mem_of_elem_eq_true rfl) (List.mem_of_elem_eq_true rfl)
  | weltLost _ => obtain rfl := Host.Outcome.next.inj h; exact weltLost_kept (Keeps.refl s) _ (List.mem_of_elem_eq_true rfl) (List.mem_of_elem_eq_true rfl) (List.mem_of_elem_eq_true rfl) (List.mem_of_elem_eq_true rfl) (List.mem_of_elem_eq_true rfl) (List.mem_of_elem_eq_true rfl) (List.mem_of_elem_eq_true rfl) (List.mem_of_elem_eq_true rfl) (List.mem_of_elem_eq_true rfl) (List.mem_of_elem_eq_true rfl) (List.mem_of_elem_eq_true rfl) (List.mem_of_elem_eq_true rfl) (List.mem_of_elem_eq_true rfl) (List.mem_of_elem_eq_true rfl) (List.mem_of_elem_eq_true rfl)
  | flitReplay _ => obtain rfl := Host.Outcome.next.inj h; exact flitReplay_kept (Keeps.refl s) _ (List.mem_of_elem_eq_true rfl) (List.mem_of_elem_eq_true rfl)
  | weltRetrain _ => obtain rfl := Host.Outcome.next.inj h; exact weltRetrain_kept (Keeps.refl s) _ _ _ (List.mem_of_elem_eq_true rfl) (List.mem_of_elem_eq_true rfl) (List.mem_of_elem_eq_true rfl)
  | rejoin => obtain rfl := Host.Outcome.next.inj h; exact ioOn_keeps (rejoin_kept (Keeps.refl s) (List.mem_of_elem_eq_true rfl) (List.mem_of_elem_eq_true rfl) (List.mem_of_elem_eq_true rfl) (List.mem_of_elem_eq_true rfl) (List.mem_of_elem_eq_true rfl) (List.mem_of_elem_eq_true rfl) (List.mem_of_elem_eq_true rfl) (List.mem_of_elem_eq_true rfl) (List.mem_of_elem_eq_true rfl) (List.mem_of_elem_eq_true rfl) (List.mem_of_elem_eq_true rfl) (List.mem_of_elem_eq_true rfl) (List.mem_of_elem_eq_true rfl) (List.mem_of_elem_eq_true rfl) (List.mem_of_elem_eq_true rfl) (List.mem_of_elem_eq_true rfl) (List.mem_of_elem_eq_true rfl) (List.mem_of_elem_eq_true rfl)) (List.mem_of_elem_eq_true rfl) (List.mem_of_elem_eq_true rfl) (List.mem_of_elem_eq_true rfl) (List.mem_of_elem_eq_true rfl) (List.mem_of_elem_eq_true rfl) (List.mem_of_elem_eq_true rfl) (List.mem_of_elem_eq_true rfl) (List.mem_of_elem_eq_true rfl) (List.mem_of_elem_eq_true rfl) (List.mem_of_elem_eq_true rfl) (List.mem_of_elem_eq_true rfl) (List.mem_of_elem_eq_true rfl) (List.mem_of_elem_eq_true rfl) (List.mem_of_elem_eq_true rfl) (List.mem_of_elem_eq_true rfl) (List.mem_of_elem_eq_true rfl) (List.mem_of_elem_eq_true rfl) (List.mem_of_elem_eq_true rfl) (List.mem_of_elem_eq_true rfl) (List.mem_of_elem_eq_true rfl) (List.mem_of_elem_eq_true rfl) (List.mem_of_elem_eq_true rfl) (List.mem_of_elem_eq_true rfl) (List.mem_of_elem_eq_true rfl) (List.mem_of_elem_eq_true rfl) (List.mem_of_elem_eq_true rfl) (List.mem_of_elem_eq_true rfl) (List.mem_of_elem_eq_true rfl) (List.mem_of_elem_eq_true rfl) (List.mem_of_elem_eq_true rfl) (List.mem_of_elem_eq_true rfl) (List.mem_of_elem_eq_true rfl) (List.mem_of_elem_eq_true rfl) (List.mem_of_elem_eq_true rfl) (fun b => by cases b <;> exact List.mem_of_elem_eq_true rfl)
  | rejoinWrite _ => obtain rfl := Host.Outcome.next.inj h; exact rejoinWrite_kept (Keeps.refl s) _ (List.mem_of_elem_eq_true rfl) (List.mem_of_elem_eq_true rfl) (List.mem_of_elem_eq_true rfl) (List.mem_of_elem_eq_true rfl) (List.mem_of_elem_eq_true rfl) (List.mem_of_elem_eq_true rfl)
  | heelFrameSend _ => obtain rfl := Host.Outcome.next.inj h; exact heelFrameSend_kept (Keeps.refl s) _ (List.mem_of_elem_eq_true rfl) (List.mem_of_elem_eq_true rfl)
  | heelFrame _ _ => obtain rfl := Host.Outcome.next.inj h; exact heelFrame_kept (Keeps.refl s) _ _ (List.mem_of_elem_eq_true rfl) (List.mem_of_elem_eq_true rfl) (List.mem_of_elem_eq_true rfl) (List.mem_of_elem_eq_true rfl) (List.mem_of_elem_eq_true rfl) (List.mem_of_elem_eq_true rfl) (List.mem_of_elem_eq_true rfl) (List.mem_of_elem_eq_true rfl) (List.mem_of_elem_eq_true rfl) (List.mem_of_elem_eq_true rfl) (List.mem_of_elem_eq_true rfl) (List.mem_of_elem_eq_true rfl) (List.mem_of_elem_eq_true rfl) (List.mem_of_elem_eq_true rfl) (List.mem_of_elem_eq_true rfl) (List.mem_of_elem_eq_true rfl) (List.mem_of_elem_eq_true rfl) (List.mem_of_elem_eq_true rfl) (List.mem_of_elem_eq_true rfl) (List.mem_of_elem_eq_true rfl)
  | heelSilent _ => obtain rfl := Host.Outcome.next.inj h; exact heelSilent_kept (Keeps.refl s) _ (List.mem_of_elem_eq_true rfl) (List.mem_of_elem_eq_true rfl) (List.mem_of_elem_eq_true rfl) (List.mem_of_elem_eq_true rfl) (List.mem_of_elem_eq_true rfl) (List.mem_of_elem_eq_true rfl) (List.mem_of_elem_eq_true rfl) (List.mem_of_elem_eq_true rfl) (List.mem_of_elem_eq_true rfl) (List.mem_of_elem_eq_true rfl) (List.mem_of_elem_eq_true rfl) (List.mem_of_elem_eq_true rfl) (List.mem_of_elem_eq_true rfl) (List.mem_of_elem_eq_true rfl) (List.mem_of_elem_eq_true rfl) (List.mem_of_elem_eq_true rfl)
  | heartbeat => obtain rfl := Host.Outcome.next.inj h; exact heartbeat_kept (Keeps.refl s)
  | leadershipTakeover => obtain rfl := Host.Outcome.next.inj h; exact leadershipTakeover_kept (Keeps.refl s) (List.mem_of_elem_eq_true rfl) (List.mem_of_elem_eq_true rfl) (List.mem_of_elem_eq_true rfl) (List.mem_of_elem_eq_true rfl) (List.mem_of_elem_eq_true rfl) (List.mem_of_elem_eq_true rfl) (List.mem_of_elem_eq_true rfl) (List.mem_of_elem_eq_true rfl) (List.mem_of_elem_eq_true rfl)
  | claimDrop => obtain rfl := Host.Outcome.next.inj h; exact claimDrop_kept (Keeps.refl s) (List.mem_of_elem_eq_true rfl) (List.mem_of_elem_eq_true rfl) (List.mem_of_elem_eq_true rfl) (List.mem_of_elem_eq_true rfl) (List.mem_of_elem_eq_true rfl) (List.mem_of_elem_eq_true rfl) (List.mem_of_elem_eq_true rfl) (List.mem_of_elem_eq_true rfl) (List.mem_of_elem_eq_true rfl)
  | wlFence _ _ _ => obtain rfl := Host.Outcome.next.inj h; exact wlFence_kept (Keeps.refl s) _ _ _ (List.mem_of_elem_eq_true rfl) (List.mem_of_elem_eq_true rfl) (List.mem_of_elem_eq_true rfl) (List.mem_of_elem_eq_true rfl) (List.mem_of_elem_eq_true rfl) (List.mem_of_elem_eq_true rfl)
  | refclkLoss => obtain rfl := Host.Outcome.next.inj h; exact refclkLoss_kept (Keeps.refl s) (List.mem_of_elem_eq_true rfl) (List.mem_of_elem_eq_true rfl) (List.mem_of_elem_eq_true rfl) (List.mem_of_elem_eq_true rfl) (List.mem_of_elem_eq_true rfl) (List.mem_of_elem_eq_true rfl)
  | refclkReturn _ => obtain rfl := Host.Outcome.next.inj h; exact refclkReturn_kept (Keeps.refl s) _ (List.mem_of_elem_eq_true rfl) (List.mem_of_elem_eq_true rfl) (List.mem_of_elem_eq_true rfl) (List.mem_of_elem_eq_true rfl) (List.mem_of_elem_eq_true rfl) (List.mem_of_elem_eq_true rfl) (List.mem_of_elem_eq_true rfl) (List.mem_of_elem_eq_true rfl) (List.mem_of_elem_eq_true rfl)
  | refclkLossTimeout => obtain rfl := Host.Outcome.next.inj h; exact refclkLossTimeout_kept (Keeps.refl s) (List.mem_of_elem_eq_true rfl) (List.mem_of_elem_eq_true rfl) (List.mem_of_elem_eq_true rfl) (List.mem_of_elem_eq_true rfl) (List.mem_of_elem_eq_true rfl) (List.mem_of_elem_eq_true rfl) (List.mem_of_elem_eq_true rfl) (List.mem_of_elem_eq_true rfl) (List.mem_of_elem_eq_true rfl) (List.mem_of_elem_eq_true rfl) (List.mem_of_elem_eq_true rfl) (List.mem_of_elem_eq_true rfl) (List.mem_of_elem_eq_true rfl) (List.mem_of_elem_eq_true rfl) (List.mem_of_elem_eq_true rfl) (List.mem_of_elem_eq_true rfl) (List.mem_of_elem_eq_true rfl) (List.mem_of_elem_eq_true rfl)
  | corePllLockLost _ => obtain rfl := Host.Outcome.next.inj h; exact corePllLockLost_kept (Keeps.refl s) _ (List.mem_of_elem_eq_true rfl) (List.mem_of_elem_eq_true rfl) (List.mem_of_elem_eq_true rfl) (List.mem_of_elem_eq_true rfl) (List.mem_of_elem_eq_true rfl) (List.mem_of_elem_eq_true rfl) (List.mem_of_elem_eq_true rfl) (List.mem_of_elem_eq_true rfl) (List.mem_of_elem_eq_true rfl) (List.mem_of_elem_eq_true rfl) (List.mem_of_elem_eq_true rfl) (List.mem_of_elem_eq_true rfl) (List.mem_of_elem_eq_true rfl) (List.mem_of_elem_eq_true rfl) (List.mem_of_elem_eq_true rfl) (List.mem_of_elem_eq_true rfl) (List.mem_of_elem_eq_true rfl) (List.mem_of_elem_eq_true rfl) (List.mem_of_elem_eq_true rfl)
  | memoryPllLockLost _ => obtain rfl := Host.Outcome.next.inj h; exact memoryPllLockLost_kept (Keeps.refl s) _ (List.mem_of_elem_eq_true rfl) (List.mem_of_elem_eq_true rfl) (List.mem_of_elem_eq_true rfl) (List.mem_of_elem_eq_true rfl) (List.mem_of_elem_eq_true rfl) (List.mem_of_elem_eq_true rfl) (List.mem_of_elem_eq_true rfl) (List.mem_of_elem_eq_true rfl) (List.mem_of_elem_eq_true rfl) (List.mem_of_elem_eq_true rfl) (List.mem_of_elem_eq_true rfl) (List.mem_of_elem_eq_true rfl) (List.mem_of_elem_eq_true rfl) (List.mem_of_elem_eq_true rfl) (List.mem_of_elem_eq_true rfl) (List.mem_of_elem_eq_true rfl) (List.mem_of_elem_eq_true rfl) (List.mem_of_elem_eq_true rfl) (List.mem_of_elem_eq_true rfl) (List.mem_of_elem_eq_true rfl)
  | lockWindow _ _ _ _ => obtain rfl := Host.Outcome.next.inj h; exact lockWindow_kept (Keeps.refl s) _ _ _ _ (List.mem_of_elem_eq_true rfl) (List.mem_of_elem_eq_true rfl) (List.mem_of_elem_eq_true rfl) (List.mem_of_elem_eq_true rfl) (List.mem_of_elem_eq_true rfl) (List.mem_of_elem_eq_true rfl) (List.mem_of_elem_eq_true rfl) (List.mem_of_elem_eq_true rfl) (List.mem_of_elem_eq_true rfl) (List.mem_of_elem_eq_true rfl) (List.mem_of_elem_eq_true rfl) (List.mem_of_elem_eq_true rfl) (List.mem_of_elem_eq_true rfl) (List.mem_of_elem_eq_true rfl) (List.mem_of_elem_eq_true rfl) (List.mem_of_elem_eq_true rfl) (List.mem_of_elem_eq_true rfl) (List.mem_of_elem_eq_true rfl) (List.mem_of_elem_eq_true rfl) (List.mem_of_elem_eq_true rfl)
  | lockmonFallback _ => obtain rfl := Host.Outcome.next.inj h; exact lockmonFallback_kept (Keeps.refl s) _ (List.mem_of_elem_eq_true rfl) (List.mem_of_elem_eq_true rfl) (List.mem_of_elem_eq_true rfl)
  | dllLockLost _ => obtain rfl := Host.Outcome.next.inj h; exact dllLockLost_kept (Keeps.refl s) _ (List.mem_of_elem_eq_true rfl) (List.mem_of_elem_eq_true rfl) (List.mem_of_elem_eq_true rfl) (List.mem_of_elem_eq_true rfl)
  | dllRelockStep _ _ => obtain rfl := Host.Outcome.next.inj h; exact dllRelockStep_kept (Keeps.refl s) _ _ _ (List.mem_of_elem_eq_true rfl) (List.mem_of_elem_eq_true rfl) (List.mem_of_elem_eq_true rfl) (List.mem_of_elem_eq_true rfl) (List.mem_of_elem_eq_true rfl) (List.mem_of_elem_eq_true rfl) (List.mem_of_elem_eq_true rfl) (List.mem_of_elem_eq_true rfl) (List.mem_of_elem_eq_true rfl) (List.mem_of_elem_eq_true rfl) (List.mem_of_elem_eq_true rfl) (List.mem_of_elem_eq_true rfl) (List.mem_of_elem_eq_true rfl) (List.mem_of_elem_eq_true rfl)
  | auxckConfigWrite _ _ _ _ => obtain rfl := Host.Outcome.next.inj h; exact auxckConfigWrite_kept (Keeps.refl s) _ _ _ _ (List.mem_of_elem_eq_true rfl) (List.mem_of_elem_eq_true rfl) (List.mem_of_elem_eq_true rfl) (List.mem_of_elem_eq_true rfl) (List.mem_of_elem_eq_true rfl) (List.mem_of_elem_eq_true rfl)
  | ppsEdge => obtain rfl := Host.Outcome.next.inj h; exact ppsEdge_kept (Keeps.refl s) (List.mem_of_elem_eq_true rfl) (List.mem_of_elem_eq_true rfl) (List.mem_of_elem_eq_true rfl) (List.mem_of_elem_eq_true rfl) (List.mem_of_elem_eq_true rfl)
  | ppsGlitch => obtain rfl := Host.Outcome.next.inj h; exact ppsGlitch_kept (Keeps.refl s) (List.mem_of_elem_eq_true rfl) (List.mem_of_elem_eq_true rfl) (List.mem_of_elem_eq_true rfl)
  | ppsLost => obtain rfl := Host.Outcome.next.inj h; exact ppsLost_kept (Keeps.refl s) (List.mem_of_elem_eq_true rfl) (List.mem_of_elem_eq_true rfl) (List.mem_of_elem_eq_true rfl) (List.mem_of_elem_eq_true rfl)
  | todSentence _ => obtain rfl := Host.Outcome.next.inj h; exact todSentence_kept (Keeps.refl s) _ (List.mem_of_elem_eq_true rfl) (List.mem_of_elem_eq_true rfl) (List.mem_of_elem_eq_true rfl) (List.mem_of_elem_eq_true rfl)
  | todByteTimeout => obtain rfl := Host.Outcome.next.inj h; exact todByteTimeout_kept (Keeps.refl s) (List.mem_of_elem_eq_true rfl) (List.mem_of_elem_eq_true rfl) (List.mem_of_elem_eq_true rfl)
  | todStale => obtain rfl := Host.Outcome.next.inj h; exact todStale_kept (Keeps.refl s) (List.mem_of_elem_eq_true rfl) (List.mem_of_elem_eq_true rfl) (List.mem_of_elem_eq_true rfl) (List.mem_of_elem_eq_true rfl)
  | masterLost => obtain rfl := Host.Outcome.next.inj h; exact masterLost_kept (Keeps.refl s) (List.mem_of_elem_eq_true rfl) (List.mem_of_elem_eq_true rfl) (List.mem_of_elem_eq_true rfl) (List.mem_of_elem_eq_true rfl)
  | ftickEdge => obtain rfl := Host.Outcome.next.inj h; exact ftickEdge_kept (Keeps.refl s) (List.mem_of_elem_eq_true rfl) (List.mem_of_elem_eq_true rfl) (List.mem_of_elem_eq_true rfl) (List.mem_of_elem_eq_true rfl)
  | ftickLost => obtain rfl := Host.Outcome.next.inj h; exact ftickLost_kept (Keeps.refl s) (List.mem_of_elem_eq_true rfl) (List.mem_of_elem_eq_true rfl) (List.mem_of_elem_eq_true rfl) (List.mem_of_elem_eq_true rfl)
  | set _ => obtain rfl := Host.Outcome.next.inj h; exact calSet_kept (Keeps.refl s) _ (List.mem_of_elem_eq_true rfl) (List.mem_of_elem_eq_true rfl) (List.mem_of_elem_eq_true rfl) (List.mem_of_elem_eq_true rfl) (List.mem_of_elem_eq_true rfl) (List.mem_of_elem_eq_true rfl) (List.mem_of_elem_eq_true rfl)
  | stepNow _ => obtain rfl := Host.Outcome.next.inj h; exact stepNow_kept (Keeps.refl s) _ (List.mem_of_elem_eq_true rfl) (List.mem_of_elem_eq_true rfl) (List.mem_of_elem_eq_true rfl) (List.mem_of_elem_eq_true rfl) (List.mem_of_elem_eq_true rfl)
  | tbCaptureWrite _ _ => obtain rfl := Host.Outcome.next.inj h; exact tbCaptureWrite_kept (Keeps.refl s) _ _ (List.mem_of_elem_eq_true rfl) (List.mem_of_elem_eq_true rfl) (List.mem_of_elem_eq_true rfl) (List.mem_of_elem_eq_true rfl) (List.mem_of_elem_eq_true rfl) (List.mem_of_elem_eq_true rfl)
  | tsqPop _ => obtain rfl := Host.Outcome.next.inj h; exact tsqPopVia_kept (Keeps.refl s) _ (List.mem_of_elem_eq_true rfl) (List.mem_of_elem_eq_true rfl) (List.mem_of_elem_eq_true rfl) (List.mem_of_elem_eq_true rfl) (List.mem_of_elem_eq_true rfl) (List.mem_of_elem_eq_true rfl) (List.mem_of_elem_eq_true rfl) (List.mem_of_elem_eq_true rfl) (List.mem_of_elem_eq_true rfl) (List.mem_of_elem_eq_true rfl) (List.mem_of_elem_eq_true rfl) (List.mem_of_elem_eq_true rfl) (List.mem_of_elem_eq_true rfl) (List.mem_of_elem_eq_true rfl) (List.mem_of_elem_eq_true rfl) (List.mem_of_elem_eq_true rfl) (List.mem_of_elem_eq_true rfl) (List.mem_of_elem_eq_true rfl) (List.mem_of_elem_eq_true rfl) (List.mem_of_elem_eq_true rfl) (List.mem_of_elem_eq_true rfl) (List.mem_of_elem_eq_true rfl) (List.mem_of_elem_eq_true rfl) (List.mem_of_elem_eq_true rfl) (List.mem_of_elem_eq_true rfl) (List.mem_of_elem_eq_true rfl) (List.mem_of_elem_eq_true rfl) (List.mem_of_elem_eq_true rfl) (List.mem_of_elem_eq_true rfl) (List.mem_of_elem_eq_true rfl) (List.mem_of_elem_eq_true rfl) (List.mem_of_elem_eq_true rfl) (List.mem_of_elem_eq_true rfl) (List.mem_of_elem_eq_true rfl) (fun b => by cases b <;> exact List.mem_of_elem_eq_true rfl)
  | sensorRead _ _ => obtain rfl := Host.Outcome.next.inj h; exact sensorRead_kept (Keeps.refl s) _ _ (List.mem_of_elem_eq_true rfl) (List.mem_of_elem_eq_true rfl) (List.mem_of_elem_eq_true rfl) (List.mem_of_elem_eq_true rfl) (List.mem_of_elem_eq_true rfl) (List.mem_of_elem_eq_true rfl) (List.mem_of_elem_eq_true rfl) (List.mem_of_elem_eq_true rfl) (List.mem_of_elem_eq_true rfl) (List.mem_of_elem_eq_true rfl) (List.mem_of_elem_eq_true rfl) (List.mem_of_elem_eq_true rfl) (List.mem_of_elem_eq_true rfl) (List.mem_of_elem_eq_true rfl) (List.mem_of_elem_eq_true rfl) (List.mem_of_elem_eq_true rfl) (List.mem_of_elem_eq_true rfl) (List.mem_of_elem_eq_true rfl) (List.mem_of_elem_eq_true rfl) (List.mem_of_elem_eq_true rfl)
  | modelUpdate _ _ _ => obtain rfl := Host.Outcome.next.inj h; exact modelUpdate_kept (Keeps.refl s) _ _ _ (List.mem_of_elem_eq_true rfl) (List.mem_of_elem_eq_true rfl) (List.mem_of_elem_eq_true rfl) (List.mem_of_elem_eq_true rfl)
  | stepEvaluation _ => obtain rfl := Host.Outcome.next.inj h; exact stepEvaluation_kept (Keeps.refl s) _ (List.mem_of_elem_eq_true rfl) (List.mem_of_elem_eq_true rfl) (List.mem_of_elem_eq_true rfl) (List.mem_of_elem_eq_true rfl) (List.mem_of_elem_eq_true rfl)
  | warmingEnd _ => obtain rfl := Host.Outcome.next.inj h; exact warmingEnd_kept (Keeps.refl s) _ (List.mem_of_elem_eq_true rfl) (List.mem_of_elem_eq_true rfl)
  | messageCollect _ _ => obtain rfl := Host.Outcome.next.inj h; exact messageCollect_kept (Keeps.refl s) _ _ _ (List.mem_of_elem_eq_true rfl) (List.mem_of_elem_eq_true rfl) (List.mem_of_elem_eq_true rfl) (List.mem_of_elem_eq_true rfl) (List.mem_of_elem_eq_true rfl) (List.mem_of_elem_eq_true rfl) (List.mem_of_elem_eq_true rfl) (List.mem_of_elem_eq_true rfl) (List.mem_of_elem_eq_true rfl) (List.mem_of_elem_eq_true rfl) (List.mem_of_elem_eq_true rfl) (List.mem_of_elem_eq_true rfl) (List.mem_of_elem_eq_true rfl) (List.mem_of_elem_eq_true rfl) (List.mem_of_elem_eq_true rfl) (List.mem_of_elem_eq_true rfl) (List.mem_of_elem_eq_true rfl) (List.mem_of_elem_eq_true rfl) (List.mem_of_elem_eq_true rfl) (List.mem_of_elem_eq_true rfl)
  | stickyClear _ _ _ => obtain rfl := Host.Outcome.next.inj h; exact stickyClear_kept (Keeps.refl s) _ _ _ (List.mem_of_elem_eq_true rfl) (List.mem_of_elem_eq_true rfl) (List.mem_of_elem_eq_true rfl) (List.mem_of_elem_eq_true rfl) (List.mem_of_elem_eq_true rfl) (List.mem_of_elem_eq_true rfl)
  | force _ _ _ => obtain rfl := Host.Outcome.next.inj h; exact force_kept (Keeps.refl s) _ _ _ (List.mem_of_elem_eq_true rfl) (List.mem_of_elem_eq_true rfl) (List.mem_of_elem_eq_true rfl) (List.mem_of_elem_eq_true rfl) (List.mem_of_elem_eq_true rfl)
  | read _ _ _ => obtain rfl := Host.Outcome.next.inj h; exact readAny_kept (Keeps.refl s) _ _ _ (List.mem_of_elem_eq_true rfl) (List.mem_of_elem_eq_true rfl) (List.mem_of_elem_eq_true rfl) (List.mem_of_elem_eq_true rfl) (List.mem_of_elem_eq_true rfl) (List.mem_of_elem_eq_true rfl) (List.mem_of_elem_eq_true rfl) (List.mem_of_elem_eq_true rfl) (List.mem_of_elem_eq_true rfl) (List.mem_of_elem_eq_true rfl) (List.mem_of_elem_eq_true rfl) (List.mem_of_elem_eq_true rfl) (List.mem_of_elem_eq_true rfl) (List.mem_of_elem_eq_true rfl) (List.mem_of_elem_eq_true rfl) (List.mem_of_elem_eq_true rfl) (List.mem_of_elem_eq_true rfl) (List.mem_of_elem_eq_true rfl) (List.mem_of_elem_eq_true rfl) (List.mem_of_elem_eq_true rfl) (List.mem_of_elem_eq_true rfl) (List.mem_of_elem_eq_true rfl) (List.mem_of_elem_eq_true rfl) (List.mem_of_elem_eq_true rfl) (List.mem_of_elem_eq_true rfl) (List.mem_of_elem_eq_true rfl) (List.mem_of_elem_eq_true rfl) (List.mem_of_elem_eq_true rfl) (List.mem_of_elem_eq_true rfl) (List.mem_of_elem_eq_true rfl) (List.mem_of_elem_eq_true rfl) (List.mem_of_elem_eq_true rfl) (List.mem_of_elem_eq_true rfl) (List.mem_of_elem_eq_true rfl) (fun b => by cases b <;> exact List.mem_of_elem_eq_true rfl)
  | write _ _ _ => obtain rfl := Host.Outcome.next.inj h; exact spiWrite_kept (Keeps.refl s) _ _ _ (List.mem_of_elem_eq_true rfl) (List.mem_of_elem_eq_true rfl) (List.mem_of_elem_eq_true rfl) (List.mem_of_elem_eq_true rfl) (List.mem_of_elem_eq_true rfl) (List.mem_of_elem_eq_true rfl) (List.mem_of_elem_eq_true rfl) (List.mem_of_elem_eq_true rfl) (List.mem_of_elem_eq_true rfl) (List.mem_of_elem_eq_true rfl) (List.mem_of_elem_eq_true rfl) (List.mem_of_elem_eq_true rfl) (List.mem_of_elem_eq_true rfl) (List.mem_of_elem_eq_true rfl) (List.mem_of_elem_eq_true rfl) (List.mem_of_elem_eq_true rfl) (List.mem_of_elem_eq_true rfl) (List.mem_of_elem_eq_true rfl) (List.mem_of_elem_eq_true rfl) (List.mem_of_elem_eq_true rfl) (List.mem_of_elem_eq_true rfl) (List.mem_of_elem_eq_true rfl) (List.mem_of_elem_eq_true rfl) (List.mem_of_elem_eq_true rfl) (List.mem_of_elem_eq_true rfl) (List.mem_of_elem_eq_true rfl) (List.mem_of_elem_eq_true rfl) (List.mem_of_elem_eq_true rfl) (List.mem_of_elem_eq_true rfl) (List.mem_of_elem_eq_true rfl) (List.mem_of_elem_eq_true rfl) (List.mem_of_elem_eq_true rfl) (List.mem_of_elem_eq_true rfl) (fun b => by cases b <;> exact List.mem_of_elem_eq_true rfl)
  | fetch _ _ _ => obtain rfl := Host.Outcome.next.inj h; exact fetch_kept (Keeps.refl s) _ _ _ (List.mem_of_elem_eq_true rfl) (List.mem_of_elem_eq_true rfl) (List.mem_of_elem_eq_true rfl)
  | fetchDone _ => obtain rfl := Host.Outcome.next.inj h; exact fetchDone_kept (Keeps.refl s) _ (List.mem_of_elem_eq_true rfl) (List.mem_of_elem_eq_true rfl) (List.mem_of_elem_eq_true rfl) (List.mem_of_elem_eq_true rfl) (List.mem_of_elem_eq_true rfl) (List.mem_of_elem_eq_true rfl) (List.mem_of_elem_eq_true rfl) (List.mem_of_elem_eq_true rfl) (List.mem_of_elem_eq_true rfl) (List.mem_of_elem_eq_true rfl)
  | rdbuf _ _ _ => obtain rfl := Host.Outcome.next.inj h; exact rdbuf_kept (Keeps.refl s) _ _ _ (List.mem_of_elem_eq_true rfl) (List.mem_of_elem_eq_true rfl) (List.mem_of_elem_eq_true rfl)
  | shortFrame _ => obtain rfl := Host.Outcome.next.inj h; exact shortFrame_kept (Keeps.refl s) _ (List.mem_of_elem_eq_true rfl) (List.mem_of_elem_eq_true rfl)
  | chal _ => obtain rfl := Host.Outcome.next.inj h; exact chal_kept (Keeps.refl s) _ (List.mem_of_elem_eq_true rfl) (List.mem_of_elem_eq_true rfl) (List.mem_of_elem_eq_true rfl) (List.mem_of_elem_eq_true rfl) (List.mem_of_elem_eq_true rfl) (List.mem_of_elem_eq_true rfl)
  | resp => obtain rfl := Host.Outcome.next.inj h; exact resp_kept (Keeps.refl s) (List.mem_of_elem_eq_true rfl) (List.mem_of_elem_eq_true rfl) (List.mem_of_elem_eq_true rfl) (List.mem_of_elem_eq_true rfl) (List.mem_of_elem_eq_true rfl)
  | drop => obtain rfl := Host.Outcome.next.inj h; exact drop_kept (Keeps.refl s) (List.mem_of_elem_eq_true rfl) (List.mem_of_elem_eq_true rfl) (List.mem_of_elem_eq_true rfl) (List.mem_of_elem_eq_true rfl) (List.mem_of_elem_eq_true rfl)
  | roleLockEnd _ => obtain rfl := Host.Outcome.next.inj h; exact roleLockEnd_kept (Keeps.refl s) _ (List.mem_of_elem_eq_true rfl)
  | flashRead _ _ => obtain rfl := Host.Outcome.next.inj h; exact flashRead_kept (Keeps.refl s) _ _ (List.mem_of_elem_eq_true rfl) (List.mem_of_elem_eq_true rfl) (List.mem_of_elem_eq_true rfl) (List.mem_of_elem_eq_true rfl) (List.mem_of_elem_eq_true rfl) (List.mem_of_elem_eq_true rfl) (List.mem_of_elem_eq_true rfl)
  | flashProgram _ _ => obtain rfl := Host.Outcome.next.inj h; exact flashProgram_kept (Keeps.refl s) _ _ (List.mem_of_elem_eq_true rfl) (List.mem_of_elem_eq_true rfl) (List.mem_of_elem_eq_true rfl) (List.mem_of_elem_eq_true rfl) (List.mem_of_elem_eq_true rfl) (List.mem_of_elem_eq_true rfl) (List.mem_of_elem_eq_true rfl)
  | flashEraseSector _ => obtain rfl := Host.Outcome.next.inj h; exact flashEraseSector_kept (Keeps.refl s) _ (List.mem_of_elem_eq_true rfl) (List.mem_of_elem_eq_true rfl) (List.mem_of_elem_eq_true rfl) (List.mem_of_elem_eq_true rfl) (List.mem_of_elem_eq_true rfl) (List.mem_of_elem_eq_true rfl) (List.mem_of_elem_eq_true rfl)
  | flashOpDone _ => obtain rfl := Host.Outcome.next.inj h; exact flashOpDone_kept (Keeps.refl s) _ (List.mem_of_elem_eq_true rfl) (List.mem_of_elem_eq_true rfl) (List.mem_of_elem_eq_true rfl) (List.mem_of_elem_eq_true rfl) (List.mem_of_elem_eq_true rfl) (List.mem_of_elem_eq_true rfl) (List.mem_of_elem_eq_true rfl) (List.mem_of_elem_eq_true rfl)
  | nextBankWrite _ _ => obtain rfl := Host.Outcome.next.inj h; exact nextBankWrite_kept (Keeps.refl s) _ _ (List.mem_of_elem_eq_true rfl) (List.mem_of_elem_eq_true rfl) (List.mem_of_elem_eq_true rfl) (List.mem_of_elem_eq_true rfl) (List.mem_of_elem_eq_true rfl) (List.mem_of_elem_eq_true rfl)
  | warmResetWrite _ => obtain rfl := Host.Outcome.next.inj h; exact warmResetWrite_kept (Keeps.refl s) _ (List.mem_of_elem_eq_true rfl) (List.mem_of_elem_eq_true rfl) (List.mem_of_elem_eq_true rfl) (List.mem_of_elem_eq_true rfl) (List.mem_of_elem_eq_true rfl) (List.mem_of_elem_eq_true rfl) (List.mem_of_elem_eq_true rfl) (List.mem_of_elem_eq_true rfl) (List.mem_of_elem_eq_true rfl) (List.mem_of_elem_eq_true rfl) (List.mem_of_elem_eq_true rfl) (List.mem_of_elem_eq_true rfl) (List.mem_of_elem_eq_true rfl) (List.mem_of_elem_eq_true rfl) (List.mem_of_elem_eq_true rfl) (List.mem_of_elem_eq_true rfl) (List.mem_of_elem_eq_true rfl) (List.mem_of_elem_eq_true rfl) (List.mem_of_elem_eq_true rfl) (List.mem_of_elem_eq_true rfl) (List.mem_of_elem_eq_true rfl) (fun b => by cases b <;> exact List.mem_of_elem_eq_true rfl)
  | auditEntryWrite _ _ => obtain rfl := Host.Outcome.next.inj h; exact auditEntryWrite_kept (Keeps.refl s) _ _ (List.mem_of_elem_eq_true rfl) (List.mem_of_elem_eq_true rfl) (List.mem_of_elem_eq_true rfl) (List.mem_of_elem_eq_true rfl) (List.mem_of_elem_eq_true rfl) (List.mem_of_elem_eq_true rfl) (List.mem_of_elem_eq_true rfl)
  | passportWriteTimeout => obtain rfl := Host.Outcome.next.inj h; exact passportWriteTimeout_kept (Keeps.refl s) (List.mem_of_elem_eq_true rfl) (List.mem_of_elem_eq_true rfl) (List.mem_of_elem_eq_true rfl) (List.mem_of_elem_eq_true rfl)
  | fieldRelease => obtain rfl := Host.Outcome.next.inj h; exact fieldRelease_kept (Keeps.refl s) (List.mem_of_elem_eq_true rfl) (List.mem_of_elem_eq_true rfl) (List.mem_of_elem_eq_true rfl)
  | registerWrite _ _ => obtain rfl := Host.Outcome.next.inj h; exact registerWrite_kept (Keeps.refl s) _ _ (List.mem_of_elem_eq_true rfl) (List.mem_of_elem_eq_true rfl) (List.mem_of_elem_eq_true rfl) (List.mem_of_elem_eq_true rfl) (List.mem_of_elem_eq_true rfl) (List.mem_of_elem_eq_true rfl) (List.mem_of_elem_eq_true rfl) (List.mem_of_elem_eq_true rfl) (List.mem_of_elem_eq_true rfl) (List.mem_of_elem_eq_true rfl) (List.mem_of_elem_eq_true rfl) (List.mem_of_elem_eq_true rfl) (List.mem_of_elem_eq_true rfl) (List.mem_of_elem_eq_true rfl) (List.mem_of_elem_eq_true rfl) (List.mem_of_elem_eq_true rfl) (List.mem_of_elem_eq_true rfl) (List.mem_of_elem_eq_true rfl) (List.mem_of_elem_eq_true rfl) (List.mem_of_elem_eq_true rfl) (List.mem_of_elem_eq_true rfl) (List.mem_of_elem_eq_true rfl) (List.mem_of_elem_eq_true rfl) (List.mem_of_elem_eq_true rfl) (List.mem_of_elem_eq_true rfl) (List.mem_of_elem_eq_true rfl) (List.mem_of_elem_eq_true rfl) (List.mem_of_elem_eq_true rfl) (List.mem_of_elem_eq_true rfl) (List.mem_of_elem_eq_true rfl) (List.mem_of_elem_eq_true rfl) (List.mem_of_elem_eq_true rfl) (List.mem_of_elem_eq_true rfl) (List.mem_of_elem_eq_true rfl) (fun b => by cases b <;> exact List.mem_of_elem_eq_true rfl)
  | lockmonLock _ _ => obtain rfl := Host.Outcome.next.inj h; exact lockmonLock_kept (Keeps.refl s) _ _ (List.mem_of_elem_eq_true rfl) (List.mem_of_elem_eq_true rfl) (List.mem_of_elem_eq_true rfl) (List.mem_of_elem_eq_true rfl) (List.mem_of_elem_eq_true rfl) (List.mem_of_elem_eq_true rfl) (List.mem_of_elem_eq_true rfl) (List.mem_of_elem_eq_true rfl) (List.mem_of_elem_eq_true rfl)
  | memoryPllRelockTimeout _ => obtain rfl := Host.Outcome.next.inj h; exact memoryPllRelockTimeout_kept (Keeps.refl s) _ (List.mem_of_elem_eq_true rfl) (List.mem_of_elem_eq_true rfl) (List.mem_of_elem_eq_true rfl) (List.mem_of_elem_eq_true rfl) (List.mem_of_elem_eq_true rfl) (List.mem_of_elem_eq_true rfl) (List.mem_of_elem_eq_true rfl) (List.mem_of_elem_eq_true rfl) (List.mem_of_elem_eq_true rfl) (List.mem_of_elem_eq_true rfl) (List.mem_of_elem_eq_true rfl) (List.mem_of_elem_eq_true rfl) (List.mem_of_elem_eq_true rfl) (List.mem_of_elem_eq_true rfl) (List.mem_of_elem_eq_true rfl) (List.mem_of_elem_eq_true rfl) (List.mem_of_elem_eq_true rfl) (List.mem_of_elem_eq_true rfl)
  | alertNRelease _ => obtain rfl := Host.Outcome.next.inj h; exact alertNRelease_kept (Keeps.refl s) _ (List.mem_of_elem_eq_true rfl) (List.mem_of_elem_eq_true rfl)
  | todFramingError => obtain rfl := Host.Outcome.next.inj h; exact todFramingError_kept (Keeps.refl s) (List.mem_of_elem_eq_true rfl) (List.mem_of_elem_eq_true rfl) (List.mem_of_elem_eq_true rfl)
  | tapInstruction _ => obtain rfl := Host.Outcome.next.inj h; exact tapInstruction_kept (Keeps.refl s) _ (List.mem_of_elem_eq_true rfl) (List.mem_of_elem_eq_true rfl)
  | busMasterEnableSet _ => obtain rfl := Host.Outcome.next.inj h; exact busMasterEnableSet_kept (Keeps.refl s) _ (List.mem_of_elem_eq_true rfl)

end Sys2Proof.Machine
end

