-- ==== Sys2Proof/Machine/Package.lean ====
section
/-! DEFINITION. The ball map of the package: which signal or supply each position of the grid carries (17_electrical_mechanical.md R462 to R465). -/
namespace Sys2Proof.Machine

/-- The letters of a run of 19 rows (R462). -/
def rowLetters : List String := ["A", "B", "C", "D", "E", "F", "G", "H", "J", "K", "L", "M", "N", "P", "T", "U", "V", "W", "Y"]

/-- The name of a row by its index, 1 to 57. -/
def rowName (r : Nat) : String := ["", "A", "B"].getD ((r - 1) / 19) "" ++ rowLetters.getD ((r - 1) % 19) ""

/-- The name of a ball. -/
def ballName (p : Nat × Nat) : String := rowName p.1 ++ toString p.2

/-- Two decimal digits. -/
def digits2 (n : Nat) : String := (if n < 10 then "0" else "") ++ toString n

/-- A signal of a numbered bus. -/
def indexed (name : String) (i : Nat) : String := name ++ "[" ++ toString i ++ "]"

/-! Subchannel fields (R463, Table EM-3) -/

/-- Position of row offset o and column offset k of a subchannel. -/
def memBall (n o k : Nat) : Nat × Nat := (if n % 8 < 4 then 1 + o else 57 - o, 7 * (n % 4) + 1 + (if 8 ≤ n then 29 else 0) + k)

/-- The row offsets of the lanes, lane 0 first. -/
def laneRows : List Nat := [0, 1, 3, 4, 6, 7, 9, 10, 12, 13]

/-- A data bit of a lane: DQ for lanes 0 to 7, CB for lanes 8 and 9. -/
def laneBit (l b : Nat) : String := if l < 8 then indexed "DQ" (4 * l + b) else indexed "CB" (4 * (l - 8) + b)

/-- The signals of a lane row. -/
def laneRow (l : Nat) : List String := [laneBit l 0, laneBit l 1, indexed "DQS_T" l, indexed "DQS_C" l, laneBit l 2, laneBit l 3, "VSS"]

/-- The row of a subchannel field at row offset o. -/
def memRow (o : Nat) : List String :=
  if laneRows.contains o then laneRow (laneRows.idxOf o)
  else if o = 2 || o = 5 then ["VSS", "VDDQ", "VSS", "VDDQ", "VSS", "VDDQ", "VSS"]
  else if o < 15 then ["VSS", "VDDQ", "VSS", "VSS", "VSS", "VDDQ", "VSS"]
  else if o = 15 then ["CK_T", "CK_C", "CS_N[0]", "CS_N[1]", "CA[0]", "CA[1]", "VSS"]
  else if o = 16 then (List.range 7).map fun k => indexed "CA" (k + 2)
  else ((List.range 5).map fun k => indexed "CA" (k + 9)) ++ ["ALERT_N", "RESET_N"]

/-- What the ball at offsets o and k of subchannel n carries. -/
def memSignal (n o k : Nat) : String :=
  let x := (memRow o).getD k ""
  if x == "VSS" then x else if x == "VDDQ" then (if n < 8 then "VDDQ_A" else "VDDQ_B") else "MEM" ++ digits2 n ++ "_" ++ x

/-! Head fields (R464, Table EM-4) -/

/-- Position of row offset o and column offset c of a head. -/
def headBall (n o c : Nat) : Nat × Nat := ((if n % 2 = 0 then 19 else 30) + o, if n < 2 then 1 + c else 57 - c)

/-- What the ball at offsets o and c of head n carries. -/
def headSignal (n o c : Nat) : String :=
  let name := "HEAD" ++ toString n ++ "_"
  if o < 8 then
    if c = 1 then name ++ indexed "RX_P" o
    else if c = 2 then name ++ indexed "RX_N" o
    else if c = 5 then name ++ indexed "TX_P" o
    else if c = 6 then name ++ indexed "TX_N" o
    else if c = 8 then "VSD"
    else if c = 9 then (if o < 6 then "VSDH" else "VSD")
    else "VSS"
  else if o = 8 then (if c = 9 then name ++ "PERST_N" else "VSS")
  else if 8 ≤ c then "VSD" else "VSS"

/-! The control cluster (Table EM-5) -/

/-- The columns of the cluster, in order. -/
def clusterCols : List Nat := [21, 22, 23, 24, 25, 26, 27, 28, 30, 31, 32, 33, 34, 35, 36, 37]

/-- Twelve signals of the rails. -/
def railSignals (name : String) : List String := (List.range 12).map fun n => name ++ "_" ++ digits2 n

/-- The signals of the cluster's rows AC to AJ, in the order of its columns. -/
def clusterRows : List (List String) :=
  [railSignals "RAILEN" ++ ["PFW_N", "ERR_N", "LACE", "SVC_N"],
   railSignals "PG" ++ ["FIELD_N", "PP_SCL", "PP_SDA", "VSS"],
   railSignals "VS" ++ ["ADC_REFGND", "TOD_RX", "PPS_IN", "FTICK_IN"],
   railSignals "IM" ++ ["TICK_OUT", "VSS", "REFCLK_P", "REFCLK_N"],
   ["MSPI_CS_N", "MSPI_CLK", "MSPI_MOSI", "MSPI_MISO", "FL_CS_N", "FL_CLK", "FL_IO0", "FL_IO1", "FL_IO2", "FL_IO3", "VSS", "TCK", "TMS", "TDI", "TDO",
    "TRST_N"],
   ["AUXCK_0", "AUXCK_1", "LOCKMON_A", "MEMA_ZQ", "VSS", "VSS", "VSS", "VSS", "AUXCK_2", "AUXCK_3", "LOCKMON_B", "MEMB_ZQ", "TEST_EN", "VSS", "VSS",
    "VSS"],
   ["VAUX", "VAUX", "VAUXC", "VAUXC", "VSS", "VSS", "VSS", "VSS", "VSS", "VSS", "VSS", "VSS", "VAUXC", "VAUXC", "VAUX", "VAUX"]]

/-! The grid (R462, R465, Table EM-2) -/

/-- What a position of a core field carries. -/
def coreSignal (r c : Nat) : String :=
  if r = 20 && ((11 ≤ c && c ≤ 26) || (32 ≤ c && c ≤ 47)) then "VSRAM"
  else if r % 2 = 1 && c % 2 = 1 then (if c < 29 then "VCORE_A" else "VCORE_B")
  else "VSS"

/-- What a position of the middle rows, Y to BA, carries. -/
def middleSignal (r c : Nat) : String :=
  if c ≤ 10 || 48 ≤ c then
    if r = 29 then "VSS"
    else headSignal ((if c ≤ 10 then 0 else 2) + (if r < 29 then 0 else 1)) (if r < 29 then r - 19 else r - 30) (if c ≤ 10 then c - 1 else 57 - c)
  else if 22 ≤ r && r ≤ 28 && clusterCols.contains c then (clusterRows.getD (r - 22) []).getD (clusterCols.idxOf c) ""
  else coreSignal r c

/-- What the ball of a row index and a column carries; none where there is no ball. -/
def ballSignal (r c : Nat) : Option String :=
  if r = 0 || 57 < r || c = 0 || 57 < c || c = 29 then none
  else if r ≤ 18 || 40 ≤ r then
    let x := if c < 29 then c - 1 else c - 30
    some (memSignal (x / 7 + (if c < 29 then 0 else 8) + (if r ≤ 18 then 0 else 4)) (if r ≤ 18 then r - 1 else 57 - r) (x % 7))
  else some (middleSignal r c)

end Sys2Proof.Machine
end

