-- ==== Sys2Proof/WellFormed.lean ====
section
/-! DEFINITION. Which commands are well formed: operands that the outside world can give. Meanings are total: an ill-formed command is none that
a sender issues. -/
namespace Sys2Proof

/-- A sweep of delays: at most 2,048 settings (Table DI-3). -/
def sweepWf (l : List Received) : Bool := l.length ≤ 2048

/-- The sweeps of one lane: at most 128 Vref codes (Table DI-3). -/
def LaneSweep.wf (l : LaneSweep) : Bool :=
  l.rd.length ≤ 128 && l.rd.all sweepWf && l.wr.length ≤ 128 && l.wr.all sweepWf && l.check.length ≤ 3

/-- A sweep of CS or CA settings: at most 64 samples of the test at each (R264). -/
def samplesWf (l : List Nat) : Bool := l.length ≤ 2048 && l.all (· ≤ 64)

/-- The CS and CA sweeps of one lane. -/
def CaSweep.wf (l : CaSweep) : Bool := samplesWf l.cs && l.ca.length ≤ 128 && l.ca.all samplesWf

/-- Symbol errors lie within the 80 symbols of a line and change them. -/
def symErrWf (e : SymErr) : Bool := e.all fun x => x.1 < 80 && x.2 != 0

/-- A host physical address of a whole line. -/
def hpaWf (a : Nat) : Bool := a % 64 == 0 && decide (a < 2 ^ 52)

/-- A size that PCI Express gives an access of a window. -/
def accessWf (n : Nat) : Bool := [1, 2, 4, 8].contains n

/-- A write over a window has a size that PCI Express gives. -/
def WriteTarget.wf : WriteTarget → Bool
  | .word _ _ => true
  | .window _ _ n => accessWf n
  | .doorbell _ _ n => accessWf n
  | .config _ _ => true

/-- So has a read over a window; only a frame on the SPI port can end inside a word. -/
def ReadTarget.wf (n : Nat) (partialWord : Bool) : ReadTarget → Bool
  | .spi _ => true
  | .window _ _ => accessWf n && !partialWord
  | .doorbell _ _ => accessWf n && !partialWord
  | .config _ _ => !partialWord

/-- A command is well formed. -/
def Instr.wf : Instr → Bool
  | .auxUp _ => true
  | .eyeletEntry _ => true
  | .passportRetry _ => true
  | .trainingDone _ lanes0 lanes1 ca0 ca1 _ _ => (lanes0 ++ lanes1).all LaneSweep.wf && (ca0 ++ ca1).all CaSweep.wf
  | .fillDone => true
  | .eyeletComplete => true
  | .laceRise => true
  | .eyeWarn => true
  | .laceAbort => true
  | .laceGlitch => true
  | .laceAbortWrite _ => true
  | .softStartFail _ _ mv => mv < 65536
  | .softStartRetry _ => true
  | .railGood _ => true
  | .railFail _ _ mv => mv < 65536
  | .transitionStart _ _ => true
  | .transitionBlankEnd => true
  | .pfwAssert vinMv => vinMv < 65536
  | .pfwRide => true
  | .pfwDelayEnd => true
  | .railGroupDrop => true
  | .powerFailRecord _ vinMv _ tShedUs tRecUs => vinMv < 65536 && tShedUs < 65536 && tRecUs < 65536
  | .recordWritten _ => true
  | .vauxFail _ mv => mv < 65536
  | .auxReset => true
  | .vinReturnOff vinMv => vinMv < 65536
  | .shortPress => true
  | .forcedOff => true
  | .svcStart => true
  | .warmReset => true
  | .watchdogExpiry _ => true
  | .tickStart _ => true
  | .tickOutEnd => true
  | .cutOff _ => true
  | .productionEnd _ => true
  | .idleCycleEnd _ => true
  | .freeze _ => true
  | .release _ => true
  | .setDelay _ => true
  | .setGain _ => true
  | .streamOn _ => true
  | .streamOff _ => true
  | .switchLast _ => true
  | .opcodeInvalid _ op => op == 0 || 8 ≤ op
  | .admitLast _ _ => true
  | .admissionDone => true
  | .activate _ => true
  | .cancel _ => true
  | .commit _ => true
  | .lutCopyDone => true
  | .lutDataAccess _ _ => true
  | .frameLoRead _ _ => true
  | .publishDoorbell _ _ _ _ => true
  | .publicationCount _ => true
  | .slotSelect _ _ _ => true
  | .pixelWindowWrite _ _ bytes _ => !bytes.isEmpty && bytes.length ≤ 4096
  | .blockRowEncoded _ => true
  | .sizeMapMerge _ err => symErrWf err
  | .pixelWindowRead _ _ lines => 1 ≤ lines && lines ≤ 64
  | .slotCopyToArchive _ _ _ => true
  | .slotCopyFromArchive _ _ => true
  | .slotCopyDone _ => true
  | .fenceRead _ => true
  | .fenceReadComplete _ _ => true
  | .ringDescriptorWrite _ _ _ _ => true
  | .arm _ _ _ => true
  | .disarm _ _ _ => true
  | .armEffect _ => true
  | .consumedWrite _ _ _ => true
  | .chunkStaged _ lutErrs => lutErrs.all fun x => x.table < 80 && x.entry ≤ 4096
  | .streamOpen _ => true
  | .chunkRecordWrite _ => true
  | .chunkSkip _ => true
  | .recordAbandon _ => true
  | .panicAssert _ _ => true
  | .panicRelease _ _ => true
  | .panicMaxExpiry _ => true
  | .engineStart _ => true
  | .fence _ _ => true
  | .enable _ _ => true
  | .engineSelfCheckFail _ => true
  | .memRd _ hpa => hpaWf hpa
  | .memRdData _ hpa => hpaWf hpa
  | .memSpecRd _ hpa => hpaWf hpa
  | .memInv _ hpa => hpaWf hpa
  | .memInvNt _ hpa => hpaWf hpa
  | .memWr _ hpa _ _ => hpaWf hpa
  | .memWrPtl _ hpa _ _ => hpaWf hpa
  | .dramReadReturn _ x => symErrWf x.err
  | .blockDecode _ _ _ _ => true
  | .getEventRecords _ _ => true
  | .clearEventRecords _ _ _ => true
  | .getTimestamp _ => true
  | .setTimestamp _ _ => true
  | .getSupportedLogs _ => true
  | .getLog _ => true
  | .identifyMemoryDevice _ => true
  | .getPoisonList _ _ _ => true
  | .getHeadSummary _ => true
  | .getRingStatus _ _ _ => true
  | .getAdmissionResult _ => true
  | .readSelvedgeLog _ _ _ => true
  | .roleChallenge _ _ => true
  | .roleResponse _ _ => true
  | .dropRole _ => true
  | .unsupportedOpcode _ _ => true
  | .linkTraining _ => true
  | .linkUp _ _ _ _ => true
  | .linkRecovery _ => true
  | .linkDown _ _ _ => true
  | .perstAssert _ _ _ => true
  | .busMasterEnableClear _ => true
  | .hdmDecoderCommit _ _ prog => 0 < prog.ways && 0 < prog.granularity
  | .visit _ => true
  | .refresh _ _ => true
  | .refreshKeeper _ _ => true
  | .mr4Poll _ _ _ => true
  | .bulkAgePromotion _ => true
  | .alertWindowExpiry _ => true
  | .writeCrcAlert _ => true
  | .verifyReadback _ err => symErrWf err
  | .tsReqWrite _ _ _ => true
  | .tsSwitch _ => true
  | .frequencyChange _ _ _ _ => true
  | .rampEnd _ => true
  | .dllLock _ => true
  | .frequencyChangeDone => true
  | .archiveSleep _ => true
  | .archiveWake _ => true
  | .wakeEventStart _ => true
  | .retire _ _ => true
  | .retrain _ _ => true
  | .clearMarks _ _ => true
  | .trackingMeasurement _ _ _ => true
  | .readStep _ lanes _ => lanes.all LaneSweep.wf
  | .writeStep _ lanes _ => lanes.all LaneSweep.wf
  | .vrefStep _ lanes _ => lanes.all LaneSweep.wf
  | .checkStep _ lanes _ => lanes.all LaneSweep.wf
  | .rebuildGranule _ => true
  | .regionFillDone _ => true
  | .fastClose _ => true
  | .scrubStart _ => true
  | .scrubAbort _ => true
  | .scrubStep _ => true
  | .weltLost _ => true
  | .flitReplay _ => true
  | .weltRetrain _ => true
  | .rejoin => true
  | .rejoinWrite _ => true
  | .heelFrameSend _ => true
  | .heelFrame _ _ => true
  | .heelSilent _ => true
  | .heartbeat => true
  | .leadershipTakeover => true
  | .claimDrop => true
  | .wlFence _ _ _ => true
  | .refclkLoss => true
  | .refclkReturn _ => true
  | .refclkLossTimeout => true
  | .corePllLockLost _ => true
  | .memoryPllLockLost _ => true
  | .lockWindow _ _ _ _ => true
  | .lockmonFallback _ => true
  | .dllLockLost _ => true
  | .dllRelockStep _ _ => true
  | .auxckConfigWrite _ _ _ _ => true
  | .ppsEdge => true
  | .ppsGlitch => true
  | .ppsLost => true
  | .todSentence _ => true
  | .todByteTimeout => true
  | .todStale => true
  | .masterLost => true
  | .ftickEdge => true
  | .ftickLost => true
  | .set _ => true
  | .stepNow _ => true
  | .tbCaptureWrite _ _ => true
  | .tsqPop _ => true
  | .sensorRead _ readings => readings.length == 8
  | .modelUpdate _ busyPermille _ => busyPermille ≤ 1000
  | .stepEvaluation _ => true
  | .warmingEnd _ => true
  | .messageCollect _ x => x.source < 320
  | .stickyClear _ _ _ => true
  | .force _ _ _ => true
  | .read t count partialWord => t.wf count partialWord
  | .write _ _ _ => true
  | .fetch _ _ _ => true
  | .fetchDone unanswered => unanswered.all (· < 64)
  | .rdbuf _ _ _ => true
  | .shortFrame _ => true
  | .chal _ => true
  | .resp => true
  | .drop => true
  | .roleLockEnd _ => true
  | .flashRead _ _ => true
  | .flashProgram _ _ => true
  | .flashEraseSector _ => true
  | .flashOpDone _ => true
  | .nextBankWrite _ _ => true
  | .warmResetWrite _ => true
  | .auditEntryWrite _ _ => true
  | .passportWriteTimeout => true
  | .fieldRelease => true
  | .registerWrite t _ => t.wf
  | .lockmonLock _ _ => true
  | .memoryPllRelockTimeout _ => true
  | .alertNRelease _ => true
  | .todFramingError => true
  | .tapInstruction _ => true
  | .busMasterEnableSet _ => true

end Sys2Proof
end

