-- ==== Sys2Proof/Tests/Slice0.lean ====
section
/-! SUPPORT. Tests: ill-formed commands that `Instr.wf` refuses, states that meet the hypotheses of each statement, and single steps. -/
set_option Elab.async false
open Sys2Proof Sys2Proof.Machine
namespace Sys2Proof.Tests

/-! The smoke of WellFormed: one ill-formed command for each check -/

/-- The lane of device 0 with these sweeps. -/
def lane0 (rd wr : List (List Received)) (check : List Received) : LaneSweep := ⟨0, 0, rd, wr, check, 0⟩

theorem test_sweeps_too_long :
    (Instr.readStep 0 [lane0 [List.replicate 2049 []] [] []] ⟨0, false⟩).wf = false ∧ (Instr.writeStep 0 [lane0 [] (List.replicate 129 []) []] ⟨0, 0, false⟩).wf = false ∧
    (Instr.vrefStep 0 [lane0 (List.replicate 129 []) [] []] ⟨0, false⟩).wf = false ∧
    (Instr.checkStep 0 [lane0 [] [] [[], [], [], []]] ⟨0, 0, false⟩).wf = false ∧ (Instr.checkStep 0 [lane0 [] [] [[(63, 0)], [], []]] ⟨0, 0, false⟩).wf = true := by decide +kernel

theorem test_training_out_of_range :
    (Instr.trainingDone 0 [lane0 [List.replicate 2049 []] [] []] [] [] [] true true).wf = false ∧ (Instr.trainingDone 0 [] [lane0 [] [List.replicate 2049 []] []] [] [] true true).wf = false ∧
    (Instr.trainingDone 0 [] [] [⟨0, [65], []⟩] [] true true).wf = false ∧ (Instr.trainingDone 0 [] [] [] [⟨0, [], List.replicate 129 []⟩] true true).wf = false ∧
    (Instr.trainingDone 0 [lane0 [List.replicate 2048 [(7, 0)]] [] []] [] [⟨0, [64], [[64]]⟩] [] true true).wf = true := by decide +kernel

theorem test_voltages_out_of_range :
    (Instr.softStartFail 0 false 65536).wf = false ∧ (Instr.railFail 0 .pgLow 65536).wf = false ∧ (Instr.pfwAssert 65536).wf = false ∧
    (Instr.vauxFail false 65536).wf = false ∧ (Instr.vinReturnOff 65536).wf = false ∧ (Instr.powerFailRecord false 65536 [] 0 0).wf = false ∧
    (Instr.powerFailRecord false 0 [] 65536 0).wf = false ∧ (Instr.powerFailRecord false 0 [] 0 65536).wf = false ∧
    (Instr.powerFailRecord false 65535 [] 65535 65535).wf = true := by decide

theorem test_opcode_of_a_command : (Instr.opcodeInvalid .spi 7).wf = false ∧ (Instr.opcodeInvalid .spi 8).wf = true := by decide

theorem test_window_sizes :
    (Instr.pixelWindowWrite 0 0 [] true).wf = false ∧ (Instr.pixelWindowWrite 0 0 (List.replicate 4097 0) true).wf = false ∧
    (Instr.pixelWindowRead 0 0 0).wf = false ∧ (Instr.pixelWindowRead 0 0 65).wf = false ∧
    (Instr.registerWrite (.window 0 0 3) 0).wf = false ∧ (Instr.registerWrite (.doorbell 0 0 16) 0).wf = false ∧
    (Instr.read (.window 0 0) 16 false).wf = false ∧ (Instr.read (.doorbell 0 0) 0 false).wf = false ∧ (Instr.read (.doorbell 0 0) 8 false).wf = true ∧ (Instr.read (.config 0 .ids) 4 true).wf = false := by decide +kernel

theorem test_symbol_errors :
    (Instr.dramReadReturn 0 ⟨[(80, 1)], []⟩).wf = false ∧ (Instr.dramReadReturn 0 ⟨[(0, 0)], []⟩).wf = false ∧ (Instr.verifyReadback 0 [(80, 1)]).wf = false ∧
    (Instr.sizeMapMerge 0 [(79, 0)]).wf = false ∧ (Instr.sizeMapMerge 0 [(79, 1)]).wf = true := by decide

theorem test_lut_errors :
    (Instr.chunkStaged 0 [⟨80, 0, false⟩]).wf = false ∧ (Instr.chunkStaged 0 [⟨0, 4097, false⟩]).wf = false := by decide

theorem test_host_addresses :
    (Instr.memRd 0 32).wf = false ∧ (Instr.memRdData 0 32).wf = false ∧ (Instr.memSpecRd 0 (2 ^ 52)).wf = false ∧ (Instr.memInv 0 (2 ^ 52)).wf = false ∧
    (Instr.memInvNt 0 1).wf = false ∧ (Instr.memWr 0 63 0 false).wf = false ∧ (Instr.memWrPtl 0 65 ⟨0, false⟩ 0).wf = false ∧
    (Instr.memRd 0 (2 ^ 52 - 64)).wf = true := by decide

theorem test_decoder_program :
    (Instr.hdmDecoderCommit 0 0 ⟨0, 0, 0, 0, 256, 0⟩).wf = false ∧ (Instr.hdmDecoderCommit 0 0 ⟨0, 0, 0, 1, 0, 0⟩).wf = false := by decide

theorem test_other_operands :
    (Instr.sensorRead .a []).wf = false ∧ (Instr.modelUpdate .a 1001 []).wf = false ∧ (Instr.messageCollect .a ⟨320, false⟩).wf = false ∧
    (Instr.fetchDone [64]).wf = false := by decide

/-! Decoding: the table gives no row any bits -/

theorem test_no_word_spells_a_command (nbits w : Nat) : decodeTableWord nbits w = none := rfl

/-! Witnesses: states within the bounds that meet the hypotheses of the statements -/

/-- The bounds of `State.Inv`, as one check. -/
def bounded (s : State) : Bool :=
  Sparse.wf regPowerOn s.regs && Sparse.wf (fun _ => 0xFF) s.flash && Sparse.wf s.dm.blank s.mem && decide (s.mg.audit.length ≤ 64) &&
  decide (s.tb.tsq.length ≤ 32) && decide (∀ x ∈ s.tb2, x.1.tsq.length ≤ 32) && decide (s.fcA.pend.map (·.src)).Nodup && decide (s.fcA.log.length ≤ 256) &&
  decide (s.fcB.pend.map (·.src)).Nodup && decide (s.fcB.log.length ≤ 256) && decide (s.dm.poison.length ≤ 256) &&
  Sparse.rising s.le.rings && Sparse.rising s.le.lut && Sparse.rising s.mg.fetchBuf && Sparse.rising s.mg.passport

theorem inv_of_bounded {s : State} (h : bounded s = true) : s.Inv := by
  simp only [bounded, Bool.and_eq_true, decide_eq_true_eq] at h
  obtain ⟨⟨⟨⟨⟨⟨⟨⟨⟨⟨⟨⟨⟨⟨a, b⟩, c⟩, d⟩, e⟩, e2⟩, f⟩, g⟩, i⟩, j⟩, k⟩, l⟩, m⟩, n⟩, o⟩ := h
  exact ⟨a, b, c, d, e, e2, ⟨f, g⟩, ⟨i, j⟩, k, l, m, n, o⟩

/-- A state within the bounds that meets hypotheses. -/
def Meets (s : State) (P : State → Prop) : Prop := s.Inv ∧ P s

theorem meets {s : State} {P : State → Prop} [Decidable (P s)] (h : (bounded s && decide (P s)) = true) : Meets s P := by
  simp only [Bool.and_eq_true, decide_eq_true_eq] at h
  exact ⟨inv_of_bounded h.1, h.2⟩

/-- Fields set. -/
def sets (l : List (Fld × Nat)) (s : State) : State := l.foldl (fun s p => s.wr p.1 p.2) s

/-- Every path holds the role maker. -/
def maker : State := { State.reset with mg := { State.reset.mg with roles := Vector.replicate 5 { role := 3 } } }

/-- The AUX domain is up. -/
def auxOn : State := { maker with pwr := { maker.pwr with aux := true } }

/-- Rails good. -/
def good (l : List Nat) : List (Fld × Nat) := l.map fun r => (F.PS_RAIL_n_STATUS.STATE r, 3)

/-- The register at an address. -/
def tpl (a : Nat) : RegTpl := (regAt a).getD ⟨0, [], 0, .shared, []⟩

/-- The AUX domain is up and no path has a role. -/
def auxUnroled : State := { State.reset with pwr := { State.reset.pwr with aux := true } }

/-- Split mode. -/
def apart : State := sets [(F.WL_STATUS.STATE, 2)] { auxOn with sched2 := some {} }

/-- A passport read that is due again. -/
def retrying (n k : Nat) : State :=
  { auxOn with pwr := { auxOn.pwr with acting := true }, mg := { auxOn.mg with ppPending := true, ppRetries := n, ppNackRetries := k } }

/-- A start that has come to an eyelet, with rails good. -/
def starting (e : Nat) (l : List Nat := []) : State := sets ([(F.PS_STATUS.STATE, 1), (F.PS_STATUS.EYELET, e)] ++ good l) auxOn

/-- The eyelet's entry is due. -/
def entering (e : Nat) (l : List Nat) : State := let s := starting e l; { s with pwr := { s.pwr with entryDue := true } }

/-- The eyelet acts. -/
def acting (e : Nat) : State := let s := starting e; { s with pwr := { s.pwr with acting := true } }

/-- What EYELET_ENTRY asks of every state. -/
abbrev entered (s : State) : Prop :=
  s.pwr.aux = true ∧ s.pwr.entryDue = true ∧ s.rd F.PS_STATUS.STATE < 2 ∧ (s.fc s.leader).fatal = false

/-- A rail in a state, its window open. -/
def railAt (r st : Nat) : State :=
  sets [(F.PS_RAIL_n_STATUS.STATE r, st), (F.PS_RAIL_n_WIN.UV r, 700), (F.PS_RAIL_n_WIN.OV r, 900)] auxOn

/-- A device that runs: E15 is done. -/
def running : State := sets [(F.PS_STATUS.STATE, 2), (F.PS_STATUS.EYELET, 15), (F.PS_STATUS.LACE, 1)] auxOn

/-- The loss of power that shedding records. -/
def aShed : ShedStart := ⟨1, 15, 0, 0, 0, 0, 0, 0, [], [], false, false⟩

/-- Shedding runs with rail groups still to drop. -/
def shedding (g : List (List Nat)) : State :=
  sets [(F.PS_STATUS.STATE, 4)] { auxOn with pwr := { auxOn.pwr with shed := some aShed, groups := g } }

/-- A head's link is in L0. -/
def linked (h : Nat) : State := sets [(F.HP_n_LINK.UP h, 1)] auxOn

/-- The SPI path is locked. -/
def lockedSpi : State := { maker with mg := { maker.mg with roles := maker.mg.roles.set! 0 { fails := 5, locked := true } } }

/-- An operation in the flash engine. -/
def flashing (o : FlashOp) : State := { maker with mg := { maker.mg with op := some o } }

/-! The block and its queue -/

theorem witness_StepRunsFront : ({ State.reset with pending := [.heartbeat, .pfwRide] } : State).pending = .heartbeat :: [.pfwRide] := rfl

theorem witness_StepIdle : State.reset.pending = [] := rfl

theorem witness_StepKeepsBounds : Meets { maker with pending := [.heartbeat] } (fun s => step s = .next maker) := ⟨inv_of_bounded (by decide +kernel), rfl⟩

theorem witness_HistoryGrows : step { maker with pending := [.heartbeat] } = .next maker := rfl

/-! Role-gated writes -/

/-- The audit queue is full. -/
def fullAudit : State :=
  { maker with mg := { maker.mg with audit := List.replicate 64 ⟨0, 0, 0, 0, 0, 0, false, 0, 0, 0⟩ } }

/-- The same write has just been refused. -/
def refusedOnce : State := match exec (.freeze .spi) auxUnroled with | .next t => t | _ => auxUnroled

theorem witness_WriteWithoutRole :
    Meets auxUnroled (fun s => gatedWriteOf (.freeze .spi) s = some (.spi, 0x6000B, 1) ∧ s.farReg .spi 0x6000B = false ∧
      s.gate .spi (s.role .spi).role 0x6000B = .refused (tpl 0x6000B) ∧ s.auditFull = false ∧
      s.pathBusy .spi = false ∧ s.refusedLately .spi 2 0x6000B = false) ∧
    Meets refusedOnce (fun s => s.gate .spi (s.role .spi).role 0x6000B = .refused (tpl 0x6000B) ∧ s.pathBusy .spi = false ∧ s.farReg .spi 0x6000B = false ∧
      s.refusedLately .spi 2 0x6000B = true) := ⟨meets (by decide +kernel), meets (by decide +kernel)⟩

theorem witness_WriteWithFullAudit :
    Meets fullAudit (fun s => gatedWriteOf (.freeze .spi) s = some (.spi, 0x6000B, 1) ∧ s.farReg .spi 0x6000B = false ∧
      s.gate .spi (s.role .spi).role 0x6000B = .full (tpl 0x6000B) ∧ s.pathBusy .spi = false) := meets (by decide +kernel)

theorem witness_WriteToFarHalf :
    Meets apart (fun s => gatedWriteOf (.fence .spi 15) s = some (.spi, 0x78800, 1) ∧ s.farReg .spi 0x78800 = true ∧ s.pathBusy .spi = false) := meets (by decide +kernel)

theorem witness_WriteIgnored :
    Meets maker (fun s => gatedWriteOf (.registerWrite (.word .spi 0xFFFFFF) 0) s = some (.spi, 0xFFFFFF, 0) ∧ s.farReg .spi 0xFFFFFF = false ∧
      s.gate .spi (s.role .spi).role 0xFFFFFF = .ignored ∧ s.pathBusy .spi = false) := meets (by decide +kernel)

/-- A read of head 3 waits. -/
def readWaits : State := (linked 3).modHead 3 fun x => { x with io := [.reg 4] }

theorem witness_WriteBehindReads :
    Meets readWaits (fun s => gatedWriteOf (.freeze (.head 3)) s = some (.head 3, 0x6000B, 1) ∧ s.pathBusy (.head 3) = true) := meets (by decide +kernel)

theorem witness_PlainRegisterWrite :
    Meets maker (fun s => s.farReg .spi 0x40000 = false ∧ s.gate .spi (s.role .spi).role 0x40000 = .allowed (tpl 0x40000) ∧ (tpl 0x40000).gated = true ∧
      startsNothing 0x40000 = true ∧ s.pathBusy .spi = false) ∧
    Meets maker (fun s => ∀ a ∈ [2, 0x10000, 0x20002, 0x30000, 0x50004, 0x60008, 0x70002, 0x80001, 0x90001, 0xA0000, 0x100001, 0x200001, 0x300000, 0x380002], s.farReg .spi a = false ∧
      s.gate .spi (s.role .spi).role a = .allowed (tpl a) ∧ startsNothing a = true) ∧
    Meets maker (fun s => ∀ a ∈ [0x10020, 0x10029, 0x10100, 0x1023F], s.farReg .spi a = false ∧ s.gate .spi (s.role .spi).role a = .allowed (tpl a)) :=
  ⟨meets (by decide +kernel), meets (by decide +kernel), meets (by decide +kernel)⟩

/-! Power -/

theorem witness_AuxDomainComesUp : maker.pwr.aux = false := rfl

theorem witness_EyeletIsEntered :
    Meets (sets [(F.PS_RAIL_n_STATUS.STATE 8, 4)] (entering 7 [])) (fun s => entered s ∧ s.eyeletLost = true) ∧
    Meets (entering 11 [3, 4, 6, 7, 8, 9, 10]) (fun s => entered s ∧ s.eyeletLost = false ∧ s.rd F.PS_STATUS.EYELET = 11 ∧ s.coreUp .a = true) ∧
    Meets (entering 12 []) (fun s => entered s ∧ s.eyeletLost = false ∧ s.rd F.PS_STATUS.EYELET = 12 ∧ (List.range 4).filter s.lastPresent = []) ∧
    Meets (entering 0 []) (fun s => entered s ∧ s.rd F.PS_STATUS.EYELET = 0 ∧ s.mg.ppRetries < 50) ∧
    Meets (entering 3 [3]) (fun s => entered s ∧ s.rd F.PS_STATUS.EYELET = 3 ∧ s.depsGood 6 = true ∧ s.rd (F.PS_RAIL_n_STATUS.STATE 6) ≠ 4) ∧
    Meets (entering 6 [11]) (fun s => entered s ∧ s.rd F.PS_STATUS.EYELET = 6 ∧ s.depsGood 10 = true ∧ s.rd (F.PS_RAIL_n_STATUS.STATE 10) ≠ 4) ∧
    Meets (entering 13 []) (fun s => entered s ∧ 13 ≤ s.rd F.PS_STATUS.EYELET ∧ s.on F.PS_STATUS.SOLO = false) :=
  ⟨meets (by decide +kernel), meets (by decide +kernel), meets (by decide +kernel), meets (by decide +kernel), meets (by decide +kernel),
    meets (by decide +kernel), meets (by decide +kernel)⟩

theorem witness_PassportReadAgain :
    Meets (retrying 49 1) (fun s => s.mg.ppPending = true ∧ s.pwr.acting = true ∧ s.rd F.PS_STATUS.EYELET = 0 ∧
      s.mg.ppRetries < 50 ∧ s.mg.ppNackRetries < 2) := meets (by decide +kernel)

theorem witness_EyeletsFollow :
    Meets (acting 14) (fun s => s.rd F.PS_STATUS.STATE < 2 ∧ s.pwr.acting = true ∧ s.eyeletLost = false ∧
      s.eyeletDone (s.rd F.PS_STATUS.EYELET) = true ∧ s.rd F.PS_STATUS.EYELET < 15) ∧
    Meets (starting 14) (fun s => s.rd F.PS_STATUS.STATE < 2 ∧ s.on F.PS_STATUS.SOLO = false ∧ s.pwr.ignoreLace = false ∧
      s.pwr.acting = false ∧ s.pwr.entryDue = false ∧ s.on F.PS_STATUS.HOLDING = false ∧ s.pwr.aux = true ∧ s.rd F.PS_STATUS.EYELET < 15) ∧
    Meets { running with pwr := { running.pwr with abortEnd := some 5 } } (fun s => s.rd F.PS_STATUS.STATE = 2 ∧ s.pwr.abortEnd.isSome = true) :=
  ⟨meets (by decide +kernel), meets (by decide +kernel), meets (by decide +kernel)⟩

theorem witness_SoftStart :
    Meets (railAt 11 1) (fun s => s.pwr.aux = true ∧ s.rd (F.PS_RAIL_n_STATUS.STATE 11) = 1 ∧ (s.window 11).1 < (s.window 11).2 ∧
      s.rd (F.PS_RAIL_n_STATUS.RETRIES 11) = 0) ∧
    Meets (sets [(F.PS_RAIL_n_STATUS.RETRIES 11, 1)] (railAt 11 1)) (fun s => s.rd (F.PS_RAIL_n_STATUS.STATE 11) = 1 ∧
      s.rd (F.PS_RAIL_n_STATUS.RETRIES 11) ≠ 0) ∧
    Meets (railAt 1 2) (fun s => s.rd (F.PS_RAIL_n_STATUS.STATE 1) = 2 ∧ s.faultsRecordedOnly = false ∧ s.depsGood 1 = true) :=
  ⟨meets (by decide +kernel), meets (by decide +kernel), meets (by decide +kernel)⟩

theorem witness_RailFaultLatches :
    Meets (sets (good [1, 11]) running) (fun s => s.railGood 1 = true ∧ s.railGood 11 = true ∧ s.railGood 0 = false ∧ s.faultsRecordedOnly = false) ∧
    Meets (sets (good [0]) running) (fun s => s.railGood 0 = true ∧ s.faultsRecordedOnly = false) ∧
    Meets (sets ((F.PS_STATUS.PFW, 1) :: good [11]) running) (fun s => s.railGood 11 = true ∧ s.faultsRecordedOnly = true) :=
  ⟨meets (by decide +kernel), meets (by decide +kernel), meets (by decide +kernel)⟩

theorem witness_RailTransition :
    Meets (sets (good [3] ++ [(F.PS_TRANS_WIN.UV, 725), (F.PS_TRANS_WIN.OV, 775)]) running) (fun s =>
      let v : Word := 0x83000000
      let u := s.stored .spi 0x20007 v.toNat
      s.writable .spi 0x20007 = true ∧ v.getLsbD 31 = true ∧
        u.transRefused (u.rd F.PS_TRANS.RAIL) (u.rd F.PS_TRANS_WIN.UV, u.rd F.PS_TRANS_WIN.OV) = false) ∧
    Meets (sets [(F.PS_RAIL_n_STATUS.STATE 11, 6)] { running with pwr := { running.pwr with trans := some (11, (0, 0), (65535, 65535)) } })
      (fun s => s.pwr.trans = some (11, (0, 0), (65535, 65535)) ∧ s.rd (F.PS_RAIL_n_STATUS.STATE 11) = 6) :=
  ⟨meets (by decide +kernel), meets (by decide +kernel)⟩

theorem witness_LaceEvents :
    Meets (starting 15) (fun s => s.rd F.PS_STATUS.STATE < 2 ∧ s.pwr.acting = false ∧ s.pwr.entryDue = false ∧ s.on F.PS_STATUS.LACE = false ∧
      s.pwr.warned = false) ∧
    Meets running (fun s => s.rd F.PS_STATUS.STATE = 2 ∧ s.writable .spi 0x20001 = true) := ⟨meets (by decide +kernel), meets (by decide +kernel)⟩

theorem witness_PowerFailWarning :
    Meets (sets [(F.PS_STATUS.STATE, 3)] auxOn) (fun s => s.rd F.PS_STATUS.STATE < 4 ∧ s.on F.PS_STATUS.PFW = false) ∧
    Meets { running with pwr := { running.pwr with pfwDelay := true } } (fun s => s.pwr.pfwDelay = true) :=
  ⟨meets (by decide +kernel), meets (by decide +kernel)⟩

theorem witness_SheddingStarts : Meets running (fun s => s.rd F.PS_STATUS.STATE = 2 ∧ s.rd F.PS_STATUS.STATE < 4) := meets (by decide +kernel)

/-- A record of number 0 with its CRC-32. -/
def aRecord : List Byte :=
  let b := leBytes 4 0x4B504652 ++ List.replicate 248 0
  b ++ leBytes 4 (crc32 b)

theorem witness_SheddingRuns :
    Meets (shedding [[0, 1, 11], []]) (fun s => s.pwr.groups = [0, 1, 11] :: [[]] ∧ s.rd F.PS_STATUS.STATE = 4 ∧ s.pwr.shed = some aShed ∧
      s.pwr.recording = false ∧ 7 < s.pwr.vrec ∧ s.faultsRecordedOnly = true) ∧
    Meets (shedding []) (fun s => s.pwr.shed = some aShed ∧ s.rd F.PS_STATUS.STATE = 4 ∧ s.pwr.recording = false ∧ s.pwr.groups = []) ∧
    Meets { shedding [] with pwr := { (shedding []).pwr with recording := true } } (fun s => s.pwr.shed = some aShed ∧ s.pwr.recording = true) ∧
    Meets { shedding [] with pwr := { (shedding []).pwr with recording := true, recBytes := aRecord } } (fun s => s.pwr.recBytes.length = 256 ∧
      field s.pwr.recBytes 0 4 = 0x4B504652 ∧ field s.pwr.recBytes 252 4 = crc32 (s.pwr.recBytes.take 252) ∧ field s.pwr.recBytes 8 4 = 0 ∧
      s.pwr.recSlot = 0 ∧ s.tornAt (0x1030000 + 256 * s.pwr.recSlot) 256 = false) ∧
    Meets (sets [(F.PS_STATUS.STATE, 5)] auxOn) (fun s => 5 ≤ s.rd F.PS_STATUS.STATE) :=
  ⟨meets (by decide +kernel), meets (by decide +kernel), meets (by decide +kernel), meets (by decide +kernel), meets (by decide +kernel)⟩

theorem witness_WarmResetDropsRoles : Meets running (fun s => s.writable .spi 4 = true ∧ s.rd F.PS_STATUS.STATE = 2) := meets (by decide +kernel)

theorem witness_PressIgnored :
    Meets (starting 3) (fun s => s.rd F.PS_STATUS.STATE < 2 ∧ (s.fc s.leader).fatal = false) ∧ Meets (shedding []) (fun s => s.rd F.PS_STATUS.STATE = 4) :=
  ⟨meets (by decide +kernel), meets (by decide +kernel)⟩

theorem witness_ResetAndRestart :
    Meets (sets [(F.PS_STATUS.STATE, 5)] auxOn) (fun s => s.pwr.aux = true ∧ s.rd F.PS_STATUS.STATE = 5) ∧
    Meets (sets [(F.PS_STATUS.STATE, 7)] auxOn) (fun s => s.pwr.aux = true ∧ s.rd F.PS_STATUS.STATE = 7) := ⟨meets (by decide +kernel), meets (by decide +kernel)⟩

/-! Management -/

theorem witness_SpiRead :
    Meets maker (fun _ => (0x2FFFF#24).toNat + 2 ≤ 2 ^ 24) ∧ Meets maker (fun _ => (0xFFFFFF#24).toNat + 1 ≤ 2 ^ 24) :=
  ⟨meets (by decide +kernel), meets (by decide +kernel)⟩

theorem witness_SpiWrite : maker.Inv := inv_of_bounded (by decide +kernel)

theorem witness_SpiFetch :
    Meets maker (fun s => s.mg.fetching = none ∧ 1 ≤ (64#7).toNat ∧ (64#7).toNat ≤ 64) ∧
    Meets { maker with mg := { maker.mg with fetching := some (0x2FFC0, 64) } } (fun s => s.mg.fetching = some (0x2FFC0, 64) ∧ 0x2FFC0 + 64 ≤ 0x30000) :=
  ⟨meets (by decide +kernel), meets (by decide +kernel)⟩

theorem witness_FetchedWord :
    Meets { maker with mg := { maker.mg with fetching := some (0x2FFFF, 1) } } (fun s => s.mg.fetching = some (0x2FFFF, 1) ∧ 0x2FFFF < 0x30000) ∧
    Meets { maker with mg := { maker.mg with fetching := some (0xFFFFFF, 1) } } (fun s => s.mg.fetching = some (0xFFFFFF, 1) ∧ 0x30000 ≤ 0xFFFFFF) :=
  ⟨meets (by decide +kernel), meets (by decide +kernel)⟩

theorem witness_ManagementWindow : Meets (linked 3) (fun s => s.linkUp 3 = true ∧ (0xFFFFC#21).toNat % 4 = 0 ∧ (0xFFFFC#21).toNat < 0x100000 ∧ 0x100000 ≤ (0x100000#21).toNat) := meets (by decide +kernel)

theorem witness_DoorbellWindow :
    Meets (linked 3) (fun s => s.takesPosted 3 = true ∧ ¬ (4 = 4 ∧ (2#16).toNat % 4 = 0) ∧ ¬ (4 = 8 ∧ (2#16).toNat % 8 = 0)) := meets (by decide +kernel)

theorem witness_ConfigWrites : Meets (linked 3) (fun s => s.linkUp 3 = true ∧ ((s.head 3).vec 3).pending = false) := meets (by decide +kernel)

/-- Half B holds reads back while a subchannel of it is offline (R245). -/
def holding : State := (linked 3).modMh .b fun m => { m with hold := true }

theorem witness_HeadReads :
    Meets (linked 3) (fun s => s.linkUp 3 = true ∧ s.ioMayGo 3 = true ∧ (s.head 3).io = [] ∧ (0xFFFFC#21).toNat % 4 = 0 ∧
      ((1#21).toNat % 4 ≠ 0) ∧ (0xFFFC#16).toNat % 4 = 0 ∧ ¬ (4 = 4 ∧ (2#16).toNat % 4 = 0) ∧ ¬ (4 = 8 ∧ (2#16).toNat % 8 = 0)) ∧
    Meets holding (fun s => s.linkUp 3 = true ∧ s.ioMayGo 3 = false) := ⟨meets (by decide +kernel), meets (by decide +kernel)⟩

/-- A challenge for the role maker stands on a path; its key reads 0. -/
def challenged (p : Path) : State :=
  { maker with mg := { maker.mg with roles := maker.mg.roles.set! p.idx { role := 3, chal := some (5, 3, 0), fails := 4 } } }

/-- The right response stands in MG_ROLE_RESP: HMAC-SHA-256 under the key 0. -/
def answered : State :=
  sets ((List.range 8).map fun i => (F.MG_ROLE_RESP_i.RESP i,
    [1513167670, 4127817946, 2652151638, 2754360572, 1003379754, 2696160193, 934648620, 792649676].getD i 0)) (challenged .spi)

theorem witness_SpiChallenge :
    Meets maker (fun s => (s.role .spi).locked = false ∧ s.keyOf 3 ≠ none) ∧ Meets lockedSpi (fun s => (s.role .spi).locked = true) ∧
    Meets maker (fun s => (s.role .spi).locked = false ∧ s.keyOf 0 = none) :=
  ⟨meets (by decide +kernel), meets (by decide +kernel), meets (by decide +kernel)⟩

theorem witness_SpiResponse :
    Meets answered (fun s => (s.role .spi).chal = some (5, 3, 0) ∧ s.now ≤ 0 + 12000000000 ∧ s.keyOf 3 = some 0 ∧ s.auditFull = false ∧
      s.wantedResponse .spi 0 5 3 = ((List.range 8).map fun i => leBytes 4 (s.rd (F.MG_ROLE_RESP_i.RESP i))).flatten) ∧
    Meets (challenged .spi) (fun s => (s.role .spi).chal = some (5, 3, 0) ∧ s.now ≤ 0 + 12000000000 ∧ s.keyOf 3 = some 0 ∧ s.auditFull = false ∧
      s.wantedResponse .spi 0 5 3 ≠ ((List.range 8).map fun i => leBytes 4 (s.rd (F.MG_ROLE_RESP_i.RESP i))).flatten) ∧
    Meets { challenged .spi with now := 12000000001 } (fun s => s.auditFull = false ∧ (s.role .spi).chal = some (5, 3, 0) ∧ 0 + 12000000000 < s.now) :=
  ⟨meets (by decide +kernel), meets (by decide +kernel), meets (by decide +kernel)⟩

theorem witness_RolesEnd :
    Meets maker (fun s => (s.role .spi).role ≠ 0 ∧ s.auditFull = false) ∧ Meets lockedSpi (fun s => (s.role .spi).locked = true) :=
  ⟨meets (by decide +kernel), meets (by decide +kernel)⟩

theorem witness_FlashRead :
    Meets running (fun s => s.auditFull = false ∧ s.rd (F.MG_FL_ADDR.SPACE.on .spi) = 0 ∧
      s.flashRole 0 0 (s.rd (F.MG_FL_ADDR.ADDR.on .spi) / 4 * 4) (4 * ((63#6).toNat + 1)) = some 3 ∧ 3 ≤ (s.role .spi).role ∧ s.pathBusy .spi = false ∧
      s.rd F.PS_STATUS.STATE ≠ 4) ∧
    Meets { running with mg := { running.mg with roles := Vector.replicate 5 { role := 0 } } } (fun s =>
      s.flashRole 0 0 (s.rd (F.MG_FL_ADDR.ADDR.on .spi) / 4 * 4) (4 * ((63#6).toNat + 1)) = some 3 ∧ (s.role .spi).role < 3) ∧
    Meets (sets [(F.MG_FL_ADDR.SPACE.on .spi, 1), (F.MG_FL_ADDR.ADDR.on .spi, 0x2000)] running) (fun s => s.rd (F.MG_FL_ADDR.SPACE.on .spi) = 1 ∧
      s.flashRole 0 1 (s.rd (F.MG_FL_ADDR.ADDR.on .spi) / 4 * 4) (4 * ((63#6).toNat + 1)) = none) :=
  ⟨meets (by decide +kernel), meets (by decide +kernel), meets (by decide +kernel)⟩

theorem witness_FlashOperationStarts :
    Meets (sets [(F.MG_FL_ADDR.ADDR.on .spi, 0x800000)] running) (fun s => s.auditFull = false ∧ s.rd (F.MG_FL_ADDR.SPACE.on .spi) = 0 ∧ s.mg.op = none ∧
      s.flashRole 1 0 (s.rd (F.MG_FL_ADDR.ADDR.on .spi) / 4 * 4) (4 * ((63#6).toNat + 1)) = some 3 ∧
      s.flashRole 2 0 (s.rd (F.MG_FL_ADDR.ADDR.on .spi) / 4 * 4 / 4096 * 4096) 4096 = some 3 ∧ 3 ≤ (s.role .spi).role ∧ s.rd F.PS_STATUS.STATE ≠ 4) ∧
    Meets (sets [(F.MG_FL_ADDR.SPACE.on .spi, 1), (F.MG_FL_ADDR.ADDR.on .spi, 0x40)] running) (fun s => s.rd (F.MG_FL_ADDR.SPACE.on .spi) = 1 ∧
      (s.flashRole 1 1 (s.rd (F.MG_FL_ADDR.ADDR.on .spi) / 4 * 4) 4).any (fun r => decide (r ≤ (s.role .spi).role)) = true) ∧
    Meets (sets [(F.MG_FL_ADDR.ADDR.on .spi, 0x800000)] (shedding [])) (fun s => s.rd F.PS_STATUS.STATE = 4 ∧ s.mg.op = none ∧ s.auditFull = false ∧
      s.flashRole 1 0 (s.rd (F.MG_FL_ADDR.ADDR.on .spi) / 4 * 4) (4 * ((63#6).toNat + 1)) = some 3 ∧ 3 ≤ (s.role .spi).role) :=
  ⟨meets (by decide +kernel), meets (by decide +kernel), meets (by decide +kernel)⟩

theorem witness_FlashOperationEnds :
    Meets (flashing ⟨.spi, 1, 0, 0x1FFFFFC, [0x12345678]⟩) (fun s => s.mg.op = some ⟨.spi, 1, 0, 0x1FFFFFC, [0x12345678]⟩) ∧
    Meets (flashing ⟨.spi, 2, 0, 0, []⟩) (fun s => s.mg.op = some ⟨.spi, 2, 0, 0, []⟩ ∧ s.ppHeld = false) ∧
    Meets (flashing ⟨.spi, 1, 1, 0x3F8, [1, 2]⟩) (fun s => s.ppHeld = false ∧ 0x40 ≤ 0x3F8 ∧ 0x3F8 + 4 * 2 ≤ 0x400) ∧
    Meets (flashing ⟨.spi, 1, 2, 0x10, [1]⟩) (fun s => s.mg.op = some ⟨.spi, 1, 2, 0x10, [1]⟩) ∧
    Meets (flashing ⟨.spi, 1, 3, 2, List.replicate 8 1⟩) (fun s => s.ppHeld = false) ∧
    Meets { flashing ⟨.spi, 1, 1, 0x40, [1]⟩ with mg := { (flashing ⟨.spi, 1, 1, 0x40, [1]⟩).mg with fieldN := true } } (fun s => s.ppHeld = true ∧
      s.mg.ppAhead = 0) :=
  ⟨meets (by decide +kernel), meets (by decide +kernel), meets (by decide +kernel), meets (by decide +kernel), meets (by decide +kernel), meets (by decide +kernel)⟩

theorem witness_AuditEntryGoesToFlash :
    Meets { maker with mg := { maker.mg with audit := [⟨0, 129, 0, 3, 0, 2, false, 5, 0, 1⟩] } }
      (fun s => s.mg.audit = ⟨0, 129, 0, 3, 0, 2, false, 5, 0, 1⟩ :: [] ∧ 129 % 128 ≠ 0 ∧
        s.rd F.PS_STATUS.STATE ≠ 4 ∧ s.mg.auditWait = [] ∧ s.ppReleased = false) ∧
    Meets { maker with mg := { maker.mg with audit := List.replicate 64 ⟨0, 129, 0, 3, 0, 2, false, 5, 0, 1⟩,
                                             auditWait := [⟨0, 0, 0, 3, 0, 6, false, 5, 0, 1⟩] } }
      (fun s => s.mg.auditWait = ⟨0, 0, 0, 3, 0, 6, false, 5, 0, 1⟩ :: []) := ⟨meets (by decide +kernel), meets (by decide +kernel)⟩

theorem witness_PassportWritesWait :
    Meets { maker with mg := { maker.mg with fieldN := true, ppWaiting := [(0, [1])] } } (fun s => s.mg.ppWaiting = (0, [1]) :: [] ∧
      s.ppHeld = false ∧ s.mg.fieldN = true ∧ s.mg.tailDue = false) := meets (by decide +kernel)

theorem witness_BootBankAndTap :
    Meets maker (fun s => s.writable .spi 5 = true ∧ s.pwr.aux = false) ∧ Meets auxOn (fun s => s.pwr.aux = true ∧ s.rd F.PS_STATUS.STATE = 0) :=
  ⟨meets (by decide +kernel), meets (by decide +kernel)⟩


/-! The frame schedule and the LUTs -/

/-- Sources of heads 0 and 3. -/
def srcW (n h : Nat) : SrcCfg :=
  { src := n, d12 := false, retain := false, frozen := false, head := h, maxSlots := 2, width := 32, height := 8, ringBase := 4 * 2 ^ 28, stride := 65536
    depth := 4, dMax := 1, delay := 0 }

/-- A stream of one lamp per chunk. -/
def streamW (n e h : Nat) : StreamCfg :=
  { stream := n, engine := e, alt := none, src := 0, head := h, mode := 0, box := 0, enabled := true, offsets := false, gridW := 2, gridH := 1
    aff := [4096, 0, 0, 0, 4096, 0], gauze := 0, offs := 0, format := 0, dither := 0, chunkLamps := 1, share := 4, lut := 0, seed := 1, fill := [1, 2, 3] }

/-- A Last: a region of linear storage, one of a source ring and one of class Archive. -/
def lastW : LastCfg :=
  { rateN := 120, rateD := 1, cutoff := 2048, wend := 3500, ts0 := 0, ts1 := 1, nbrK := 6, frameBase := 1000, srcs := [srcW 0 0, srcW 15 3]
    streams := [streamW 0 0 0, streamW 511 15 3]
    map :=
      { regions := [⟨0, 4, 0, 0, 0, 0, 15, 15, false, false, 0⟩, ⟨4, 4, 0, 0, 0, 2, 15, 0, false, false, 16⟩, ⟨8, 4, 2, 0, 0, 2, 15, 15, false, false, 1024⟩]
        hash := (List.range 4).map fun m => (List.range 9).map fun k => 1 + 2 ^ (k + m) } }

/-- The schedule changed. -/
def modSched (f : Sched → Sched) (s : State) : State := { s with sched := f s.sched }

/-- A tick of the Last runs. -/
def playing : State :=
  modSched (fun c => { c with last := some (0, lastW), running := true, everActive := true, frame := 5, tickLen := 10000000, map := lastW.map, enabled := 3 })
    running

theorem witness_TickStarts :
    Meets (modSched (fun c => { c with cutDone := true, prodDone := true }) playing) (fun s => s.schedules .a = true ∧ (s.fc .a).fatal = false ∧
      s.rd F.PS_STATUS.STATE < 4 ∧ s.sched.running = true ∧ s.sched.cutDone = true ∧ s.sched.prodDone = true ∧ s.sched.everActive = true) ∧
    Meets (modSched (fun c => { c with actAt := some (0, 3, 0), armed := some 3 }) { running with lasts := running.lasts.set! 3 (some lastW) }) (fun s =>
      s.schedules .a = true ∧ (s.fc .a).fatal = false ∧ s.rd F.PS_STATUS.STATE < 4 ∧ s.sched.running = false ∧ s.sched.everActive = false ∧ s.sched.cmds = [] ∧
      s.sched.actAt = some (0, 3, 0) ∧ 0 ≤ lastW.frameBase ∧ s.sched.armed = some 3 ∧ s.lasts[3]? = some (some lastW) ∧
      (((s.onBase .a State.takeTickSrc).asSeen .a).toTarget lastW.rateN lastW.rateD).isSome = true) :=
  ⟨meets (by decide +kernel), meets (by decide +kernel)⟩

theorem witness_TickProceeds :
    Meets { playing with tb := { playing.tb with tickOut := true } } (fun s => s.schedules .a = true ∧ s.sched.running = true ∧ s.sched.cutDone = false ∧
      s.sched.prodDone = false ∧ s.tb.tickOut = true) ∧
    Meets running (fun s => s.schedules .a = true ∧ s.sched.running = false ∧ 12 ≤ s.rd F.PS_STATUS.EYELET ∧ s.rd F.PS_STATUS.STATE ≤ 2 ∧
      s.stopping .a = false) :=
  ⟨meets (by decide +kernel), meets (by decide +kernel)⟩

theorem witness_OperatorCommands :
    Meets (sets [(F.FS_TICK_LO.TICK_LO.on (.head 3), 6)] playing) (fun s => s.writable (.head 3) 0x6000B = true ∧
      ∀ op ∈ [1, 2, 3, 4, 5, 6], s.submitResult (s.schedOf (s.actHalf (.head 3))) op 0 0 (s.staged (.head 3)) = 0) ∧
    Meets { sets [(F.FS_TICK_LO.TICK_LO.on (.head 3), 6), (F.FS_CMD_ARG.TARGET.on (.head 3), 3)] playing with lasts := running.lasts.set! 3 (some lastW) }
      (fun s => s.writable (.head 3) 0x6000B = true ∧ s.submitResult (s.schedOf (s.actHalf (.head 3))) 7 3 0 (s.staged (.head 3)) = 0) ∧
    Meets playing (fun s => s.writable .spi 0x6000B = true ∧ s.submitResult (s.schedOf (s.actHalf .spi)) 1 0 0 (s.staged .spi) = 1) ∧
    Meets running (fun s => s.writable .spi 0x6000B = true ∧ 2 ≤ s.submitResult (s.schedOf (s.actHalf .spi)) 1 0 0 (s.staged .spi)) ∧
    ((0 : BitVec 4).toNat = 0 ∧ 8 ≤ (8 : BitVec 4).toNat ∧ 8 ≤ (15 : BitVec 4).toNat) :=
  ⟨meets (by decide +kernel), meets (by decide +kernel), meets (by decide +kernel), meets (by decide +kernel), by decide⟩

theorem witness_CommandQueueOf64 :
    Meets (modSched (fun c => { c with cmds := List.replicate 64 ⟨1, 0, 0, 9, 9, 0, 3, false⟩ }) playing) (fun s => s.writable .spi 0x6000B = true ∧
      (s.schedOf (s.actHalf .spi)).cmds.length = 64) :=
  meets (by decide +kernel)

theorem witness_LastControl :
    Meets running (fun s => s.writable .spi 0x60010 = true ∧ s.admitting = none) ∧
    Meets { running with admitting := some 3 } (fun s => s.admitting = some 3 ∧ s.admStart = false ∧ s.admTouched = false ∧ (s.verdict 3).reason ≠ 0) ∧
    Meets (modSched (fun c => { c with armed := some 3 }) playing) (fun s => s.writable .spi 0x60010 = true ∧
      (s.schedOf (s.actHalf .spi)).armed = some 3) :=
  ⟨meets (by decide +kernel), meets (by decide +kernel), meets (by decide +kernel)⟩

theorem witness_LutBanks :
    Meets (sets [(F.LE_LUT_CTRL.ENTRY, 4096), (F.LE_LUT_CTRL.TABLE, 15)] running) (fun s => s.writable .spi 0x70000 = true ∧
      s.writable .spi 0x70001 = true ∧ s.rd F.LE_LUT_CTRL.COPYING = 0 ∧ s.rd F.LE_LUT_CTRL.ENTRY = 4096 ∧ s.rd F.LE_LUT_CTRL.TABLE = 15 ∧
      s.readsAtOnce .spi = true ∧ (s.schedOf (s.actHalf .spi)).running = false) ∧
    Meets (sets [(F.LE_LUT_CTRL.TABLE, 79)] playing) (fun s => s.writable .spi 0x70000 = true ∧ s.rd F.LE_LUT_CTRL.TABLE < 80 ∧
      s.rd F.LE_LUT_CTRL.COPYING = 0 ∧ (s.schedOf (s.actHalf .spi)).running = true) ∧
    Meets (sets [(F.LE_LUT_CTRL.ENTRY, 4097)] running) (fun s => s.writable .spi 0x70001 = true ∧ s.rd F.LE_LUT_CTRL.COPYING = 0 ∧
      4096 < s.rd F.LE_LUT_CTRL.ENTRY) ∧
    Meets (sets [(F.LE_LUT_CTRL.COPYING, 1)] running) (fun s => s.rd F.LE_LUT_CTRL.COPYING = 1) ∧
    Meets holding (fun s => s.ioMayGo 3 = false ∧ s.linkUp 3 = true) :=
  ⟨meets (by decide +kernel), meets (by decide +kernel), meets (by decide +kernel), meets (by decide +kernel), meets (by decide +kernel)⟩

theorem witness_LutAtPowerOn : maker.pwr.aux = false ∧ (1 < 2 ∧ 79 < 80 ∧ 4096 ≤ 4096) := ⟨rfl, by decide⟩

theorem witness_FrameCountRead :
    Meets playing (fun s => s.frameCount (s.pathHalf .spi) < 2 ^ 64 ∧ s.readsAtOnce .spi = true) ∧
    Meets (linked 3) (fun s => s.frameCount (s.pathHalf (.head 3)) < 2 ^ 64 ∧ s.readsAtOnce (.head 3) = true) ∧
    Meets holding (fun s => s.frameCount (s.pathHalf (.head 3)) < 2 ^ 64 ∧ s.ioMayGo 3 = false) :=
  ⟨meets (by decide +kernel), meets (by decide +kernel), meets (by decide +kernel)⟩


/-! Publication, ingest and heads -/

/-- The heads 0 and 3 are in L0 while a tick runs. -/
def serving : State := sets [(F.HP_n_LINK.UP 0, 1), (F.HP_n_LINK.UP 3, 1)] playing

/-- A source at run time changed. -/
def modRt (n : Nat) (f : SrcRt → SrcRt) (s : State) : State := s.modRt n f

/-- A head changed. -/
def modHd (h : Nat) (f : Head → Head) (s : State) : State := s.modHead h f

/-- The lines of block 1 of slot 3 of source 15 have arrived, at engine 15 and for a window read of head 3. -/
def arrived (s : State) : State :=
  let ls : List InLine := (blockNeeds (srcW 15 3) .t6 [] 3 1).map fun a => ⟨a / 64, some 0, false⟩
  (s.modHead 3 fun h => { h with win := some ⟨15, 3, 4, 0, 2⟩, winLines := ls }).modEng 15 fun g => { g with lines := ls }

/-- Head 3 publishes source 15 (`State.Serves`). -/
abbrev served (s : State) : Prop :=
  s.srcAt 3 15 = some (srcW 15 3) ∧ (srcW 15 3).head = 3 ∧ (s.schedOf (s.srcHalf 15)).src 15 = some (srcW 15 3)

/-- Head 2 is in L0 too. -/
def serving2 (s : State) : State := sets [(F.HP_n_LINK.UP 2, 1)] s

/-- A publication of slot 3 with tag 7 in tick 5, late. -/
def pubW : PubReq := ⟨3, 7, 5, true⟩

/-- A block of source 15 waits for a place in the write queue of subchannel 15. -/
def crowded (s : State) : State := s.modSub 15 fun u => { u with wrWait := [⟨1, ⟨3, 5, false, 16, []⟩, false⟩] }

theorem witness_Publication :
    Meets (serving2 (modRt 15 (fun r => { r with wslot := some 3, pass := 2 }) serving)) (fun s => served s ∧ s.takesPosted 3 = true ∧ s.takesLines 15 = true ∧
      s.activeAt 3 = true ∧ s.pubResult 15 (srcW 15 3) 3 = 0 ∧ s.pubResult 15 (srcW 15 3) 2 ≠ 0 ∧ 2 ≠ 3 ∧ half4 2 = half4 3 ∧ s.takesPosted 2 = true) ∧
    Meets (modRt 15 (fun r => { r with encoding := true }) serving) (fun s => served s ∧ s.takesPosted 3 = true ∧ s.takesLines 15 = false) ∧
    Meets (modRt 15 (fun r => { r with pubs := [pubW] }) serving) (fun s => served s ∧ (s.rt 15).pubs = pubW :: [] ∧ s.blocksAccepted 15 3 = true ∧
      pubW.slot ∉ (s.rt 15).incomplete) ∧
    Meets (modRt 15 (fun r => { r with pubs := [pubW], incomplete := [3] }) serving) (fun s => served s ∧ (s.rt 15).pubs = pubW :: [] ∧
      s.blocksAccepted 15 3 = true ∧ pubW.slot ∈ (s.rt 15).incomplete) ∧
    Meets (crowded (modRt 15 (fun r => { r with pubs := [pubW] }) serving)) (fun s => served s ∧ (s.rt 15).pubs = pubW :: [] ∧ s.blocksAccepted 15 3 = false) :=
  ⟨meets (by decide +kernel), meets (by decide +kernel), meets (by decide +kernel), meets (by decide +kernel), meets (by decide +kernel)⟩

theorem witness_SlotSelected :
    Meets (modRt 15 (fun r => { r with wslot := some 2, pass := 1 }) serving) (fun s => served s ∧ s.takesPosted 3 = true ∧ s.activeAt 3 = true ∧
      s.takesLines 15 = true ∧ (3#16).toNat < (srcW 15 3).depth ∧ ¬ (4#16).toNat < (srcW 15 3).depth ∧ (s.rt 15).pass = 1 ∧ (s.rt 15).wslot = some 2) ∧
    Meets (modRt 15 (fun r => { r with encoding := true }) serving) (fun s => served s ∧ s.takesPosted 3 = true ∧ s.activeAt 3 = true ∧
      s.takesLines 15 = false) ∧
    Meets (modSched (fun c => { c with last := none }) serving) (fun s => s.takesPosted 3 = true ∧ s.activeAt 3 = false) :=
  ⟨meets (by decide +kernel), meets (by decide +kernel), meets (by decide +kernel)⟩

/-- The offset of a line in the pixel window of source 15. -/
def windowAt (row line : Nat) : BitVec 35 := BitVec.ofNat 35 (15 * 2 ^ 31 + row * 2 ^ 17 + line * 64)

/-- The fields of such an offset, inside source 15. -/
abbrev inWindow (row line : Nat) : Prop :=
  bits (windowAt row line).toNat 34 31 = 15 ∧ bits (windowAt row line).toNat 30 17 = row ∧ bits (windowAt row line).toNat 16 6 = line ∧
    (windowAt row line).toNat % 64 = 0 ∧ row < (srcW 15 3).height ∧ line < (srcW 15 3).lines

/-- A copy from the Archive into slot 2 of source 15. -/
def copyW : Copy := ⟨0, true, 15, 2, 8 * 2 ^ 28, 4 * 2 ^ 28, 64, 1, [], [], 64, 0, false⟩

theorem witness_WindowLines :
    Meets (sets [(F.HP_n_LINK.UP 3, 1)] running) (fun s => s.linkUp 3 = true ∧ s.activeAt 3 = false ∧ ([0, 1] : List Byte) ≠ [] ∧ 2 % 64 ≠ 0 ∧
      (List.replicate 64 (0 : Byte)).length = 64 ∧ inWindow 0 0) ∧
    Meets (serving2 serving) (fun s => s.linkUp 2 = true ∧ s.activeAt 2 = true ∧ s.srcAt 2 15 = some (srcW 15 3) ∧ (srcW 15 3).head ≠ 2 ∧ inWindow 0 0) ∧
    Meets serving (fun s => s.linkUp 3 = true ∧ s.activeAt 3 = true ∧ served s ∧ s.takesLines 15 = true ∧ s.copyingIn 15 = false ∧ (s.rt 15).wslot = none ∧
      inWindow 7 1) ∧
    Meets (modRt 15 (fun r => { r with encoding := true }) serving) (fun s => s.linkUp 3 = true ∧ s.activeAt 3 = true ∧ served s ∧ s.takesLines 15 = false) ∧
    Meets (modHd 3 (fun h => { h with copy := some copyW }) serving) (fun s => s.linkUp 3 = true ∧ s.activeAt 3 = true ∧ served s ∧ s.takesLines 15 = true ∧
      s.copyingIn 15 = true) ∧
    Meets (modRt 15 (fun r => { r with wslot := some 3 }) serving) (fun s => s.linkUp 3 = true ∧ s.activeAt 3 = true ∧ served s ∧ s.takesLines 15 = true ∧
      (s.rt 15).wslot = some 3 ∧ s.copyingIn 15 = false ∧ s.slotBusy 15 3 = false ∧ inWindow 0 0) ∧
    Meets (modRt 15 (fun r => { r with wslot := some 3, pubs := [pubW] }) serving) (fun s => s.linkUp 3 = true ∧ s.activeAt 3 = true ∧ served s ∧
      s.takesLines 15 = true ∧ (s.rt 15).wslot = some 3 ∧ s.copyingIn 15 = false ∧ s.slotBusy 15 3 = true) ∧
    Meets (modRt 15 (fun r => { r with wslot := some 3, pass := 1, brow := 1 }) serving) (fun s => s.linkUp 3 = true ∧ s.activeAt 3 = true ∧ served s ∧
      s.takesLines 15 = true ∧ inWindow 7 1 ∧ 7 / 4 = (s.rt 15).brow ∧ inWindow 3 1 ∧ 3 / 4 ≠ (s.rt 15).brow ∧
      (s.rt 15).wslot = some 3 ∧ (s.rt 15).pass = 1 ∧ s.copyingIn 15 = false ∧ s.slotBusy 15 3 = false) :=
  ⟨meets (by decide +kernel), meets (by decide +kernel), meets (by decide +kernel), meets (by decide +kernel), meets (by decide +kernel),
    meets (by decide +kernel), meets (by decide +kernel), meets (by decide +kernel)⟩

theorem witness_BlockRowEncoded :
    Meets (modRt 15 (fun r => { r with wslot := some 3, pass := 1, brow := 1, encoding := true }) serving) (fun s =>
      (s.schedOf (s.srcHalf 15)).src 15 = some (srcW 15 3) ∧ (s.rt 15).encoding = true ∧ s.mayEncode 15 = true ∧ (s.rt 15).wait = [] ∧ (s.rt 15).pass = 1 ∧
      (s.rt 15).closing = false ∧ (s.rt 15).wslot = some 3 ∧ (s.schedOf (s.srcHalf 15)).modeOf (srcW 15 3) = some .t6) ∧
    Meets (modRt 15 (fun r => { r with wslot := some 3, pass := 1, encoding := true, wait := [.select 2] }) serving) (fun s =>
      s.mayEncode 15 = true ∧ (s.rt 15).wait = [.select 2] ∧ 2 < (srcW 15 3).depth ∧ (s.rt 15).closing = false) ∧
    Meets (modRt 15 (fun r => { r with wslot := some 3, encoding := true }) serving) (fun s => s.mayEncode 15 = true ∧ (s.rt 15).encoding = true ∧
      (s.rt 15).pass ≠ 1 ∧ (s.rt 15).closing = false ∧ (s.rt 15).wait = []) ∧
    Meets (modRt 15 (fun r => { r with wslot := some 3, pass := 1, encoding := true, closing := true }) serving) (fun s => s.mayEncode 15 = true ∧
      (s.rt 15).encoding = true ∧ (s.rt 15).closing = true ∧ (s.rt 15).wait = [] ∧ (s.rt 15).wslot = some 3) ∧
    Meets serving (fun s => (s.rt 15).encoding = false) :=
  ⟨meets (by decide +kernel), meets (by decide +kernel), meets (by decide +kernel), meets (by decide +kernel), meets (by decide +kernel)⟩

/-- Two map entries of slot 0 of source 15 wait; the subchannel of their lines is in a state. -/
def merging (st : Nat) : State :=
  sets ((List.range 16).map fun n => (F.DC_n_STATUS.STATE n, st)) (modRt 15 (fun r => { r with mapWait := [(0, 126, 1), (0, 128, 2)] }) serving)

theorem witness_SizeMapMerge :
    Meets serving (fun s => (s.schedOf (s.srcHalf 15)).src 15 = some (srcW 15 3) ∧ (s.rt 15).mapWait = []) ∧
    Meets (merging 1) (fun s => (s.schedOf (s.srcHalf 15)).src 15 = some (srcW 15 3) ∧ (s.rt 15).mapWait = (0, 126, 1) :: [(0, 128, 2)] ∧
      s.mapWaits (s.srcHalf 15) ((srcW 15 3).mapLine 0 126) = false) ∧
    Meets (merging 2) (fun s => (s.rt 15).mapWait = (0, 126, 1) :: [(0, 128, 2)] ∧ s.mapWaits (s.srcHalf 15) ((srcW 15 3).mapLine 0 126) = true) ∧
    Meets (modSched (fun c => { c with filling := (List.range 3).map fun i => ⟨i, true, true, false⟩ }) (merging 1)) (fun s =>
      s.mapWaits (s.srcHalf 15) ((srcW 15 3).mapLine 0 126) = false ∧
        ((s.modRt 15 fun r => { r with mapWait := [(0, 128, 2)] }).readMap (s.srcHalf 15) ((srcW 15 3).mapLine 0 126) []).1 = none) :=
  ⟨meets (by decide +kernel), meets (by decide +kernel), meets (by decide +kernel), meets (by decide +kernel)⟩

theorem witness_WindowReads :
    Meets (sets [(F.HP_n_LINK.UP 3, 1)] running) (fun s => s.linkUp 3 = true ∧ 0 < 64 ∧ s.activeAt 3 = false ∧
      (!s.heldFor (half4 3) && (s.head 3).win.isNone && (s.head 3).io.isEmpty) = true) ∧
    Meets (serving2 serving) (fun s => s.linkUp 2 = true ∧ s.activeAt 2 = true ∧ s.srcAt 2 15 = some (srcW 15 3) ∧ (srcW 15 3).head ≠ 2 ∧
      (!s.heldFor (half4 2) && (s.head 2).win.isNone && (s.head 2).io.isEmpty) = true) ∧
    Meets (modRt 15 (fun r => { r with wslot := some 3 }) serving) (fun s => s.linkUp 3 = true ∧ s.activeAt 3 = true ∧
      s.srcAt 3 15 = some (srcW 15 3) ∧ (srcW 15 3).head = 3 ∧ (s.rt 15).wslot = some 3 ∧ inWindow 7 0 ∧ 0 + 2 ≤ (srcW 15 3).lines ∧
      (s.schedOf (half4 3)).modeOf (srcW 15 3) = some .t6 ∧ (!s.heldFor (half4 3) && (s.head 3).win.isNone && (s.head 3).io.isEmpty) = true) ∧
    Meets holding (fun s => s.linkUp 3 = true ∧ (!s.heldFor (half4 3) && (s.head 3).win.isNone && (s.head 3).io.isEmpty) = false) :=
  ⟨meets (by decide +kernel), meets (by decide +kernel), meets (by decide +kernel), meets (by decide +kernel)⟩

theorem witness_BlocksDecoded :
    Meets (arrived serving) (fun s => (s.schedOf (engHalf 15)).src 15 = some (srcW 15 3) ∧ (s.schedOf (engHalf 15)).modeOf (srcW 15 3) = some .t6 ∧
      (s.eng 15).fenced = false ∧ (blockIn (s.eng 15).blocks 15 3 1).isNone = true ∧ (blockNeeds (srcW 15 3) .t6 (s.eng 15).lines 3 1).isEmpty = true ∧
      (s.head 3).win = some ⟨15, 3, 4, 0, 2⟩ ∧ ((⟨15, 3, 4, 0, 2⟩ : WinRead).blocks (srcW 15 3)).contains 1 = true ∧
      (blockIn (s.head 3).winBlocks 15 3 1).isNone = true ∧ (blockNeeds (srcW 15 3) .t6 (s.head 3).winLines 3 1).isEmpty = true) ∧
    Meets (modHd 3 (fun h => { h with win := some ⟨14, 3, 4, 0, 2⟩ }) serving) (fun s => (s.head 3).win = some ⟨14, 3, 4, 0, 2⟩ ∧
      (s.schedOf (half4 3)).src 14 = none) :=
  ⟨meets (by decide +kernel), meets (by decide +kernel)⟩

theorem witness_SlotCopies :
    Meets (modRt 15 (fun r => { r with wslot := some 3, counted := [⟨2, 4, none⟩] }) (modHd 3 (fun h => { h with copyDst := 8 * 2 ^ 28 }) serving)) (fun s =>
      s.takesPosted 3 = true ∧ s.copyCheck 3 15 (some (2#16).toNat) = 0 ∧ s.copyCheck 3 15 none = 0 ∧ (s.rt 15).wslot = some 3 ∧
      s.srcAt 3 15 = some (srcW 15 3) ∧ (s.schedOf (half4 3)).modeOf (srcW 15 3) = some .t6 ∧ s.copyCheck 3 14 none ≠ 0 ∧ (s.head 3).copy = none) ∧
    Meets (modRt 15 (fun r => { r with wslot := some 2 }) (modHd 3 (fun h => { h with copy := some copyW }) serving)) (fun s => (s.head 3).copy = some copyW ∧
      copyW.done = copyW.lines ∧ copyW.asked = [] ∧ s.copyBacklog 3 = false ∧ copyW.fromArchive = true ∧ copyW.src < 16 ∧ copyW.early = false ∧
      (s.rt 15).wslot = some copyW.slot) ∧
    Meets (modHd 3 (fun h => { h with copy := some { copyW with asked := [9] } }) serving) (fun s => (s.head 3).copy = some { copyW with asked := [9] }) :=
  ⟨meets (by decide +kernel), meets (by decide +kernel), meets (by decide +kernel)⟩

/-- Head 3 has committed a decoder over the storage, and its media is ready. -/
def mapped : State :=
  sets [(F.HP_n_MEDIA.MEDIA_STATUS 3, 1)]
    (modHd 3 (fun h => { h with hdm := h.hdm.set 0 { committed := true, prog := ⟨0, 12 * 2 ^ 28, 0, 1, 256, 0⟩ } }) serving)

theorem witness_RequestsWithoutMemory :
    Meets serving (fun s => s.takesRequests 3 = true) ∧ Meets holding (fun s => s.inL0 3 = true ∧ s.takesRequests 3 = false) ∧
    Meets running (fun s => s.inL0 3 = false) := ⟨meets (by decide +kernel), meets (by decide +kernel), meets (by decide +kernel)⟩

/-- Where a request of head 3 goes. -/
def placeOf (hpa : Nat) (w : Bool) : Nat × Nat × Region × Nat × Nat :=
  (mapped.servedAt 3 hpa w).getD (0, 0, ⟨0, 0, 0, 0, 0, 0, 0, 0, false, false, 0⟩, 0, 0)

/-- A write of the line at host address 0 stands in its queue. -/
def writing (poison : Bool) : State :=
  let x := placeOf 0 true
  let p := mapped.route x.2.2.2.1 x.2.2.2.2
  mapped.modSub p.1 fun u => { u with writeQ := [⟨p.2.1 / 256, 0, [⟨p.2.1 / 64 % 4, 5, poison, 0, []⟩]⟩] }

theorem witness_MemoryRequests :
    Meets mapped (fun s => s.takesRequests 3 = true ∧ s.servedAt 3 (4 * 2 ^ 28 - 64) false = some (placeOf (4 * 2 ^ 28 - 64) false) ∧
      (placeOf (4 * 2 ^ 28 - 64) false).2.2.1.il ≤ 2 ∧ s.servedAt 3 0 true = some (placeOf 0 true) ∧ (placeOf 0 true).2.2.1.il ≤ 2) ∧
    Meets mapped (fun s => let x := placeOf 0 true; s.lineLost x.2.2.2.1 x.2.2.2.2 = false ∧
      (s.sub (s.route x.2.2.2.1 x.2.2.2.2).1).queued ((s.route x.2.2.2.1 x.2.2.2.2).2.1 / 64) = none) ∧
    (∀ poison, Meets (writing poison) (fun s => let x := placeOf 0 true; s.takesRequests 3 = true ∧ s.servedAt 3 0 true = some x ∧
      s.servedAt 3 0 false = some x ∧ s.lineLost x.2.2.2.1 x.2.2.2.2 = false ∧
      (s.sub (s.route x.2.2.2.1 x.2.2.2.2).1).queued ((s.route x.2.2.2.1 x.2.2.2.2).2.1 / 64) = some (5, poison))) ∧
    Meets (mapped.modMh (subHalf (placeOf 0 false).2.2.2.1) fun m => { m with rebuild := some ⟨(placeOf 0 false).2.2.2.1, 0, true, [], false⟩ }) (fun s => let x := placeOf 0 true; s.takesRequests 3 = true ∧
      s.servedAt 3 0 false = some x ∧ s.servedAt 3 0 true = some x ∧ s.lineLost x.2.2.2.1 x.2.2.2.2 = true) ∧
    Meets holding (fun s => s.inL0 3 = true ∧ s.takesRequests 3 = false) ∧ Meets running (fun s => s.inL0 3 = false) :=
  ⟨meets (by decide +kernel), meets (by decide +kernel), fun p => by cases p <;> exact meets (by decide +kernel), meets (by decide +kernel),
    meets (by decide +kernel), meets (by decide +kernel)⟩

theorem witness_BurstGoesToReader :
    Meets ((modHd 3 (fun h => { h with flight := [⟨7, 0, 192, none, 0, 0, none, false, false⟩] }) serving).modSub 15 fun u => { u with flight := [⟨3, some 192, [.host 3 7]⟩] })
      (fun s => (s.sub 15).flight = ⟨3, some 192, [.host 3 7]⟩ :: [] ∧ s.inL0 3 = true ∧ (s.sub 15).queued 3 = none ∧
        ((s.head 3).flight.find? (·.id == 7)).any (fun q => q.kind == 0 && q.strict.isNone) = true) ∧
    Meets ((running.modEng 15 fun g => { g with asked := [3] }).modSub 15 fun u => { u with flight := [⟨3, some 192, [.engine 15 0]⟩] })
      (fun s => (s.eng 15).fenced = false ∧ 0 = s.rd (F.LE_n_STATUS.EPOCH 15) ∧ (s.eng 15).asked.contains (192 / 64) = true) ∧
    Meets ((modHd 3 (fun h => { h with winAsked := [3] }) serving).modSub 15 fun u => { u with flight := [⟨3, some 192, [.window 3]⟩] })
      (fun s => (s.head 3).winAsked.contains (192 / 64) = true) := ⟨meets (by decide +kernel), meets (by decide +kernel), meets (by decide +kernel)⟩

theorem witness_BurstReturns :
    Meets running (fun s => (s.sub 15).flight = []) ∧
    Meets (running.modSub 15 fun u => { u with flight := [⟨3, some 192, [.engine 15 0]⟩] }) (fun s => (s.sub 15).flight = ⟨3, some 192, [.engine 15 0]⟩ :: []) :=
  ⟨meets (by decide +kernel), meets (by decide +kernel)⟩

theorem witness_FenceRead :
    Meets running (fun s => s.inL0 3 = false) ∧ Meets serving (fun s => s.inL0 3 = true ∧ (s.head 3).fences = []) ∧
    Meets (modHd 3 (fun h => { h with fences := [⟨some (0, [])⟩] }) serving) (fun s => s.inL0 3 = true ∧ (s.head 3).fences = ⟨some (0, [])⟩ :: [] ∧
      s.fenceHolds 3 ⟨some (0, [])⟩ = true) ∧
    Meets (modHd 3 (fun h => { h with fences := [⟨none⟩] }) serving) (fun s => s.inL0 3 = true ∧ (s.head 3).fences = ⟨none⟩ :: [] ∧
      s.fenceHolds 3 ⟨none⟩ = false) :=
  ⟨meets (by decide +kernel), meets (by decide +kernel), meets (by decide +kernel), meets (by decide +kernel)⟩

/-- The mailbox of head 3 is served. -/
def mailing : State := sets [(F.HP_n_MEDIA.MB_READY 3, 1)] (linked 3)

theorem witness_MailboxCommands :
    Meets (modHd 3 (fun h => { h with logs := h.logs.set 3 { recs := [⟨1, 2, 3, 4⟩] } }) mailing) (fun s => s.mailboxServed 3 = true ∧
      (1 ≤ 256 ∧ 256 ≤ 256) ∧ (1 ≤ 128 ∧ 128 ≤ 128 ∧ 384 + 128 ≤ 512) ∧ (0 < 1 ∧ 1 ≤ ((s.head 3).logs[3]).recs.length) ∧
      opcodes.any (·.1 == (0xFFFF : BitVec 16).toNat) = false) ∧ running.mailboxServed 3 = false :=
  ⟨meets (by decide +kernel), by decide +kernel⟩

theorem witness_RingStatusInvalid : Meets mailing (fun s => s.mailboxServed 3 = true ∧ 128 < 129 ∧ 512 < 385 + 128) := meets (by decide +kernel)

/-- The response of head 0 under the key 0. -/
def respW : BitVec 256 := 97759719401076339646780607594756580125354171575339630292763344756869474811477

theorem witness_MailboxRoles :
    Meets (sets [(F.HP_n_LINK.UP 0, 1), (F.HP_n_MEDIA.MB_READY 0, 1)] (challenged (.head 0))) (fun s => s.mailboxServed 0 = true ∧
      (s.role (.head 0)).locked = false ∧ s.keyOf 3 = some 0 ∧ (s.role (.head 0)).chal = some (5, 3, 0) ∧ s.now ≤ 0 + 12000000000 ∧ s.auditFull = false ∧
      s.wantedResponse (.head 0) 0 5 3 = bytes32 respW ∧ s.wantedResponse (.head 0) 0 5 3 ≠ bytes32 0 ∧ (s.role (.head 0)).role ≠ 0 ∧ s.keyOf 0 = none) ∧
    Meets (sets [(F.HP_n_LINK.UP 0, 1), (F.HP_n_MEDIA.MB_READY 0, 1)] fullAudit) (fun s => s.mailboxServed 0 = true ∧ s.auditFull = true) ∧
    Meets { mailing with mg := { mailing.mg with roles := mailing.mg.roles.set! 4 { fails := 5, locked := true } } } (fun s => s.mailboxServed 3 = true ∧
      (s.role (.head 3)).locked = true) :=
  ⟨meets (by decide +kernel), meets (by decide +kernel), meets (by decide +kernel)⟩

/-- The rails and the core PLL that head 3 needs stand, and its configuration allows 32 GT/s at x16. -/
def headReady : State := sets (good [3, 6, 7, 4] ++ [(F.HP_n_CFG.ENABLE 3, 1), (F.CK_h_STATUS.CORE_LOCK 1, 1)]) running

theorem witness_LinkEvents :
    Meets headReady (fun s => s.linkUp 3 = false ∧ (s.head 3).training = false ∧ s.mayTrain 3 = true ∧ WakeEv.link 3 ∉ (s.mh (half4 3)).waiting ∧
      s.wakeRoom (half4 3) = true ∧ (s.mh (half4 3)).waiting.filter s.wakeOk = []) ∧
    Meets (headReady.modMh .b fun m => { m with wakes := List.replicate 32 headReady.now }) (fun s => s.linkUp 3 = false ∧ (s.head 3).training = false ∧
      s.mayTrain 3 = true ∧ WakeEv.link 3 ∉ (s.mh (half4 3)).waiting ∧ s.wakeRoom (half4 3) = false) ∧
    Meets (modHd 3 (fun h => { h with training := true }) headReady) (fun s => (s.head 3).training = true ∧ s.phyOn 3 = true ∧ (s.head 3).perst = false ∧
      s.operatingPoint 3 2 2 false = true ∧ s.operatingPoint 3 0 0 true = true) ∧
    Meets (sets [(F.HP_n_LINK.RECOVERY 3, 1)] (linked 3)) (fun s => s.linkUp 3 = true ∧ s.rd (F.HP_n_LINK.RECOVERY 3) = 1 ∧
      s.operatingPoint 3 2 2 false = true) ∧
    Meets (modHd 3 (fun h => { h with bme := true }) (linked 3)) (fun s => s.linkUp 3 = true ∧ (s.head 3).bme = true) :=
  ⟨meets (by decide +kernel), meets (by decide +kernel), meets (by decide +kernel), meets (by decide +kernel), meets (by decide +kernel)⟩

/-! Rings and lamp engines -/

/-- Ring 511 changed. -/
def modRing511 (f : Ring → Ring) (s : State) : State := s.modRing 511 f

/-- Fields that can be armed. -/
def descW : RingDesc := { base := 2 ^ 24, tail := 0x200, start := 64, log2 := 14, arm := true }

theorem witness_RingDescriptors :
    Meets (modRing511 (fun r => { r with armed := false, desc := descW, owner := some 3 }) (modHd 3 (fun h => { h with bme := true }) serving)) (fun s =>
      (s.takesPosted 3 = true ∧ s.stream 511 = some (streamW 511 15 3) ∧ (streamW 511 15 3).head = 3) ∧ ((s.ring 511).own 3).armed = false ∧
      ({ ((s.ring 511).own 3).desc with log2 := 14, arm := true } : RingDesc).armable (s.stream 511) = true ∧ (s.head 3).bme = true ∧
      ({ ((s.ring 511).own 3).desc with log2 := 13, arm := true } : RingDesc).armable (s.stream 511) = false) ∧
    Meets (modRing511 (fun r => { r with armed := true, desc := descW, inForce := descW, tail := 128, owner := some 3 }) serving) (fun s =>
      (s.takesPosted 3 = true ∧ s.stream 511 = some (streamW 511 15 3) ∧ (streamW 511 15 3).head = 3) ∧ ((s.ring 511).own 3).armed = true ∧
      ({ ((s.ring 511).own 3).desc with arm := true } : RingDesc).armable (s.stream 511) = true ∧ (s.head 3).bme = false ∧
      (let used := (((s.ring 511).own 3).tail + 2 ^ 32 - (128 + 2 ^ 32 - 2 ^ 14)) % 2 ^ 32; used ≤ 2 ^ ((s.ring 511).own 3).inForce.log2 ∧ used % 64 = 0) ∧
      (((s.ring 511).own 3).tail + 2 ^ 32 - 127) % 2 ^ 32 % 64 ≠ 0) ∧
    Meets (sets [(F.HP_n_LINK.UP 3, 1)] running) (fun s => s.takesPosted 3 = true ∧ s.stream 511 = none ∧ (s.schedOf (half4 3)).cfg = none) ∧
    Meets (sets [(F.HP_n_LINK.UP 2, 1)] serving) (fun s => s.takesPosted 2 = true ∧ s.stream 511 = some (streamW 511 15 3) ∧ (streamW 511 15 3).head ≠ 2) ∧
    Meets (modRing511 (fun r => { r with wait := some (some descW), owner := some 3 }) serving) (fun s => (s.ring 511).wait = some (some descW) ∧
      ((s.ring 511).owner.all fun o => (s.head o).bme) = false) ∧
    Meets (modRing511 (fun r => { r with wait := some (some descW), owner := some 3 }) (modHd 3 (fun h => { h with bme := true }) serving)) (fun s =>
      (s.ring 511).wait = some (some descW) ∧ ((s.ring 511).owner.all fun o => (s.head o).bme) = true) ∧
    Meets (modRing511 (fun r => { r with armed := true, wait := some none }) serving) (fun s => (s.ring 511).wait = some none) ∧
    Meets serving (fun s => (s.ring 511).wait = none) :=
  ⟨meets (by decide +kernel), meets (by decide +kernel), meets (by decide +kernel), meets (by decide +kernel), meets (by decide +kernel),
    meets (by decide +kernel), meets (by decide +kernel), meets (by decide +kernel)⟩

/-- A record of 64 bytes. -/
def recW : Rec := { engine := 15, head := 3, frame := 5, chunk := 0, bytes := List.replicate 64 7, rep := false, isLast := false, since := some 0 }

/-- Ring 511 is armed and a record stands at its front. -/
def queued (consumed : Nat) : State :=
  modRing511 (fun r => { r with armed := true, desc := descW, inForce := descW, tail := 2 ^ 14, consumed := consumed, queue := [recW], owner := some 3 })
    (modHd 3 (fun h => { h with bme := true }) serving)

theorem witness_ChunkDelivery :
    Meets (queued 64) (fun s => (s.ring 511).queue = recW :: [] ∧ (s.ring 511).wait = none ∧ s.undeliverable 511 recW.head recW = false ∧
      (s.inL0 recW.head && (s.ring 511).fits recW.bytes.length) = true) ∧
    Meets (queued 0) (fun s => (s.ring 511).queue = recW :: [] ∧ (s.ring 511).wait = none ∧ s.undeliverable 511 recW.head recW = false ∧
      (s.ring 511).skipping = false ∧ recW.since.isSome = true ∧ (s.inL0 recW.head && (s.ring 511).fits recW.bytes.length) = false) ∧
    Meets (modRing511 (fun r => { r with skipping := true }) (queued 0)) (fun s => (s.ring 511).queue = recW :: [] ∧ (s.ring 511).wait = none ∧
      (s.ring 511).skipping = true ∧ (s.inL0 recW.head && (s.ring 511).fits recW.bytes.length) = false) ∧
    Meets (modRing511 (fun r => { r with armed := false }) (queued 64)) (fun s => (s.ring 511).queue = recW :: [] ∧ (s.ring 511).wait = none ∧
      s.undeliverable 511 recW.head recW = true) :=
  ⟨meets (by decide +kernel), meets (by decide +kernel), meets (by decide +kernel), meets (by decide +kernel)⟩

/-- Engine 15 runs while production runs. -/
def computing (f : Engine → Engine) : State :=
  (sets [(F.LE_n_STATUS.STATE 15, 1), (F.LE_PANIC_CFG.PANIC_LO, 50), (F.LE_PANIC_CFG.PANIC_MAX, 1)] serving).modEng 15 f

theorem witness_EnginesCompute :
    Meets (computing fun g => { g with plan := [511], opened := List.replicate 7 0 }) (fun s => s.computes 15 = true ∧ (s.eng 15).cur = none ∧
      (s.eng 15).opened.length < 8 ∧ (s.eng 15).plan = 511 :: [] ∧ s.stream 511 = some (streamW 511 15 3) ∧
      s.startChunk 511 (s.frameCount (engHalf 15)) < (streamW 511 15 3).chunks) ∧
    Meets (computing fun g => { g with cur := some (511, 1), lines := [⟨0, some 0, false⟩] }) (fun s => s.computes 15 = true ∧
      (s.eng 15).cur = some (511, 1) ∧ s.stream 511 = some (streamW 511 15 3) ∧
      (s.schedOf (engHalf 15)).src (streamW 511 15 3).src = some (srcW 0 0) ∧ (s.schedOf (engHalf 15)).modeOf (srcW 0 0) = some .t6 ∧
      s.shareUsed 15 511 + recordBytes 0 ((streamW 511 15 3).count 1) ≤ (streamW 511 15 3).share * 1024 ∧
      (let x := s.lampIn 15 (streamW 511 15 3) (srcW 0 0) [];
        (x.needs .t6 1 1).1.isEmpty = true ∧ (x.needs .t6 1 1).2.isEmpty = true)) ∧
    Meets (computing id) (fun s => (s.eng 15).fenced = false ∧ (s.eng 15).panicAt = none ∧ (s.eng 15).panicBar = false ∧
      s.rd (F.LE_n_STATUS.STATE 15) = 1 ∧ s.inProduction (engHalf 15) = true ∧ 0 < s.rd F.LE_PANIC_CFG.PANIC_MAX ∧ 49 < s.rd F.LE_PANIC_CFG.PANIC_LO) ∧
    Meets (computing fun g => { g with panicAt := some 0 }) (fun s => (s.eng 15).panicAt = some 0 ∧ s.panicHi ≤ 4095) :=
  ⟨meets (by decide +kernel), meets (by decide +kernel), meets (by decide +kernel), meets (by decide +kernel)⟩

theorem witness_EnginesFenced :
    Meets (running.modMh .b fun m => { m with waiting := [.engine 15] }) (fun s => nextWake ((s.mh (engHalf 15)).waiting.filter s.wakeOk) = some (.engine 15) ∧
      s.wakeRoom (engHalf 15) = true) ∧
    Meets running (fun s => (s.eng 15).fenced = false ∧ s.writable .spi 0x78800 = true) ∧
    Meets (running.modEng 15 fun g => { g with fenced := true }) (fun s => s.writable .spi 0x78800 = true ∧ (s.eng 15).fenced = true ∧
      (s.wh (engHalf 15)).fenced = false) :=
  ⟨meets (by decide +kernel), meets (by decide +kernel), meets (by decide +kernel)⟩

/-! DRAM -/

/-- Subchannel 15 runs. -/
def onSub (f : Sub → Sub) (l : List (Fld × Nat) := []) : State := (sets ((F.DC_n_STATUS.STATE 15, 1) :: l) running).modSub 15 f

/-- A queued read. -/
def readW : RdEntry := { g := 1, seq := 5, born := 0, lines := [⟨3, none, [.engine 15 0]⟩] }

/-- A queued write of one line. -/
def writeW : WrEntry := { g := 1, seq := 5, lines := [⟨3, 5, false, 0, []⟩] }

/-- A burst in the retry buffer. -/
def burstW (tries : Nat) : Burst := ⟨7, 0, false, tries⟩

theorem witness_DramVisits :
    Meets (onSub fun u => { u with alerting := true }) (fun s => (s.settle 15).issues 15 = false) ∧
    Meets (onSub fun u => { u with replaying := true, retry := [burstW 0, burstW 1], replayAt := 1 }) (fun s => (s.settle 15).issues 15 = true ∧
      ((s.settle 15).sub 15).replaying = true ∧ ((s.settle 15).sub 15).retry[((s.settle 15).sub 15).replayAt]? = some (burstW 1)) ∧
    Meets (onSub id) (fun s => (s.settle 15).issues 15 = true ∧ (s.settle 15).pickVisit 15 = none ∧ s.refreshes 15 0 = true ∧ s.runs 15 = true ∧
      (s.awake 15).isEmpty = false ∧ (s.sub 15).alerting = false ∧ (s.sub 15).replaying = false) ∧
    Meets (onSub fun u => { u with frameQ := [readW] }) (fun s => (s.settle 15).issues 15 = true ∧ (s.settle 15).pickVisit 15 = some (.frame 0) ∧
      ((s.settle 15).sub 15).frameQ[0]? = some readW) ∧
    Meets (onSub fun u => { u with bulkQ := [readW] }) (fun s => (s.settle 15).issues 15 = true ∧ (s.settle 15).pickVisit 15 = some (.bulk 0) ∧
      ((s.settle 15).sub 15).bulkQ[0]? = some readW ∧ (s.sub 15).bulkQ = readW :: [] ∧ s.runs 15 = true ∧ (s.sub 15).frameQ.length < 64) ∧
    Meets (onSub fun u => { u with writeQ := [writeW] }) (fun s => (s.settle 15).issues 15 = true ∧ (s.settle 15).pickVisit 15 = some (.write 0) ∧
      ((s.settle 15).sub 15).writeQ[0]? = some writeW) ∧
    Meets { onSub id with fcB := { fatal := true } } (fun s => (s.fc (subHalf 15)).fatal = true ∧ 0 < s.dm.ranks ∧ (s.sub 15).retired = false ∧
      s.rd (F.DC_n_STATUS.STATE 15) ≠ 0) :=
  ⟨meets (by decide +kernel), meets (by decide +kernel), meets (by decide +kernel), meets (by decide +kernel), meets (by decide +kernel),
    meets (by decide +kernel), meets (by decide +kernel)⟩

/-- A burst stands in the retry buffer in the verify state; two devices of its rank are marked, so that no line of the rank decodes. -/
def verifying (tries : Nat) : State := onSub fun u => { u with verify := true, retry := [burstW tries], marks := [0, 1] }

theorem verifying_broken : ((verifying 1).disturb 15 7 []).decodeLine 15 7 = .uncorrectable := by decide +kernel

theorem witness_WriteCrc :
    Meets (onSub id) (fun s => (s.sub 15).alerting = false ∧ (s.sub 15).replaying = false ∧ (s.sub 15).verify = false ∧ s.canAlert 15 = true ∧
      s.pwr.shed = none ∧ s.runs 15 = true) ∧
    Meets { onSub id with pwr := { (onSub id).pwr with shed := some aShed } } (fun s => s.canAlert 15 = true ∧ s.pwr.shed.isSome = true ∧
      (s.sub 15).retired = false) ∧
    Meets (onSub fun u => { u with replaying := true, replayNo := 2 }) (fun s => s.canAlert 15 = true ∧ s.pwr.shed = none ∧ s.runs 15 = true ∧
      (s.sub 15).verify = false ∧ (s.sub 15).alerting = false ∧ (s.sub 15).replayNo < 3) ∧
    Meets (onSub fun u => { u with replaying := true, replayNo := 3 }) (fun s => s.canAlert 15 = true ∧ s.pwr.shed = none ∧ s.runs 15 = true ∧
      (s.sub 15).verify = false ∧ (s.sub 15).alerting = false ∧ (s.sub 15).replaying = true ∧ 3 ≤ (s.sub 15).replayNo) ∧
    Meets (verifying 0) (fun s => s.canAlert 15 = true ∧ s.pwr.shed = none ∧ s.runs 15 = true ∧ (s.sub 15).alerting = false ∧ (s.sub 15).verify = true ∧
      s.bulkTurn 15 (7 / 4) = true ∧ (s.sub 15).retry = burstW 0 :: []) ∧
    Meets (verifying 1) (fun s => (s.sub 15).verify = true ∧ s.bulkTurn 15 (7 / 4) = true ∧ (s.sub 15).retry = burstW 1 :: []) ∧
    ((verifying 1).disturb 15 7 []).decodeLine 15 7 = .uncorrectable ∧
    Meets (onSub fun u => { u with alerting := true }) (fun s => (s.sub 15).alerting = true) :=
  ⟨meets (by decide +kernel), meets (by decide +kernel), meets (by decide +kernel), meets (by decide +kernel), meets (by decide +kernel),
    meets (by decide +kernel), verifying_broken, meets (by decide +kernel)⟩

/-- The maintenance window of a tick, with both halves holding credits and subchannel 15 running. -/
def inWindowOf (f : Sub → Sub) (l : List (Fld × Nat) := []) (steps : List TrainStep := []) (freq : List FreqReq := []) : State :=
  let s := (((sets ((F.DC_n_STATUS.STATE 15, 1) :: l) (modSched (fun c => { c with cutDone := true, prodDone := true }) playing)).modMh .a
    fun m => { m with hold := true }).modMh .b fun m => { m with hold := true }).modSub 15 f
  { s with dm := { s.dm with steps := steps, freqPend := freq } }

/-- Every device has found its settings at both rates. -/
def settled (u : Sub) : Sub :=
  { u with sets := [0, 1].map fun k => { rate := k, devs := List.replicate 20 { base := 500, rd := 64, wr := 64, phyVref := 64, dramVref := 64 } } }

/-- The timing sets of subchannel 15 have two rates. -/
def twoRates : List (Fld × Nat) := [(F.DC_n_TS_m_A.RATE 1 15, 1)]

theorem witness_TimingSets :
    Meets (onSub id twoRates) (fun s => s.writable .spi 0x10F000 = true ∧ bits (4#32).toNat 3 2 = 0 + 1 ∧ bits (8#32).toNat 3 2 = 1 + 1 ∧
      s.stepFor .b < 3 ∧ s.gone 15 = false ∧ (s.sub 15).change = none ∧ s.rd (F.DC_n_STATUS.TS_ACTIVE 15) = 0 ∧
      s.rd (F.DC_n_TS_m_A.RATE 0 15) ≠ s.rd (F.DC_n_TS_m_A.RATE 1 15) ∧ bits (0#32).toNat 3 2 = 0 ∧ bits (12#32).toNat 3 2 = 3) ∧
    Meets (onSub fun u => { u with want := some 1 }) (fun s => (s.sub 15).want = some 1 ∧ s.runs 15 = true ∧
      s.rd (F.DC_n_TS_m_A.RATE 0 15) = s.rd (F.DC_n_TS_m_A.RATE 1 15)) ∧
    Meets (inWindowOf (fun u => { u with want := some 1 }) twoRates [] [⟨15, 5, 0⟩]) (fun s => (s.sub 15).want = some 1 ∧ s.changeDue 15 = true ∧
      s.mayGoOffline 15 = true ∧ s.roomFor .b 33 = true) ∧
    Meets (onSub fun u => { u with change := some ⟨1, 0, [], 20, 0, 0⟩ }) (fun s => (s.sub 15).change = some ⟨1, 0, [], 20, 0, 0⟩ ∧ s.stopping .b = false ∧
      s.gone 15 = false ∧ s.rd (F.CK_h_STATUS.MEM_HOLD 1) = 0) ∧
    Meets (onSub (fun u => settled { u with change := some ⟨1, 1, [], 20, 0, 0⟩ }) ((F.CK_DLL_n.STATE 15, 1) :: twoRates)) (fun s =>
      s.rd (F.CK_DLL_n.STATE 15) = 1 ∧ (s.sub 15).change = some ⟨1, 1, [], 20, 0, 0⟩ ∧ s.stopping .b = false ∧ s.quickFails 15 1 ⟨[], []⟩ = [] ∧
      s.quickFails 15 1 ⟨[(3, 1)], []⟩ ≠ []) ∧
    Meets (onSub (fun u => settled { u with change := some ⟨1, 3, [3], 20, 0, 0⟩ }) ((F.CK_DLL_n.STATE 15, 1) :: twoRates)) (fun s =>
      s.rd (F.CK_DLL_n.STATE 15) = 1 ∧ (s.sub 15).change = some ⟨1, 3, [3], 20, 0, 0⟩ ∧ s.stopping .b = false ∧ (s.sub 15).retired = false ∧
      3 ∈ s.quickFails 15 0 ⟨[(3, 1)], []⟩) ∧
    Meets (onSub (fun u => { u with change := none }) [(F.CK_DLL_n.STATE 15, 1)]) (fun s => s.rd (F.CK_DLL_n.STATE 15) = 1 ∧ (s.sub 15).change = none) ∧
    Meets (modHd 3 (fun h => { h with withheld := some 0 }) (inWindowOf id)) (fun s => .a = s.leader ∧ s.heldFor .a = true ∧ s.changing .a = false ∧
      (∀ i, i < 4 → (s.head i).held = []) ∧ half4 3 ∈ s.halvesOf .a ∧ (s.head 3).withheld = some 0 ∧ (s.head 3).flight.length < 1024) :=
  ⟨meets (by decide +kernel), meets (by decide +kernel), meets (by decide +kernel), meets (by decide +kernel), meets (by decide +kernel),
    meets (by decide +kernel), meets (by decide +kernel), meets (by decide +kernel)⟩

/-- Two ranks are fitted; the rank 1 of subchannel 15 sleeps or not. -/
def twoRanks (l : List (Fld × Nat)) (f : Sub → Sub) : State :=
  let s := onSub f l
  { s with dm := { s.dm with ranks := 2 } }

/-- A granule of rank 1. -/
def rank1Granule : Nat := 2 ^ (rankBits 2 - 8)

theorem witness_WakeBudget :
    Meets (twoRanks [(F.DC_n_CFG.ARCH_SLEEP_EN 15, 1)] id) (fun s => s.dm.ranks = 2 ∧ s.on (F.DC_n_CFG.ARCH_SLEEP_EN 15) = true ∧ s.issues 15 = true ∧
      (s.sub 15).sr.getLsbD 1 = false ∧ s.archiveOnly 15 = true ∧ s.rank1Waits 15 = false) ∧
    Meets (twoRanks [(F.DC_n_STATUS.RANK1_ASLEEP 15, 1)] fun u => { u with sr := 2, frameQ := [⟨rank1Granule, 0, 0, [⟨0, none, [.window 3]⟩], false⟩] })
      (fun s => s.on (F.DC_n_STATUS.RANK1_ASLEEP 15) = true ∧ s.rank1Asked 15 = true ∧ s.issues 15 = true) ∧
    Meets (running.modMh .b fun m => { m with waiting := [.engine 15] }) (fun s => nextWake ((s.mh .b).waiting.filter s.wakeOk) = some (.engine 15) ∧
      s.wakeRoom .b = true) :=
  ⟨meets (by decide +kernel), meets (by decide +kernel), meets (by decide +kernel)⟩

/-- A step of a kind is pending on rank 0 of subchannel 15. -/
def stepping (kind : Nat) : State := inWindowOf id [] [⟨kind, 15, 0, 5, 0⟩]

/-- Lanes where every burst of the read and write sweeps matches. -/
def lanesW : List LaneSweep :=
  (List.range 20).map fun m => ⟨Fin.ofNat 20 m, 0, [List.replicate 65 []], [List.replicate 65 []], [[], [], []], 500⟩

theorem witness_TrainingSteps :
    Meets (onSub id [(F.DI_n_STATUS.STATE 15, 1)]) (fun s => s.rd (F.DI_n_STATUS.STATE 15) = 1 ∧ 0 < 10 * s.dm.ranks ∧ 0 ∉ (s.health 15).marks ∧
      s.trainDevice 15 [] 0 = none) ∧
    Meets ((sets [(F.DC_n_STATUS.STATE 15, 1)] playing).modSub 15 settled) (fun s => s.tracks (subHalf 15) = true ∧ s.online 15 = true ∧ 0 ∈ s.awake 15 ∧
      [((9 : Fin 10), 499)].Nodup ∧ 9 ∉ (s.sub 15).marks ∧ 9 < (s.rateSet 15 (s.rateOf 15)).devs.length) ∧
    Meets ((stepping 1).modSub 15 settled) (fun s => s.stepReady 1 15 = some ⟨1, 15, 0, 5, 0⟩ ∧ (∀ m ∈ s.rankDevs 15 0, (s.readSweep 15 lanesW m).isSome = true) ∧
      ∀ m ∈ s.rankDevs 15 0, m < (s.rateSet 15 (s.rateOf 15)).devs.length) ∧
    Meets ((stepping 2).modSub 15 settled) (fun s => s.stepReady 2 15 = some ⟨2, 15, 0, 5, 0⟩ ∧ ∀ m ∈ s.rankDevs 15 0, (s.writeSweep 15 lanesW m).isSome = true) ∧
    Meets ((stepping 3).modSub 15 settled) (fun s => s.stepReady 3 15 = some ⟨3, 15, 0, 5, 0⟩) ∧ Meets (stepping 4) (fun s => s.stepReady 4 15 = some ⟨4, 15, 0, 5, 0⟩) :=
  ⟨meets (by decide +kernel), meets (by decide +kernel), meets (by decide +kernel), meets (by decide +kernel), meets (by decide +kernel),
    meets (by decide +kernel)⟩

/-- A rebuild of subchannel 15 stands at a granule. -/
def rebuilding (cursor : Nat) (loss : Bool) : State := (onSub id [(F.AM_SUB_CAP.UNITS_B, 1)]).modMh .b fun m => { m with rebuild := some ⟨15, cursor, loss, [], false⟩ }

theorem witness_SubchannelRepair :
    Meets (onSub id [(F.CK_DLL_n.STATE 15, 2)]) (fun s => s.writable .spi 0x20F000 = true ∧ s.gone 15 = false ∧ s.runs 15 = true ∧
      s.rd (F.CK_DLL_n.STATE 15) = 2) ∧
    Meets (stepping 5) (fun s => s.stepReady 5 15 = some ⟨5, 15, 0, 5, 0⟩) ∧
    Meets (rebuilding 0 false) (fun s => (s.mh .b).rebuild = some ⟨15, 0, false, [], false⟩ ∧ s.rebuildReady .b ⟨15, 0, false, [], false⟩ = true ∧
      0 + 1 < s.granules .b) ∧
    Meets (rebuilding 65535 true) (fun s => (s.mh .b).rebuild = some ⟨15, 65535, true, [], false⟩ ∧
      s.rebuildReady .b ⟨15, 65535, true, [], false⟩ = true ∧ s.granules .b ≤ 65535 + 1 ∧ Half.b = subHalf 15) :=
  ⟨meets (by decide +kernel), meets (by decide +kernel), meets (by decide +kernel), meets (by decide +kernel)⟩

/-! Memory integrity, halves, clocks, time, thermal, Selvedge -/

/-- The thermal model of both halves changed. -/
def heating (f : Thermal → Thermal) (l : List (Fld × Nat) := []) : State :=
  let s := sets l running
  { s with thA := f s.thA, thB := f s.thB }

/-- The first region of the Last. -/
def regionW : Region := ⟨0, 4, 0, 0, 0, 0, 15, 15, false, false, 0⟩

theorem witness_MemoryIntegrity :
    Meets (sets [(F.MI_STATUS.FILL_B, 1)] running) (fun s => s.rd (fillFld .b) = 1 ∧ s.stopping .b = false) ∧
    Meets (modSched (fun c => { c with filling := [⟨0, true, true, false⟩] }) playing) (fun s => (s.schedOf .a).filling.find? (·.on .a) = some ⟨0, true, true, false⟩ ∧
      s.stopping .a = false ∧ (s.schedOf .a).map.regions[0]? = some regionW ∧ (s.fillWakes .a regionW).fillWaits .a regionW = true) ∧
    Meets (sets ((List.range 16).map fun n => (F.DC_n_STATUS.STATE n, 1)) (modSched (fun c => { c with filling := [⟨0, true, true, false⟩] }) playing)) (fun s =>
      s.stopping .a = false ∧ (s.fillWakes .a regionW).fillWaits .a regionW = false) ∧
    Meets running (fun s => s.writable .spi 0xA0001 = true ∧ s.writable .spi 0xA0014 = true ∧ s.rd F.MI_SCRUB_STATUS.STATE ≠ 1 ∧ s.scrubRange.1 + s.scrubRange.2 ≤ s.capacity * 2 ^ 22) ∧
    Meets (sets [(F.MI_SCRUB_LEN_HI.LEN_HI, 15)] running) (fun s => s.writable .spi 0xA0014 = true ∧ s.capacity * 2 ^ 22 < s.scrubRange.1 + s.scrubRange.2) ∧
    Meets (sets [(F.MI_SCRUB_STATUS.STATE, 1)] running) (fun s => s.writable .spi 0xA0014 = true ∧ s.rd F.MI_SCRUB_STATUS.STATE = 1 ∧ s.scrubPaused .a = false) ∧
    Meets (heating (fun t => { t with step := 2 }) [(F.MI_SCRUB_STATUS.STATE, 1)]) (fun s => s.rd F.MI_SCRUB_STATUS.STATE = 1 ∧ s.scrubPaused .a = true) ∧
    Meets (inWindowOf id [(F.MI_SCRUB_STATUS.STATE, 1)]) (fun s => s.rd F.MI_SCRUB_STATUS.STATE = 1 ∧ s.maintenance .b = true ∧ (s.mh .b).stepped = false ∧
      s.stepFor .b < 2 ∧ s.stopping .b = false ∧ s.rd F.PS_STATUS.PFW = 0 ∧ s.roomFor .b 25 = true) :=
  ⟨meets (by decide +kernel), meets (by decide +kernel), meets (by decide +kernel), meets (by decide +kernel), meets (by decide +kernel), meets (by decide +kernel), meets (by decide +kernel),
    meets (by decide +kernel)⟩

/-- The Welt is up. -/
def joined : State := { running with wl := { running.wl with up := true } }

/-- Both cores stand and are locked. -/
def cores (s : State) : State := sets (good [3, 4] ++ [(F.CK_h_STATUS.CORE_LOCK 0, 1), (F.CK_h_STATUS.CORE_LOCK 1, 1)]) s

/-- Split mode, in the maintenance window of the leader, with the Welt up again. -/
def mendable : State :=
  let s := modSched (fun c => { c with cutDone := true, prodDone := true }) (sets [(F.WL_STATUS.STATE, 2)] playing)
  { s with sched2 := some s.sched, wl := { s.wl with up := true, rejoinWanted := true } }

/-- Half B failed three heel frames in a row. -/
def badHeel : State := running.modWh .b fun w => { w with badRun := 3 }

theorem witness_WeltEvents :
    Meets joined (fun s => s.wl.up = true) ∧
    Meets (cores running) (fun s => s.wl.up = false ∧ s.coreUp .a = true ∧ s.coreUp .b = true ∧ s.on (F.CK_h_STATUS.CORE_LOCK 0) = true ∧
      s.on (F.CK_h_STATUS.CORE_LOCK 1) = true ∧ s.split = false) ∧
    Meets mendable (fun s => s.rejoinAllowed = true ∧ s.sched2 = some s.sched) ∧
    Meets (sets [(F.WL_HEEL_B.SILENT, 0)] running) (fun s => s.writable .spi 0x380001 = true ∧ s.halfFenced .a = false ∧ s.halfFenced .b = false ∧ s.pwr.aux = true ∧
      s.rd (heelFlds .b).2.2.1 = 0 ∧ (s.wh .b).badRun < 3 ∧ crc8 ((leBytes 3 0).reverse) ≠ 0x01000000 / 2 ^ 24 ∧ crc8 ((leBytes 3 0).reverse) = 0 / 2 ^ 24) ∧
    Meets badHeel (fun s => s.pwr.aux = true ∧ 3 ≤ (s.wh .b).badRun) ∧
    Meets (cores (sets [(F.WL_HEEL_A.SILENT, 0)] running)) (fun s => s.takeoverDue = true) ∧
    Meets { running with wl := { running.wl with a := { running.wl.a with claim := true }, b := { running.wl.b with claim := true } } } (fun s =>
      (s.wh .a).claim = true ∧ (s.wh .b).claim = true) :=
  ⟨meets (by decide +kernel), meets (by decide +kernel), meets (by decide +kernel), meets (by decide +kernel), meets (by decide +kernel),
    meets (by decide +kernel), meets (by decide +kernel)⟩

/-- Half B's clocks run. -/
def clocked (l : List (Fld × Nat)) (f : ClockHalf → ClockHalf) : State :=
  let s := sets ([(F.CK_h_STATUS.REF_OK 1, 1), (F.CK_h_STATUS.CORE_LOCK 1, 1), (F.CK_h_STATUS.MEM_LOCK 1, 1)] ++ l) running
  { s with ckB := f { s.ckB with coreEnabled := true, memEnabled := true } }

theorem witness_ClockEvents :
    Meets (clocked [] id) (fun s => s.rd (F.CK_h_STATUS.REF_OK 1) = 1 ∧ s.rd (F.CK_h_STATUS.CORE_LOCK 1) = 1 ∧ s.rd (F.CK_h_STATUS.MEM_LOCK 1) = 1 ∧
      s.lockmonJudges .b .core = false ∧ s.locked .b .core = true ∧ (s.ck .b).memLost = false) ∧
    Meets (clocked [(F.CK_h_STATUS.REF_OK 1, 0)] id) (fun s => s.rd (F.CK_h_STATUS.REF_OK 1) = 0 ∧ (s.ck .b).coreEnabled = true ∧ (s.ck .b).memEnabled = true) ∧
    Meets (cores (sets [(F.CK_h_STATUS.REF_OK 1, 0)] running)) (fun s => s.rd (F.CK_h_STATUS.REF_OK 1) = 0 ∧ (s.ck .b).coreEnabled = false ∧
      s.coreUp .b = true) ∧
    Meets (clocked [] fun c => { c with cfg := 4096, memLost := true }) (fun s => s.rd (F.CK_h_STATUS.CORE_LOCK 1) = 1 ∧ s.lockmonJudges .b .core = true ∧
      (s.ck .b).memLost = true ∧ (s.ck .b).coreEnabled = true) ∧
    Meets (clocked [(F.CK_h_STATUS.MEM_HOLD 1, 1)] id) (fun s => s.rd (F.CK_h_STATUS.MEM_HOLD 1) = 1 ∧ s.rd (F.CK_h_STATUS.REF_OK 1) = 1) ∧
    Meets (clocked [(F.CK_h_STATUS.MEM_LOCK 1, 0)] id) (fun s => s.lockmonJudges .b .memory = false ∧ s.locked .b .memory = false ∧
      s.rd (F.CK_h_STATUS.REF_OK 1) = 1 ∧ (s.ck .b).goodRun .memory = 0) ∧
    Meets (clocked [(F.CK_h_STATUS.MEM_LOCK 1, 0)] fun c => { c with memGoodRun := 1 }) (fun s => s.lockmonJudges .b .memory = false ∧
      s.locked .b .memory = false ∧ 1 ≤ (s.ck .b).goodRun .memory ∧ (s.ck .b).memEnabled = true) ∧
    Meets (clocked [(F.CK_h_STATUS.MEM_LOCK 1, 0)] fun c => { c with cfg := 6144 }) (fun s => s.lockmonJudges .b .memory = true ∧
      (s.ck .b).memEnabled = true ∧ s.locked .b .memory = false) ∧
    Meets running (fun s => s.writable .spi (0x40080 + 2 * 3 + b2n true) = true ∧ s.writable .spi (0x40080 + 2 * 3 + b2n false) = true ∧
      s.auxRefused 3 0x10000005 = false ∧ s.auxRefused 3 0x10000004 = true) :=
  ⟨meets (by decide +kernel), meets (by decide +kernel), meets (by decide +kernel), meets (by decide +kernel), meets (by decide +kernel),
    meets (by decide +kernel), meets (by decide +kernel), meets (by decide +kernel), meets (by decide +kernel)⟩

/-- A ToD sentence of version 1: its first 23 bytes, and a byte behind them. -/
def tod (last : Nat) : List Byte := [0xA5, 0x5A, 1, 24] ++ List.replicate 19 0 ++ [BitVec.ofNat 8 last]

/-- The CRC of that sentence. -/
def todCrc : Nat := crc8 ((tod 0).take 23)

/-- The follower's own time base of split mode. -/
def based : State := { apart with tb2 := some ({}, List.replicate baseFields.length 0) }

/-- The time base changed. -/
def timing (f : TimeBase → TimeBase) (l : List (Fld × Nat)) : State :=
  let s := sets l running
  { s with tb := f s.tb }

theorem witness_TimeEvents :
    (Meets running (fun s => (s.asSeen .a).ppsAccepted = true ∧ (s.asSeen .a).ftickAccepted 0 = true ∧ s.split = false) ∧
      running.HasBase .a) ∧
    (Meets based (fun s => (s.asSeen .b).ppsAccepted = true) ∧ based.HasBase .b) ∧
    Meets (timing (fun t => { t with lastEdge := some 0, ftLast := some 0 }) [(F.TB_STATUS.PPS_OK, 1), (F.TB_STATUS.FTICK_OK, 1), (F.TB_STATUS.MASTER, 1)])
      (fun s => (s.asSeen .a).ppsAccepted = false ∧ (s.asSeen .a).rd F.TB_STATUS.PPS_OK = 1 ∧ (s.asSeen .a).rd F.TB_STATUS.MASTER = 1 ∧
        (s.asSeen .a).rd F.TB_STATUS.FTICK_OK = 1 ∧ (s.asSeen .a).ftickAccepted 10000000 = false) ∧
    Meets (sets [(F.TB_CFG.TOD_EN, 1)] running) (fun s => s.rd F.TB_CFG.TOD_EN = 1 ∧ (s.asSeen .a).tb.rx = [] ∧ (tod todCrc).length = 24 ∧
      field (tod todCrc) 0 2 = 0x5AA5 ∧ todBad (tod todCrc) = false ∧ todBad (tod (todCrc + 1)) = true) ∧
    Meets (sets [(F.TB_CFG.TOD_EN, 0)] running) (fun s => s.rd F.TB_CFG.TOD_EN = 0) ∧
    Meets (timing (fun t => { t with pend := some ⟨0, 0, true, true, 0, 0⟩ }) []) (fun s => (s.asSeen .a).tb.pend.isSome = true) :=
  ⟨⟨meets (by decide +kernel), .inl rfl⟩, ⟨meets (by decide +kernel), .inr ⟨rfl, _, rfl, by decide⟩⟩, meets (by decide +kernel), meets (by decide +kernel),
    meets (by decide +kernel), meets (by decide +kernel)⟩

theorem witness_TimeCommands :
    Meets (sets [(F.TB_SET_DATE.YEAR, 2500), (F.TB_SET_DATE.MONTH, 12), (F.TB_SET_DATE.DAY, 31), (F.TB_SET_TIME.HOUR, 23), (F.TB_SET_TIME.MINUTE, 59),
      (F.TB_SET_TIME.SECOND, 59)] running) (fun s => s.writable .spi 0x50014 = true ∧ s.setResult = 0) ∧
    Meets running (fun s => s.writable .spi 0x50014 = true ∧ s.setResult ≠ 0 ∧ s.writable .spi 0x50018 = true ∧ s.tb.tsq.length < 32 ∧
      s.readsAtOnce .spi = true ∧ s.tb.tsq = []) ∧
    Meets (timing (fun t => { t with tsq := List.replicate 32 ⟨1, 2, 3, 4⟩ }) []) (fun s => s.writable .spi 0x50018 = true ∧ s.tb.tsq.length = 32 ∧
      s.readsAtOnce .spi = true ∧ s.tb.tsq = ⟨1, 2, 3, 4⟩ :: List.replicate 31 ⟨1, 2, 3, 4⟩) ∧
    Meets holding (fun s => s.ioMayGo 3 = false) :=
  ⟨meets (by decide +kernel), meets (by decide +kernel), meets (by decide +kernel), meets (by decide +kernel)⟩

theorem witness_ThermalEvents :
    Meets (heating fun t => { t with tripped := 128 }) (fun s => s.tripLevel ≤ (List.replicate 8 (300 : Int)).getD 7 (-100) ∧ (s.th .b).tripped.getLsbD 7 = true ∧
      (∀ i, i < 8 → (List.replicate 8 (80 : Int)).getD i (-100) < s.tripLevel)) ∧
    Meets (heating fun t => { t with use := 290 }) (fun s => .a = s.leader ∧ s.rd F.PS_STATUS.PFW = 0 ∧ (s.fc .a).fatal = false ∧
      s.minStep ≤ (s.th .a).step ∧ (decide (s.tHigh ≤ s.evalTemp .a) || s.powerAbove .a (s.th .a).step 100) = true ∧ (s.th .a).step < 7 ∧
      (s.th .a).sinceRise = none) ∧
    Meets (heating fun t => { t with use := (running.tHigh - 1 : Int), step := 2 }) (fun s => s.minStep ≤ (s.th .a).step ∧
      (decide (s.tHigh ≤ s.evalTemp .a) || s.powerAbove .a (s.th .a).step 100) = false ∧
      (decide (s.evalTemp .a < s.tHigh - s.hyst) && !s.powerAbove .a (s.th .a).step 92) = false) ∧
    Meets (heating fun t => { t with step := 2, fallHeld := 99 }) (fun s => s.minStep < (s.th .a).step ∧
      (decide (s.tHigh ≤ s.evalTemp .a) || s.powerAbove .a (s.th .a).step 100) = false ∧
      (decide (s.evalTemp .a < s.tHigh - s.hyst) && !s.powerAbove .a (s.th .a).step 92) = true ∧ 99 ≤ (s.th .a).fallHeld) ∧
    Meets (heating id [(F.TH_FORCE.MIN_STEP, 7)]) (fun s => (s.th .a).step < s.minStep ∧ (s.th .b).sensorLoss = false) :=
  ⟨meets (by decide +kernel), meets (by decide +kernel), meets (by decide +kernel), meets (by decide +kernel), meets (by decide +kernel)⟩

/-- A FATAL message of source 0x131 waits. -/
def fatalMsg : Msg := ⟨.a, 0x131, 1, 4, 0, 0, 0, 0, []⟩

theorem witness_Selvedge :
    Meets { running with fcA := { running.fcA with pend := [fatalMsg] } } (fun s => (s.fc .a).pend.find? (fun x => x.src == 0x131) = some fatalMsg ∧
      (s.fc .a).isSticky fatalMsg.src = false ∧ fatalMsg.src < 320 ∧ .a = s.leader ∧ fatalMsg.sev = 4) ∧
    Meets { running with fcA := { running.fcA with pend := [fatalMsg], sticky := BitVec.allOnes 320 } } (fun s =>
      (s.fc .a).pend.find? (fun x => x.src == 0x131) = some fatalMsg ∧ (s.fc .a).isSticky fatalMsg.src = true ∧ .a = s.leader) ∧
    Meets { joined with fcB := { running.fcB with pend := [fatalMsg] } } (fun s => (s.fc .b).pend.find? (fun x => x.src == 0x131) = some fatalMsg ∧
      .b ≠ s.leader ∧ s.joined = true) ∧
    Meets { running with fcB := { running.fcB with pend := [fatalMsg] } } (fun s => (s.fc .b).pend.find? (fun x => x.src == 0x131) = some fatalMsg ∧
      .b ≠ s.leader ∧ s.joined = false) ∧
    Meets (sets [(F.FC_CFG.FORCE_FATAL_EN, 1)] running) (fun s => s.writable .spi (0x10010 + 9) = true ∧ s.writable .spi (0x10030 + 9) = true ∧
      fatalClass (32 * 0 + 3) = false ∧ reservedSource (32 * 0 + 3) = false ∧ s.on F.FC_CFG.FORCE_FATAL_EN = true) :=
  ⟨meets (by decide +kernel), meets (by decide +kernel), meets (by decide +kernel), meets (by decide +kernel), meets (by decide +kernel)⟩

/-! The spec's worked examples -/

/-- The example after R268: a device of N_base 533 that counts 520. -/
theorem test_drift : driftOf 533 520 = 6 := by decide

/-- The example after R339: a change from 9600 to 8000 MT/s with the default profile takes 52 steps of 8 ns. -/
theorem test_ramp :
    qCode 9600 = 131072 ∧ qCode 8000 = 157286 ∧
    rampSteps [(256, 512)] 512 (157286 - 131072) = 52 := by decide +kernel

/-- The example of 17: MEM13_DQS_T[2] is ball BU39 and MEM02_CA[13] is ball W19. -/
theorem test_balls :
    ballName (54, 39) = "BU39" ∧ ballSignal 54 39 = some "MEM13_DQS_T[2]" ∧ ballName (18, 19) = "W19" ∧ ballSignal 18 19 = some "MEM02_CA[13]" := by
  decide +kernel

/-- The example of 09: byte 13 of a line holds 0x2C, which lies in bits [7:4] of symbols 17 and 25. -/
theorem test_symbols :
    let sym := lineSymbols ((List.replicate 64 (0 : Byte)).set 13 0x2C)
    sym.getD 17 0 = 0xC0 ∧ sym.getD 25 0 = 0x20 ∧ sym.foldl (· + ·) 0 = 0xE0 := by decide +kernel

/-- The default hash set HS_0 (Table AM-4). -/
def hs0 : List Nat := [0x201, 0x402, 0x804, 0x1008, 0x4010, 0x8020, 0x10040, 0x20080, 0x40100]

/-- The example after R197: DPA 0x4_0ABC_D5C0 lies on SUBCH_13, in bank group 7, bank 0, row 65,578 of its rank. -/
theorem test_place :
    let p := RegionTable.place ⟨[], [hs0]⟩ ⟨64, 32, 1, 0, 0, 0, 0, 0, false, false, 1024⟩ 0x40ABCD5C0
    p.1 = 13 ∧ maker.bankOf p.2 = (65578, 7, 0) ∧ bits p.2 17 13 * 64 + bits p.2 7 6 * 16 = 1968 := by decide +kernel

/-- The stream of the worked example of 03: 256 × 256 lamps, a box of 4 at scale 4. -/
def stream130 : StreamCfg :=
  { streamW 130 0 0 with mode := 2, box := 4, gridW := 256, gridH := 256, aff := [0x40000, 0, 0x8018000, 0, 0x40000, 0x4018000] }

/-- Its Gauze entry for lamp 1,797. -/
def gauze1797 : Gauze := ⟨[8000, 192, 0, 256, 7680, 64, -128, 0, 8448], [0, -16, 32], false, false, false⟩

/-- The LUT entries that the example names. -/
def lut03 (k : Nat) : Nat :=
  ([(lutKey 0 3 512, 7045), (lutKey 0 3 513, 7081), (lutKey 0 3 1025, 37084), (lutKey 0 3 2050, 199135), (lutKey 0 25 42, 8460), (lutKey 0 25 43, 8548),
    (lutKey 0 25 126, 14030), (lutKey 0 25 127, 14080), (lutKey 0 25 667, 28770), (lutKey 0 25 668, 28793)].lookup k).getD 0

/-- The worked example of 03: where lamp 1,797 samples, its linear values, and its output. -/
theorem test_lamp :
    stream130.pos 1797 0 0 = (0x8158000, 0x41D8000) ∧ (stream130.fetches 0x8158000 0x41D8000).head? = some (2068, 1052) ∧
    stream130.combine 0x8158000 0x41D8000 (List.replicate 16 2050) = 32800 ∧
    [32800, 16400, 8200].map (fun x => (linearise lut03 0 3 12 x).1) = [199135, 37084, 7063] ∧
    [0, 1, 2].map (fun c => (outComponent lut03 0 9 0x7000 c gauze1797 [199135, 37084, 7063]).1) = [28785, 14044, 8483] ∧
    [28785, 14044, 8483].map (ditherTo { stream130 with format := 1, dither := 1 } false 1797 0 0) = [1799, 878, 530] := by decide +kernel

/-- The calendar example of 12. -/
theorem test_calendar :
    let at3 := fun y m d => sets [(F.TB_SET_DATE.YEAR, y), (F.TB_SET_DATE.MONTH, m), (F.TB_SET_DATE.DAY, d)] maker
    dayNumber 2100 2 28 = 47540 ∧ dayNumber 2100 3 1 = 47541 ∧ dayNumber 2000 2 29 = 11016 ∧ (at3 2100 2 29).setResult = 3 ∧ (at3 2000 2 29).setResult = 0 ∧
      (at3 1900 2 29).setResult = 1 ∧ (at3 2100 3 1).setSeconds = 4107542400 + (at3 2100 3 1).utcOffset := by decide +kernel

/-- The hold-up example of 13: C_HOLD is 680 µF and V_PFW 11,400 mV; V_REC is at least v_min, 7,506 mV. -/
theorem test_hold_up :
    let s := (sets [(F.PS_HOLDUP.C_HOLD, 680), (F.PS_RAIL_n_WIN.UV 0, 11400)] maker).holdUp
    s.rd F.PS_HOLDUP.DLY_USED = 50 ∧ s.rd F.PS_HOLDUP.HOLDUP_LOW = 0 ∧ s.pwr.vrec = 8000 ∧ isqrt (49000000 + 5000000000 / 680) = 7506 := by decide +kernel

/-- The example of 04: pixels 2,060 to 2,069 of row 1,053 of source 3 stand in the line at this offset. -/
theorem test_window_offset : bits 0x1883A3380 34 31 = 3 ∧ bits 0x1883A3380 30 17 = 1053 ∧ bits 0x1883A3380 16 6 = 206 := by decide
end Sys2Proof.Tests
end

section
/-! SUPPORT. Registers that stay listed: a write of one register never makes another one that is listed unlisted, and a write of a value other than the
power-on value reads back, whatever the order of the register list. -/
namespace Sys2Proof.Machine

theorem Sparse.find_del_of_some {α : Type} {m : Sparse α} {j k : Nat} {x : α} (h : Sparse.find m j = some x) (hk : j ≠ k) :
    Sparse.find (Sparse.del m k) j = some x := by
  induction m with
  | nil => exact h
  | cons p t ih =>
    obtain ⟨a, v⟩ := p
    unfold Sparse.del
    by_cases ha : a = j
    · subst ha
      rw [if_neg hk]
      split <;> simpa [Sparse.find] using h
    · have hj : ¬ j < a := fun hlt => by simp [Sparse.find, ha, hlt] at h
      have ht : Sparse.find t j = some x := by simpa [Sparse.find, ha, hj] using h
      split
      · exact ht
      · split
        · exact h
        · simpa [Sparse.find, ha, hj] using ih ht

theorem Sparse.find_put_of_some {α : Type} [DecidableEq α] {d : Nat → α} {m : Sparse α} {j k : Nat} {x : α} (v : α)
    (h : Sparse.find m j = some x) (hk : j ≠ k) : Sparse.find (Sparse.put d m k v) j = some x := by
  unfold Sparse.put
  split
  · exact Sparse.find_del_of_some h hk
  · rw [Sparse.find_ins, if_neg hk, h]

/-- The register file lists a key with a word. -/
def State.Lists (s : State) (k : Nat) (w : Word) : Prop := Sparse.find s.regs k = some w

variable {s t : State} {k : Nat} {w : Word}

theorem State.Lists.word_eq (h : s.Lists k w) : s.word k = w := by
  unfold State.word Sparse.get
  rw [h, Option.getD_some]

theorem State.Lists.of_regs_eq (h : s.Lists k w) (e : t.regs = s.regs) : t.Lists k w := by
  unfold State.Lists
  rw [e, h]

/-- A word other than the power-on value of its key can only be one that is listed. -/
theorem State.lists_of_word_ne (h : s.word k ≠ regPowerOn k) : s.Lists k (s.word k) := by
  unfold State.Lists State.word Sparse.get at *
  cases e : Sparse.find s.regs k with
  | none => simp [e] at h
  | some x => rfl

theorem State.Lists.setWord (h : s.Lists k w) {j : Nat} (v : Word) (hj : k ≠ j) : (s.setWord j v).Lists k w :=
  Sparse.find_put_of_some v h hj

theorem State.Lists.wr (h : s.Lists k w) {f : Fld} (v : Nat) (hf : k ≠ f.a) : (s.wr f v).Lists k w := h.setWord _ hf

theorem State.Lists.raise (h : s.Lists k w) (y : Half) (src kind detail extra : Nat) : (s.raise y src kind detail extra).Lists k w := by
  refine h.of_regs_eq ?_
  unfold State.raise
  split
  · rfl
  · exact State.modFc_regs _ _ _

theorem State.Lists.audit (h : s.Lists k w) (role path kind target old new : Nat) (split : Bool) (hk : k ≠ F.MG_AUDIT_STAT.SEQ.a) :
    (s.audit role path kind target old new split).Lists k w := by
  unfold State.audit
  dsimp only
  split
  · exact h.of_regs_eq rfl
  · exact State.Lists.wr (h.of_regs_eq rfl) _ hk

/-- A word other than the power-on value reads back, and no other word changes. -/
theorem State.word_setWord_of_ne (s : State) (j : Nat) (hw : w ≠ regPowerOn k) : (s.setWord k w).word j = if j = k then w else s.word j := by
  unfold State.word State.setWord Sparse.get Sparse.put
  rw [if_neg hw, Sparse.find_ins]
  split <;> rfl

theorem State.lists_setWord_of_ne (s : State) (hw : w ≠ regPowerOn k) : (s.setWord k w).Lists k w := by
  have e : (s.setWord k w).word k = w := by rw [s.word_setWord_of_ne k hw, if_pos rfl]
  have h := State.lists_of_word_ne (s := s.setWord k w) (k := k) (by rwa [e])
  rwa [e] at h

/-- Fields of different blocks stand in different words. -/
theorem Fld.a_ne_of_blk_ne {f g : Fld} (h : f.blk ≠ g.blk) : f.a ≠ g.a := fun e =>
  h (Option.some.inj (by rw [← blockOf_fld f, ← blockOf_fld g, e]))

/-- Every path's copy of a register has the same power-on value. -/
theorem regPowerOn_on (f : Fld) (p : Path) : regPowerOn (f.on p).a = regPowerOn (f.on .spi).a := by
  have h : (f.on p).a % 0x1000000 = (f.on .spi).a % 0x1000000 := (Nat.add_mul_mod_self_left _ _ _).trans (Nat.add_mul_mod_self_left _ _ _).symm
  unfold regPowerOn
  rw [h]

theorem setBits_ne_zero {v : Word} {hi lo x : Nat} (hl : lo ≤ hi) (hh : hi < 32) (hx : x % 2 ^ (hi + 1 - lo) ≠ 0) : setBits v hi lo x ≠ 0 := fun e => by
  have h := bits_setBits v hi lo x hl hh
  rw [e] at h
  exact hx (by simpa [bits] using h.symm)

end Sys2Proof.Machine
end

section
/-! SUPPORT. Split mode and the schedule of a half, through updates that leave them; a write that reaches its register. -/
namespace Sys2Proof.Machine

variable {s t : State}

/-- Split mode holds through a word that is listed: WL_STATUS powers on with STATE 0. -/
theorem State.split_lists (h : s.split = true) : s.Lists F.WL_STATUS.STATE.a (s.word F.WL_STATUS.STATE.a) := by
  have h2 : s.rd F.WL_STATUS.STATE = 2 := by simpa [State.split] using h
  have h0 : bits (regPowerOn F.WL_STATUS.STATE.a).toNat F.WL_STATUS.STATE.hi F.WL_STATUS.STATE.lo = 0 := by decide +kernel
  refine State.lists_of_word_ne fun e => ?_
  rw [State.rd, e, h0] at h2
  exact absurd h2 (by decide)

theorem State.split_of_word_eq (e : t.word F.WL_STATUS.STATE.a = s.word F.WL_STATUS.STATE.a) : t.split = s.split := by
  unfold State.split State.rd
  rw [e]

/-- The half an action concerns leads, or the device is split. -/
theorem State.actHalf_leads_or_split (s : State) (p : Path) : s.actHalf p = s.leader ∨ s.split = true := by
  unfold State.actHalf
  split
  · exact Or.inr ‹_›
  · exact Or.inl rfl

theorem State.schedOf_of_same {h : Half} (hs : Part.Same .schedule s t) (hl : Part.Same .leader s t) (hx : h = s.leader ∨ s.split = true)
    (hm : s.split = true → t.split = true) : t.schedOf h = s.schedOf h := by
  obtain ⟨h1, h2⟩ := Prod.mk.inj hs
  have hl' : t.leader = s.leader := hl
  unfold State.schedOf
  rw [h1, h2, hl']
  rcases hx with rfl | hx
  · rw [if_pos rfl, if_pos rfl]
  · rw [hx, hm hx]

theorem State.schedOf_modSched {h : Half} (f : Sched → Sched) (hx : h = s.leader ∨ s.split = true) :
    (s.modSched h f).schedOf h = f (s.schedOf h) := by
  by_cases hl : h = s.leader
  · have e : s.modSched h f = { s with sched := f s.sched } := by simp [State.modSched, hl]
    unfold State.schedOf
    rw [e]
    exact (if_pos hl).trans (congrArg f (if_pos hl).symm)
  · have hsp := hx.resolve_left hl
    have e : s.modSched h f = { s with sched2 := some (f (s.sched2.getD s.sched)) } := by simp [State.modSched, hsp, hl]
    have hsp' : (s.modSched h f).split = true := by rw [e]; exact hsp
    unfold State.schedOf
    rw [hsp', hsp, if_neg hl, e]
    exact if_neg hl

/-- A write that reaches its register is stored, and then does what the register's bits start. -/
theorem State.gatedWrite_of_writable {p : Path} {a : Nat} (h : s.writable p a = true) (v : Nat) (act : State → State) :
    s.gatedWrite p a v true act = act (s.stored p a v) := by
  simp only [State.writable, Bool.and_eq_true, Bool.not_eq_true'] at h
  obtain ⟨⟨hb, hf⟩, hg⟩ := h
  unfold State.gatedWrite State.gatedNow
  rw [hb, hf]
  cases e : s.gate p (s.role p).role a with
  | allowed t =>
    have hr : regAt a = some t := by
      unfold State.gate at e
      split at e
      · cases e
      · split at e
        · cases e
        · split at e
          · cases e
          · split at e
            · cases e
            · rw [‹regAt a = _›, Gate.allowed.inj e]
    simp [State.stored, hr]
  | ignored => simp [e, Gate.passes] at hg
  | refused t => simp [e, Gate.passes] at hg
  | full t => simp [e, Gate.passes] at hg

end Sys2Proof.Machine
end

section
/-! PROOF. The command queue (02 R57 to R61): what a submission answers, what it leaves beside its place in the queue, and O31. -/
namespace Sys2Proof.Machine

variable {s : State}

/-! RESULT of a submission -/

/-- RESULT of the submission of an opcode by a path, with its staged operands and tick. -/
def State.cmdResult (s : State) (p : Path) (op : Nat) : Nat :=
  s.submitResult (s.schedOf (s.actHalf p)) op (s.rd (F.FS_CMD_ARG.TARGET.on p)) (s.rd (F.FS_CMD_ARG.VALUE.on p)) (s.staged p)

theorem State.cmdFault_cases (s : State) (c : Sched) (op target value : Nat) :
    s.cmdFault c op target value = 0 ∨ s.cmdFault c op target value = 3 ∨ s.cmdFault c op target value = 5 := by
  unfold State.cmdFault
  repeat' split
  all_goals simp

/-- R61: a submission to a full queue is refused, for that reason or an earlier one. -/
theorem State.two_le_submitResult {c : Sched} (h : 64 ≤ c.cmds.length) (op target value e : Nat) : 2 ≤ s.submitResult c op target value e := by
  have hf := s.cmdFault_cases c op target value
  unfold State.submitResult
  repeat' split
  all_goals omega

theorem State.submitResult_le (s : State) (c : Sched) (op target value e : Nat) : s.submitResult c op target value e ≤ 7 := by
  have hf := s.cmdFault_cases c op target value
  unfold State.submitResult
  repeat' split
  all_goals omega

/-! What a submission leaves beside its place in the queue -/

/-- Effective tick of a submission; 0 when it is refused. -/
def State.cmdEff (s : State) (p : Path) (op : Nat) : Nat :=
  if s.cmdResult p op ≤ 1 then max (s.staged p) (s.schedOf (s.actHalf p)).firstOpen else 0

/-- FS_CMD_RESULT after a submission. -/
def State.cmdAnswered (s : State) (p : Path) (op : Nat) : State :=
  let defer := if s.cmdResult p op = 1 then min (s.cmdEff p op - s.staged p) 0xFFFF else 0
  ((s.wr (F.FS_CMD_RESULT.DEFER.on p) defer).wrap (F.FS_CMD_RESULT.SEQ.on p)).wr (F.FS_CMD_RESULT.RESULT.on p) (s.cmdResult p op)

/-- The late count and message of a command put off. -/
def State.cmdLate (s : State) (p : Path) (op : Nat) : State :=
  if s.cmdResult p op = 1 then
    ((s.cmdAnswered p op).bump F.FS_EVENT_CNT.LATE_CMD).raise (s.actHalf p) 0x014 0x0D (unitForm (s.rd (F.FS_CMD_ARG.TARGET.on p)) (s.staged p)) 0
  else s.cmdAnswered p op

/-- The audit entry of a submission. -/
def State.cmdNoted (s : State) (p : Path) (op : Nat) : State :=
  let t := s.cmdLate p op
  t.audit (t.role p).role p.idx 3 (op * 65536 + s.rd (F.FS_CMD_ARG.TARGET.on p)) (s.staged p) (s.cmdEff p op) t.split

/-- A submission leaves its result, late count, message and audit entry, and takes its place in the queue when it is accepted. -/
theorem State.submit_eq (s : State) (p : Path) (op : Nat) : ∃ q : Cmd, s.submit p op =
    if s.cmdResult p op ≤ 1 then (s.cmdNoted p op).modSched (s.actHalf p) fun c => { c with cmds := c.cmds ++ [q] } else s.cmdNoted p op :=
  ⟨_, rfl⟩

theorem cmdAnswered_keeps {P : Part → Prop} (p : Path) (op : Nat) (hf : P (.regs .fs)) : Keeps P s (s.cmdAnswered p op) :=
  wr_keeps (wrap_keeps (wr_keeps (Keeps.refl s) _ _ hf) _ _ hf) _ _ hf

theorem cmdNoted_keeps {P : Part → Prop} (p : Path) (op : Nat) (hf : P (.regs .fs)) (hm : P (.regs .mg)) (ha : P .audit) (hw : P .waiting) :
    Keeps P s (s.cmdNoted p op) :=
  have h := cmdAnswered_keeps p op hf
  audit_keeps (Keeps.ite (raise_keeps (bump_keeps h _ _ hf) _ _ _ _ _) h) _ _ _ _ _ _ _

theorem cmdNoted_same_schedule (s : State) (p : Path) (op : Nat) : Part.Same .schedule s (s.cmdNoted p op) :=
  (cmdNoted_keeps (P := fun x => x ≠ .schedule) p op (by decide) (by decide) (by decide) (by decide)).frame _ (by decide)

theorem cmdNoted_same_leader (s : State) (p : Path) (op : Nat) : Part.Same .leader s (s.cmdNoted p op) :=
  (cmdNoted_keeps (P := fun x => x ≠ .leader) p op (by decide) (by decide) (by decide) (by decide)).frame _ (by decide)

/-- A register that is listed once FS_CMD_RESULT is written stays listed, but for the late count of a command put off. -/
theorem cmdNoted_lists {k : Nat} {w : Word} {p : Path} {op : Nat} (h : (s.cmdAnswered p op).Lists k w)
    (hl : s.cmdResult p op = 1 → k ≠ F.FS_EVENT_CNT.LATE_CMD.a) (ha : k ≠ F.MG_AUDIT_STAT.SEQ.a) : (s.cmdNoted p op).Lists k w := by
  refine State.Lists.audit ?_ _ _ _ _ _ _ _ ha
  unfold State.cmdLate
  split
  · exact (h.wr _ (hl ‹_›)).raise _ _ _ _ _
  · exact h

theorem cmdNoted_split (p : Path) (op : Nat) (h : s.split = true) : (s.cmdNoted p op).split = true := by
  have hf : ∀ g : Fld, g.blk = .fs → F.WL_STATUS.STATE.a ≠ g.a := fun g hg => Fld.a_ne_of_blk_ne (by rw [hg]; decide)
  have ha : (s.cmdAnswered p op).Lists F.WL_STATUS.STATE.a (s.word F.WL_STATUS.STATE.a) :=
    (((State.split_lists h).wr _ (hf _ rfl)).wr _ (hf _ rfl)).wr _ (hf _ rfl)
  rw [State.split_of_word_eq (cmdNoted_lists ha (fun _ => hf _ rfl) (Fld.a_ne_of_blk_ne (by decide))).word_eq, h]

/-- RESULT of a refusal is not the power-on value, so it reads back. -/
theorem cmdNoted_result {p : Path} {op : Nat} (h : 2 ≤ s.cmdResult p op) : (s.cmdNoted p op).rd (F.FS_CMD_RESULT.RESULT.on p) = s.cmdResult p op := by
  have hmod : s.cmdResult p op % 2 ^ (3 + 1 - 0) = s.cmdResult p op :=
    Nat.mod_eq_of_lt (lt_of_le_of_lt (s.submitResult_le _ _ _ _ _) (by decide))
  have h0 : regPowerOn (F.FS_CMD_RESULT.RESULT.on p).a = 0 := (regPowerOn_on _ p).trans (by decide +kernel)
  have hne : ∀ v : Word, setBits v 3 0 (s.cmdResult p op) ≠ regPowerOn (F.FS_CMD_RESULT.RESULT.on p).a := fun v =>
    h0 ▸ setBits_ne_zero (by decide) (by decide) (by omega)
  have hw := (cmdNoted_lists (State.lists_setWord_of_ne _ (hne _)) (fun e => absurd h (by omega))
    (Fld.a_ne_of_blk_ne (show Block.fs ≠ Block.mg by decide))).word_eq
  unfold State.rd
  rw [hw]
  exact (bits_setBits _ 3 0 _ (by decide) (by decide)).trans hmod

/-! The submission -/

theorem submit_refused {p : Path} {op : Nat} (h : 2 ≤ s.cmdResult p op) : s.submit p op = s.cmdNoted p op := by
  obtain ⟨q, hq⟩ := s.submit_eq p op
  rw [hq, if_neg (by omega)]

/-- A submission that is refused leaves the schedule and shows why. -/
theorem submit_refused_spec {p : Path} {op : Nat} (h : 2 ≤ s.cmdResult p op) :
    (s.submit p op).rd (F.FS_CMD_RESULT.RESULT.on p) = s.cmdResult p op ∧ Part.Same .schedule s (s.submit p op) := by
  rw [submit_refused h]
  exact ⟨cmdNoted_result h, cmdNoted_same_schedule s p op⟩

theorem cmdNoted_schedOf (s : State) (p : Path) (op : Nat) : (s.cmdNoted p op).schedOf (s.actHalf p) = s.schedOf (s.actHalf p) :=
  State.schedOf_of_same (cmdNoted_same_schedule s p op) (cmdNoted_same_leader s p op) (s.actHalf_leads_or_split p) (cmdNoted_split p op)

/-- A submission that is accepted adds one command to the queue. -/
theorem submit_accepted_cmds {p : Path} {op : Nat} (h : s.cmdResult p op ≤ 1) :
    ∃ q, ((s.submit p op).schedOf (s.actHalf p)).cmds = (s.schedOf (s.actHalf p)).cmds ++ [q] := by
  obtain ⟨q, hq⟩ := s.submit_eq p op
  have hl : (s.cmdNoted p op).leader = s.leader := cmdNoted_same_leader s p op
  have hx : s.actHalf p = (s.cmdNoted p op).leader ∨ (s.cmdNoted p op).split = true := by
    rw [hl]
    exact (s.actHalf_leads_or_split p).imp_right (cmdNoted_split p op)
  refine ⟨q, ?_⟩
  rw [hq, if_pos h, State.schedOf_modSched _ hx, cmdNoted_schedOf]

/-- R61: a queue within 64 commands stays within 64. -/
theorem submit_queue_le {p : Path} {op : Nat} (h : (s.schedOf (s.actHalf p)).cmds.length ≤ 64) :
    ((s.submit p op).schedOf (s.actHalf p)).cmds.length ≤ 64 := by
  by_cases hr : s.cmdResult p op ≤ 1
  · obtain ⟨q, hq⟩ := submit_accepted_cmds hr
    have hroom : ¬ 64 ≤ (s.schedOf (s.actHalf p)).cmds.length := fun hfull =>
      absurd (State.two_le_submitResult hfull _ _ _ _) (Nat.not_le.2 (Nat.lt_succ_of_le hr))
    rw [hq, List.length_append, List.length_singleton]
    omega
  · rwa [submit_refused (by omega), cmdNoted_schedOf]

/-! The write of FS_CMD_OP -/

theorem regAt_cmdOp : regAt 0x6000B = some ⟨0x6000B, [], 1, .shared, [⟨3, 0, .rwl, 0, false⟩]⟩ := by decide +kernel

/-- Storing the opcode of a command writes FS_CMD_OP. -/
theorem stored_cmdOp (s : State) (p : Path) (op : Nat) : s.stored p 0x6000B op = s.setWord 0x6000B (setBits (s.word 0x6000B) 3 0 (bits op 3 0)) := by
  unfold State.stored
  rw [regAt_cmdOp]
  rfl

/-- Storing the opcode of a command leaves split mode: the word stored is not the power-on value. -/
theorem stored_cmdOp_split (p : Path) {op : Nat} (h0 : 0 < op) (h16 : op < 16) : (s.stored p 0x6000B op).split = s.split := by
  have hp : regPowerOn 0x6000B = 0 := by decide +kernel
  have hne : setBits (s.word 0x6000B) 3 0 (bits op 3 0) ≠ regPowerOn 0x6000B :=
    hp ▸ setBits_ne_zero (by decide) (by decide) (by simp [bits]; omega)
  refine State.split_of_word_eq ?_
  rw [stored_cmdOp, s.word_setWord_of_ne _ hne, if_neg (by decide)]

theorem stored_cmdOp_same_schedule (s : State) (p : Path) (op : Nat) : Part.Same .schedule s (s.stored p 0x6000B op) := by
  rw [stored_cmdOp]
  rfl

theorem stored_cmdOp_same_leader (s : State) (p : Path) (op : Nat) : Part.Same .leader s (s.stored p 0x6000B op) := by
  rw [stored_cmdOp]
  rfl

theorem stored_cmdOp_actHalf (p : Path) {op : Nat} (h0 : 0 < op) (h16 : op < 16) : (s.stored p 0x6000B op).actHalf p = s.actHalf p := by
  have hl : (s.stored p 0x6000B op).leader = s.leader := stored_cmdOp_same_leader s p op
  unfold State.actHalf State.pathHalf
  rw [stored_cmdOp_split p h0 h16, hl]

theorem stored_cmdOp_schedOf (p : Path) {op : Nat} (h0 : 0 < op) (h16 : op < 16) :
    (s.stored p 0x6000B op).schedOf (s.actHalf p) = s.schedOf (s.actHalf p) :=
  State.schedOf_of_same (stored_cmdOp_same_schedule s p op) (stored_cmdOp_same_leader s p op) (s.actHalf_leads_or_split p)
    (stored_cmdOp_split p h0 h16).trans

/-- The commands of Table FS-4 are the opcodes 1 to 7, submitted by a write of FS_CMD_OP. -/
theorem exec_command {p : Path} {c : Instr} (s : State)
    (h : c ∈ [Instr.freeze p, .release p, .setDelay p, .setGain p, .streamOn p, .streamOff p, .switchLast p]) :
    ∃ op, 0 < op ∧ op < 16 ∧ exec c s = .next (opCommand p op s) := by
  simp only [List.mem_cons, List.not_mem_nil, or_false] at h
  rcases h with rfl | rfl | rfl | rfl | rfl | rfl | rfl
  · exact ⟨1, by decide, by decide, exec_freeze p s⟩
  · exact ⟨2, by decide, by decide, exec_release p s⟩
  · exact ⟨3, by decide, by decide, exec_setDelay p s⟩
  · exact ⟨4, by decide, by decide, exec_setGain p s⟩
  · exact ⟨5, by decide, by decide, exec_streamOn p s⟩
  · exact ⟨6, by decide, by decide, exec_streamOff p s⟩
  · exact ⟨7, by decide, by decide, exec_switchLast p s⟩

/-- Settles O31: a full queue answers with a refusal (`State.two_le_submitResult`), and only an accepted command takes a place. -/
theorem commandQueueOf64 : Obligations.CommandQueueOf64 := by
  intro p s hw c hc hlen
  obtain ⟨op, h0, h16, he⟩ := exec_command s hc
  have hsub : opCommand p op s = (s.stored p 0x6000B op).submit p op := State.gatedWrite_of_writable hw op _
  have hact := stored_cmdOp_actHalf (s := s) p h0 h16
  rw [← stored_cmdOp_schedOf p h0 h16, ← hact] at hlen ⊢
  refine ⟨_, he.trans (congrArg _ hsub), submit_queue_le hlen, fun hfull => ?_⟩
  have hr : 2 ≤ (s.stored p 0x6000B op).cmdResult p op := State.two_le_submitResult hfull.ge _ _ _ _
  obtain ⟨hres, hkept⟩ := submit_refused_spec hr
  exact ⟨hres ▸ hr, Eq.trans hkept (stored_cmdOp_same_schedule s p op)⟩

end Sys2Proof.Machine
end

section
/-! PROOF. The LUT banks at power-on and across warm resets (03 R87): what leaves the stored entries alone, and O34. -/
namespace Sys2Proof.Machine

variable {s t : State}

/-! Reading an entry -/

theorem State.lutAt_of_le_eq (h : t.le = s.le) (k : Nat) : t.lutAt k = s.lutAt k := by
  unfold State.lutAt
  rw [h]

/-- With no entry stored, every entry reads as the identity curves. -/
theorem State.lutAt_of_lut_nil (h : s.le.lut = []) (k : Nat) : s.lutAt k = lutIdentity k := by
  unfold State.lutAt
  rw [h]
  rfl

/-- The identity curves of R87, by table and entry. -/
theorem lutIdentity_lutKey (bank : Nat) {table x : Nat} (ht : table < 80) (hx : x ≤ 4096) :
    lutIdentity (lutKey bank table x) = if table < 16 then min (256 * x) 1048575 else min (16 * x) 65535 := by
  have hentry : lutKey bank table x % 2 ^ 13 = x := by unfold lutKey; omega
  have htable : lutKey bank table x / 2 ^ 13 % 2 ^ 7 = table := by unfold lutKey; omega
  simp only [lutIdentity, hentry, htable]

/-- A command whose footprint leaves out the lamp engines changes no entry. -/
theorem exec_lutAt {i : Instr} (h : exec i s = .next t) (hi : Part.lamps ∉ footprint i) (k : Nat) : t.lutAt k = s.lutAt k :=
  State.lutAt_of_le_eq ((exec_keeps i s t h).frame .lamps hi) k

/-! The fatal state, which a start with no valid firmware bank enters (R436): engines and rings stop, the stored entries stay -/

/-- Every part of the state but the lamp engines: what a function that leaves them alone may change. -/
abbrev OffLamps (x : Part) : Prop := x ≠ .lamps

theorem Keeps.le_eq (h : Keeps OffLamps s t) : t.le = s.le := h.frame .lamps fun hne => hne rfl

/-- A fold of a function that writes no entry writes none. -/
theorem foldl_lut {α : Type} {g : State → α → State} (hg : ∀ s a, (g s a).le.lut = s.le.lut) (l : List α) (s : State) :
    (l.foldl g s).le.lut = s.le.lut := by
  induction l generalizing s with
  | nil => rfl
  | cons a l ih => exact (ih (g s a)).trans (hg s a)

@[simp] theorem State.modEng_lut (s : State) (e : Nat) (f : Engine → Engine) : (s.modEng e f).le.lut = s.le.lut := rfl

@[simp] theorem State.modRing_lut (s : State) (r : Nat) (f : Ring → Ring) : (s.modRing r f).le.lut = s.le.lut := rfl

@[simp] theorem State.wr_le (s : State) (f : Fld) (v : Nat) : (s.wr f v).le = s.le := s.setWord_le _ _

@[simp] theorem State.modSub_le (s : State) (n : Nat) (f : Sub → Sub) : (s.modSub n f).le = s.le := s.modDm_le _

@[simp] theorem State.modMh_le (s : State) (h : Half) (f : MemHalf → MemHalf) : (s.modMh h f).le = s.le := s.modDm_le _

theorem stopLamps_lut (s : State) (h : Half) : (s.stopLamps h).le.lut = s.le.lut := by
  unfold State.stopLamps
  dsimp only
  rw [foldl_lut fun s r => State.modRing_lut s r _, State.modMh_le, foldl_lut]
  intro s i
  split
  · rw [State.wr_le, State.wr_le, State.modEng_lut]
  · rw [State.wr_le, State.wr_le, State.wr_le, State.modEng_lut]

theorem engineLine_lut (s : State) (e epoch line : Nat) (d : Option LineData) (degraded : Bool) :
    (s.engineLine e epoch line d degraded).le.lut = s.le.lut := by
  unfold State.engineLine
  split
  · rfl
  · exact State.modEng_lut s e _

theorem deliver_lut (s : State) (r : Reader) (line : Nat) (o : LineOut) (degraded : Bool) : (s.deliver r line o degraded).le.lut = s.le.lut := by
  have hrefl : Keeps OffLamps s s := Keeps.refl s
  cases r with
  | host h id =>
    exact congrArg Lamps.lut (hostLine_keeps hrefl h id o (by decide) (by decide) (by decide) (by decide) (by decide) (by decide) (by decide)).le_eq
  | engine e ep => exact engineLine_lut s e ep line o.data? degraded
  | window h =>
    dsimp only [State.deliver]
    split
    · rw [State.modHead_le]
    · rfl
  | copy h id =>
    exact congrArg Lamps.lut (copyArrives_keeps hrefl h id line o (by decide) (by decide) (by decide) (by decide) (by decide) (by decide)).le_eq
  | scrub pass n sa l moved =>
    exact congrArg Lamps.lut (scrubArrives_keeps hrefl pass n sa l moved o (by decide) (by decide) (by decide) (by decide)).le_eq

theorem poisonReads_lut (s : State) (n : Nat) (which : Reader → Bool) : (s.poisonReads n which).le.lut = s.le.lut := by
  have hgo : ∀ (dpa : Option Nat) (l : List Reader) (s : State), (l.foldl (fun s r => s.deliver r (dpaLine dpa) .poison true) s).le.lut = s.le.lut :=
    fun dpa => foldl_lut fun s r => deliver_lut s r _ _ _
  unfold State.poisonReads
  dsimp only
  rw [foldl_lut fun s f => hgo _ _ s, foldl_lut fun s w => hgo _ _ s, foldl_lut fun s e => foldl_lut (fun s l => hgo _ _ s) _ s, State.modSub_le]

/-! What a half does beside stopping its lamp work and answering its reads leaves the lamp engines as they are. -/

@[simp] theorem fsIdle_le (s : State) (h : Half) : (s.fsIdle h).le = s.le :=
  (fsIdle_keeps (Keeps.refl s) h (by decide) (by decide) (by decide)).le_eq

@[simp] theorem fatalHead_le (s : State) (n : Nat) : (s.fatalHead n).le = s.le :=
  (fatalHead_keeps (Keeps.refl s) n (by decide) (by decide) (by decide) (by decide)).le_eq

@[simp] theorem freezeCopies_le (s : State) (h : Half) : (s.freezeCopies h).le = s.le :=
  (freezeCopies_keeps (Keeps.refl s) h (by decide)).le_eq

@[simp] theorem endScrub_le (s : State) (result : Nat) : (s.endScrub result).le = s.le :=
  (endScrub_keeps (Keeps.refl s) result (by decide) (by decide)).le_eq

@[simp] theorem stopServices_le (s : State) (h : Half) : (s.stopServices h).le = s.le :=
  (stopServices_keeps (Keeps.refl s) h (by decide) (by decide)).le_eq

@[simp] theorem noteCredits_le (s : State) (n : Nat) : (s.noteCredits n).le = s.le :=
  (noteCredits_keeps (Keeps.refl s) n (by decide) (by decide)).le_eq

@[simp] theorem selfRefreshHalf_le (s : State) (h : Half) : (s.selfRefreshHalf h).le = s.le :=
  (selfRefreshHalf_keeps (Keeps.refl s) h (by decide) (by decide) (by decide)).le_eq

@[simp] theorem mediaError_le (s : State) (h : Half) : (s.mediaError h).le = s.le :=
  (mediaError_keeps (Keeps.refl s) h (by decide)).le_eq

@[simp] theorem checkEyelet_le (s : State) : s.checkEyelet.le = s.le :=
  (checkEyelet_keeps (Keeps.refl s) (by decide) (by decide)).le_eq

@[simp] theorem raise_le (s : State) (h : Half) (src kind detail extra : Nat) : (s.raise h src kind detail extra).le = s.le :=
  (raise_keeps (Keeps.refl s) h src kind detail extra (by decide)).le_eq

@[simp] theorem boot_le (s : State) : s.boot.le = s.le :=
  (boot_keeps (Keeps.refl s) (by decide) (by decide) (by decide) (by decide) (by decide)).le_eq

@[simp] theorem blankNext_le (s : State) : s.blankNext.le = s.le :=
  (blankNext_keeps (Keeps.refl s) (by decide)).le_eq

/-- A half that enters the fatal state stops its engines and answers its reads; neither writes an entry. -/
theorem fatalHalf_lut (s : State) (h : Half) : (s.fatalHalf h).le.lut = s.le.lut := by
  have hheads (s : State) : ((halfHeads h).foldl State.fatalHead s).le.lut = s.le.lut := foldl_lut (fun s n => by rw [fatalHead_le]) _ s
  have hcredits (s : State) : ((halfHeads h).foldl State.noteCredits s).le.lut = s.le.lut := foldl_lut (fun s n => by rw [noteCredits_le]) _ s
  unfold State.fatalHalf
  simp only [mediaError_le, selfRefreshHalf_le, hcredits, State.modMh_le, stopServices_le]
  rw [foldl_lut fun s n => (congrArg Lamps.lut (State.modSub_le _ n _)).trans (poisonReads_lut s n _)]
  simp only [endScrub_le, freezeCopies_le, hheads, fsIdle_le, stopLamps_lut, State.modFc_le]

theorem enterFatal_lut (s : State) (h : Half) : (s.enterFatal h).le.lut = s.le.lut := by
  unfold State.enterFatal
  split
  · rfl
  · rw [checkEyelet_le]
    split
    · rw [raise_le, fatalHalf_lut, fatalHalf_lut]
    · exact fatalHalf_lut s h

/-! The start -/

theorem bootStart_lut (s : State) : s.bootStart.le.lut = s.le.lut := by
  unfold State.bootStart
  dsimp only
  split
  · rw [blankNext_le, boot_le]
  · rw [enterFatal_lut, blankNext_le, boot_le]

/-- The AUX domain comes up with no entry stored, whether firmware boots or the device enters the fatal state. -/
theorem auxStart_lut (s : State) (testEn : Bool) : (s.auxStart testEn).le.lut = [] := by
  unfold State.auxStart
  dsimp only
  split
  · rfl
  · exact bootStart_lut _

theorem auxUp_lut (testEn : Bool) (h : s.pwr.aux = false) : (auxUp testEn s).le.lut = [] := by
  rw [auxUp, h, if_neg Bool.false_ne_true, auxStart_lut]

/-- The warm resets complete, and their footprints leave out the lamp engines. -/
theorem warmReset_next {i : Instr} (s : State)
    (h : i ∈ [Instr.warmReset, .shortPress, .watchdogExpiry .a, .watchdogExpiry .b] ∨ ∃ p, i = .warmResetWrite p) :
    (∃ t, exec i s = .next t) ∧ Part.lamps ∉ footprint i := by
  simp only [List.mem_cons, List.not_mem_nil, or_false] at h
  rcases h with (rfl | rfl | rfl | rfl) | ⟨p, rfl⟩
  · exact ⟨⟨_, exec_warmReset s⟩, by decide⟩
  · exact ⟨⟨_, exec_shortPress s⟩, by decide⟩
  · exact ⟨⟨_, exec_watchdogExpiry .a s⟩, by decide⟩
  · exact ⟨⟨_, exec_watchdogExpiry .b s⟩, by decide⟩
  · exact ⟨⟨_, exec_warmResetWrite p s⟩, show Part.lamps ∉ [.roles, .audit, .manage, .waiting, .access, .draws] ++ allRegs by decide⟩

/-- Settles O34: a start stores no entry (`auxStart_lut`), so the identity curves show, and a warm reset's footprint leaves out the lamp engines. -/
theorem lutAtPowerOn : Obligations.LutAtPowerOn := by
  refine ⟨fun bank table x _ ht hx => ?_, fun s i hi => ?_⟩
  · have hid := lutIdentity_lutKey bank ht hx
    exact ⟨(State.lutAt_of_lut_nil rfl _).trans hid, fun testEn s haux =>
      ⟨_, exec_auxUp testEn s, (State.lutAt_of_lut_nil (auxUp_lut testEn haux) _).trans hid⟩⟩
  · obtain ⟨⟨t, ht⟩, hlamps⟩ := warmReset_next s hi
    exact ⟨t, ht, exec_lutAt ht hlamps⟩

end Sys2Proof.Machine
end

section
/-! PROOF. What completing a mailbox command sends (05 R168, R183), and O44: Get Ring Status of a bad range (R492). -/
namespace Sys2Proof.Machine

/-- Raising a vector sends one message of that vector, or none: a masked vector or a link out of L0 only becomes pending (R182, R183). -/
theorem State.msix_out (s : State) (h v : Nat) : ∃ o, (s.msix h v).out = s.out ++ o ∧ ∀ x ∈ o, ∃ a d, x = .msix h v a d := by
  unfold State.msix
  dsimp only
  split
  · split
    · exact ⟨[], (List.append_nil _).symm, by simp⟩
    · exact ⟨[.msix h v _ _], State.emit_out s _, by simp⟩
  · exact ⟨[], (List.append_nil _).symm, by simp⟩

/-- A completed command sends its return code and payload, and behind them nothing but messages of vector 0 (R168). -/
theorem State.complete_out (s : State) (h code : Nat) (payload : List Byte) :
    ∃ o, (s.complete h code payload).out = s.out ++ .mailbox h code payload :: o ∧ ∀ x ∈ o, ∃ a d, x = .msix h 0 a d := by
  obtain ⟨o, hout, hmsg⟩ :=
    ((s.modHead h fun x => { x with mbox := some (code, payload) }).emit (.mailbox h code payload)).msix_out h 0
  refine ⟨o, ?_, hmsg⟩
  rw [State.complete, hout, State.emit_out, State.modHead_out, List.append_assoc, List.singleton_append]

theorem State.mailbox_of_served {s : State} {h : Nat} (hs : s.mailboxServed h = true) (act : State → State) : s.mailbox h act = act s :=
  if_pos hs

/-- R492: a served Get Ring Status of a bad count or range completes with Invalid Input and an empty payload. -/
theorem getRingStatus_of_bad_range {h : Fin 4} {first count : Nat} {s : State} (hs : s.mailboxServed h.val = true)
    (hbad : count = 0 ∨ 128 < count ∨ 512 < first + count) : getRingStatus h first count s = s.complete h.val rcInvalidInput [] := by
  rw [getRingStatus, State.mailbox_of_served hs, if_pos (by simpa [or_assoc] using hbad)]

/-- Settles O44: the command completes with Invalid Input and no payload (`getRingStatus_of_bad_range`), and a completion adds only vector 0. -/
theorem ringStatusInvalid : Obligations.RingStatusInvalid := by
  intro h first count s hs hbad
  obtain ⟨o, hout, hmsg⟩ := s.complete_out h.val rcInvalidInput []
  rw [← getRingStatus_of_bad_range hs hbad] at hout
  exact ⟨_, o, exec_getRingStatus h first count s, hout, hmsg⟩

end Sys2Proof.Machine
end
